-- ==== Sys2Proof/Word.lean ====
section
/-! DEFINITION. The words the TQ-4 handles as bits: bytes and 32-bit register words (R12), and the range of
numbers used for counting. Arithmetic that only counts is in Nat and Int. -/
namespace Sys2Proof

/-- A byte of memory. -/
abbrev Byte := BitVec 8

/-- A register word (R12). -/
abbrev Word := BitVec 32

/-- A die of the package, 0 to 3 (R9). -/
abbrev Die := Fin 4

end Sys2Proof
end

