-- ==== Sys2Proof/Syntax.lean ====
section
/-! DEFINITION. The commands of the block: one constructor for each row of the opcode table, with its operands, and
the data that operands are made of. -/
namespace Sys2Proof
/-- Where and when a command comes: the die, and its time base in ns (R599). -/
structure At where
  die : Die
  time : Nat
deriving DecidableEq, Repr
/-- The requester of a transaction: its ID (R440), the instance it carries, and the die or node it came from when it
came over UCIe or the fabric. -/
structure Req where
  id : Nat
  inst : Nat
  overDie : Option Nat := none
  overNode : Option Nat := none
deriving DecidableEq, Repr

/-- A packet of the fabric or the package ring (R474-R477, R571). -/
structure Packet where
  /-- type of R475 -/
  kind : Nat
  vc : Nat := 0
  lane : Nat := 0
  replayed : Bool := false
  rerouted : Bool := false
  signal : Bool := false
  dstNode : Nat := 0
  dstDie : Nat := 0
  srcNode : Nat := 0
  srcDie : Nat := 0
  inst : Nat := 0
  instGen : Nat := 0
  tag : Nat := 0
  tagGen : Nat := 0
  hops : Nat := 0
  epoch : Nat := 0
  addr : Nat := 0
  length : Nat := 0
  status : Nat := 0
  aux : Nat := 0
  body : List Byte := []
  /-- requester ID of its last arrival (R440); no part of the packet -/
  arrival : Nat := 0
deriving DecidableEq, Repr

/-- A link of the plate: package ports of two nodes, its length in 0.1 m, and the directions in which it is a
dateline: bit 0 from the first node to the second, bit 1 back (R487, R496). -/
structure PlateLink where
  nodeA : Nat
  portA : Nat
  nodeB : Nat
  portB : Nat
  length : Nat
  dateline : Nat := 0
deriving DecidableEq, Repr

/-- A parity error during an op of a tile engine, the matrix-vector path or the vector unit: none, in a weight slot or the
accumulator memory (R211), or in a byte of the input chain buffer (R303). -/
inductive Upset where
  | none
  | own
  | chain (byte : Nat)
deriving DecidableEq, Repr

/-- Topologies of R487. -/
inductive Topology where
  | chain | ring | tree | ringOfRings | custom
deriving DecidableEq, Repr

/-- What a plate holds for one die (R496). The spec gives the layouts of the table entries, and none of the section
that carries the fabric; log entry 40. Table entries are their raw bytes. -/
structure Plate where
  /-- the signed image it is part of -/
  image : List Byte := []
  epoch : Nat
  /-- 16 bytes -/
  digest : List Byte := []
  /-- frame and slice lengths in ms (R36) -/
  frameMs : Nat := 100
  sliceMs : Nat := 5
  /-- stipple tables (R71), keyed 2^20 * table + byte offset -/
  stipple : List (Nat × Byte) := []
  /-- comb target descriptors (R113), 128 bytes each -/
  combs : List (Nat × List Byte) := []
  /-- table descriptors (R336), 128 bytes; shard maps and serving lists (R337), by table -/
  tables : List (Nat × List Byte) := []
  shards : List (Nat × List Byte) := []
  serving : List (Nat × List Byte) := []
  /-- the safety block (R512), zones (R513), the model list and the proof vectors -/
  safety : List Byte := []
  zones : List (Nat × List Byte) := []
  models : List (List Byte) := []
  /-- package serials and node IDs -/
  nodes : List (Nat × Nat) := []
  links : List PlateLink := []
  /-- by node: the masks of its 8 bundles (R485) -/
  bundles : List (Nat × List Nat) := []
  topology : Topology := .chain
  /-- rings in ascending position: the ring, or the top ring and then the local rings, each from its gateway -/
  rings : List (List Nat) := []
  /-- root of a tree -/
  root : Nat := 0
  /-- custom tables (R486): key ((node * 4 + die) * 4 + table) * 4096 + destination -/
  custom : List (Nat × Nat) := []
  hopLimit : Nat := 1
  /-- one-way latency bound, µs -/
  bound : Nat := 1
deriving DecidableEq, Repr

/-- What IEEE 1588 makes of a received PTP message (R566): the grandmaster that stands elected after it, whether it
is a Sync of that grandmaster, and the offset measurement it completes, in ns. -/
structure PtpIn where
  gm : Nat
  sync : Bool
  offset : Option Int := none
deriving DecidableEq, Repr

/-- What the host has set in the configuration space of a die's endpoint (R556, R558, R560): the VFs enabled (bit n), log2 of
BAR2's size, the functions with MSI-X enabled (bit n), the masked vectors (2048 fn + vector), the secure IDE streams, and whether
one of them has failed a check. -/
structure PcieConfig where
  vfs : Nat := 0
  bar2 : Nat := 28
  msix : Nat := 0
  masked : List Nat := []
  ide : Nat := 0
  ideFailed : Bool := false
deriving DecidableEq, Repr

/-- What a primary of another package answers: the command, the die, rows applied, rows skipped, a failure's code. -/
inductive FarUpdate where
  /-- the primary die (node * 4 + die) has finished the records of command cmd of this die: rows, skipped, status code -/
  | answer (cmd die rows skipped status : Nat)
  /-- records of command cmd of die (node * 4 + die) of another package, whose primary is this die -/
  | records (die cmd inst table version shift : Nat) (sto : Bool) (seed : Nat) (recs : List (Nat × List Int))
deriving DecidableEq, Repr

/-- The commands of the block, in the table's order. The first operand says at which die and when; the meaning's own
docstring says what the others are. -/
inductive Instr where
  /-- CSR_WRITE, R15 -/
  | csrWrite (a : At) (r : Req) (block off : Nat) (v : Word)
  /-- CSR_MISALIGNED_ACCESS, R12 -/
  | csrMisalignedAccess (a : At) (r : Req) (block off size : Nat) (write : Bool)
  /-- REG64_LOW_READ, R13 -/
  | reg64LowRead (a : At) (r : Req) (block off : Nat)
  /-- REG64_HIGH_READ, R13 -/
  | reg64HighRead (a : At) (r : Req) (block off : Nat)
  /-- REG64_LOW_WRITE, R13 -/
  | reg64LowWrite (a : At) (r : Req) (block off : Nat) (v : Word)
  /-- REG64_HIGH_WRITE, R13 -/
  | reg64HighWrite (a : At) (r : Req) (block off : Nat) (v : Word)
  /-- HELD_HALF_EXPIRE, R13 -/
  | heldHalfExpire (a : At)
  /-- SELECTION_WRITE, R443 -/
  | selectionWrite (a : At) (r : Req) (block off : Nat) (v : Word)
  /-- CLEAR_COUNTERS, R623 -/
  | clearCounters (a : At) (r : Req) (block : Nat) (v : Word)
  /-- POWER_ON, R602 -/
  | powerOn (a : At) (bad : Nat) (test : Bool)
  /-- PWR_GOOD_FALL, R641 -/
  | pwrGoodFall (a : At)
  /-- PKG_RESET_ASSERT, R600 -/
  | pkgResetAssert (a : At)
  /-- PKG_RESET_RELEASE, R640 -/
  | pkgResetRelease (a : At) (bad : Nat)
  /-- GLB_PACKAGE_RESET, R605 -/
  | glbPackageReset (a : At) (r : Req) (v : Word) (bad : Nat)
  /-- BOOT_STAGE_ADVANCE, R602 -/
  | bootStageAdvance (a : At) (digestBad anchorsBad : Bool)
  /-- BOOT_READY_TIMEOUT, R603 -/
  | bootReadyTimeout (a : At)
  /-- STRAP_VALUE_RECEIVE, R27 -/
  | strapValueReceive (a : At) (position : Die)
  /-- STRAP_EXCHANGE_CLOSE, R27 -/
  | strapExchangeClose (a : At)
  /-- STRAP_LATE_ARRIVAL, R27 -/
  | strapLateArrival (a : At)
  /-- DIE_LOST, R601 -/
  | dieLost (a : At) (lost : Die)
  /-- DIE_RESET_RELEASE, R603 -/
  | dieResetRelease (a : At)
  /-- RAIL_SAMPLE, R596 -/
  | railSample (a : At) (rails : List (Nat × Nat × Nat)) (energy : Nat)
  /-- DIE_TEMP_SAMPLE, R597 -/
  | dieTempSample (a : At) (die opt0 opt1 : Option Nat)
  /-- REFCLK_LOSS, R598 -/
  | refclkLoss (a : At) (input : Nat)
  /-- ETHREF_LOSS, R598 -/
  | ethrefLoss (a : At)
  /-- SET_OP, R586 -/
  | setOp (a : At) (id : Nat)
  /-- FREQ_CHANGE_DONE, R587 -/
  | freqChangeDone (a : At) (group : Nat)
  /-- FREQ_CHANGE_TIMEOUT, R587 -/
  | freqChangeTimeout (a : At) (group : Nat)
  /-- FREQ_MONITOR_FAULT, R588 -/
  | freqMonitorFault (a : At) (island : Nat)
  /-- POWER_CLUSTER, R591 -/
  | powerCluster (a : At) (id : Nat)
  /-- POWER_SEGMENTS, R590 -/
  | powerSegments (a : At) (id : Nat)
  /-- POWER_CORE, R591 -/
  | powerCore (a : At) (id : Nat)
  /-- POWER_STATUS, R590 -/
  | powerStatus (a : At) (id : Nat)
  /-- POWER_DOWN_DRAIN_EXPIRE, R592 -/
  | powerDownDrainExpire (a : At) (unit : Nat)
  /-- POWER_DOWN_COMPLETE, R592 -/
  | powerDownComplete (a : At) (unit : Nat)
  /-- POWER_UP_COMPLETE, R593 -/
  | powerUpComplete (a : At) (unit : Nat)
  /-- CST_SEG_ON_WRITE, R167 -/
  | cstSegOnWrite (a : At) (r : Req) (cluster value : Nat)
  /-- SEGMENT_READY, R167 -/
  | segmentReady (a : At) (cluster segment : Nat)
  /-- COMMAND_PACKET_FETCH, R407 -/
  | commandPacketFetch (a : At) (rivals : List Nat)
  /-- PACKET_AGE_PROMOTE, R419 -/
  | packetAgePromote (a : At) (q : Nat)
  /-- BUDGET_REEVALUATE, R421 -/
  | budgetReevaluate (a : At)
  /-- NOP, R409 -/
  | nop (a : At) (id : Nat)
  /-- QUEUE_CREATE, R414 -/
  | queueCreate (a : At) (id : Nat) (rivals : List Nat)
  /-- QUEUE_DESTROY, R436 -/
  | queueDestroy (a : At) (id : Nat)
  /-- QUEUE_DESTROY_COMPLETE, R436 -/
  | queueDestroyComplete (a : At) (q : Nat)
  /-- QUEUE_RESET, R417 -/
  | queueReset (a : At) (id : Nat)
  /-- QUEUE_STATUS, R652 -/
  | queueStatus (a : At) (id : Nat)
  /-- QUEUE_PUSH, R417 -/
  | queuePush (a : At) (id : Nat) (rivals : List Nat)
  /-- QUEUE_POP, R417 -/
  | queuePop (a : At) (id : Nat) (rivals : List Nat)
  /-- QDB_TAIL_WRITE, R417 -/
  | qdbTailWrite (a : At) (r : Req) (q : Nat) (v : Word)
  /-- QDB_HEAD_WRITE, R417 -/
  | qdbHeadWrite (a : At) (r : Req) (q : Nat) (v : Word)
  /-- CMD_ADMIN_CFG_WRITE, R431 -/
  | cmdAdminCfgWrite (a : At) (r : Req) (v : Word)
  /-- SEAL_ALLOC, R424 -/
  | sealAlloc (a : At) (id : Nat) (rivals : List Nat)
  /-- SEAL_FREE, R424 -/
  | sealFree (a : At) (id : Nat)
  /-- SEAL_RESET, R424 -/
  | sealReset (a : At) (id : Nat)
  /-- SEAL_SIGNAL, R425 -/
  | sealSignal (a : At) (id : Nat)
  /-- SEAL_WAIT, R427 -/
  | sealWait (a : At) (id : Nat) (rivals : List Nat)
  /-- SEAL_ARM, R428 -/
  | sealArm (a : At) (id : Nat)
  /-- SEAL_QUERY, R652 -/
  | sealQuery (a : At) (id : Nat)
  /-- SEAL_SIGNAL_APPLY, R426 -/
  | sealSignalApply (a : At)
  /-- SEAL_WAIT_TIMEOUT, R427 -/
  | sealWaitTimeout (a : At)
  /-- TASK_LAUNCH, R185 -/
  | taskLaunch (a : At) (id : Nat) (rivals : List Nat)
  /-- TASK_STATUS, R184 -/
  | taskStatus (a : At) (id : Nat)
  /-- TASK_QUERY_CORE, R184 -/
  | taskQueryCore (a : At) (id : Nat)
  /-- TASK_START, R187 -/
  | taskStart (a : At) (core : Nat)
  /-- OP_DISPATCH, R191 -/
  | opDispatch (a : At) (core : Nat)
  /-- ENGINE_OP_START, R193 -/
  | engineOpStart (a : At) (core engine : Nat)
  /-- OP_COMPLETE, R193 -/
  | opComplete (a : At) (core engine : Nat)
  /-- TASK_LIMIT_EXPIRE, R201 -/
  | taskLimitExpire (a : At) (task : Nat)
  /-- OP_RERUN, R202 -/
  | opRerun (a : At) (core engine : Nat)
  /-- SEQ_NOP, R196 -/
  | seqNop (a : At) (core : Nat)
  /-- SEQ_END, R196 -/
  | seqEnd (a : At) (core : Nat)
  /-- LOOP_SET, R196 -/
  | loopSet (a : At) (core : Nat)
  /-- LOOP_BRANCH, R196 -/
  | loopBranch (a : At) (core : Nat)
  /-- SEQ_SEAL_WAIT, R197 -/
  | seqSealWait (a : At) (core : Nat)
  /-- SEQ_SEAL_SIGNAL, R197 -/
  | seqSealSignal (a : At) (core : Nat)
  /-- PATCH_SET, R196 -/
  | patchSet (a : At) (core : Nat)
  /-- PATCH_ADD, R196 -/
  | patchAdd (a : At) (core : Nat)
  /-- PATCH_LOOP, R196 -/
  | patchLoop (a : At) (core : Nat)
  /-- RESEED, R196 -/
  | reseed (a : At) (core : Nat)
  /-- SEQ_DRAIN, R196 -/
  | seqDrain (a : At) (core : Nat)
  /-- CB_ENTRY_TIMEOUT, R150 -/
  | cbEntryTimeout (a : At) (cluster : Nat)
  /-- FILL_FORCED_GRANT, R148 -/
  | fillForcedGrant (a : At) (cluster : Nat)
  /-- SCRUB_RANGE_DONE, R157 -/
  | scrubRangeDone (a : At) (cluster : Nat)
  /-- DMA_COPY, R169 -/
  | dmaCopy (a : At) (core : Nat)
  /-- DMA_GATHER, R170 -/
  | dmaGather (a : At) (core : Nat)
  /-- DMA_SCATTER, R170 -/
  | dmaScatter (a : At) (core : Nat)
  /-- DMA_TRANSPOSE, R171 -/
  | dmaTranspose (a : At) (core : Nat)
  /-- DMA_FILL, R169 -/
  | dmaFill (a : At) (core : Nat)
  /-- REMOTE_ACCESS_ARRIVE, R159 -/
  | remoteAccessArrive (a : At) (cluster srcNode srcDie : Nat) (r : Req) (off n : Nat) (data : Option (List Byte)) (mark : Bool)
  /-- RWIN_OPEN, R650 -/
  | rwinOpen (a : At) (id : Nat) (rivals : List Nat)
  /-- RWIN_CLOSE, R162 -/
  | rwinClose (a : At) (id : Nat)
  /-- RWIN_LIST, R161 -/
  | rwinList (a : At) (id : Nat)
  /-- DTE_GEMM_W, R221 -/
  | dteGemmW (a : At) (core : Nat) (upset : Upset)
  /-- DTE_GEMM_S, R222 -/
  | dteGemmS (a : At) (core : Nat) (upset : Upset)
  /-- DTE_CONV_G, R223 -/
  | dteConvG (a : At) (core : Nat) (upset : Upset)
  /-- DTE_MUL_W16, R225 -/
  | dteMulW16 (a : At) (core : Nat) (upset : Upset)
  /-- DTE_GEMM_W4, R221 -/
  | dteGemmW4 (a : At) (core : Nat) (upset : Upset)
  /-- DTE_GEMM_S4, R222 -/
  | dteGemmS4 (a : At) (core : Nat) (upset : Upset)
  /-- DTE_CONV_G4, R223 -/
  | dteConvG4 (a : At) (core : Nat) (upset : Upset)
  /-- STE_GEMM_W, R254 -/
  | steGemmW (a : At) (core : Nat) (upset : Upset)
  /-- STE_GEMM_S, R254 -/
  | steGemmS (a : At) (core : Nat) (upset : Upset)
  /-- STE_CONV_G, R254 -/
  | steConvG (a : At) (core : Nat) (upset : Upset)
  /-- STE_UNPACK, R260 -/
  | steUnpack (a : At) (core : Nat)
  /-- STE_PACK, R261 -/
  | stePack (a : At) (core : Nat) (upset : Upset)
  /-- MVP_MV, R235 -/
  | mvpMv (a : At) (core : Nat) (upset : Upset)
  /-- MVP_THIN, R235 -/
  | mvpThin (a : At) (core : Nat) (upset : Upset)
  /-- VU_ELTWISE, R305 -/
  | vuEltwise (a : At) (core : Nat) (upset : Upset)
  /-- VU_ROWMAX, R307 -/
  | vuRowmax (a : At) (core : Nat) (upset : Upset)
  /-- VU_ROWSUM, R307 -/
  | vuRowsum (a : At) (core : Nat) (upset : Upset)
  /-- VU_SOFTMAX, R308 -/
  | vuSoftmax (a : At) (core : Nat) (upset : Upset)
  /-- VU_NORM, R309 -/
  | vuNorm (a : At) (core : Nat) (upset : Upset)
  /-- SEL_TOPK, R322 -/
  | selTopk (a : At) (core : Nat) (upset : Bool) (torn : Option (Nat × Nat))
  /-- SEL_KTH, R323 -/
  | selKth (a : At) (core : Nat) (upset : Bool) (torn : Option (Nat × Nat))
  /-- SEL_UNIQUE, R326 -/
  | selUnique (a : At) (core : Nat) (upset : Bool) (torn : Option (Nat × Nat))
  /-- SEL_ORDERED_UNIQUE, R326 -/
  | selOrderedUnique (a : At) (core : Nat) (upset : Bool) (torn : Option (Nat × Nat))
  /-- SEL_SPLIT, R328 -/
  | selSplit (a : At) (core : Nat) (upset : Bool) (torn : Option (Nat × Nat))
  /-- HPU_TILE_HASH, R135 -/
  | hpuTileHash (a : At) (core : Nat)
  /-- HPU_NMAP, R137 -/
  | hpuNmap (a : At) (core : Nat)
  /-- HPU_LOWER, R134 -/
  | hpuLower (a : At) (core : Nat)
  /-- ETH_FRAME_RX, R563 -/
  | ethFrameRx (a : At) (port corr bad : Nat) (bytes : List Byte) (first : Nat) (ptp : Option PtpIn)
  /-- ETH_LINK_CHANGE, R579 -/
  | ethLinkChange (a : At) (port : Nat) (up fec fault : Bool)
  /-- PTP_SYNC_TIMEOUT, R566 -/
  | ptpSyncTimeout (a : At)
  /-- PPS_EDGE, R566 -/
  | ppsEdge (a : At) (offset : Int)
  /-- STIPPLE_PACKET_PARSE, R89 -/
  | stipplePacketParse (a : At)
  /-- STREAM_TIMEOUT, R93 -/
  | streamTimeout (a : At) (stream : Nat)
  /-- STREAM_POSE, R100 -/
  | streamPose (a : At) (id : Nat)
  /-- STIPPLE_POSE_TAKE, R87 -/
  | stipplePoseTake (a : At)
  /-- HOSTFEED_SUBMIT, R100 -/
  | hostfeedSubmit (a : At) (id : Nat)
  /-- HOSTFEED_PACKET_ADMIT, R100 -/
  | hostfeedPacketAdmit (a : At) (id : Nat)
  /-- STP_TBL_READ, R108 -/
  | stpTblRead (a : At) (r : Req) (v : Word)
  /-- STP_TBL_WRITE, R108 -/
  | stpTblWrite (a : At) (r : Req) (v : Word)
  /-- STP_REPLAY_WRITE, R101 -/
  | stpReplayWrite (a : At) (r : Req) (v : Word) (frame : Nat)
  /-- STP_FRAME_CLOSE, R101 -/
  | stpFrameClose (a : At) (r : Req) (v : Word) (frame : Nat)
  /-- STP_SLICE_CLOSE, R101 -/
  | stpSliceClose (a : At) (r : Req) (v : Word)
  /-- FRAME_BOUNDARY, R37 -/
  | frameBoundary (a : At)
  /-- SLICE_BOUNDARY, R92 -/
  | sliceBoundary (a : At)
  /-- COMB_INSERT_RECORD, R123 -/
  | combInsertRecord (a : At)
  /-- COMB_FRAME_CLOSE_MARKER, R128 -/
  | combFrameCloseMarker (a : At)
  /-- COMB_SCATTER_DONE, R128 -/
  | combScatterDone (a : At)
  /-- COMB_CLEAR_DONE, R126 -/
  | combClearDone (a : At)
  /-- COMB_BUFFERS, R116 -/
  | combBuffers (a : At) (id : Nat) (rivals : List Nat)
  /-- COMB_PUBLISH, R130 -/
  | combPublish (a : At) (id : Nat)
  /-- COMB_PUBLISH_DONE, R130 -/
  | combPublishDone (a : At)
  /-- COMB_RELEASE, R131 -/
  | combRelease (a : At) (id : Nat)
  /-- COMB_DOWNSAMPLE, R133 -/
  | combDownsample (a : At) (id : Nat)
  /-- COMB_TRILINEAR, R140 -/
  | combTrilinear (a : At) (id : Nat)
  /-- COMB_STATUS, R131 -/
  | combStatus (a : At) (id : Nat)
  /-- COMB_JOB_COMPLETE, R142 -/
  | combJobComplete (a : At)
  /-- FOE_POINT_RECORD, R515 -/
  | foePointRecord (a : At)
  /-- FOE_SLICE_CLOSE, R517 -/
  | foeSliceClose (a : At)
  /-- FOE_EVAL_DONE, R517 -/
  | foeEvalDone (a : At)
  /-- SAFETY_MERGE, R524 -/
  | safetyMerge (a : At)
  /-- RESULT_SEAL_NOTICE, R520 -/
  | resultSealNotice (a : At)
  /-- NETWORK_RESULT_RECEIVE, R521 -/
  | networkResultReceive (a : At)
  /-- DOUBT_RAISE, R527 -/
  | doubtRaise (a : At) (osc : Option Int)
  /-- DOUBT_CLEAR_TIMER, R526 -/
  | doubtClearTimer (a : At)
  /-- CP_WATCHDOG_EXPIRE, R526 -/
  | cpWatchdogExpire (a : At)
  /-- CP_RESTART_DONE, R600 -/
  | cpRestartDone (a : At)
  /-- PROOF_PASS_START, R535 -/
  | proofPassStart (a : At)
  /-- PROOF_CRC_DONE, R535 -/
  | proofCrcDone (a : At)
  /-- PROOF_WINDOW_EXPIRE, R536 -/
  | proofWindowExpire (a : At)
  /-- SAFETY_ISLAND_FAULT, R529 -/
  | safetyIslandFault (a : At)
  /-- SAFETY_ISLAND_RESTART, R529 -/
  | safetyIslandRestart (a : At)
  /-- SDO_TEST_PULSE, R541 -/
  | sdoTestPulse (a : At) (output : Nat)
  /-- SDO_PULSE_END, R541 -/
  | sdoPulseEnd (a : At) (output : Nat)
  /-- SDO_OUTPUT_FAULT, R542 -/
  | sdoOutputFault (a : At) (output : Nat) (level : Bool)
  /-- SAFETY_SERVICE_ENTER, R545 -/
  | safetyServiceEnter (a : At) (id : Nat)
  /-- SAFETY_SERVICE_EXIT, R545 -/
  | safetyServiceExit (a : At) (id : Nat)
  /-- SERVICE_MODE_EXPIRE, R545 -/
  | serviceModeExpire (a : At)
  /-- SAFETY_OUTPUT_CLEAR, R542 -/
  | safetyOutputClear (a : At) (id : Nat)
  /-- SAFETY_LATCH_CLEAR, R531 -/
  | safetyLatchClear (a : At) (id : Nat)
  /-- SAFETY_STATUS, R544 -/
  | safetyStatus (a : At) (id : Nat)
  /-- TABLE_LOAD, R360 -/
  | tableLoad (a : At) (id : Nat) (rivals : List Nat)
  /-- TABLE_LOAD_DONE, R360 -/
  | tableLoadDone (a : At) (table : Nat) (slotB : Bool) (far : List (List Byte))
  /-- TABLE_UNLOAD, R360 -/
  | tableUnload (a : At) (id : Nat)
  /-- TABLE_LOOKUP, R351 -/
  | tableLookup (a : At) (id : Nat) (rivals : List Nat)
  /-- LOOKUP_BATCH_COMPLETE, R352 -/
  | lookupBatchComplete (a : At) (id : Nat)
  /-- TABLE_PREFETCH, R359 -/
  | tablePrefetch (a : At) (id : Nat) (rivals : List Nat)
  /-- TABLE_UPDATE, R365 -/
  | tableUpdate (a : At) (id : Nat) (rivals : List Nat)
  /-- UPDATE_RECORDS_APPLY, R366 -/
  | updateRecordsApply (a : At) (far : Option FarUpdate)
  /-- TABLE_STATUS, R369 -/
  | tableStatus (a : At) (id : Nat)
  /-- DRAIN_TIMEOUT, R363 -/
  | drainTimeout (a : At) (table : Nat)
  /-- FAB_WRITE_RECEIVE, R495 -/
  | fabWriteReceive (a : At)
  /-- FAB_READ_RECEIVE, R475 -/
  | fabReadReceive (a : At)
  /-- POOL_REQ_RECEIVE, R356 -/
  | poolReqReceive (a : At)
  /-- PUSH_RECEIVE, R367 -/
  | pushReceive (a : At)
  /-- FAB_RESPONSE_RECEIVE, R494 -/
  | fabResponseReceive (a : At)
  /-- POOL_REPLY_RECEIVE, R353 -/
  | poolReplyReceive (a : At)
  /-- DRAIN_NOTICE_RECEIVE, R362 -/
  | drainNoticeReceive (a : At)
  /-- PLATE_PACKET_RECEIVE, R501 -/
  | platePacketReceive (a : At)
  /-- FAB_PACKET_FORWARD, R486 -/
  | fabPacketForward (a : At)
  /-- FEC_FRAME_RECEIVE, R471 -/
  | fecFrameReceive (a : At) (port corrected bad word : Nat) (flits : List (List Byte))
  /-- PORT_LIGHT_DETECT, R472 -/
  | portLightDetect (a : At) (port : Nat) (rx tx : Int)
  /-- PORT_TRAINING_DONE, R472 -/
  | portTrainingDone (a : At) (port : Nat)
  /-- PORT_TRAINING_TIMEOUT, R472 -/
  | portTrainingTimeout (a : At) (port : Nat)
  /-- PORT_FAIL, R492 -/
  | portFail (a : At) (port cause : Nat)
  /-- PORT_UP_HOLD_EXPIRE, R473 -/
  | portUpHoldExpire (a : At) (port : Nat)
  /-- WAGGLE_SEND, R482 -/
  | waggleSend (a : At) (port : Nat)
  /-- WAGGLE_RECEIVE, R500 -/
  | waggleReceive (a : At) (port : Nat) (rx : Int)
  /-- TAG_TIMEOUT, R494 -/
  | tagTimeout (a : At) (tag : Nat)
  /-- PLATE_STAGE, R497 -/
  | plateStage (a : At) (id : Nat)
  /-- PLATE_SWITCH, R498 -/
  | plateSwitch (a : At) (id : Nat)
  /-- PLATE_SWITCH_AT_T, R498 -/
  | plateSwitchAtT (a : At)
  /-- PLATE_ABORT, R498 -/
  | plateAbort (a : At) (id : Nat)
  /-- PLATE_STATUS, R503 -/
  | plateStatus (a : At) (id : Nat)
  /-- PORT_STATUS, R503 -/
  | portStatus (a : At) (id : Nat)
  /-- PORT_ENABLE, R503 -/
  | portEnable (a : At) (id : Nat)
  /-- FAB_PORT_RETRAIN, R509 -/
  | fabPortRetrain (a : At) (r : Req) (v : Word)
  /-- PLATE_PULL_TIMEOUT, R501 -/
  | platePullTimeout (a : At)
  /-- PLATE_PULL_DONE, R501 -/
  | platePullDone (a : At)
  /-- LINK_INJECT, R504 -/
  | linkInject (a : At) (id : Nat) (rivals : List Nat)
  /-- LINK_INJECT_STOP, R504 -/
  | linkInjectStop (a : At) (id : Nat)
  /-- INJECTION_EXPIRE, R628 -/
  | injectionExpire (a : At)
  /-- D2D_PACKET_RECEIVE, R571 -/
  | d2dPacketReceive (a : At) (m : Nat)
  /-- UCIE_MODULE_FAIL, R572 -/
  | ucieModuleFail (a : At) (m cause : Nat)
  /-- UCIE_HEARTBEAT_SEND, R570 -/
  | ucieHeartbeatSend (a : At) (m : Nat)
  /-- UCIE_HOLD_EXPIRE, R572 -/
  | ucieHoldExpire (a : At) (m : Nat)
  /-- D2D_REQUEST_TIMEOUT, R572 -/
  | d2dRequestTimeout (a : At) (tag : Nat)
  /-- D2D_RETRAIN, R581 -/
  | d2dRetrain (a : At) (r : Req) (v : Word)
  /-- PCIE_APERTURE_ACCESS, R557 -/
  | pcieApertureAccess (a : At) (fn off n : Nat) (data : Option (List Byte))
  /-- FLR_RECEIVE, R559 -/
  | flrReceive (a : At) (fn : Nat)
  /-- PERST_ASSERT, R559 -/
  | perstAssert (a : At)
  /-- PERST_DEASSERT, R561 -/
  | perstDeassert (a : At)
  /-- PCIE_LINK_CHANGE, R559 -/
  | pcieLinkChange (a : At) (up : Bool) (link : Nat) (cfg : PcieConfig)
  /-- ATS_INVALIDATION, R560 -/
  | atsInvalidation (a : At)
  /-- I3C_INDEX_WRITE, R575 -/
  | i3cIndexWrite (a : At) (index : Byte)
  /-- HBM_TRAINING_DONE, R397 -/
  | hbmTrainingDone (a : At) (stack : Nat) (ok : Bool)
  /-- HBM_REQUEST_AGED, R383 -/
  | hbmRequestAged (a : At)
  /-- PATROL_SCRUB_READ, R393 -/
  | patrolScrubRead (a : At) (stack : Nat)
  /-- HBM_SCRUB_RESTART, R400 -/
  | hbmScrubRestart (a : At) (r : Req) (stack : Nat) (v : Word)
  /-- HBM_TEMP_SAMPLE, R394 -/
  | hbmTempSample (a : At) (stack : Nat) (reading : Option Nat)
  /-- INS_COMMIT, R438 -/
  | insCommit (a : At) (r : Req) (v : Word)
  /-- INSTANCE_RESET, R450 -/
  | instanceReset (a : At) (r : Req) (v : Word)
  /-- INSTANCE_RESET_COMPLETE, R450 -/
  | instanceResetComplete (a : At) (inst : Nat)
  /-- REGION_SCRUB_DONE, R452 -/
  | regionScrubDone (a : At) (inst index : Nat)
  /-- ROL_NONCE_READ, R457 -/
  | rolNonceRead (a : At) (r : Req)
  /-- ROL_AUTH_OPEN, R458 -/
  | rolAuthOpen (a : At) (r : Req) (v : Word)
  /-- SESSION_AUTH_DONE, R458 -/
  | sessionAuthDone (a : At) (req : Nat)
  /-- ROL_AUTH_END, R459 -/
  | rolAuthEnd (a : At) (r : Req) (v : Word)
  /-- SESSION_TIMEOUT, R459 -/
  | sessionTimeout (a : At)
  /-- NONCE_EXPIRE, R457 -/
  | nonceExpire (a : At)
  /-- LOCKOUT_EXPIRE, R458 -/
  | lockoutExpire (a : At)
  /-- ROL_LOCK_OPEN, R468 -/
  | rolLockOpen (a : At) (r : Req) (v : Word)
  /-- ROL_LOCK_COMMIT, R468 -/
  | rolLockCommit (a : At) (r : Req) (v : Word)
  /-- AUDIT_TRIM, R464 -/
  | auditTrim (a : At) (r : Req) (v : Word)
  /-- AUDIT_RECORD_DURABLE, R461 -/
  | auditRecordDurable (a : At)
  /-- FW_STAGE, R460 -/
  | fwStage (a : At) (id : Nat)
  /-- FW_ACTIVATE, R460 -/
  | fwActivate (a : At) (id : Nat)
  /-- REPAIR_EDIT, R460 -/
  | repairEdit (a : At) (id : Nat)
  /-- FUSE_DUMP, R460 -/
  | fuseDump (a : At) (id : Nat)
  /-- SAFETY_INJECT, R460 -/
  | safetyInject (a : At) (id : Nat) (rivals : List Nat)
  /-- RFA_CAPTURE, R460 -/
  | rfaCapture (a : At) (id : Nat)
  /-- ANCHOR_SET, R460 -/
  | anchorSet (a : At) (id : Nat)
  /-- EVENT_WRITE, R618 -/
  | eventWrite (a : At) (nack : List Nat)
  /-- EVL_FLUSH_START, R620 -/
  | evlFlushStart (a : At)
  /-- EVL_FLUSH_NOW, R632 -/
  | evlFlushNow (a : At) (r : Req) (v : Word)
  /-- EVL_COPY_SCRUB, R621 -/
  | evlCopyScrub (a : At) (errors : List (Nat × Nat))
  /-- EVENT_READ, R626 -/
  | eventRead (a : At) (id : Nat)
  /-- EVENT_MARK, R625 -/
  | eventMark (a : At) (id : Nat)
  /-- FAULT_INJECT, R628 -/
  | faultInject (a : At) (id : Nat) (rivals : List Nat)
  /-- FAULT_INJECT_STOP, R625 -/
  | faultInjectStop (a : At) (id : Nat)
  /-- PCIE_COMPLETION_TIMEOUT, R555 -/
  | pcieCompletionTimeout (a : At) (q : Nat)
  /-- CMD_HEARTBEAT_INCREMENT, R430 -/
  | cmdHeartbeatIncrement (a : At)
  /-- UCIE_TRAINING_DONE, R572 -/
  | ucieTrainingDone (a : At) (m tx rx : Nat)
  /-- REFERENCE_INPUT_RETURN, R598 -/
  | referenceInputReturn (a : At) (input : Nat)
  /-- COMPLETION_RECORD_AGE_OUT, R495 -/
  | completionRecordAgeOut (a : At)
  /-- EVL_FLUSH_COMPLETE, R620 -/
  | evlFlushComplete (a : At) (ok : Bool)
  /-- VOLTAGE_STEP_COMPLETE, R586 -/
  | voltageStepComplete (a : At) (group : Nat)
deriving DecidableEq, Repr

end Sys2Proof
end

