-- ==== Sys2Proof/Decode.lean ====
section
/-! DEFINITION. The commands that words spell. No row of the opcode table gives bits: a command is an event at a pin, a
link or a register, or a moment of an engine of the block, and no word stands for one. -/

namespace Sys2Proof

/-- The command that the nbits bits of w spell by the table. The table gives no row bits, so no word spells one. -/
def decodeTableWord (_nbits _w : Nat) : Option Instr := none

end Sys2Proof
end

