-- ==== Sys2Proof/Machine/Bits.lean ====
section
/-! DEFINITION. Bit fields, byte order and sign extension (R10, R11, R17). All on Nat, Int and byte lists. -/

namespace Sys2Proof.Machine

/-- Bits [lo + n - 1 : lo] of v (R10). -/
def bits (v lo n : Nat) : Nat := v / 2 ^ lo % 2 ^ n

/-- Bit i of v. -/
def bit (v i : Nat) : Bool := v / 2 ^ i % 2 == 1

/-- 1 for true, 0 for false. -/
def b2n (b : Bool) : Nat := if b then 1 else 0

/-- v with the bits [lo + n - 1 : lo] replaced by x. -/
def putBits (v lo n x : Nat) : Nat :=
  v % 2 ^ lo + (x % 2 ^ n) * 2 ^ lo + v / 2 ^ (lo + n) * 2 ^ (lo + n)

/-- Bitwise and, or, xor and and-not on Nat. -/
def andN (a b : Nat) : Nat := Nat.land a b
def orN (a b : Nat) : Nat := Nat.lor a b
def xorN (a b : Nat) : Nat := Nat.xor a b
def andNot (a b : Nat) : Nat := a - Nat.land a b

/-- The number little-endian bytes spell (R11). -/
def leNat : List Byte → Nat
  | [] => 0
  | b :: bs => b.toNat + 256 * leNat bs

/-- The n little-endian bytes of v (R11). -/
def toLE : Nat → Nat → List Byte
  | 0, _ => []
  | n + 1, v => BitVec.ofNat 8 v :: toLE n (v / 256)

/-- The number big-endian bytes spell (the headers of published protocols, R11). -/
def beNat (l : List Byte) : Nat := leNat l.reverse

/-- The n big-endian bytes of v. -/
def toBE (n v : Nat) : List Byte := (toLE n v).reverse

/-- Two's complement reading of the low n bits of v. -/
def sext (n v : Nat) : Int :=
  let w := v % 2 ^ n
  if n = 0 then 0 else if w < 2 ^ (n - 1) then (w : Int) else (w : Int) - (2 ^ n : Nat)

/-- The low n bits of an integer, as a Nat (wrapping). -/
def wrapN (n : Nat) (x : Int) : Nat := (x % ((2 ^ n : Nat) : Int)).toNat

/-- Sum saturating at the largest w-bit number (R623). -/
def satAdd (w a b : Nat) : Nat := min (a + b) (2 ^ w - 1)

/-- Field of n bytes at offset o of a byte list; absent bytes read 0. -/
def field (l : List Byte) (o n : Nat) : Nat := leNat ((l.drop o).take n)

/-- Are all the bytes at [o, o + n) of l zero? -/
def zeros (l : List Byte) (o n : Nat) : Bool := ((l.drop o).take n).all (· == 0)

/-- l with the bytes at offset o replaced by x (l is not lengthened). -/
def putBytes (l : List Byte) (o : Nat) (x : List Byte) : List Byte :=
  l.take o ++ x.take (l.length - o) ++ l.drop (o + x.length)

/-- l padded with zero bytes, or cut, to n bytes. -/
def padTo (n : Nat) (l : List Byte) : List Byte := (l ++ List.replicate n 0).take n

/-- Smallest index of a list where p holds. -/
def firstIdx {α : Type} (p : α → Bool) : List α → Nat → Option Nat
  | [], _ => none
  | x :: xs, i => if p x then some i else firstIdx p xs (i + 1)

/-- A field of n bits at bit i of a word. -/
def fld (v i n : Nat) : Nat := v % 2 ^ n * 2 ^ i

/-- Sorting by insertion, stable: x goes after equal elements. -/
def insertBy {α : Type} (lt : α → α → Bool) (x : α) : List α → List α
  | [] => [x]
  | y :: ys => if lt x y then x :: y :: ys else y :: insertBy lt x ys

def sortBy {α : Type} (lt : α → α → Bool) (l : List α) : List α :=
  l.foldl (fun acc x => insertBy lt x acc) []

/-- Rounding up a division of numbers. -/
def ceilDiv (a b : Nat) : Nat := (a + b - 1) / b

end Sys2Proof.Machine
end

