-- ==== Sys2Proof/Machine/Crc.lean ====
section
/-! DEFINITION. CRC-32C, CRC-8 and the Ethernet FCS. The spec names the codes and gives no convention: CRC-32C is
the published one (reflected, polynomial 0x1EDC6F41, start and final value all ones; PRESUMED, log entry 42). -/

namespace Sys2Proof.Machine

/-- One bit of the reflected CRC-32C. -/
def crcBit (c : Nat) : Nat := if c % 2 = 1 then xorN (c / 2) 0x82F63B78 else c / 2

/-- One byte. -/
def crcByte (c : Nat) (b : Byte) : Nat :=
  let c := xorN c b.toNat
  crcBit (crcBit (crcBit (crcBit (crcBit (crcBit (crcBit (crcBit c)))))))

/-- CRC-32C of bytes. -/
def crc32c (l : List Byte) : Nat := xorN (l.foldl crcByte 0xFFFF_FFFF) 0xFFFF_FFFF

/-- The CRC-8 of polynomial x^8 + x^2 + x + 1 over n bits of a word, most significant first. -/
def crc8 (word : Nat) (n : Nat) : Nat :=
  (List.range n).foldl (fun c i =>
    let top := xorN (bits c 7 1) (bits word (n - 1 - i) 1)
    let c := c * 2 % 256
    if top = 1 then xorN c 0x07 else c) 0

/-- One bit, and one byte, of the frame check sequence of IEEE 802.3. -/
def fcsBit (c : Nat) : Nat := if c % 2 = 1 then xorN (c / 2) 0xEDB88320 else c / 2
def fcsByte (c : Nat) (b : Byte) : Nat :=
  let c := xorN c b.toNat
  fcsBit (fcsBit (fcsBit (fcsBit (fcsBit (fcsBit (fcsBit (fcsBit c)))))))

/-- The frame check sequence of IEEE 802.3 (PRESUMED, log entry 42). -/
def fcs (l : List Byte) : Nat := xorN (l.foldl fcsByte 0xFFFF_FFFF) 0xFFFF_FFFF

end Sys2Proof.Machine
end

