-- ==== Sys2Proof/Machine/Arith.lean ====
section
/-! DEFINITION. Scaled integer arithmetic: types (R44-R46), scales (R50), rounding (R54, R55, R60), requantisation
(R56, R57), the stochastic generators (R58-R62), the site transform (R68). -/

namespace Sys2Proof.Machine

/-- Value types (R44). -/
inductive VType where
  | i4 | i8 | i16 | i32 | u8 | u16 | u32 | i48 | i64
deriving DecidableEq, Repr

/-- The type of a code (R44); none: reserved. -/
def VType.ofCode (c : Nat) : Option VType :=
  match c with
  | 0 => some .i4 | 1 => some .i8 | 2 => some .i16 | 3 => some .i32
  | 4 => some .u8 | 5 => some .u16 | 6 => some .u32 | 8 => some .i48 | 9 => some .i64
  | _ => none

def VType.width : VType → Nat
  | .i4 => 4 | .i8 => 8 | .i16 => 16 | .i32 => 32 | .u8 => 8 | .u16 => 16 | .u32 => 32 | .i48 => 48 | .i64 => 64

def VType.signed : VType → Bool
  | .u8 => false | .u16 => false | .u32 => false | _ => true

def VType.storable : VType → Bool
  | .i48 => false | _ => true

def VType.lo (t : VType) : Int := if t.signed then -((2 ^ (t.width - 1) : Nat) : Int) else 0
def VType.hi (t : VType) : Int :=
  if t.signed then ((2 ^ (t.width - 1) : Nat) : Int) - 1 else ((2 ^ t.width : Nat) : Int) - 1

/-- sat(x, T) (R17). -/
def satT (x : Int) (t : VType) : Int := max t.lo (min x t.hi)

/-- Is x in the range of T? -/
def inT (x : Int) (t : VType) : Bool := t.lo ≤ x && x ≤ t.hi

/-- Bits of x as T stores them, and back. -/
def toBits (x : Int) (t : VType) : Nat := wrapN t.width x
def ofBits (v : Nat) (t : VType) : Int := if t.signed then sext t.width v else ((v % 2 ^ t.width : Nat) : Int)

/-- Wrap to I32 (R48). -/
def wrap32 (x : Int) : Int := sext 32 (wrapN 32 x)
def wrap64 (x : Int) : Int := sext 64 (wrapN 64 x)

/-- Multiplication and floor division by 2^s. -/
def shl (x : Int) (s : Nat) : Int := x * ((2 ^ s : Nat) : Int)
def shr (x : Int) (s : Nat) : Int := Int.fdiv x ((2 ^ s : Nat) : Int)

/-- Rounding modes (R54). -/
inductive RMode where
  | rne | rtz | rdn | sto
deriving DecidableEq, Repr

def RMode.ofCode (c : Nat) : RMode :=
  match c with | 0 => .rne | 1 => .rtz | 2 => .rdn | _ => .sto

/-- The stochastic term of draw x for shift s (R60). -/
def stoTerm (x s : Nat) : Nat := if s ≤ 16 then x / 2 ^ (16 - s) else x * 2 ^ (s - 16)

/-- RND(p, s, mode) for s ≥ 1, with the draw of mode STO (R54). -/
def rnd (p : Int) (s : Nat) (m : RMode) (draw : Nat) : Int :=
  match m with
  | .rne => shr (p + ((2 ^ (s - 1) : Nat) : Int) - 1 + (shr p s) % 2) s
  | .rtz => if 0 ≤ p then shr p s else -(shr (-p) s)
  | .rdn => shr p s
  | .sto => shr (p + (stoTerm draw s : Int)) s

/-- RND for any shift: a shift of 0 or less is exact (R55). -/
def rndShift (p : Int) (s : Int) (m : RMode) (draw : Nat) : Int :=
  if 1 ≤ s then rnd p s.toNat m draw else shl p (-s).toNat

/-- A scale word's multiplier and exponent, and whether its reserved bits are 0 (R50). -/
def scaleM (w : Nat) : Nat := bits w 0 16
def scaleE (w : Nat) : Int := sext 8 (bits w 16 8)
def scaleOk (w : Nat) : Bool := bits w 24 8 == 0

/-- Requantisation before saturation (R56). -/
def requantR (a : Int) (scale : Nat) (m : RMode) (draw : Nat) : Int :=
  rndShift (a * (scaleM scale : Int)) (15 - scaleE scale) m draw

/-- Requantisation: the result, and whether it saturated (R56, R57). -/
def requant (a : Int) (scale : Nat) (m : RMode) (t : VType) (draw : Nat) : Int × Bool :=
  let r := requantR a scale m draw
  (satT r t, !(inT r t))

/-! ## The generators (R58-R62) -/

/-- One step of a lane (R58). -/
def lfsrStep (x : Nat) : Nat :=
  let fb := (bits x 15 1 + bits x 13 1 + bits x 12 1 + bits x 10 1) % 2
  (x * 2 + fb) % 65536

/-- Seed of the lane with global index i (R62). -/
def laneSeed (s i : Nat) : Nat :=
  let x := xorN ((bits s 0 16 + (i + 1) * 0x9E37) % 65536) (bits s 16 16)
  if x = 0 then 0xACE1 else x

/-- The 64 lanes from global index base. -/
def seedLanes (s base : Nat) : List Nat := (List.range 64).map (fun l => laneSeed s (base + l))

/-- The draw of lane l. -/
def laneDraw (g : List Nat) (l : Nat) : Nat := g.getD (l % 64) 0xACE1
/-- The lanes after lane l has drawn. -/
def laneStep (g : List Nat) (l : Nat) : List Nat := g.set (l % 64) (lfsrStep (laneDraw g l))

/-! ## Multi-word products (R64) -/

def lowByte (a : Int) : Int := a % 256
def highByte (a : Int) : Int := Int.fdiv a 256

/-! ## The site transform (R68) -/

/-- One coordinate: exact dot product, rounded by 29, plus the translation. -/
def transformRow (r0 r1 r2 t p0 p1 p2 : Int) : Int := rnd (r0 * p0 + r1 * p1 + r2 * p2) 29 .rne 0 + t

/-! ## Packed elements (R45) -/

/-- Bytes of a row of n elements of a type. -/
def rowBytes (t : VType) (n : Nat) : Nat := (n * t.width + 7) / 8

/-- Element j of a row's bytes. -/
def elemAt (t : VType) (row : List Byte) (j : Nat) : Int :=
  if t = .i4 then ofBits ((row.getD (j / 2) 0).toNat / 16 ^ (j % 2) % 16) t
  else ofBits (field row (j * (t.width / 8)) (t.width / 8)) t

/-- The elements of a row. -/
def rowElems (t : VType) (n : Nat) (row : List Byte) : List Int := (List.range n).map (elemAt t row)

/-- Nibbles packed two to a byte, the lower first; a last single one gets 0 above it (R45). -/
def packNibbles : List Nat → List Byte
  | [] => []
  | [a] => [BitVec.ofNat 8 (a % 16)]
  | a :: b :: t => BitVec.ofNat 8 (a % 16 + (b % 16) * 16) :: packNibbles t

/-- The bytes of a row of elements. -/
def packRow (t : VType) (xs : List Int) : List Byte :=
  if t = .i4 then packNibbles (xs.map (fun x => toBits x t))
  else (xs.map (fun x => toLE (t.width / 8) (toBits x t))).flatten

end Sys2Proof.Machine
end

