-- ==== Sys2Proof/Machine/RegMap.lean ====
section
/-! DEFINITION. The register maps of the blocks, as the spec's register tables give them (R104, R143, R174, R178,
R203, R240, R278, R311, R332, R373, R399, R430, R433, R465, R468, R507, R549, R552, R576, R578, R580, R604, R607,
R609, R631): every register's offset, its width in words, the bits each access code covers (R15), its reset value
and the selection register that steers it (R443). -/

namespace Sys2Proof.Machine

/-- The kind of a CSR block (R32). -/
inductive BlockKind where
  | glb | clk | pwr | evl | saf | foe | stp | fgr | hbm | cmd | seal | fab | pci | eth | d2d | ins | rol | cst | seq | dte | ste | mvp | vu | sel | hpu | dma
deriving DecidableEq, Repr

/-- One register, or a run of like registers, of a block's map. -/
structure RegDesc where
  /-- offset of the first word -/
  off : Nat
  /-- how many 32-bit words -/
  words : Nat
  /-- words pair up into 64-bit values, low half first (R13) -/
  w64 : Bool := false
  /-- bits of access RW, RWL, W1C and W1S (R15) -/
  rw : Nat := 0
  rwl : Nat := 0
  w1c : Nat := 0
  w1s : Nat := 0
  reset : Nat := 0
  /-- offset and index mask of the selection register that steers it; mask 0: none -/
  selOff : Nat := 0
  selMask : Nat := 0
  /-- cleared by the block's clear_counters -/
  ctr : Bool := false
deriving DecidableEq, Repr


/-! GLB -/

/-- GLB_ID, RO, R604 -/
def GLB_ID : Nat := 0x0000
/-- GLB_CTRL, RW, W1S, R604 -/
def GLB_CTRL : Nat := 0x0004
/-- GLB_STATUS, RO, R604 -/
def GLB_STATUS : Nat := 0x0008
/-- GLB_INT_STATUS, W1C, R604 -/
def GLB_INT_STATUS : Nat := 0x000C
/-- GLB_INT_ENABLE, RW, R604 -/
def GLB_INT_ENABLE : Nat := 0x0010
/-- GLB_PART, RO, R604 -/
def GLB_PART : Nat := 0x0014
/-- GLB_SERIAL, RO, R604 -/
def GLB_SERIAL : Nat := 0x0018
/-- GLB_BASE_MAC, RO, R604 -/
def GLB_BASE_MAC : Nat := 0x0020
/-- GLB_DIE, RO, R604 -/
def GLB_DIE : Nat := 0x0028
/-- GLB_BOOT, RO, R604 -/
def GLB_BOOT : Nat := 0x002C
/-- GLB_RESET_CAUSE, W1C, R604 -/
def GLB_RESET_CAUSE : Nat := 0x0030
/-- GLB_TIME, RO, R604 -/
def GLB_TIME : Nat := 0x0038
/-- GLB_PKEY, RO, R604 -/
def GLB_PKEY : Nat := 0x0040
/-- GLB_SPINE_PACKETS, RO, R604 -/
def GLB_SPINE_PACKETS : Nat := 0x00A0
/-- GLB_SPINE_STALLS, RO, R604 -/
def GLB_SPINE_STALLS : Nat := 0x00A8
/-- GLB_STORES_DISCARDED, RO, R604 -/
def GLB_STORES_DISCARDED : Nat := 0x00B0
/-- GLB_DOMAIN_BOUNCED, RO, R604 -/
def GLB_DOMAIN_BOUNCED : Nat := 0x00B8

/-- The register map of a GLB block. -/
def mapGLB : List RegDesc := [
  { off := GLB_ID, words := 1 },
  { off := GLB_CTRL, words := 1, rw := 0x1, w1s := 0x6, reset := 0x1 },
  { off := GLB_STATUS, words := 1 },
  { off := GLB_INT_STATUS, words := 1, w1c := 0x3 },
  { off := GLB_INT_ENABLE, words := 1, rw := 0x3 },
  { off := GLB_PART, words := 1 },
  { off := GLB_SERIAL, words := 2, w64 := true },
  { off := GLB_BASE_MAC, words := 2, w64 := true },
  { off := GLB_DIE, words := 1 },
  { off := GLB_BOOT, words := 1 },
  { off := GLB_RESET_CAUSE, words := 1, w1c := 0x1F, reset := 0x1 },
  { off := GLB_TIME, words := 2, w64 := true },
  { off := GLB_PKEY, words := 24 },
  { off := GLB_SPINE_PACKETS, words := 2, w64 := true, ctr := true },
  { off := GLB_SPINE_STALLS, words := 2, w64 := true, ctr := true },
  { off := GLB_STORES_DISCARDED, words := 2, w64 := true, ctr := true },
  { off := GLB_DOMAIN_BOUNCED, words := 2, w64 := true, ctr := true }]


/-! CLK -/

/-- CLK_ID, RO, R607 -/
def CLK_ID : Nat := 0x0000
/-- CLK_CTRL, RW, W1S, R607 -/
def CLK_CTRL : Nat := 0x0004
/-- CLK_STATUS, RO, R607 -/
def CLK_STATUS : Nat := 0x0008
/-- CLK_INT_STATUS, W1C, R607 -/
def CLK_INT_STATUS : Nat := 0x000C
/-- CLK_INT_ENABLE, RW, R607 -/
def CLK_INT_ENABLE : Nat := 0x0010
/-- CLK_REF, RO, R607 -/
def CLK_REF : Nat := 0x0014
/-- CLK_OSC_DIFF, RO, R607 -/
def CLK_OSC_DIFF : Nat := 0x0018
/-- CLK_ISL_SEL, RW, R607 -/
def CLK_ISL_SEL : Nat := 0x0020
/-- CLK_ISL_STATE, RO, R607 -/
def CLK_ISL_STATE : Nat := 0x0024
/-- CLK_ISL_FREQ, RO, R607 -/
def CLK_ISL_FREQ : Nat := 0x0028
/-- CLK_ISL_CHANGES, RO, R607 -/
def CLK_ISL_CHANGES : Nat := 0x002C
/-- CLK_ISL_MON_FAULTS, RO, R607 -/
def CLK_ISL_MON_FAULTS : Nat := 0x0030
/-- CLK_ISL_CROSS_STALLS, RO, R607 -/
def CLK_ISL_CROSS_STALLS : Nat := 0x0038
/-- CLK_LAST_HOLD_NS, RO, R607 -/
def CLK_LAST_HOLD_NS : Nat := 0x0040

/-- The register map of a CLK block. -/
def mapCLK : List RegDesc := [
  { off := CLK_ID, words := 1 },
  { off := CLK_CTRL, words := 1, rw := 0x1, w1s := 0x2, reset := 0x1 },
  { off := CLK_STATUS, words := 1 },
  { off := CLK_INT_STATUS, words := 1, w1c := 0x7 },
  { off := CLK_INT_ENABLE, words := 1, rw := 0x7 },
  { off := CLK_REF, words := 1 },
  { off := CLK_OSC_DIFF, words := 1 },
  { off := CLK_ISL_SEL, words := 1, rw := 0x3F },
  { off := CLK_ISL_STATE, words := 1, selOff := 0x20, selMask := 0x3F },
  { off := CLK_ISL_FREQ, words := 1, selOff := 0x20, selMask := 0x3F },
  { off := CLK_ISL_CHANGES, words := 1, selOff := 0x20, selMask := 0x3F, ctr := true },
  { off := CLK_ISL_MON_FAULTS, words := 1, selOff := 0x20, selMask := 0x3F, ctr := true },
  { off := CLK_ISL_CROSS_STALLS, words := 2, w64 := true, selOff := 0x20, selMask := 0x3F, ctr := true },
  { off := CLK_LAST_HOLD_NS, words := 1, selOff := 0x20, selMask := 0x3F }]


/-! PWR -/

/-- PWR_ID, RO, R609 -/
def PWR_ID : Nat := 0x0000
/-- PWR_CTRL, RW, W1S, R609 -/
def PWR_CTRL : Nat := 0x0004
/-- PWR_STATUS, RO, R609 -/
def PWR_STATUS : Nat := 0x0008
/-- PWR_INT_STATUS, W1C, R609 -/
def PWR_INT_STATUS : Nat := 0x000C
/-- PWR_INT_ENABLE, RW, R609 -/
def PWR_INT_ENABLE : Nat := 0x0010
/-- PWR_DOMAIN, RO, R609 -/
def PWR_DOMAIN : Nat := 0x0014
/-- PWR_OP, RO, R609 -/
def PWR_OP : Nat := 0x0018
/-- PWR_CAP, RO, R609 -/
def PWR_CAP : Nat := 0x001C
/-- PWR_RAIL_SEL, RW, R609 -/
def PWR_RAIL_SEL : Nat := 0x0020
/-- PWR_RAIL_MV, RO, R609 -/
def PWR_RAIL_MV : Nat := 0x0024
/-- PWR_RAIL_MA, RO, R609 -/
def PWR_RAIL_MA : Nat := 0x0028
/-- PWR_RAIL_STATE, RO, R609 -/
def PWR_RAIL_STATE : Nat := 0x002C
/-- PWR_TEMP, RO, R609 -/
def PWR_TEMP : Nat := 0x0030
/-- PWR_TEMP_THRESH, RWL, R609 -/
def PWR_TEMP_THRESH : Nat := 0x0034
/-- PWR_OPT_SEL, RW, R609 -/
def PWR_OPT_SEL : Nat := 0x0038
/-- PWR_OPT_TEMP, RO, R609 -/
def PWR_OPT_TEMP : Nat := 0x003C
/-- PWR_ENERGY, RO, R609 -/
def PWR_ENERGY : Nat := 0x0040

/-- The register map of a PWR block. -/
def mapPWR : List RegDesc := [
  { off := PWR_ID, words := 1 },
  { off := PWR_CTRL, words := 1, rw := 0x1, w1s := 0x2, reset := 0x1 },
  { off := PWR_STATUS, words := 1 },
  { off := PWR_INT_STATUS, words := 1, w1c := 0xF },
  { off := PWR_INT_ENABLE, words := 1, rw := 0xF },
  { off := PWR_DOMAIN, words := 1 },
  { off := PWR_OP, words := 1 },
  { off := PWR_CAP, words := 1 },
  { off := PWR_RAIL_SEL, words := 1, rw := 0x1F },
  { off := PWR_RAIL_MV, words := 1, selOff := 0x20, selMask := 0x1F },
  { off := PWR_RAIL_MA, words := 1, selOff := 0x20, selMask := 0x1F },
  { off := PWR_RAIL_STATE, words := 1, selOff := 0x20, selMask := 0x1F },
  { off := PWR_TEMP, words := 1 },
  { off := PWR_TEMP_THRESH, words := 1, rwl := 0xFFFFFFFF, reset := 0x554B695F },
  { off := PWR_OPT_SEL, words := 1, rw := 0x1 },
  { off := PWR_OPT_TEMP, words := 1, selOff := 0x38, selMask := 0x1 },
  { off := PWR_ENERGY, words := 2, w64 := true, ctr := true }]


/-! EVL -/

/-- EVL_ID, RO, R631 -/
def EVL_ID : Nat := 0x0000
/-- EVL_CTRL, RW, W1S, R631 -/
def EVL_CTRL : Nat := 0x0004
/-- EVL_STATUS, RO, R631 -/
def EVL_STATUS : Nat := 0x0008
/-- EVL_INT_STATUS, W1C, R631 -/
def EVL_INT_STATUS : Nat := 0x000C
/-- EVL_INT_ENABLE, RW, R631 -/
def EVL_INT_ENABLE : Nat := 0x0010
/-- EVL_NEXT_SEQ, RO, R631 -/
def EVL_NEXT_SEQ : Nat := 0x0014
/-- EVL_OLDEST_SEQ, RO, R631 -/
def EVL_OLDEST_SEQ : Nat := 0x0018
/-- EVL_FLUSHED_SEQ, RO, R631 -/
def EVL_FLUSHED_SEQ : Nat := 0x001C
/-- EVL_FLUSH_PERIOD, RWL, R631 -/
def EVL_FLUSH_PERIOD : Nat := 0x0020
/-- EVL_INTAKE, RO, R631 -/
def EVL_INTAKE : Nat := 0x0024
/-- EVL_RECORDS, RO, R631 -/
def EVL_RECORDS : Nat := 0x0030
/-- EVL_COALESCED_TOTAL, RO, R631 -/
def EVL_COALESCED_TOTAL : Nat := 0x0038
/-- EVL_OVERWRITTEN, RO, R631 -/
def EVL_OVERWRITTEN : Nat := 0x0040
/-- EVL_COPY_ERRORS, RO, R631 -/
def EVL_COPY_ERRORS : Nat := 0x0044
/-- EVL_CLASS_SEL, RW, R631 -/
def EVL_CLASS_SEL : Nat := 0x0080
/-- EVL_CLASS_COUNT, RO, R631 -/
def EVL_CLASS_COUNT : Nat := 0x0088
/-- EVL_CLASS_COALESCED, RO, R631 -/
def EVL_CLASS_COALESCED : Nat := 0x0090
/-- EVL_CLASS_LAST_TIME, RO, R631 -/
def EVL_CLASS_LAST_TIME : Nat := 0x0098
/-- EVL_READ_SEQ, RW, R631 -/
def EVL_READ_SEQ : Nat := 0x00C0
/-- EVL_READ_STATUS, RO, R631 -/
def EVL_READ_STATUS : Nat := 0x00C4
/-- EVL_READ_DATA, RO, R631 -/
def EVL_READ_DATA : Nat := 0x00E0

/-- The register map of a EVL block. -/
def mapEVL : List RegDesc := [
  { off := EVL_ID, words := 1 },
  { off := EVL_CTRL, words := 1, rw := 0x1, w1s := 0x6, reset := 0x1 },
  { off := EVL_STATUS, words := 1 },
  { off := EVL_INT_STATUS, words := 1, w1c := 0x1F },
  { off := EVL_INT_ENABLE, words := 1, rw := 0x1E, reset := 0x1 },
  { off := EVL_NEXT_SEQ, words := 1 },
  { off := EVL_OLDEST_SEQ, words := 1 },
  { off := EVL_FLUSHED_SEQ, words := 1 },
  { off := EVL_FLUSH_PERIOD, words := 1, rwl := 0xFFFF, reset := 0x3E8 },
  { off := EVL_INTAKE, words := 1 },
  { off := EVL_RECORDS, words := 2, w64 := true, ctr := true },
  { off := EVL_COALESCED_TOTAL, words := 2, w64 := true, ctr := true },
  { off := EVL_OVERWRITTEN, words := 1, ctr := true },
  { off := EVL_COPY_ERRORS, words := 1, ctr := true },
  { off := EVL_CLASS_SEL, words := 1, rw := 0xF },
  { off := EVL_CLASS_COUNT, words := 2, w64 := true, selOff := 0x80, selMask := 0xF, ctr := true },
  { off := EVL_CLASS_COALESCED, words := 2, w64 := true, selOff := 0x80, selMask := 0xF, ctr := true },
  { off := EVL_CLASS_LAST_TIME, words := 2, w64 := true, selOff := 0x80, selMask := 0xF },
  { off := EVL_READ_SEQ, words := 1, rw := 0xFFFFFFFF },
  { off := EVL_READ_STATUS, words := 1 },
  { off := EVL_READ_DATA, words := 8 }]


/-! SAF -/

/-- SAF_ID, RO, R549 -/
def SAF_ID : Nat := 0x0000
/-- SAF_CTRL, RW, W1S, R549 -/
def SAF_CTRL : Nat := 0x0004
/-- SAF_STATUS, RO, R549 -/
def SAF_STATUS : Nat := 0x0008
/-- SAF_INT_STATUS, W1C, R549 -/
def SAF_INT_STATUS : Nat := 0x000C
/-- SAF_INT_ENABLE, RW, R549 -/
def SAF_INT_ENABLE : Nat := 0x0010
/-- SAF_MODE, RO, R549 -/
def SAF_MODE : Nat := 0x0014
/-- SAF_DOUBT_ACTIVE, RO, R549 -/
def SAF_DOUBT_ACTIVE : Nat := 0x0018
/-- SAF_DOUBT_SEEN, W1C, R549 -/
def SAF_DOUBT_SEEN : Nat := 0x001C
/-- SAF_LAST_DOUBT_TIME, RO, R549 -/
def SAF_LAST_DOUBT_TIME : Nat := 0x0020
/-- SAF_LAST_DOUBT, RO, R549 -/
def SAF_LAST_DOUBT : Nat := 0x0028
/-- SAF_SWITCHES, RO, R549 -/
def SAF_SWITCHES : Nat := 0x0030
/-- SAF_RESTARTS, RO, R549 -/
def SAF_RESTARTS : Nat := 0x0038
/-- SAF_RESULT_REJECTS, RO, R549 -/
def SAF_RESULT_REJECTS : Nat := 0x003C
/-- SAF_RESULT_FRAME, RO, R549 -/
def SAF_RESULT_FRAME : Nat := 0x0040
/-- SAF_MSG_SEQ, RO, R549 -/
def SAF_MSG_SEQ : Nat := 0x0048
/-- SAF_MSGS_SENT, RO, R549 -/
def SAF_MSGS_SENT : Nat := 0x0050
/-- SAF_HEALTH, RO, R549 -/
def SAF_HEALTH : Nat := 0x0058
/-- SAF_PROOF_STATUS, RO, R549 -/
def SAF_PROOF_STATUS : Nat := 0x005C
/-- SAF_PROOF_CRC, RO, R549 -/
def SAF_PROOF_CRC : Nat := 0x0060
/-- SAF_SDO_STATE, RO, R549 -/
def SAF_SDO_STATE : Nat := 0x0070
/-- SAF_SDO_FAULTS, RO, R549 -/
def SAF_SDO_FAULTS : Nat := 0x0074
/-- SAF_SERVICE_LEFT, RO, R549 -/
def SAF_SERVICE_LEFT : Nat := 0x0078
/-- SAF_CLAIM, RO, R549 -/
def SAF_CLAIM : Nat := 0x007C

/-- The register map of a SAF block. -/
def mapSAF : List RegDesc := [
  { off := SAF_ID, words := 1 },
  { off := SAF_CTRL, words := 1, rw := 0x1, w1s := 0x2, reset := 0x1 },
  { off := SAF_STATUS, words := 1 },
  { off := SAF_INT_STATUS, words := 1, w1c := 0x3F },
  { off := SAF_INT_ENABLE, words := 1, rw := 0x3F },
  { off := SAF_MODE, words := 1, reset := 0x1 },
  { off := SAF_DOUBT_ACTIVE, words := 1 },
  { off := SAF_DOUBT_SEEN, words := 1, w1c := 0x7FF },
  { off := SAF_LAST_DOUBT_TIME, words := 2, w64 := true },
  { off := SAF_LAST_DOUBT, words := 1 },
  { off := SAF_SWITCHES, words := 2, w64 := true, ctr := true },
  { off := SAF_RESTARTS, words := 1, ctr := true },
  { off := SAF_RESULT_REJECTS, words := 1, ctr := true },
  { off := SAF_RESULT_FRAME, words := 2, w64 := true },
  { off := SAF_MSG_SEQ, words := 1 },
  { off := SAF_MSGS_SENT, words := 2, w64 := true, ctr := true },
  { off := SAF_HEALTH, words := 1 },
  { off := SAF_PROOF_STATUS, words := 1 },
  { off := SAF_PROOF_CRC, words := 4 },
  { off := SAF_SDO_STATE, words := 1 },
  { off := SAF_SDO_FAULTS, words := 1, ctr := true },
  { off := SAF_SERVICE_LEFT, words := 1 },
  { off := SAF_CLAIM, words := 1 }]


/-! FOE -/

/-- FOE_ID, RO, R552 -/
def FOE_ID : Nat := 0x0000
/-- FOE_CTRL, RW, W1S, R552 -/
def FOE_CTRL : Nat := 0x0004
/-- FOE_STATUS, RO, R552 -/
def FOE_STATUS : Nat := 0x0008
/-- FOE_POINTS, RO, R552 -/
def FOE_POINTS : Nat := 0x0010
/-- FOE_POINTS_OUTSIDE, RO, R552 -/
def FOE_POINTS_OUTSIDE : Nat := 0x0018
/-- FOE_EVAL_LAST_NS, RO, R552 -/
def FOE_EVAL_LAST_NS : Nat := 0x0020
/-- FOE_EVAL_MAX_NS, RO, R552 -/
def FOE_EVAL_MAX_NS : Nat := 0x0024
/-- FOE_SLICES, RO, R552 -/
def FOE_SLICES : Nat := 0x0028
/-- FOE_ZONE_SEL, RW, R552 -/
def FOE_ZONE_SEL : Nat := 0x0030
/-- FOE_ZONE_STATE, RO, R552 -/
def FOE_ZONE_STATE : Nat := 0x0034
/-- FOE_OCC, RO, R552 -/
def FOE_OCC : Nat := 0x0040
/-- FOE_BLIND, RO, R552 -/
def FOE_BLIND : Nat := 0x0060
/-- FOE_SPANS, RO, R552 -/
def FOE_SPANS : Nat := 0x0080
/-- FOE_ZONE_CELLS, RO, R552 -/
def FOE_ZONE_CELLS : Nat := 0x0084

/-- The register map of a FOE block. -/
def mapFOE : List RegDesc := [
  { off := FOE_ID, words := 1 },
  { off := FOE_CTRL, words := 1, rw := 0x1, w1s := 0x2, reset := 0x1 },
  { off := FOE_STATUS, words := 1 },
  { off := FOE_POINTS, words := 2, w64 := true, ctr := true },
  { off := FOE_POINTS_OUTSIDE, words := 2, w64 := true, ctr := true },
  { off := FOE_EVAL_LAST_NS, words := 1 },
  { off := FOE_EVAL_MAX_NS, words := 1, ctr := true },
  { off := FOE_SLICES, words := 1, ctr := true },
  { off := FOE_ZONE_SEL, words := 1, rw := 0xFF },
  { off := FOE_ZONE_STATE, words := 1, reset := 0x10000, selOff := 0x30, selMask := 0xFF },
  { off := FOE_OCC, words := 8 },
  { off := FOE_BLIND, words := 8 },
  { off := FOE_SPANS, words := 1 },
  { off := FOE_ZONE_CELLS, words := 1 }]


/-! STP -/

/-- STP_ID, RO, R104 -/
def STP_ID : Nat := 0x0000
/-- STP_CTRL, RW, W1S, R104 -/
def STP_CTRL : Nat := 0x0004
/-- STP_STATUS, RO, R104 -/
def STP_STATUS : Nat := 0x0008
/-- STP_INT_STATUS, W1C, R104 -/
def STP_INT_STATUS : Nat := 0x000C
/-- STP_INT_ENABLE, RW, R104 -/
def STP_INT_ENABLE : Nat := 0x0010
/-- STP_TRIG_CRC, RO, R104 -/
def STP_TRIG_CRC : Nat := 0x0014
/-- STP_FRAME_LEN_US, RO, R104 -/
def STP_FRAME_LEN_US : Nat := 0x0020
/-- STP_SLICE_LEN_US, RO, R104 -/
def STP_SLICE_LEN_US : Nat := 0x0024
/-- STP_FRAME_NUM, RO, R104 -/
def STP_FRAME_NUM : Nat := 0x0028
/-- STP_SLICE_NUM, RO, R104 -/
def STP_SLICE_NUM : Nat := 0x0030
/-- STP_INTAKE_LEVEL, RO, R104 -/
def STP_INTAKE_LEVEL : Nat := 0x0040
/-- STP_PORT_UNKNOWN, RO, R104 -/
def STP_PORT_UNKNOWN : Nat := 0x0080
/-- STP_DROP, RO, R104 -/
def STP_DROP : Nat := 0x0100
/-- STP_TBL_SEL, RW, R104 -/
def STP_TBL_SEL : Nat := 0x0200
/-- STP_TBL_CTRL, W1S, R104 -/
def STP_TBL_CTRL : Nat := 0x0204
/-- STP_TBL_DATA, RW, R104 -/
def STP_TBL_DATA : Nat := 0x0210
/-- STP_STREAM_SEL, RW, R104 -/
def STP_STREAM_SEL : Nat := 0x0300
/-- STP_STREAM_STAT, RO, R104 -/
def STP_STREAM_STAT : Nat := 0x0310
/-- its words 12-15, which hold no 64-bit counter, R109 -/
def STP_STREAM_WORDS : Nat := 0x0340

/-- The register map of a STP block. -/
def mapSTP : List RegDesc := [
  { off := STP_ID, words := 1 },
  { off := STP_CTRL, words := 1, rw := 0x3, w1s := 0xC },
  { off := STP_STATUS, words := 1 },
  { off := STP_INT_STATUS, words := 1, w1c := 0xFF },
  { off := STP_INT_ENABLE, words := 1, rw := 0xFF },
  { off := STP_TRIG_CRC, words := 1 },
  { off := STP_FRAME_LEN_US, words := 1 },
  { off := STP_SLICE_LEN_US, words := 1 },
  { off := STP_FRAME_NUM, words := 2, w64 := true },
  { off := STP_SLICE_NUM, words := 1 },
  { off := STP_INTAKE_LEVEL, words := 1 },
  { off := STP_PORT_UNKNOWN, words := 16, w64 := true },
  { off := STP_DROP, words := 32, w64 := true },
  { off := STP_TBL_SEL, words := 1, rw := 0x31FFF1F },
  { off := STP_TBL_CTRL, words := 1, w1s := 0x3 },
  { off := STP_TBL_DATA, words := 16, rw := 0xFFFFFFFF },
  { off := STP_STREAM_SEL, words := 1, rw := 0xFF },
  { off := STP_STREAM_STAT, words := 12, w64 := true, selOff := 0x300, selMask := 0xFF },
  { off := STP_STREAM_WORDS, words := 4, selOff := 0x300, selMask := 0xFF }]


/-! FGR -/

/-- FGR_ID, RO, R373 -/
def FGR_ID : Nat := 0x0000
/-- FGR_CTRL, RW, W1S, R373 -/
def FGR_CTRL : Nat := 0x0004
/-- FGR_STATUS, RO, R373 -/
def FGR_STATUS : Nat := 0x0008
/-- FGR_INT_STATUS, W1C, R373 -/
def FGR_INT_STATUS : Nat := 0x000C
/-- FGR_INT_ENABLE, RW, R373 -/
def FGR_INT_ENABLE : Nat := 0x0010
/-- FGR_PREFETCH_BYTES, RO, R373 -/
def FGR_PREFETCH_BYTES : Nat := 0x0014
/-- FGR_ROW_FETCHES, RO, R373 -/
def FGR_ROW_FETCHES : Nat := 0x0020
/-- FGR_HOT_HITS, RO, R373 -/
def FGR_HOT_HITS : Nat := 0x0028
/-- FGR_PREFETCH_HITS, RO, R373 -/
def FGR_PREFETCH_HITS : Nat := 0x0030
/-- FGR_PREFETCH_DROPS, RO, R373 -/
def FGR_PREFETCH_DROPS : Nat := 0x0038
/-- FGR_POOL_SENT, RO, R373 -/
def FGR_POOL_SENT : Nat := 0x0040
/-- FGR_POOL_SERVED, RO, R373 -/
def FGR_POOL_SERVED : Nat := 0x0048
/-- FGR_DEFAULTED, RO, R373 -/
def FGR_DEFAULTED : Nat := 0x0050
/-- FGR_BAGS, RO, R373 -/
def FGR_BAGS : Nat := 0x0058
/-- FGR_UPDATE_ROWS, RO, R373 -/
def FGR_UPDATE_ROWS : Nat := 0x0060
/-- FGR_SAT_COUNT, RO, R373 -/
def FGR_SAT_COUNT : Nat := 0x0068
/-- FGR_STALE_REFUSED, RO, R373 -/
def FGR_STALE_REFUSED : Nat := 0x006C
/-- FGR_FAILOVERS, RO, R373 -/
def FGR_FAILOVERS : Nat := 0x0070
/-- FGR_TBL_SEL, RW, R373 -/
def FGR_TBL_SEL : Nat := 0x0080
/-- FGR_TBL_STATE, RO, R373 -/
def FGR_TBL_STATE : Nat := 0x0084
/-- FGR_TBL_VER_A, RO, R373 -/
def FGR_TBL_VER_A : Nat := 0x0088
/-- FGR_TBL_VER_B, RO, R373 -/
def FGR_TBL_VER_B : Nat := 0x008C
/-- FGR_TBL_INFLIGHT_A, RO, R373 -/
def FGR_TBL_INFLIGHT_A : Nat := 0x0090
/-- FGR_TBL_INFLIGHT_B, RO, R373 -/
def FGR_TBL_INFLIGHT_B : Nat := 0x0094

/-- The register map of a FGR block. -/
def mapFGR : List RegDesc := [
  { off := FGR_ID, words := 1 },
  { off := FGR_CTRL, words := 1, rw := 0x5, w1s := 0x2, reset := 0x5 },
  { off := FGR_STATUS, words := 1 },
  { off := FGR_INT_STATUS, words := 1, w1c := 0x3F },
  { off := FGR_INT_ENABLE, words := 1, rw := 0x3F },
  { off := FGR_PREFETCH_BYTES, words := 1 },
  { off := FGR_ROW_FETCHES, words := 2, w64 := true, ctr := true },
  { off := FGR_HOT_HITS, words := 2, w64 := true, ctr := true },
  { off := FGR_PREFETCH_HITS, words := 2, w64 := true, ctr := true },
  { off := FGR_PREFETCH_DROPS, words := 2, w64 := true, ctr := true },
  { off := FGR_POOL_SENT, words := 2, w64 := true, ctr := true },
  { off := FGR_POOL_SERVED, words := 2, w64 := true, ctr := true },
  { off := FGR_DEFAULTED, words := 2, w64 := true, ctr := true },
  { off := FGR_BAGS, words := 2, w64 := true, ctr := true },
  { off := FGR_UPDATE_ROWS, words := 2, w64 := true, ctr := true },
  { off := FGR_SAT_COUNT, words := 1, ctr := true },
  { off := FGR_STALE_REFUSED, words := 1, ctr := true },
  { off := FGR_FAILOVERS, words := 1, ctr := true },
  { off := FGR_TBL_SEL, words := 1, rw := 0x3FF },
  { off := FGR_TBL_STATE, words := 1, selOff := 0x80, selMask := 0x3FF },
  { off := FGR_TBL_VER_A, words := 1, selOff := 0x80, selMask := 0x3FF },
  { off := FGR_TBL_VER_B, words := 1, selOff := 0x80, selMask := 0x3FF },
  { off := FGR_TBL_INFLIGHT_A, words := 1, selOff := 0x80, selMask := 0x3FF },
  { off := FGR_TBL_INFLIGHT_B, words := 1, selOff := 0x80, selMask := 0x3FF }]


/-! HBM -/

/-- HBM_ID, RO, R399 -/
def HBM_ID : Nat := 0x0000
/-- HBM_CTRL, RW, W1S, R399 -/
def HBM_CTRL : Nat := 0x0004
/-- HBM_STATUS, RO, R399 -/
def HBM_STATUS : Nat := 0x0008
/-- HBM_INT_STATUS, W1C, R399 -/
def HBM_INT_STATUS : Nat := 0x000C
/-- HBM_INT_ENABLE, RW, R399 -/
def HBM_INT_ENABLE : Nat := 0x0010
/-- HBM_TEMP, RO, R399 -/
def HBM_TEMP : Nat := 0x0014
/-- HBM_TEMP_THRESH, RWL, R399 -/
def HBM_TEMP_THRESH : Nat := 0x0018
/-- HBM_SCRUB_PERIOD, RWL, R399 -/
def HBM_SCRUB_PERIOD : Nat := 0x001C
/-- HBM_SHARE, RWL, R399 -/
def HBM_SHARE : Nat := 0x0020
/-- HBM_CE_THRESH, RW, R399 -/
def HBM_CE_THRESH : Nat := 0x0024
/-- HBM_READS, RO, R399 -/
def HBM_READS : Nat := 0x0030
/-- HBM_WRITES, RO, R399 -/
def HBM_WRITES : Nat := 0x0038
/-- HBM_CORRECTED, RO, R399 -/
def HBM_CORRECTED : Nat := 0x0040
/-- HBM_UNCORRECTABLE, RO, R399 -/
def HBM_UNCORRECTABLE : Nat := 0x0048
/-- HBM_POISON_CREATED, RO, R399 -/
def HBM_POISON_CREATED : Nat := 0x0050
/-- HBM_POISON_WRITES, RO, R399 -/
def HBM_POISON_WRITES : Nat := 0x0058
/-- HBM_SCRUB_CORRECTED, RO, R399 -/
def HBM_SCRUB_CORRECTED : Nat := 0x0060
/-- HBM_SCRUB_PASSES, RO, R399 -/
def HBM_SCRUB_PASSES : Nat := 0x0068
/-- HBM_SCRUB_POS, RO, R399 -/
def HBM_SCRUB_POS : Nat := 0x006C
/-- HBM_LAST_ERR_OFFSET, RO, R399 -/
def HBM_LAST_ERR_OFFSET : Nat := 0x0070
/-- HBM_LAST_ERR_INFO, RO, R399 -/
def HBM_LAST_ERR_INFO : Nat := 0x0078
/-- HBM_CLASS_SEL, RW, R399 -/
def HBM_CLASS_SEL : Nat := 0x0080
/-- HBM_CLASS_BYTES, RO, R399 -/
def HBM_CLASS_BYTES : Nat := 0x0088
/-- HBM_CLASS_WAIT, RO, R399 -/
def HBM_CLASS_WAIT : Nat := 0x0090
/-- HBM_PC_SEL, RW, R399 -/
def HBM_PC_SEL : Nat := 0x00A0
/-- HBM_PC_REQUESTS, RO, R399 -/
def HBM_PC_REQUESTS : Nat := 0x00A8
/-- HBM_PC_ROW_HITS, RO, R399 -/
def HBM_PC_ROW_HITS : Nat := 0x00B0
/-- HBM_PC_QUEUE_MAX, RO, R399 -/
def HBM_PC_QUEUE_MAX : Nat := 0x00B8

/-- The register map of a HBM block. -/
def mapHBM : List RegDesc := [
  { off := HBM_ID, words := 1 },
  { off := HBM_CTRL, words := 1, rw := 0x1, w1s := 0x6, reset := 0x1 },
  { off := HBM_STATUS, words := 1 },
  { off := HBM_INT_STATUS, words := 1, w1c := 0x3F },
  { off := HBM_INT_ENABLE, words := 1, rw := 0x3F },
  { off := HBM_TEMP, words := 1 },
  { off := HBM_TEMP_THRESH, words := 1, rwl := 0xFFFF, reset := 0x5F55 },
  { off := HBM_SCRUB_PERIOD, words := 1, rwl := 0xFF, reset := 0x18 },
  { off := HBM_SHARE, words := 1, rwl := 0xFFFFFF, reset := 0x121288 },
  { off := HBM_CE_THRESH, words := 1, rw := 0xFFFFFFFF, reset := 0x400 },
  { off := HBM_READS, words := 2, w64 := true, ctr := true },
  { off := HBM_WRITES, words := 2, w64 := true, ctr := true },
  { off := HBM_CORRECTED, words := 2, w64 := true, ctr := true },
  { off := HBM_UNCORRECTABLE, words := 2, w64 := true, ctr := true },
  { off := HBM_POISON_CREATED, words := 2, w64 := true, ctr := true },
  { off := HBM_POISON_WRITES, words := 2, w64 := true, ctr := true },
  { off := HBM_SCRUB_CORRECTED, words := 2, w64 := true, ctr := true },
  { off := HBM_SCRUB_PASSES, words := 1 },
  { off := HBM_SCRUB_POS, words := 1 },
  { off := HBM_LAST_ERR_OFFSET, words := 2, w64 := true },
  { off := HBM_LAST_ERR_INFO, words := 1 },
  { off := HBM_CLASS_SEL, words := 1, rw := 0x7 },
  { off := HBM_CLASS_BYTES, words := 2, w64 := true, selOff := 0x80, selMask := 0x7, ctr := true },
  { off := HBM_CLASS_WAIT, words := 2, w64 := true, selOff := 0x80, selMask := 0x7, ctr := true },
  { off := HBM_PC_SEL, words := 1, rw := 0x3F },
  { off := HBM_PC_REQUESTS, words := 2, w64 := true, selOff := 0xA0, selMask := 0x3F, ctr := true },
  { off := HBM_PC_ROW_HITS, words := 2, w64 := true, selOff := 0xA0, selMask := 0x3F, ctr := true },
  { off := HBM_PC_QUEUE_MAX, words := 1, selOff := 0xA0, selMask := 0x3F, ctr := true }]


/-! CMD -/

/-- CMD_ID, RO, R430 -/
def CMD_ID : Nat := 0x0000
/-- CMD_CTRL, RW, W1S, R430 -/
def CMD_CTRL : Nat := 0x0004
/-- CMD_STATUS, RO, R430 -/
def CMD_STATUS : Nat := 0x0008
/-- CMD_INT_STATUS, W1C, R430 -/
def CMD_INT_STATUS : Nat := 0x000C
/-- CMD_INT_ENABLE, RW, R430 -/
def CMD_INT_ENABLE : Nat := 0x0010
/-- CMD_FW_VERSION, RO, R430 -/
def CMD_FW_VERSION : Nat := 0x0014
/-- CMD_HEARTBEAT, RO, R430 -/
def CMD_HEARTBEAT : Nat := 0x0018
/-- CMD_PACKETS, RO, R430 -/
def CMD_PACKETS : Nat := 0x0020
/-- CMD_REPLIES, RO, R430 -/
def CMD_REPLIES : Nat := 0x0028
/-- CMD_DELAYED, RO, R430 -/
def CMD_DELAYED : Nat := 0x0030
/-- CMD_REFUSED, RO, R430 -/
def CMD_REFUSED : Nat := 0x0038
/-- CMD_FAULTS, RO, R430 -/
def CMD_FAULTS : Nat := 0x0040
/-- CMD_RETRIES, RO, R430 -/
def CMD_RETRIES : Nat := 0x0048
/-- CMD_REPLIES_LOST, RO, R430 -/
def CMD_REPLIES_LOST : Nat := 0x0050
/-- CMD_INFLIGHT, RO, R430 -/
def CMD_INFLIGHT : Nat := 0x0058
/-- CMD_ADMIN_SEL, RW, R430 -/
def CMD_ADMIN_SEL : Nat := 0x0060
/-- CMD_ADMIN_CQ_BASE, RW, R430 -/
def CMD_ADMIN_CQ_BASE : Nat := 0x0068
/-- CMD_ADMIN_RQ_BASE, RW, R430 -/
def CMD_ADMIN_RQ_BASE : Nat := 0x0070
/-- CMD_ADMIN_CFG, RW, R430 -/
def CMD_ADMIN_CFG : Nat := 0x0078
/-- CMD_INST_SEL, RW, R430 -/
def CMD_INST_SEL : Nat := 0x0080
/-- CMD_INST_INFLIGHT, RO, R430 -/
def CMD_INST_INFLIGHT : Nat := 0x0084
/-- CMD_INST_DELAYED, RO, R430 -/
def CMD_INST_DELAYED : Nat := 0x0088
/-- CMD_INST_FORAGER, RO, R430 -/
def CMD_INST_FORAGER : Nat := 0x008C
/-- CMD_INST_CLUSTER_TIME, RO, R430 -/
def CMD_INST_CLUSTER_TIME : Nat := 0x0090
/-- CMD_INST_LAST_REFUSAL, RO, R430 -/
def CMD_INST_LAST_REFUSAL : Nat := 0x0094

/-- The register map of a CMD block. -/
def mapCMD : List RegDesc := [
  { off := CMD_ID, words := 1 },
  { off := CMD_CTRL, words := 1, rw := 0x1, w1s := 0x2, reset := 0x1 },
  { off := CMD_STATUS, words := 1 },
  { off := CMD_INT_STATUS, words := 1, w1c := 0x1F },
  { off := CMD_INT_ENABLE, words := 1, rw := 0x1F },
  { off := CMD_FW_VERSION, words := 1 },
  { off := CMD_HEARTBEAT, words := 1 },
  { off := CMD_PACKETS, words := 2, w64 := true, ctr := true },
  { off := CMD_REPLIES, words := 2, w64 := true, ctr := true },
  { off := CMD_DELAYED, words := 2, w64 := true, ctr := true },
  { off := CMD_REFUSED, words := 2, w64 := true, ctr := true },
  { off := CMD_FAULTS, words := 2, w64 := true, ctr := true },
  { off := CMD_RETRIES, words := 2, w64 := true, ctr := true },
  { off := CMD_REPLIES_LOST, words := 2, w64 := true, ctr := true },
  { off := CMD_INFLIGHT, words := 1 },
  { off := CMD_ADMIN_SEL, words := 1, rw := 0x7 },
  { off := CMD_ADMIN_CQ_BASE, words := 2, w64 := true, rw := 0xFFFFFFFF, selOff := 0x60, selMask := 0x7 },
  { off := CMD_ADMIN_RQ_BASE, words := 2, w64 := true, rw := 0xFFFFFFFF, selOff := 0x60, selMask := 0x7 },
  { off := CMD_ADMIN_CFG, words := 1, rw := 0xFFF7F, reset := 0x4, selOff := 0x60, selMask := 0x7 },
  { off := CMD_INST_SEL, words := 1, rw := 0x7 },
  { off := CMD_INST_INFLIGHT, words := 1, selOff := 0x80, selMask := 0x7 },
  { off := CMD_INST_DELAYED, words := 1, selOff := 0x80, selMask := 0x7 },
  { off := CMD_INST_FORAGER, words := 1, selOff := 0x80, selMask := 0x7 },
  { off := CMD_INST_CLUSTER_TIME, words := 1, selOff := 0x80, selMask := 0x7 },
  { off := CMD_INST_LAST_REFUSAL, words := 1, selOff := 0x80, selMask := 0x7 }]


/-! SEAL -/

/-- SEAL_ID, RO, R433 -/
def SEAL_ID : Nat := 0x0000
/-- SEAL_CTRL, RW, W1S, R433 -/
def SEAL_CTRL : Nat := 0x0004
/-- SEAL_STATUS, RO, R433 -/
def SEAL_STATUS : Nat := 0x0008
/-- SEAL_INT_STATUS, W1C, R433 -/
def SEAL_INT_STATUS : Nat := 0x000C
/-- SEAL_INT_ENABLE, RW, R433 -/
def SEAL_INT_ENABLE : Nat := 0x0010
/-- SEAL_SIGNALS, RO, R433 -/
def SEAL_SIGNALS : Nat := 0x0020
/-- SEAL_STALE, RO, R433 -/
def SEAL_STALE : Nat := 0x0028
/-- SEAL_WAITS, RO, R433 -/
def SEAL_WAITS : Nat := 0x0030
/-- SEAL_TIMEOUTS, RO, R433 -/
def SEAL_TIMEOUTS : Nat := 0x0038
/-- SEAL_AT_DEADLINE, RO, R433 -/
def SEAL_AT_DEADLINE : Nat := 0x0040
/-- SEAL_SATURATED, RO, R433 -/
def SEAL_SATURATED : Nat := 0x0044
/-- SEAL_FREE_COUNT, RO, R433 -/
def SEAL_FREE_COUNT : Nat := 0x0048
/-- SEAL_WAITS_PENDING, RO, R433 -/
def SEAL_WAITS_PENDING : Nat := 0x004C
/-- SEAL_SEL, RW, R433 -/
def SEAL_SEL : Nat := 0x0060
/-- SEAL_COUNTER, RO, R433 -/
def SEAL_COUNTER : Nat := 0x0064
/-- SEAL_TARGET, RO, R433 -/
def SEAL_TARGET : Nat := 0x0068
/-- SEAL_INFO, RO, R433 -/
def SEAL_INFO : Nat := 0x006C
/-- SEAL_QUEUE_SEL, RW, R433 -/
def SEAL_QUEUE_SEL : Nat := 0x0080
/-- SEAL_QUEUE_CFG, RO, R433 -/
def SEAL_QUEUE_CFG : Nat := 0x0084
/-- SEAL_QUEUE_BASE, RO, R433 -/
def SEAL_QUEUE_BASE : Nat := 0x0088
/-- SEAL_QUEUE_HEAD, RO, R433 -/
def SEAL_QUEUE_HEAD : Nat := 0x0090
/-- SEAL_QUEUE_TAIL, RO, R433 -/
def SEAL_QUEUE_TAIL : Nat := 0x0094
/-- SEAL_QUEUE_STATE, RO, R433 -/
def SEAL_QUEUE_STATE : Nat := 0x0098
/-- SEAL_QUEUE_OVERRUNS, RO, R433 -/
def SEAL_QUEUE_OVERRUNS : Nat := 0x009C

/-- The register map of a SEAL block. -/
def mapSEAL : List RegDesc := [
  { off := SEAL_ID, words := 1 },
  { off := SEAL_CTRL, words := 1, rw := 0x1, w1s := 0x2, reset := 0x1 },
  { off := SEAL_STATUS, words := 1 },
  { off := SEAL_INT_STATUS, words := 1, w1c := 0xF },
  { off := SEAL_INT_ENABLE, words := 1, rw := 0xF },
  { off := SEAL_SIGNALS, words := 2, w64 := true, ctr := true },
  { off := SEAL_STALE, words := 2, w64 := true, ctr := true },
  { off := SEAL_WAITS, words := 2, w64 := true, ctr := true },
  { off := SEAL_TIMEOUTS, words := 2, w64 := true, ctr := true },
  { off := SEAL_AT_DEADLINE, words := 1, ctr := true },
  { off := SEAL_SATURATED, words := 1, ctr := true },
  { off := SEAL_FREE_COUNT, words := 1 },
  { off := SEAL_WAITS_PENDING, words := 1 },
  { off := SEAL_SEL, words := 1, rw := 0x3FFF },
  { off := SEAL_COUNTER, words := 1, selOff := 0x60, selMask := 0x3FFF },
  { off := SEAL_TARGET, words := 1, selOff := 0x60, selMask := 0x3FFF },
  { off := SEAL_INFO, words := 1, selOff := 0x60, selMask := 0x3FFF },
  { off := SEAL_QUEUE_SEL, words := 1, rw := 0xFFF },
  { off := SEAL_QUEUE_CFG, words := 1, selOff := 0x80, selMask := 0xFFF },
  { off := SEAL_QUEUE_BASE, words := 2, w64 := true, selOff := 0x80, selMask := 0xFFF },
  { off := SEAL_QUEUE_HEAD, words := 1, selOff := 0x80, selMask := 0xFFF },
  { off := SEAL_QUEUE_TAIL, words := 1, selOff := 0x80, selMask := 0xFFF },
  { off := SEAL_QUEUE_STATE, words := 1, selOff := 0x80, selMask := 0xFFF },
  { off := SEAL_QUEUE_OVERRUNS, words := 1, selOff := 0x80, selMask := 0xFFF }]


/-! FAB -/

/-- FAB_ID, RO, R507 -/
def FAB_ID : Nat := 0x0000
/-- FAB_CTRL, RW, W1S, R507 -/
def FAB_CTRL : Nat := 0x0004
/-- FAB_STATUS, RO, R507 -/
def FAB_STATUS : Nat := 0x0008
/-- FAB_INT_STATUS, W1C, R507 -/
def FAB_INT_STATUS : Nat := 0x000C
/-- FAB_INT_ENABLE, RW, R507 -/
def FAB_INT_ENABLE : Nat := 0x0010
/-- FAB_NODE, RO, R507 -/
def FAB_NODE : Nat := 0x0014
/-- FAB_HOP_LIMIT, RO, R507 -/
def FAB_HOP_LIMIT : Nat := 0x0018
/-- FAB_PLATE_EPOCH, RO, R507 -/
def FAB_PLATE_EPOCH : Nat := 0x0020
/-- FAB_PLATE_DIGEST, RO, R507 -/
def FAB_PLATE_DIGEST : Nat := 0x0028
/-- FAB_STAGED_EPOCH, RO, R507 -/
def FAB_STAGED_EPOCH : Nat := 0x0038
/-- FAB_SWITCH_TIME, RO, R507 -/
def FAB_SWITCH_TIME : Nat := 0x0040
/-- FAB_TAGS_OUT, RO, R507 -/
def FAB_TAGS_OUT : Nat := 0x0048
/-- FAB_PORT_SEL, RW, R507 -/
def FAB_PORT_SEL : Nat := 0x0050
/-- FAB_PORT_CTRL, RW, W1S, R507 -/
def FAB_PORT_CTRL : Nat := 0x0054
/-- FAB_PORT_STATE, RO, R507 -/
def FAB_PORT_STATE : Nat := 0x0058
/-- FAB_PORT_PEER, RO, R507 -/
def FAB_PORT_PEER : Nat := 0x005C
/-- FAB_PORT_LENGTH, RO, R507 -/
def FAB_PORT_LENGTH : Nat := 0x0060
/-- FAB_PORT_OPTICS, RO, R507 -/
def FAB_PORT_OPTICS : Nat := 0x0064
/-- FAB_PORT_FLITS_TX, RO, R507 -/
def FAB_PORT_FLITS_TX : Nat := 0x0068
/-- FAB_PORT_FLITS_RX, RO, R507 -/
def FAB_PORT_FLITS_RX : Nat := 0x0070
/-- FAB_PORT_FEC_CORR, RO, R507 -/
def FAB_PORT_FEC_CORR : Nat := 0x0078
/-- FAB_PORT_FEC_UNCORR, RO, R507 -/
def FAB_PORT_FEC_UNCORR : Nat := 0x0080
/-- FAB_PORT_REPLAYS, RO, R507 -/
def FAB_PORT_REPLAYS : Nat := 0x0088
/-- FAB_PORT_FAILS, RO, R507 -/
def FAB_PORT_FAILS : Nat := 0x0090
/-- FAB_PORT_CREDIT_STALLS, RO, R507 -/
def FAB_PORT_CREDIT_STALLS : Nat := 0x0098
/-- FAB_TAG_TIMEOUTS, RO, R507 -/
def FAB_TAG_TIMEOUTS : Nat := 0x00A0
/-- FAB_TAG_RETRIES, RO, R507 -/
def FAB_TAG_RETRIES : Nat := 0x00A8
/-- FAB_LATE_REPLIES, RO, R507 -/
def FAB_LATE_REPLIES : Nat := 0x00B0
/-- FAB_DUP_DROPPED, RO, R507 -/
def FAB_DUP_DROPPED : Nat := 0x00B8
/-- FAB_HOP_DROPS, RO, R507 -/
def FAB_HOP_DROPS : Nat := 0x00C0
/-- FAB_NOROUTE_DROPS, RO, R507 -/
def FAB_NOROUTE_DROPS : Nat := 0x00C8
/-- FAB_QUAR_REFUSED, RO, R507 -/
def FAB_QUAR_REFUSED : Nat := 0x00D0
/-- FAB_RT_SEL, RW, R507 -/
def FAB_RT_SEL : Nat := 0x0100
/-- FAB_RT_ENTRY, RO, R507 -/
def FAB_RT_ENTRY : Nat := 0x0104
/-- FAB_INJ_STATUS, RO, R507 -/
def FAB_INJ_STATUS : Nat := 0x0110

/-- The register map of a FAB block. -/
def mapFAB : List RegDesc := [
  { off := FAB_ID, words := 1 },
  { off := FAB_CTRL, words := 1, rw := 0x1, w1s := 0x2, reset := 0x1 },
  { off := FAB_STATUS, words := 1 },
  { off := FAB_INT_STATUS, words := 1, w1c := 0xFF },
  { off := FAB_INT_ENABLE, words := 1, rw := 0xFF },
  { off := FAB_NODE, words := 1 },
  { off := FAB_HOP_LIMIT, words := 1 },
  { off := FAB_PLATE_EPOCH, words := 2, w64 := true },
  { off := FAB_PLATE_DIGEST, words := 4 },
  { off := FAB_STAGED_EPOCH, words := 2, w64 := true },
  { off := FAB_SWITCH_TIME, words := 2, w64 := true },
  { off := FAB_TAGS_OUT, words := 1 },
  { off := FAB_PORT_SEL, words := 1, rw := 0x1 },
  { off := FAB_PORT_CTRL, words := 1, rw := 0x1, w1s := 0x2, selOff := 0x50, selMask := 0x1 },
  { off := FAB_PORT_STATE, words := 1, selOff := 0x50, selMask := 0x1 },
  { off := FAB_PORT_PEER, words := 1, selOff := 0x50, selMask := 0x1 },
  { off := FAB_PORT_LENGTH, words := 1, selOff := 0x50, selMask := 0x1 },
  { off := FAB_PORT_OPTICS, words := 1, selOff := 0x50, selMask := 0x1 },
  { off := FAB_PORT_FLITS_TX, words := 2, w64 := true, selOff := 0x50, selMask := 0x1, ctr := true },
  { off := FAB_PORT_FLITS_RX, words := 2, w64 := true, selOff := 0x50, selMask := 0x1, ctr := true },
  { off := FAB_PORT_FEC_CORR, words := 2, w64 := true, selOff := 0x50, selMask := 0x1, ctr := true },
  { off := FAB_PORT_FEC_UNCORR, words := 2, w64 := true, selOff := 0x50, selMask := 0x1, ctr := true },
  { off := FAB_PORT_REPLAYS, words := 2, w64 := true, selOff := 0x50, selMask := 0x1, ctr := true },
  { off := FAB_PORT_FAILS, words := 1, selOff := 0x50, selMask := 0x1, ctr := true },
  { off := FAB_PORT_CREDIT_STALLS, words := 2, w64 := true, selOff := 0x50, selMask := 0x1, ctr := true },
  { off := FAB_TAG_TIMEOUTS, words := 2, w64 := true, ctr := true },
  { off := FAB_TAG_RETRIES, words := 2, w64 := true, ctr := true },
  { off := FAB_LATE_REPLIES, words := 2, w64 := true, ctr := true },
  { off := FAB_DUP_DROPPED, words := 2, w64 := true, ctr := true },
  { off := FAB_HOP_DROPS, words := 2, w64 := true, ctr := true },
  { off := FAB_NOROUTE_DROPS, words := 2, w64 := true, ctr := true },
  { off := FAB_QUAR_REFUSED, words := 2, w64 := true, ctr := true },
  { off := FAB_RT_SEL, words := 1, rw := 0x3FFF },
  { off := FAB_RT_ENTRY, words := 1, selOff := 0x100, selMask := 0x3FFF },
  { off := FAB_INJ_STATUS, words := 1 }]


/-! PCI -/

/-- PCI_ID, RO, R576 -/
def PCI_ID : Nat := 0x0000
/-- PCI_CTRL, RW, W1S, R576 -/
def PCI_CTRL : Nat := 0x0004
/-- PCI_STATUS, RO, R576 -/
def PCI_STATUS : Nat := 0x0008
/-- PCI_INT_STATUS, W1C, R576 -/
def PCI_INT_STATUS : Nat := 0x000C
/-- PCI_INT_ENABLE, RW, R576 -/
def PCI_INT_ENABLE : Nat := 0x0010
/-- PCI_LINK, RO, R576 -/
def PCI_LINK : Nat := 0x0014
/-- PCI_BAR2_BASE, RWL, R576 -/
def PCI_BAR2_BASE : Nat := 0x0018
/-- PCI_VF_SEL, RW, R576 -/
def PCI_VF_SEL : Nat := 0x0020
/-- PCI_VF_BAR2_BASE, RWL, R576 -/
def PCI_VF_BAR2_BASE : Nat := 0x0028
/-- PCI_RX_TLPS, RO, R576 -/
def PCI_RX_TLPS : Nat := 0x0040
/-- PCI_TX_TLPS, RO, R576 -/
def PCI_TX_TLPS : Nat := 0x0048
/-- PCI_CORR_ERRS, RO, R576 -/
def PCI_CORR_ERRS : Nat := 0x0050
/-- PCI_UR_SENT, RO, R576 -/
def PCI_UR_SENT : Nat := 0x0058
/-- PCI_CA_SENT, RO, R576 -/
def PCI_CA_SENT : Nat := 0x0060
/-- PCI_DROPPED_WRITES, RO, R576 -/
def PCI_DROPPED_WRITES : Nat := 0x0068
/-- PCI_FLRS, RO, R576 -/
def PCI_FLRS : Nat := 0x0070
/-- PCI_ATC_INVALS, RO, R576 -/
def PCI_ATC_INVALS : Nat := 0x0074

/-- The register map of a PCI block. -/
def mapPCI : List RegDesc := [
  { off := PCI_ID, words := 1 },
  { off := PCI_CTRL, words := 1, rw := 0x1, w1s := 0x2, reset := 0x1 },
  { off := PCI_STATUS, words := 1 },
  { off := PCI_INT_STATUS, words := 1, w1c := 0xF },
  { off := PCI_INT_ENABLE, words := 1, rw := 0xF },
  { off := PCI_LINK, words := 1 },
  { off := PCI_BAR2_BASE, words := 2, w64 := true, rwl := 0xFFFFFFFF },
  { off := PCI_VF_SEL, words := 1, rw := 0xF },
  { off := PCI_VF_BAR2_BASE, words := 2, w64 := true, rwl := 0xFFFFFFFF, selOff := 0x20, selMask := 0xF },
  { off := PCI_RX_TLPS, words := 2, w64 := true, ctr := true },
  { off := PCI_TX_TLPS, words := 2, w64 := true, ctr := true },
  { off := PCI_CORR_ERRS, words := 2, w64 := true, ctr := true },
  { off := PCI_UR_SENT, words := 2, w64 := true, ctr := true },
  { off := PCI_CA_SENT, words := 2, w64 := true, ctr := true },
  { off := PCI_DROPPED_WRITES, words := 2, w64 := true, ctr := true },
  { off := PCI_FLRS, words := 1, ctr := true },
  { off := PCI_ATC_INVALS, words := 1, ctr := true }]


/-! ETH -/

/-- ETH_ID, RO, R578 -/
def ETH_ID : Nat := 0x0000
/-- ETH_CTRL, RW, W1S, R578 -/
def ETH_CTRL : Nat := 0x0004
/-- ETH_STATUS, RO, R578 -/
def ETH_STATUS : Nat := 0x0008
/-- ETH_INT_STATUS, W1C, R578 -/
def ETH_INT_STATUS : Nat := 0x000C
/-- ETH_INT_ENABLE, RW, R578 -/
def ETH_INT_ENABLE : Nat := 0x0010
/-- ETH_PTP_OFFSET, RO, R578 -/
def ETH_PTP_OFFSET : Nat := 0x0014
/-- ETH_PTP_GM_ID, RO, R578 -/
def ETH_PTP_GM_ID : Nat := 0x0018
/-- ETH_PPS_OFFSET, RO, R578 -/
def ETH_PPS_OFFSET : Nat := 0x0020
/-- ETH_PORT_SEL, RW, R578 -/
def ETH_PORT_SEL : Nat := 0x0040
/-- ETH_PORT_CTRL, RWL, R578 -/
def ETH_PORT_CTRL : Nat := 0x0044
/-- ETH_PORT_STATE, RO, R578 -/
def ETH_PORT_STATE : Nat := 0x0048
/-- ETH_PORT_IPV4, RWL, R578 -/
def ETH_PORT_IPV4 : Nat := 0x004C
/-- ETH_PORT_IPV6, RWL, R578 -/
def ETH_PORT_IPV6 : Nat := 0x0050
/-- ETH_PORT_LIST_SEL, RW, R578 -/
def ETH_PORT_LIST_SEL : Nat := 0x0060
/-- ETH_PORT_LIST, RWL, R578 -/
def ETH_PORT_LIST : Nat := 0x0064
/-- ETH_PARTNER_ID, RO, R578 -/
def ETH_PARTNER_ID : Nat := 0x0070
/-- ETH_RX_FRAMES, RO, R578 -/
def ETH_RX_FRAMES : Nat := 0x0080
/-- ETH_RX_FCS_ERR, RO, R578 -/
def ETH_RX_FCS_ERR : Nat := 0x0088
/-- ETH_RX_LEN_ERR, RO, R578 -/
def ETH_RX_LEN_ERR : Nat := 0x0090
/-- ETH_RX_FILTERED, RO, R578 -/
def ETH_RX_FILTERED : Nat := 0x0098
/-- ETH_RX_IP_ERR, RO, R578 -/
def ETH_RX_IP_ERR : Nat := 0x00A0
/-- ETH_RX_CSUM_ERR, RO, R578 -/
def ETH_RX_CSUM_ERR : Nat := 0x00A8
/-- ETH_FEC_CORR, RO, R578 -/
def ETH_FEC_CORR : Nat := 0x00B0
/-- ETH_FEC_UNCORR, RO, R578 -/
def ETH_FEC_UNCORR : Nat := 0x00B8
/-- ETH_TX_FRAMES, RO, R578 -/
def ETH_TX_FRAMES : Nat := 0x00C0
/-- ETH_SAFE_DISCARDS, RO, R578 -/
def ETH_SAFE_DISCARDS : Nat := 0x00C8
/-- ETH_SAFE_DST_SEL, RW, R578 -/
def ETH_SAFE_DST_SEL : Nat := 0x0100
/-- ETH_SAFE_DST, RWL, R578 -/
def ETH_SAFE_DST : Nat := 0x0110

/-- The register map of a ETH block. -/
def mapETH : List RegDesc := [
  { off := ETH_ID, words := 1 },
  { off := ETH_CTRL, words := 1, rw := 0x1, w1s := 0x2, reset := 0x1 },
  { off := ETH_STATUS, words := 1 },
  { off := ETH_INT_STATUS, words := 1, w1c := 0x1F },
  { off := ETH_INT_ENABLE, words := 1, rw := 0x1F },
  { off := ETH_PTP_OFFSET, words := 1 },
  { off := ETH_PTP_GM_ID, words := 2, w64 := true },
  { off := ETH_PPS_OFFSET, words := 1 },
  { off := ETH_PORT_SEL, words := 1, rw := 0x7 },
  { off := ETH_PORT_CTRL, words := 1, rwl := 0xFFF, selOff := 0x40, selMask := 0x7 },
  { off := ETH_PORT_STATE, words := 1, selOff := 0x40, selMask := 0x7 },
  { off := ETH_PORT_IPV4, words := 1, rwl := 0xFFFFFFFF, selOff := 0x40, selMask := 0x7 },
  { off := ETH_PORT_IPV6, words := 4, rwl := 0xFFFFFFFF, selOff := 0x40, selMask := 0x7 },
  { off := ETH_PORT_LIST_SEL, words := 1, rw := 0x1F },
  { off := ETH_PORT_LIST, words := 2, w64 := true, rwl := 0xFFFFFFFF, selOff := 0x40, selMask := 0x7 },
  { off := ETH_PARTNER_ID, words := 4, selOff := 0x40, selMask := 0x7 },
  { off := ETH_RX_FRAMES, words := 2, w64 := true, selOff := 0x40, selMask := 0x7, ctr := true },
  { off := ETH_RX_FCS_ERR, words := 2, w64 := true, selOff := 0x40, selMask := 0x7, ctr := true },
  { off := ETH_RX_LEN_ERR, words := 2, w64 := true, selOff := 0x40, selMask := 0x7, ctr := true },
  { off := ETH_RX_FILTERED, words := 2, w64 := true, selOff := 0x40, selMask := 0x7, ctr := true },
  { off := ETH_RX_IP_ERR, words := 2, w64 := true, selOff := 0x40, selMask := 0x7, ctr := true },
  { off := ETH_RX_CSUM_ERR, words := 2, w64 := true, selOff := 0x40, selMask := 0x7, ctr := true },
  { off := ETH_FEC_CORR, words := 2, w64 := true, selOff := 0x40, selMask := 0x7, ctr := true },
  { off := ETH_FEC_UNCORR, words := 2, w64 := true, selOff := 0x40, selMask := 0x7, ctr := true },
  { off := ETH_TX_FRAMES, words := 2, w64 := true, selOff := 0x40, selMask := 0x7, ctr := true },
  { off := ETH_SAFE_DISCARDS, words := 1, ctr := true },
  { off := ETH_SAFE_DST_SEL, words := 1, rw := 0x3 },
  { off := ETH_SAFE_DST, words := 8, rwl := 0xFFFFFFFF, selOff := 0x100, selMask := 0x3 }]


/-! D2D -/

/-- D2D_ID, RO, R580 -/
def D2D_ID : Nat := 0x0000
/-- D2D_CTRL, RW, W1S, R580 -/
def D2D_CTRL : Nat := 0x0004
/-- D2D_STATUS, RO, R580 -/
def D2D_STATUS : Nat := 0x0008
/-- D2D_INT_STATUS, W1C, R580 -/
def D2D_INT_STATUS : Nat := 0x000C
/-- D2D_INT_ENABLE, RW, R580 -/
def D2D_INT_ENABLE : Nat := 0x0010
/-- D2D_MOD_SEL, RW, R580 -/
def D2D_MOD_SEL : Nat := 0x0020
/-- D2D_MOD_STATE, RO, R580 -/
def D2D_MOD_STATE : Nat := 0x0024
/-- D2D_FLITS_TX, RO, R580 -/
def D2D_FLITS_TX : Nat := 0x0028
/-- D2D_FLITS_RX, RO, R580 -/
def D2D_FLITS_RX : Nat := 0x0030
/-- D2D_RETRIES, RO, R580 -/
def D2D_RETRIES : Nat := 0x0038
/-- D2D_FAILS, RO, R580 -/
def D2D_FAILS : Nat := 0x0040
/-- D2D_RESENDS, RO, R580 -/
def D2D_RESENDS : Nat := 0x0048
/-- D2D_TIMEOUTS, RO, R580 -/
def D2D_TIMEOUTS : Nat := 0x0050

/-- The register map of a D2D block. -/
def mapD2D : List RegDesc := [
  { off := D2D_ID, words := 1 },
  { off := D2D_CTRL, words := 1, rw := 0x1, w1s := 0x6, reset := 0x1 },
  { off := D2D_STATUS, words := 1 },
  { off := D2D_INT_STATUS, words := 1, w1c := 0x7 },
  { off := D2D_INT_ENABLE, words := 1, rw := 0x7 },
  { off := D2D_MOD_SEL, words := 1, rw := 0x1 },
  { off := D2D_MOD_STATE, words := 1, selOff := 0x20, selMask := 0x1 },
  { off := D2D_FLITS_TX, words := 2, w64 := true, selOff := 0x20, selMask := 0x1, ctr := true },
  { off := D2D_FLITS_RX, words := 2, w64 := true, selOff := 0x20, selMask := 0x1, ctr := true },
  { off := D2D_RETRIES, words := 2, w64 := true, selOff := 0x20, selMask := 0x1, ctr := true },
  { off := D2D_FAILS, words := 1, selOff := 0x20, selMask := 0x1, ctr := true },
  { off := D2D_RESENDS, words := 2, w64 := true, selOff := 0x20, selMask := 0x1, ctr := true },
  { off := D2D_TIMEOUTS, words := 2, w64 := true, selOff := 0x20, selMask := 0x1, ctr := true }]


/-! INS -/

/-- INS_ID, RO, R465 -/
def INS_ID : Nat := 0x0000
/-- INS_CTRL, RW, W1S, R465 -/
def INS_CTRL : Nat := 0x0004
/-- INS_STATUS, RO, R465 -/
def INS_STATUS : Nat := 0x0008
/-- INS_INT_STATUS, W1C, R465 -/
def INS_INT_STATUS : Nat := 0x000C
/-- INS_INT_ENABLE, RW, R465 -/
def INS_INT_ENABLE : Nat := 0x0010
/-- INS_COMMIT_STATUS, RO, R465 -/
def INS_COMMIT_STATUS : Nat := 0x0014
/-- INS_RESET, W1S, R465 -/
def INS_RESET : Nat := 0x0018
/-- INS_RESET_BUSY, RO, R465 -/
def INS_RESET_BUSY : Nat := 0x001C
/-- INS_GEN, RO, R465 -/
def INS_GEN : Nat := 0x0020
/-- INS_PF_INST, RWL, R465 -/
def INS_PF_INST : Nat := 0x0028
/-- INS_SEL, RW, R465 -/
def INS_SEL : Nat := 0x0040
/-- INS_DATA, RW, R465 -/
def INS_DATA : Nat := 0x0050
/-- INS_FW_SEL, RW, R465 -/
def INS_FW_SEL : Nat := 0x0100
/-- INS_FW_REFUSED, RO, R465 -/
def INS_FW_REFUSED : Nat := 0x0108
/-- INS_LATE_DISCARDS, RO, R465 -/
def INS_LATE_DISCARDS : Nat := 0x0110
/-- INS_I0_VIOLATIONS, RO, R465 -/
def INS_I0_VIOLATIONS : Nat := 0x0118
/-- INS_LAST_REFUSAL_ADDR, RO, R465 -/
def INS_LAST_REFUSAL_ADDR : Nat := 0x0120
/-- INS_LAST_REFUSAL_INFO, RO, R465 -/
def INS_LAST_REFUSAL_INFO : Nat := 0x0128

/-- The register map of a INS block. -/
def mapINS : List RegDesc := [
  { off := INS_ID, words := 1 },
  { off := INS_CTRL, words := 1, rw := 0x1, w1s := 0x6, reset := 0x1 },
  { off := INS_STATUS, words := 1 },
  { off := INS_INT_STATUS, words := 1, w1c := 0x1F },
  { off := INS_INT_ENABLE, words := 1, rw := 0x1F },
  { off := INS_COMMIT_STATUS, words := 1 },
  { off := INS_RESET, words := 1, w1s := 0xFF },
  { off := INS_RESET_BUSY, words := 1 },
  { off := INS_GEN, words := 2, w64 := true },
  { off := INS_PF_INST, words := 1, rwl := 0x7, reset := 0x1 },
  { off := INS_SEL, words := 1, rw := 0x70F },
  { off := INS_DATA, words := 16, rw := 0xFFFFFFFF },
  { off := INS_FW_SEL, words := 1, rw := 0x7 },
  { off := INS_FW_REFUSED, words := 2, w64 := true, selOff := 0x100, selMask := 0x7, ctr := true },
  { off := INS_LATE_DISCARDS, words := 2, w64 := true, ctr := true },
  { off := INS_I0_VIOLATIONS, words := 2, w64 := true, ctr := true },
  { off := INS_LAST_REFUSAL_ADDR, words := 2, w64 := true },
  { off := INS_LAST_REFUSAL_INFO, words := 1 }]


/-! ROL -/

/-- ROL_ID, RO, R468 -/
def ROL_ID : Nat := 0x0000
/-- ROL_CTRL, RW, W1S, R468 -/
def ROL_CTRL : Nat := 0x0004
/-- ROL_STATUS, RO, R468 -/
def ROL_STATUS : Nat := 0x0008
/-- ROL_INT_STATUS, W1C, R468 -/
def ROL_INT_STATUS : Nat := 0x000C
/-- ROL_INT_ENABLE, RW, R468 -/
def ROL_INT_ENABLE : Nat := 0x0010
/-- ROL_NONCE, RO, R468 -/
def ROL_NONCE : Nat := 0x0020
/-- ROL_AUTH_ADDR, RW, R468 -/
def ROL_AUTH_ADDR : Nat := 0x0050
/-- ROL_AUTH_CTRL, W1S, R468 -/
def ROL_AUTH_CTRL : Nat := 0x0058
/-- ROL_AUTH_STATUS, RO, R468 -/
def ROL_AUTH_STATUS : Nat := 0x005C
/-- ROL_SESSION_SEL, RW, R468 -/
def ROL_SESSION_SEL : Nat := 0x0060
/-- ROL_SESSION_INFO, RO, R468 -/
def ROL_SESSION_INFO : Nat := 0x0064
/-- ROL_SESSION_SERIAL, RO, R468 -/
def ROL_SESSION_SERIAL : Nat := 0x0068
/-- ROL_LOCK_SEL, RW, R468 -/
def ROL_LOCK_SEL : Nat := 0x0080
/-- ROL_LOCK_CTRL, W1S, R468 -/
def ROL_LOCK_CTRL : Nat := 0x0084
/-- ROL_LOCK_STATE, RO, R468 -/
def ROL_LOCK_STATE : Nat := 0x0088
/-- ROL_AUDIT_NEXT, RO, R468 -/
def ROL_AUDIT_NEXT : Nat := 0x00A0
/-- ROL_AUDIT_FREE, RO, R468 -/
def ROL_AUDIT_FREE : Nat := 0x00A8
/-- ROL_AUDIT_CTRL, W1S, R468 -/
def ROL_AUDIT_CTRL : Nat := 0x00AC
/-- ROL_AUDIT_TRIM, RW, R468 -/
def ROL_AUDIT_TRIM : Nat := 0x00B0
/-- ROL_AUDIT_READ, RW, R468 -/
def ROL_AUDIT_READ : Nat := 0x00B8
/-- ROL_AUDIT_DATA, RO, R468 -/
def ROL_AUDIT_DATA : Nat := 0x00C0
/-- ROL_AUTH_FAILS, RO, R468 -/
def ROL_AUTH_FAILS : Nat := 0x0140
/-- ROL_UNRECORDED, RO, R468 -/
def ROL_UNRECORDED : Nat := 0x0144

/-- The register map of a ROL block. -/
def mapROL : List RegDesc := [
  { off := ROL_ID, words := 1 },
  { off := ROL_CTRL, words := 1, rw := 0x1, w1s := 0x2, reset := 0x1 },
  { off := ROL_STATUS, words := 1 },
  { off := ROL_INT_STATUS, words := 1, w1c := 0x1F },
  { off := ROL_INT_ENABLE, words := 1, rw := 0x1F },
  { off := ROL_NONCE, words := 12 },
  { off := ROL_AUTH_ADDR, words := 2, w64 := true, rw := 0xFFFFFFFF },
  { off := ROL_AUTH_CTRL, words := 1, w1s := 0x3 },
  { off := ROL_AUTH_STATUS, words := 1 },
  { off := ROL_SESSION_SEL, words := 1, rw := 0x3 },
  { off := ROL_SESSION_INFO, words := 1, selOff := 0x60, selMask := 0x3 },
  { off := ROL_SESSION_SERIAL, words := 1, selOff := 0x60, selMask := 0x3 },
  { off := ROL_LOCK_SEL, words := 1, rw := 0x3FF },
  { off := ROL_LOCK_CTRL, words := 1, w1s := 0x3 },
  { off := ROL_LOCK_STATE, words := 1, selOff := 0x80, selMask := 0x3FF },
  { off := ROL_AUDIT_NEXT, words := 2, w64 := true },
  { off := ROL_AUDIT_FREE, words := 1 },
  { off := ROL_AUDIT_CTRL, words := 1, w1s := 0x1 },
  { off := ROL_AUDIT_TRIM, words := 2, w64 := true, rw := 0xFFFFFFFF },
  { off := ROL_AUDIT_READ, words := 2, w64 := true, rw := 0xFFFFFFFF },
  { off := ROL_AUDIT_DATA, words := 32 },
  { off := ROL_AUTH_FAILS, words := 1, ctr := true },
  { off := ROL_UNRECORDED, words := 1 }]


/-! CST -/

/-- CST_ID, RO, R174 -/
def CST_ID : Nat := 0x0000
/-- CST_CTRL, RW, W1S, R174 -/
def CST_CTRL : Nat := 0x0004
/-- CST_STATUS, RO, R174 -/
def CST_STATUS : Nat := 0x0008
/-- CST_INT_STATUS, W1C, R174 -/
def CST_INT_STATUS : Nat := 0x000C
/-- CST_INT_ENABLE, RW, R174 -/
def CST_INT_ENABLE : Nat := 0x0010
/-- CST_SEG_ON, RW, R174 -/
def CST_SEG_ON : Nat := 0x0020
/-- CST_SEG_READY, RO, R174 -/
def CST_SEG_READY : Nat := 0x0028
/-- CST_PAR_LAST_OFFSET, RO, R174 -/
def CST_PAR_LAST_OFFSET : Nat := 0x0040
/-- CST_PAR_LAST_INFO, RO, R174 -/
def CST_PAR_LAST_INFO : Nat := 0x0044
/-- CST_PAR_COUNT, RO, R174 -/
def CST_PAR_COUNT : Nat := 0x0048
/-- CST_RETIRED_COUNT, RO, R174 -/
def CST_RETIRED_COUNT : Nat := 0x0050
/-- CST_RETIRE_SEL, RW, R174 -/
def CST_RETIRE_SEL : Nat := 0x0060
/-- CST_RETIRE_MAP, RO, R174 -/
def CST_RETIRE_MAP : Nat := 0x0064
/-- CST_BANK_SEL, RW, R174 -/
def CST_BANK_SEL : Nat := 0x0080
/-- CST_BANK_CONFLICTS, RO, R174 -/
def CST_BANK_CONFLICTS : Nat := 0x0088
/-- CST_BANK_ACCESSES, RO, R174 -/
def CST_BANK_ACCESSES : Nat := 0x0090
/-- CST_PORT_SEL, RW, R174 -/
def CST_PORT_SEL : Nat := 0x00A0
/-- CST_PORT_STALLS, RO, R174 -/
def CST_PORT_STALLS : Nat := 0x00A8
/-- CST_PORT_REL_FULL, RO, R174 -/
def CST_PORT_REL_FULL : Nat := 0x00B0
/-- CST_PORT_REL_TIMEOUT, RO, R174 -/
def CST_PORT_REL_TIMEOUT : Nat := 0x00B8
/-- CST_PORT_REL_BOUNDARY, RO, R174 -/
def CST_PORT_REL_BOUNDARY : Nat := 0x00C0
/-- CST_RWIN_SEL, RW, R174 -/
def CST_RWIN_SEL : Nat := 0x0100
/-- CST_RWIN_DATA, RO, R174 -/
def CST_RWIN_DATA : Nat := 0x0110
/-- CST_RWIN_REFUSED, RO, R174 -/
def CST_RWIN_REFUSED : Nat := 0x0130

/-- The register map of a CST block. -/
def mapCST : List RegDesc := [
  { off := CST_ID, words := 1 },
  { off := CST_CTRL, words := 1, rw := 0x1, w1s := 0x2, reset := 0x1 },
  { off := CST_STATUS, words := 1 },
  { off := CST_INT_STATUS, words := 1, w1c := 0x3F },
  { off := CST_INT_ENABLE, words := 1, rw := 0x3F },
  { off := CST_SEG_ON, words := 2, w64 := true, rw := 0xFFFFFFFF, reset := 0xFFFFFFFF },
  { off := CST_SEG_READY, words := 2, w64 := true },
  { off := CST_PAR_LAST_OFFSET, words := 1 },
  { off := CST_PAR_LAST_INFO, words := 1 },
  { off := CST_PAR_COUNT, words := 2, w64 := true },
  { off := CST_RETIRED_COUNT, words := 1 },
  { off := CST_RETIRE_SEL, words := 1, rw := 0xFF },
  { off := CST_RETIRE_MAP, words := 1, selOff := 0x60, selMask := 0xFF },
  { off := CST_BANK_SEL, words := 1, rw := 0x3F },
  { off := CST_BANK_CONFLICTS, words := 2, w64 := true, selOff := 0x80, selMask := 0x3F, ctr := true },
  { off := CST_BANK_ACCESSES, words := 2, w64 := true, selOff := 0x80, selMask := 0x3F, ctr := true },
  { off := CST_PORT_SEL, words := 1, rw := 0x3F },
  { off := CST_PORT_STALLS, words := 2, w64 := true, selOff := 0xA0, selMask := 0x3F, ctr := true },
  { off := CST_PORT_REL_FULL, words := 2, w64 := true, selOff := 0xA0, selMask := 0x3F, ctr := true },
  { off := CST_PORT_REL_TIMEOUT, words := 2, w64 := true, selOff := 0xA0, selMask := 0x3F, ctr := true },
  { off := CST_PORT_REL_BOUNDARY, words := 2, w64 := true, selOff := 0xA0, selMask := 0x3F, ctr := true },
  { off := CST_RWIN_SEL, words := 1, rw := 0x3F },
  { off := CST_RWIN_DATA, words := 8, selOff := 0x100, selMask := 0x3F },
  { off := CST_RWIN_REFUSED, words := 2, w64 := true }]


/-! SEQ -/

/-- SEQ_ID, RO, R203 -/
def SEQ_ID : Nat := 0x0000
/-- SEQ_CTRL, RW, W1S, R203 -/
def SEQ_CTRL : Nat := 0x0004
/-- SEQ_STATUS, RO, R203 -/
def SEQ_STATUS : Nat := 0x0008
/-- SEQ_INT_STATUS, W1C, R203 -/
def SEQ_INT_STATUS : Nat := 0x000C
/-- SEQ_INT_ENABLE, RW, R203 -/
def SEQ_INT_ENABLE : Nat := 0x0010
/-- SEQ_TASK_ID, RO, R203 -/
def SEQ_TASK_ID : Nat := 0x0014
/-- SEQ_PC, RO, R203 -/
def SEQ_PC : Nat := 0x0018
/-- SEQ_TOKENS_LO, RO, R203 -/
def SEQ_TOKENS_LO : Nat := 0x0020
/-- SEQ_TOKENS_HI, RO, R203 -/
def SEQ_TOKENS_HI : Nat := 0x0024
/-- SEQ_LOOP, RO, R203 -/
def SEQ_LOOP : Nat := 0x0030
/-- SEQ_FAULT_OP, RO, R203 -/
def SEQ_FAULT_OP : Nat := 0x0040
/-- SEQ_FAULT_INFO, RO, R203 -/
def SEQ_FAULT_INFO : Nat := 0x0044
/-- SEQ_OPS_DISPATCHED, RO, R203 -/
def SEQ_OPS_DISPATCHED : Nat := 0x0050
/-- SEQ_OPS_RERUN, RO, R203 -/
def SEQ_OPS_RERUN : Nat := 0x0058
/-- SEQ_DISPATCH_STALLS, RO, R203 -/
def SEQ_DISPATCH_STALLS : Nat := 0x0060
/-- SEQ_WRAP_OPS, RO, R203 -/
def SEQ_WRAP_OPS : Nat := 0x0068
/-- SEQ_SAT_OPS, RO, R203 -/
def SEQ_SAT_OPS : Nat := 0x0070
/-- SEQ_ENGINE_SEL, RW, R203 -/
def SEQ_ENGINE_SEL : Nat := 0x0080
/-- SEQ_ENGINE_QUEUE, RO, R203 -/
def SEQ_ENGINE_QUEUE : Nat := 0x0084

/-- The register map of a SEQ block. -/
def mapSEQ : List RegDesc := [
  { off := SEQ_ID, words := 1 },
  { off := SEQ_CTRL, words := 1, rw := 0x1, w1s := 0x2, reset := 0x1 },
  { off := SEQ_STATUS, words := 1 },
  { off := SEQ_INT_STATUS, words := 1, w1c := 0xF },
  { off := SEQ_INT_ENABLE, words := 1, rw := 0xF },
  { off := SEQ_TASK_ID, words := 1 },
  { off := SEQ_PC, words := 1 },
  { off := SEQ_TOKENS_LO, words := 1 },
  { off := SEQ_TOKENS_HI, words := 1 },
  { off := SEQ_LOOP, words := 4 },
  { off := SEQ_FAULT_OP, words := 1 },
  { off := SEQ_FAULT_INFO, words := 1 },
  { off := SEQ_OPS_DISPATCHED, words := 2, w64 := true, ctr := true },
  { off := SEQ_OPS_RERUN, words := 2, w64 := true, ctr := true },
  { off := SEQ_DISPATCH_STALLS, words := 2, w64 := true, ctr := true },
  { off := SEQ_WRAP_OPS, words := 2, w64 := true, ctr := true },
  { off := SEQ_SAT_OPS, words := 2, w64 := true, ctr := true },
  { off := SEQ_ENGINE_SEL, words := 1, rw := 0x7 },
  { off := SEQ_ENGINE_QUEUE, words := 1, selOff := 0x80, selMask := 0x7 }]


/-! DTE -/

/-- DTE_ID, RO, R240 -/
def DTE_ID : Nat := 0x0000
/-- DTE_CTRL, RW, W1S, R240 -/
def DTE_CTRL : Nat := 0x0004
/-- DTE_STATUS, RO, R240 -/
def DTE_STATUS : Nat := 0x0008
/-- DTE_BUSY_CYCLES, RO, R240 -/
def DTE_BUSY_CYCLES : Nat := 0x0010
/-- DTE_BROADCASTS, RO, R240 -/
def DTE_BROADCASTS : Nat := 0x0018
/-- DTE_ZERO_SKIPS, RO, R240 -/
def DTE_ZERO_SKIPS : Nat := 0x0020
/-- DTE_BUBBLES, RO, R240 -/
def DTE_BUBBLES : Nat := 0x0028
/-- DTE_WLOAD_WAIT, RO, R240 -/
def DTE_WLOAD_WAIT : Nat := 0x0030
/-- DTE_SKID_FULL_CYCLES, RO, R240 -/
def DTE_SKID_FULL_CYCLES : Nat := 0x0038
/-- DTE_DRAIN_HAZARD, RO, R240 -/
def DTE_DRAIN_HAZARD : Nat := 0x0040
/-- DTE_SAT_COUNT, RO, R240 -/
def DTE_SAT_COUNT : Nat := 0x0048
/-- DTE_GROUP_SEL, RW, R240 -/
def DTE_GROUP_SEL : Nat := 0x0050
/-- DTE_GROUP_STALLS, RO, R240 -/
def DTE_GROUP_STALLS : Nat := 0x0058
/-- DTE_GROUP_SKID_MAX, RO, R240 -/
def DTE_GROUP_SKID_MAX : Nat := 0x0060
/-- DTE_FUSE_LANES, RO, R240 -/
def DTE_FUSE_LANES : Nat := 0x00C0
/-- DTE_FUSE_CELL_SEL, RW, R240 -/
def DTE_FUSE_CELL_SEL : Nat := 0x00C4
/-- DTE_FUSE_CELL, RO, R240 -/
def DTE_FUSE_CELL : Nat := 0x00C8

/-- The register map of a DTE block. -/
def mapDTE : List RegDesc := [
  { off := DTE_ID, words := 1 },
  { off := DTE_CTRL, words := 1, rw := 0x1, w1s := 0x2, reset := 0x1 },
  { off := DTE_STATUS, words := 1 },
  { off := DTE_BUSY_CYCLES, words := 2, w64 := true, ctr := true },
  { off := DTE_BROADCASTS, words := 2, w64 := true, ctr := true },
  { off := DTE_ZERO_SKIPS, words := 2, w64 := true, ctr := true },
  { off := DTE_BUBBLES, words := 2, w64 := true, ctr := true },
  { off := DTE_WLOAD_WAIT, words := 2, w64 := true, ctr := true },
  { off := DTE_SKID_FULL_CYCLES, words := 2, w64 := true, ctr := true },
  { off := DTE_DRAIN_HAZARD, words := 2, w64 := true, ctr := true },
  { off := DTE_SAT_COUNT, words := 1, ctr := true },
  { off := DTE_GROUP_SEL, words := 1, rw := 0x7 },
  { off := DTE_GROUP_STALLS, words := 2, w64 := true, selOff := 0x50, selMask := 0x7, ctr := true },
  { off := DTE_GROUP_SKID_MAX, words := 1, selOff := 0x50, selMask := 0x7, ctr := true },
  { off := DTE_FUSE_LANES, words := 1 },
  { off := DTE_FUSE_CELL_SEL, words := 1, rw := 0x3F },
  { off := DTE_FUSE_CELL, words := 1, selOff := 0xC4, selMask := 0x3F }]


/-! STE -/

/-- STE_ID, RO, R278 -/
def STE_ID : Nat := 0x0000
/-- STE_CTRL, RW, W1S, R278 -/
def STE_CTRL : Nat := 0x0004
/-- STE_STATUS, RO, R278 -/
def STE_STATUS : Nat := 0x0008
/-- STE_BUSY_CYCLES, RO, R278 -/
def STE_BUSY_CYCLES : Nat := 0x0010
/-- STE_BROADCASTS, RO, R278 -/
def STE_BROADCASTS : Nat := 0x0018
/-- STE_ZERO_SKIPS, RO, R278 -/
def STE_ZERO_SKIPS : Nat := 0x0020
/-- STE_BUBBLES, RO, R278 -/
def STE_BUBBLES : Nat := 0x0028
/-- STE_WLOAD_WAIT, RO, R278 -/
def STE_WLOAD_WAIT : Nat := 0x0030
/-- STE_SKID_FULL_CYCLES, RO, R278 -/
def STE_SKID_FULL_CYCLES : Nat := 0x0038
/-- STE_DRAIN_HAZARD, RO, R278 -/
def STE_DRAIN_HAZARD : Nat := 0x0040
/-- STE_SAT_COUNT, RO, R278 -/
def STE_SAT_COUNT : Nat := 0x0048
/-- STE_GROUP_SEL, RW, R278 -/
def STE_GROUP_SEL : Nat := 0x0050
/-- STE_GROUP_STALLS, RO, R278 -/
def STE_GROUP_STALLS : Nat := 0x0058
/-- STE_GROUP_SKID_MAX, RO, R278 -/
def STE_GROUP_SKID_MAX : Nat := 0x0060
/-- STE_ZRC_ROWS, RO, R278 -/
def STE_ZRC_ROWS : Nat := 0x0068
/-- STE_META_FAULTS, RO, R278 -/
def STE_META_FAULTS : Nat := 0x0070
/-- STE_META_LAST, RO, R278 -/
def STE_META_LAST : Nat := 0x0078
/-- STE_META_LAST_OFFSET, RO, R278 -/
def STE_META_LAST_OFFSET : Nat := 0x007C
/-- STE_PACK_DISCARDS, RO, R278 -/
def STE_PACK_DISCARDS : Nat := 0x0080

/-- The register map of a STE block. -/
def mapSTE : List RegDesc := [
  { off := STE_ID, words := 1 },
  { off := STE_CTRL, words := 1, rw := 0x1, w1s := 0x2, reset := 0x1 },
  { off := STE_STATUS, words := 1 },
  { off := STE_BUSY_CYCLES, words := 2, w64 := true, ctr := true },
  { off := STE_BROADCASTS, words := 2, w64 := true, ctr := true },
  { off := STE_ZERO_SKIPS, words := 2, w64 := true, ctr := true },
  { off := STE_BUBBLES, words := 2, w64 := true, ctr := true },
  { off := STE_WLOAD_WAIT, words := 2, w64 := true, ctr := true },
  { off := STE_SKID_FULL_CYCLES, words := 2, w64 := true, ctr := true },
  { off := STE_DRAIN_HAZARD, words := 2, w64 := true, ctr := true },
  { off := STE_SAT_COUNT, words := 1, ctr := true },
  { off := STE_GROUP_SEL, words := 1, rw := 0x7 },
  { off := STE_GROUP_STALLS, words := 2, w64 := true, selOff := 0x50, selMask := 0x7, ctr := true },
  { off := STE_GROUP_SKID_MAX, words := 1, selOff := 0x50, selMask := 0x7, ctr := true },
  { off := STE_ZRC_ROWS, words := 2, w64 := true, ctr := true },
  { off := STE_META_FAULTS, words := 2, w64 := true, ctr := true },
  { off := STE_META_LAST, words := 1 },
  { off := STE_META_LAST_OFFSET, words := 1 },
  { off := STE_PACK_DISCARDS, words := 2, w64 := true, ctr := true }]


/-! MVP -/

/-- MVP_ID, RO, R245 -/
def MVP_ID : Nat := 0x0000
/-- MVP_CTRL, RW, W1S, R245 -/
def MVP_CTRL : Nat := 0x0004
/-- MVP_STATUS, RO, R245 -/
def MVP_STATUS : Nat := 0x0008
/-- MVP_BUSY_CYCLES, RO, R245 -/
def MVP_BUSY_CYCLES : Nat := 0x0010
/-- MVP_STREAM_BYTES, RO, R245 -/
def MVP_STREAM_BYTES : Nat := 0x0018
/-- MVP_STREAM_WAIT, RO, R245 -/
def MVP_STREAM_WAIT : Nat := 0x0020
/-- MVP_SAT_COUNT, RO, R245 -/
def MVP_SAT_COUNT : Nat := 0x0028

/-- The register map of a MVP block. -/
def mapMVP : List RegDesc := [
  { off := MVP_ID, words := 1 },
  { off := MVP_CTRL, words := 1, rw := 0x1, w1s := 0x2, reset := 0x1 },
  { off := MVP_STATUS, words := 1 },
  { off := MVP_BUSY_CYCLES, words := 2, w64 := true, ctr := true },
  { off := MVP_STREAM_BYTES, words := 2, w64 := true, ctr := true },
  { off := MVP_STREAM_WAIT, words := 2, w64 := true, ctr := true },
  { off := MVP_SAT_COUNT, words := 1, ctr := true }]


/-! VU -/

/-- VU_ID, RO, R311 -/
def VU_ID : Nat := 0x0000
/-- VU_CTRL, RW, W1S, R311 -/
def VU_CTRL : Nat := 0x0004
/-- VU_STATUS, RO, R311 -/
def VU_STATUS : Nat := 0x0008
/-- VU_BUSY_CYCLES, RO, R311 -/
def VU_BUSY_CYCLES : Nat := 0x0010
/-- VU_ELEMENTS, RO, R311 -/
def VU_ELEMENTS : Nat := 0x0018
/-- VU_ROWS, RO, R311 -/
def VU_ROWS : Nat := 0x0020
/-- VU_SAT_COUNT, RO, R311 -/
def VU_SAT_COUNT : Nat := 0x0028
/-- VU_GATE_ENGINE_SEL, RW, R311 -/
def VU_GATE_ENGINE_SEL : Nat := 0x0030
/-- VU_GATE_WAIT, RO, R311 -/
def VU_GATE_WAIT : Nat := 0x0038
/-- VU_GATE_TIMEOUTS, RO, R311 -/
def VU_GATE_TIMEOUTS : Nat := 0x0040
/-- VU_CHAIN_STATUS, RO, R311 -/
def VU_CHAIN_STATUS : Nat := 0x0048
/-- VU_CHAIN_WAIT, RO, R311 -/
def VU_CHAIN_WAIT : Nat := 0x0050
/-- VU_CHAIN_PARITY, RO, R311 -/
def VU_CHAIN_PARITY : Nat := 0x0058

/-- The register map of a VU block. -/
def mapVU : List RegDesc := [
  { off := VU_ID, words := 1 },
  { off := VU_CTRL, words := 1, rw := 0x1, w1s := 0x2, reset := 0x1 },
  { off := VU_STATUS, words := 1 },
  { off := VU_BUSY_CYCLES, words := 2, w64 := true, ctr := true },
  { off := VU_ELEMENTS, words := 2, w64 := true, ctr := true },
  { off := VU_ROWS, words := 2, w64 := true, ctr := true },
  { off := VU_SAT_COUNT, words := 1, ctr := true },
  { off := VU_GATE_ENGINE_SEL, words := 1, rw := 0x7 },
  { off := VU_GATE_WAIT, words := 2, w64 := true, selOff := 0x30, selMask := 0x7, ctr := true },
  { off := VU_GATE_TIMEOUTS, words := 1, ctr := true },
  { off := VU_CHAIN_STATUS, words := 1 },
  { off := VU_CHAIN_WAIT, words := 2, w64 := true, ctr := true },
  { off := VU_CHAIN_PARITY, words := 1, ctr := true }]


/-! SEL -/

/-- SEL_ID, RO, R332 -/
def SEL_ID : Nat := 0x0000
/-- SEL_CTRL, RW, W1S, R332 -/
def SEL_CTRL : Nat := 0x0004
/-- SEL_STATUS, RO, R332 -/
def SEL_STATUS : Nat := 0x0008
/-- SEL_BUSY_CYCLES, RO, R332 -/
def SEL_BUSY_CYCLES : Nat := 0x0010
/-- SEL_ELEMENTS, RO, R332 -/
def SEL_ELEMENTS : Nat := 0x0018
/-- SEL_ROWS, RO, R332 -/
def SEL_ROWS : Nat := 0x0020
/-- SEL_DIGIT_PASSES, RO, R332 -/
def SEL_DIGIT_PASSES : Nat := 0x0028
/-- SEL_EARLY_STOPS, RO, R332 -/
def SEL_EARLY_STOPS : Nat := 0x0030
/-- SEL_HW_SWEEPS, RO, R332 -/
def SEL_HW_SWEEPS : Nat := 0x0038
/-- SEL_SAT_COUNT, RO, R332 -/
def SEL_SAT_COUNT : Nat := 0x0040
/-- SEL_CONSIST_FAULTS, RO, R332 -/
def SEL_CONSIST_FAULTS : Nat := 0x0044

/-- The register map of a SEL block. -/
def mapSEL : List RegDesc := [
  { off := SEL_ID, words := 1 },
  { off := SEL_CTRL, words := 1, rw := 0x1, w1s := 0x2, reset := 0x1 },
  { off := SEL_STATUS, words := 1 },
  { off := SEL_BUSY_CYCLES, words := 2, w64 := true, ctr := true },
  { off := SEL_ELEMENTS, words := 2, w64 := true, ctr := true },
  { off := SEL_ROWS, words := 2, w64 := true, ctr := true },
  { off := SEL_DIGIT_PASSES, words := 2, w64 := true, ctr := true },
  { off := SEL_EARLY_STOPS, words := 2, w64 := true, ctr := true },
  { off := SEL_HW_SWEEPS, words := 2, w64 := true, ctr := true },
  { off := SEL_SAT_COUNT, words := 1, ctr := true },
  { off := SEL_CONSIST_FAULTS, words := 1, ctr := true }]


/-! HPU -/

/-- HPU_ID, RO, R143 -/
def HPU_ID : Nat := 0x0000
/-- HPU_CTRL, RW, W1S, R143 -/
def HPU_CTRL : Nat := 0x0004
/-- HPU_STATUS, RO, R143 -/
def HPU_STATUS : Nat := 0x0008
/-- HPU_BUCKET_READS, RO, R143 -/
def HPU_BUCKET_READS : Nat := 0x0010
/-- HPU_PAIRS, RO, R143 -/
def HPU_PAIRS : Nat := 0x0018
/-- HPU_SPILLS, RO, R143 -/
def HPU_SPILLS : Nat := 0x0020
/-- HPU_LAST_MAX_PROBE, RO, R143 -/
def HPU_LAST_MAX_PROBE : Nat := 0x0028
/-- HPU_LAST_PAIRS_NEEDED, RO, R143 -/
def HPU_LAST_PAIRS_NEEDED : Nat := 0x002C

/-- The register map of a HPU block. -/
def mapHPU : List RegDesc := [
  { off := HPU_ID, words := 1 },
  { off := HPU_CTRL, words := 1, rw := 0x1, w1s := 0x2, reset := 0x1 },
  { off := HPU_STATUS, words := 1 },
  { off := HPU_BUCKET_READS, words := 2, w64 := true, ctr := true },
  { off := HPU_PAIRS, words := 2, w64 := true, ctr := true },
  { off := HPU_SPILLS, words := 2, w64 := true, ctr := true },
  { off := HPU_LAST_MAX_PROBE, words := 1 },
  { off := HPU_LAST_PAIRS_NEEDED, words := 1 }]


/-! DMA -/

/-- DMA_ID, RO, R178 -/
def DMA_ID : Nat := 0x0000
/-- DMA_CTRL, RW, W1S, R178 -/
def DMA_CTRL : Nat := 0x0004
/-- DMA_STATUS, RO, R178 -/
def DMA_STATUS : Nat := 0x0008
/-- DMA_BYTES_READ, RO, R178 -/
def DMA_BYTES_READ : Nat := 0x0010
/-- DMA_BYTES_WRITTEN, RO, R178 -/
def DMA_BYTES_WRITTEN : Nat := 0x0018
/-- DMA_ZERO_ROWS, RO, R178 -/
def DMA_ZERO_ROWS : Nat := 0x0020
/-- DMA_REMOTE_REFUSED, RO, R178 -/
def DMA_REMOTE_REFUSED : Nat := 0x0028

/-- The register map of a DMA block. -/
def mapDMA : List RegDesc := [
  { off := DMA_ID, words := 1 },
  { off := DMA_CTRL, words := 1, rw := 0x1, w1s := 0x2, reset := 0x1 },
  { off := DMA_STATUS, words := 1 },
  { off := DMA_BYTES_READ, words := 2, w64 := true, ctr := true },
  { off := DMA_BYTES_WRITTEN, words := 2, w64 := true, ctr := true },
  { off := DMA_ZERO_ROWS, words := 2, w64 := true, ctr := true },
  { off := DMA_REMOTE_REFUSED, words := 1, ctr := true }]

/-- The register map of a kind of block. -/
def regMap : BlockKind → List RegDesc
  | .glb => mapGLB
  | .clk => mapCLK
  | .pwr => mapPWR
  | .evl => mapEVL
  | .saf => mapSAF
  | .foe => mapFOE
  | .stp => mapSTP
  | .fgr => mapFGR
  | .hbm => mapHBM
  | .cmd => mapCMD
  | .seal => mapSEAL
  | .fab => mapFAB
  | .pci => mapPCI
  | .eth => mapETH
  | .d2d => mapD2D
  | .ins => mapINS
  | .rol => mapROL
  | .cst => mapCST
  | .seq => mapSEQ
  | .dte => mapDTE
  | .ste => mapSTE
  | .mvp => mapMVP
  | .vu => mapVU
  | .sel => mapSEL
  | .hpu => mapHPU
  | .dma => mapDMA

/-- Block id of GLB (R32). -/
def B_GLB : Nat := 0x000
/-- Block id of CLK (R32). -/
def B_CLK : Nat := 0x010
/-- Block id of PWR (R32). -/
def B_PWR : Nat := 0x020
/-- Block id of EVL (R32). -/
def B_EVL : Nat := 0x030
/-- Block id of SAF (R32). -/
def B_SAF : Nat := 0x040
/-- Block id of FOE (R32). -/
def B_FOE : Nat := 0x050
/-- Block id of STP (R32). -/
def B_STP : Nat := 0x060
/-- Block id of FGR (R32). -/
def B_FGR : Nat := 0x080
/-- Block id of HBM (R32). -/
def B_HBM : Nat := 0x090
/-- Block id of CMD (R32). -/
def B_CMD : Nat := 0x0B0
/-- Block id of SEAL (R32). -/
def B_SEAL : Nat := 0x0C0
/-- Block id of FAB (R32). -/
def B_FAB : Nat := 0x0D0
/-- Block id of PCI (R32). -/
def B_PCI : Nat := 0x0E0
/-- Block id of ETH (R32). -/
def B_ETH : Nat := 0x0F0
/-- Block id of D2D (R32). -/
def B_D2D : Nat := 0x100
/-- Block id of INS (R32). -/
def B_INS : Nat := 0x110
/-- Block id of ROL (R32). -/
def B_ROL : Nat := 0x120
/-- Block id of the stacked-memory controller m (R32). -/
def B_HBMn (m : Nat) : Nat := 0x090 + 0x10 * m
/-- Block id of cluster store c (R32). -/
def B_CST (c : Nat) : Nat := 0x180 + c
/-- Block id of engine e of core k in cluster c (R32). -/
def B_ENG (c k e : Nat) : Nat := 0x200 + 0x40 * c + 0x10 * k + e

/-- The kind of the block with id b, or none when the id is unassigned (R32). -/
def blockKind (b : Nat) : Option BlockKind :=
  if 0x180 ≤ b ∧ b < 0x184 then some .cst
  else if 0x200 ≤ b ∧ b < 0x300 then
    match b % 16 with
    | 0 => some .seq | 1 => some .dte | 2 => some .ste | 3 => some .mvp
    | 4 => some .vu | 5 => some .sel | 6 => some .hpu | 7 => some .dma
    | _ => none
  else match b with
    | 0x000 => some .glb | 0x010 => some .clk | 0x020 => some .pwr | 0x030 => some .evl
    | 0x040 => some .saf | 0x050 => some .foe | 0x060 => some .stp | 0x080 => some .fgr
    | 0x090 => some .hbm | 0x0A0 => some .hbm | 0x0B0 => some .cmd | 0x0C0 => some .seal
    | 0x0D0 => some .fab | 0x0E0 => some .pci | 0x0F0 => some .eth | 0x100 => some .d2d
    | 0x110 => some .ins | 0x120 => some .rol
    | _ => none

/-- The descriptor of the register at an offset of a map. -/
def findReg (off : Nat) (m : List RegDesc) : Option RegDesc :=
  m.find? (fun r => r.off ≤ off && off < r.off + 4 * r.words)

/-- The descriptor of the register at an offset of block b. -/
def regDesc (b off : Nat) : Option RegDesc :=
  match blockKind b with
  | none => none
  | some k => findReg off (regMap k)

/-- The word a register holds at reset (R12, and each field's Reset column). -/
def regReset (b off : Nat) : Nat :=
  match regDesc b off with
  | none => 0
  | some r => r.reset

/-- Does block b hold RWL fields? -/
def hasRwl (b : Nat) : Bool :=
  match blockKind b with
  | none => false
  | some k => (regMap k).any (fun r => r.rwl != 0)

end Sys2Proof.Machine
end

