-- ==== Sys2Proof/Config.lean ====
section
/-! DEFINITION. What an implementation fixes and what the spec leaves open. Every constant below that is opaque has
no body: nothing can be proved of its value, and a statement holds whatever it is (log entry 3). -/

namespace Sys2Proof.Config

/-- Fused values of the package and its dies (R2, R3, R604, R605). DESIGN CHOICE: free, they differ per part. -/
opaque partVariant : Fin 4
opaque packageSerial : Nat
opaque baseMac : Nat
opaque packageKeyX : Nat
opaque packageKeyY : Nat
/-- Is the fuse map of a die valid (R243)? -/
opaque fuseMapValid : Die → Bool
/-- Contents of the fuse maps that DTE_FUSE_* and FUSE_DUMP report. -/
opaque fuseWord : Die → Nat → Nat
/-- What a safety island reads from its position straps (R27, R644). -/
opaque strapValue : Die → Die
/-- Version in the header of a Seloth image, whose layout the spec does not give (R649). -/
opaque imageVersion : List Byte → Nat
/-- What a counter of cycles or occupancy has counted in a span of work: the span's number, the register's offset and index. -/
opaque freeTimed : Nat → Nat → Nat → Nat

/-- The outcome of an ECDSA P-384 check: key, message, signature (R456, R457, R463). -/
opaque ecdsaOk : List Byte → List Byte → List Byte → Bool
/-- A signature by the package key (R463). -/
opaque packageSign : List Byte → List Byte
/-- SHA-384 (48 bytes) of a byte string. The spec names the published function; the model leaves it free. -/
opaque sha384 : List Byte → List Byte
/-- The n-th fresh nonce byte (R457). -/
opaque nonceByte : Nat → Byte

/-- A byte of a store segment whose contents are undefined after power-up (R167): the segment's era, the offset. -/
opaque segByte : Nat → Nat → Byte
/-- Whether the parity of such a byte is bad. -/
opaque segBad : Nat → Nat → Bool
/-- What a granule with errors in three or more symbols reads as (R388): none, the error is detected; some bytes,
it is miscorrected to them. Arguments: a fresh number and the stored bytes. -/
opaque eccMany : Nat → List Byte → Option (List Byte)
/-- A fresh byte, and a fresh number, where the spec says that a value is undefined or does not state it. -/
opaque freeByte : Nat → Byte
opaque freeNat : Nat → Nat
opaque freeInt : Nat → Int
opaque freeBool : Nat → Bool

/-- What the sections of a plate image hold for a die of this package (R496): their codes and layouts are not stated
(log entry 40). -/
opaque plateOf : List Byte → Nat → Option Plate
/-- Port latency of a fabric port, calibrated at manufacture (R483): die, port; ns. -/
opaque portLatency : Nat → Nat → Nat
/-- Does a firmware image verify against anchor 0 (R574)? -/
opaque imageOk : List Byte → Bool
/-- Key of anchor 0, in ROM (R455). -/
opaque makerKey : List Byte
/-- Silicon stepping (R605). -/
opaque stepping : Nat

end Sys2Proof.Config
end

