-- ==== Sys2Proof/Machine/Status.lean ====
section
/-! DEFINITION. Status codes and outcome classes (R411), pool codes (R422). -/

namespace Sys2Proof.Machine

/-- The status codes of R411. -/
inductive Status where
  | ok | okDelayed | okAtDeadline
  | refusedQuota | refusedFull | refusedRole | refusedInstanceReset | refusedDomainOff
  | refusedServiceMode | refusedPlate
  | faultBounds | faultMetadata | faultParityPersistent | faultUncorrectable | faultTimeout
  | faultStaleGeneration | faultFormat | faultOverrun
  | retry | faultInternal
deriving DecidableEq, Repr

/-- The code of a status (R411). -/
def Status.code : Status → Nat
  | .ok => 0x00 | .okDelayed => 0x01 | .okAtDeadline => 0x02
  | .refusedQuota => 0x10 | .refusedFull => 0x11 | .refusedRole => 0x12
  | .refusedInstanceReset => 0x13 | .refusedDomainOff => 0x14 | .refusedServiceMode => 0x15
  | .refusedPlate => 0x16
  | .faultBounds => 0x20 | .faultMetadata => 0x21 | .faultParityPersistent => 0x22
  | .faultUncorrectable => 0x23 | .faultTimeout => 0x24 | .faultStaleGeneration => 0x25
  | .faultFormat => 0x26 | .faultOverrun => 0x27
  | .retry => 0x30 | .faultInternal => 0x3F

/-- The status with a code, if any (R411). -/
def Status.ofCode (c : Nat) : Option Status :=
  [Status.ok, .okDelayed, .okAtDeadline, .refusedQuota, .refusedFull, .refusedRole, .refusedInstanceReset,
   .refusedDomainOff, .refusedServiceMode, .refusedPlate, .faultBounds, .faultMetadata,
   .faultParityPersistent, .faultUncorrectable, .faultTimeout, .faultStaleGeneration, .faultFormat,
   .faultOverrun, .retry, .faultInternal].find? (fun s => s.code == c)

/-- Is the status a success? -/
def Status.isOk : Status → Bool
  | .ok => true | .okDelayed => true | .okAtDeadline => true
  | _ => false

/-- Is the status a fault (R411)? -/
def Status.isFault (s : Status) : Bool := 0x20 ≤ s.code && s.code < 0x30

/-- The outcome class of a status that was not delayed (R411). -/
def Status.outcome (s : Status) : Nat :=
  if s = .okDelayed then 1
  else if s.isOk then 0
  else if s = .retry then 4
  else if s.code < 0x20 then 2 else 3

end Sys2Proof.Machine
end

