-- ==== Sys2Proof/Machine/Tab.lean ====
section
/-! DEFINITION. Sparse data by key in ONE canonical form: keys strictly rising and no entry equal to what an
unlisted key reads as, so that equal contents are equal data. Memory, registers, queues, seals and every other
numbered set of the state are such tables. -/

namespace Sys2Proof.Machine

/-- A table from numbers to values of α. -/
abbrev Tab (α : Type) := List (Nat × α)

/-- What key k holds, where unlisted keys read as d k. -/
def tabGetF {α : Type} (d : Nat → α) : List (Nat × α) → Nat → α
  | [], k => d k
  | (k', v) :: t, k => if k' = k then v else tabGetF d t k

/-- The table with k listed as v. -/
def tabPut {α : Type} (k : Nat) (v : α) : List (Nat × α) → List (Nat × α)
  | [] => [(k, v)]
  | (k', v') :: t =>
    if k < k' then (k, v) :: (k', v') :: t
    else if k = k' then (k, v) :: t
    else (k', v') :: tabPut k v t

/-- The table with k unlisted. -/
def tabDel {α : Type} (k : Nat) : List (Nat × α) → List (Nat × α)
  | [] => []
  | (k', v') :: t => if k = k' then t else (k', v') :: tabDel k t

/-- Set key k to v, keeping the canonical form. -/
def tabSetF {α : Type} [DecidableEq α] (d : Nat → α) (k : Nat) (v : α) (t : List (Nat × α)) : List (Nat × α) :=
  if v = d k then tabDel k t else tabPut k v t

/-- With one default for every key. -/
def tabGet {α : Type} (d : α) (t : List (Nat × α)) (k : Nat) : α := tabGetF (fun _ => d) t k
def tabSet {α : Type} [DecidableEq α] (d : α) (k : Nat) (v : α) (t : List (Nat × α)) : List (Nat × α) :=
  tabSetF (fun _ => d) k v t
def tabMod {α : Type} [DecidableEq α] (d : α) (k : Nat) (f : α → α) (t : List (Nat × α)) : List (Nat × α) :=
  tabSet d k (f (tabGet d t k)) t

/-- What k holds, if it is listed. -/
def tabFind {α : Type} : List (Nat × α) → Nat → Option α
  | [], _ => none
  | (k', v) :: t, k => if k' = k then some v else tabFind t k

/-- Keep the entries that p admits. -/
def tabFilter {α : Type} (p : Nat → α → Bool) (t : List (Nat × α)) : List (Nat × α) :=
  t.filter (fun e => p e.1 e.2)

/-- Map the entries' values (used where the map keeps values apart from the default). -/
def tabMap {α : Type} (f : Nat → α → α) (t : List (Nat × α)) : List (Nat × α) :=
  t.map (fun e => (e.1, f e.1 e.2))

/-- Are the keys above lo and strictly rising, with no entry equal to its default? -/
def tabWfFrom {α : Type} [DecidableEq α] (d : Nat → α) : Option Nat → List (Nat × α) → Bool
  | _, [] => true
  | lo, (k, v) :: t =>
    (match lo with | none => true | some l => decide (l < k)) && decide (v ≠ d k) && tabWfFrom d (some k) t

/-- The canonical form of a table. -/
def tabWf {α : Type} [DecidableEq α] (d : Nat → α) (t : List (Nat × α)) : Bool := tabWfFrom d none t

/-- A byte memory: unlisted addresses read 0 (log entry 4). -/
def memGet (m : List (Nat × Byte)) (a : Nat) : Byte := tabGet 0 m a
def memSet (m : List (Nat × Byte)) (a : Nat) (b : Byte) : List (Nat × Byte) := tabSet 0 a b m

/-- n bytes from address a. -/
def memRead (m : List (Nat × Byte)) (a : Nat) : Nat → List Byte
  | 0 => []
  | n + 1 => memGet m a :: memRead m (a + 1) n

/-- Write bytes from address a. -/
def memWrite (m : List (Nat × Byte)) (a : Nat) : List Byte → List (Nat × Byte)
  | [] => m
  | b :: bs => memWrite (memSet m a b) (a + 1) bs

/-- Zero n bytes from address a: the entries of that range leave the list. -/
def memZero (m : List (Nat × Byte)) (a n : Nat) : List (Nat × Byte) :=
  m.filter (fun e => e.1 < a || a + n ≤ e.1)

/-- The memory's canonical form. -/
def memWf (m : List (Nat × Byte)) : Bool := tabWf (fun _ => (0 : Byte)) m

end Sys2Proof.Machine
end

