-- ==== Sys2Proof/Machine/State.lean ====
section
/-! DEFINITION. The state of the package, as plain data: everything the spec gives the block, the queue of the
commands that wait, and the model's own counters of free values. INVENTORY.md lists every piece with its rule. -/

namespace Sys2Proof.Machine

/-- Why a step stops. No command of this block stops: whatever the spec calls a fault is a status code, a reply,
an event or a counter, and is part of the next state. -/
inductive Fault where
  /-- Raised by no command; it keeps the type inhabited. Safe. -/
  | none
deriving DecidableEq, Repr

/-- Why a command is refused by the model. -/
inductive Refusal where
  /-- The command has no meaning yet. Raised by a dispatch arm only. Safe. -/
  | notModelled (mnemonic : String)
deriving DecidableEq, Repr

/-- Four like things, numbered 0 to 3: the dies of the package, the clusters of a die (R9). -/
structure Quad (α : Type) where
  q0 : α
  q1 : α
  q2 : α
  q3 : α
deriving DecidableEq, Repr

/-- An active injection (R504, R627). -/
structure Injection where
  id : Nat
  kind : Nat
  target : Nat
  param : Nat
  /-- faults still to inject, and the end of its duration -/
  left : Nat
  stop : Nat
deriving DecidableEq, Repr

/-- What leaves the package or a die, in order. -/
inductive Output where
  /-- an MSI-X message of PCIe function fn (0: the physical one), R558 -/
  | msix (fn vec : Nat)
  /-- the answer to a CSR read -/
  | csrData (req value : Nat)
  /-- the answer to a PCIe read; none: Completer Abort or Unsupported Request -/
  | pcieData (fn : Nat) (data : Option (List Byte))
  /-- the answer of a cluster store to a remote access: status code and data (R159) -/
  | storeReply (req status : Nat) (data : List Byte)
  /-- the frame of a safety message to a destination of the safety port (R567, R568) -/
  | safety (dst : Nat) (bytes : List Byte)
  /-- an Ethernet frame of another kind: a reply of R564 -/
  | frame (port kind : Nat) (bytes : List Byte)
  /-- a flit given to a fabric port's link (R474) -/
  | flit (port : Nat) (bytes : List Byte)
  /-- an in-band interrupt of the I3C target (R575) -/
  | ibi
  /-- the level of a safety discrete output (0 SDO_A, 1 SDO_B) -/
  | sdo (which : Nat) (level : Bool)
  /-- a sideband heartbeat through module m (R570) -/
  | heartbeat (m : Nat)
  /-- the end of records that came from another package (R367): its die (node * 4 + die) and command, rows, skipped, status -/
  | updateDone (die cmd rows skipped status : Nat)
  /-- the word of the management page that the board controller reads (R575): its index and its value -/
  | mgmt (index value : Nat)
  /-- the level of THERMTRIP# (R643): true while some die is held for a thermal trip -/
  | thermtrip (low : Bool)
deriving DecidableEq, Repr

/-! ## Events and the log (ch. 19) -/

/-- An event (R613, R614) before it has a sequence number. -/
structure Event where
  time : Nat := 0
  island : Nat := 2
  /-- the instance it concerns; none: it concerns the die -/
  inst : Option Nat := none
  cls : Nat := 0
  sev : Nat := 0
  code : Nat := 0
  loc : Nat := 0
  ident : Nat := 0
  status : Nat := 0
  cause : Nat := 0
  count : Nat := 0
  injection : Bool := false
deriving DecidableEq, Repr

/-- A record of the ring (R613, R619). -/
structure EvRec where
  seq : Nat
  summary : Bool := false
  ev : Event
deriving DecidableEq, Repr

/-- The event log of a die. -/
structure LogState where
  /-- the intake, at most 32 entries, oldest first (R616) -/
  intake : List Event := []
  /-- the ring of 4,096 records, oldest first (R619) -/
  ring : List EvRec := []
  nextSeq : Nat := 0
  flushedSeq : Nat := 0
  /-- the first sequence past the flush in progress (R620) -/
  flushing : Option Nat := none
  lastFlush : Nat := 0
  /-- when a record of severity 3 was written and not yet flushed -/
  critical : Bool := false
  /-- records overwritten since the last flush (R620) -/
  lost : Nat := 0
  /-- events coalesced since the last summary (R617, R618): first time, count, count per class -/
  coalFirst : Option Nat := none
  coalCount : Nat := 0
  coalBy : Tab Nat := []
  intakeMax : Nat := 0
  /-- failed copies (R621) and places rewritten once: (copy, ring slot) -/
  fail0 : Bool := false
  fail1 : Bool := false
  rewritten : List (Nat × Nat) := []
  lastScrub : Nat := 0
  /-- marks accepted per instance in the current second (R625): key instance, value (second, count) -/
  marks : Tab (Nat × Nat) := []
  /-- active fault injections by slot 0-3 (R627-R630) -/
  injections : Tab Injection := []
  nextInj : Nat := 1
deriving DecidableEq, Repr

/-! ## Instances, firewalls and roles (ch. 14) -/

/-- The reset of an instance in progress (R450): its start, and its entry as it stood, for the regions to zero. -/
structure InsReset where
  start : Nat := 0
  fromCommit : Bool := false
  entry : List Byte := []
deriving DecidableEq, Repr

/-- A region that waits for its zeroing (R452). -/
structure Scrub where
  inst : Nat
  index : Nat
  base : Nat
  size : Nat
  view : Nat
deriving DecidableEq, Repr

/-- The instance tables. The banks are the raw bytes of R437, keyed 384 * instance + offset. -/
structure InsState where
  active : Tab Byte := []
  staged : Tab Byte := []
  /-- generation per instance (R440) -/
  gens : Tab Nat := []
  resets : Tab InsReset := []
  scrubs : List Scrub := []
  /-- a commit waits for the resets it triggered -/
  commitBusy : Bool := false
deriving DecidableEq, Repr

/-- A role session (R454-R459). -/
structure Session where
  role : Nat
  req : Nat
  queue : Option Nat
  anchor : Nat
  serial : Nat
  opened : Nat
  lastUse : Nat
  /-- ns -/
  notAfter : Nat
deriving DecidableEq, Repr

/-- A nonce (R457). -/
structure Nonce where
  req : Nat
  bytes : List Byte
  made : Nat
deriving DecidableEq, Repr

/-- What becomes effective once its audit record is durable (R461). -/
inductive AuditAct where
  | command (id : Nat)
  | reply (id : Nat)
  | sessionOpen (s : Session)
  | none
  | lockOpen (blk : Nat)
  | lockCommit (blk : Nat)
  | trim (upTo : Nat)
deriving DecidableEq, Repr

/-- An audit record (R462, R463). -/
structure AuditRec where
  seq : Nat := 0
  time : Nat := 0
  kind : Nat := 0
  die : Nat := 0
  inst : Nat := 0
  role : Nat := 0
  req : Nat := 0
  op : Nat := 0
  status : Nat := 0
  serial : Nat := 0
  digest : List Byte := []
  /-- SHA-384 of the previous record, or the checkpoint's signature -/
  chain : List Byte := []
deriving DecidableEq, Repr

/-- A record on its way to die 0, with what waits on it. -/
structure AuditPend where
  record : AuditRec
  act : AuditAct
deriving DecidableEq, Repr

/-- The role tables of a die. -/
structure RolState where
  nonces : List Nonce := []
  /-- checks in progress: requester, instance it carried, address of the block -/
  pend : List (Nat × Nat × Nat) := []
  /-- ROL_AUTH_STATUS per requester -/
  status : Tab Nat := []
  /-- failures: requester, time, newest first -/
  fails : List (Nat × Nat) := []
  /-- lockouts: requester, until -/
  lockouts : List (Nat × Nat) := []
  sessions : Tab Session := []
  /-- blocks whose RWL fields are open (R15, R448) -/
  lockOpen : List Nat := []
  auditQ : List AuditPend := []
  /-- the anchor store verified at boot (R455) -/
  anchorsOk : Bool := false
deriving DecidableEq, Repr

/-! ## Commands, queues and seals (ch. 13) -/

/-- Where an accepted command stands. -/
inductive CmdPhase where
  /-- passed steps 1 to 7; its row may carry it out -/
  | ready
  /-- in its instance's delay list, with the budgets that delayed it (R421) -/
  | delayed (budgets : List Nat)
  /-- waits for its audit record (R461) -/
  | audit
  /-- started; its reply comes with a later step -/
  | running
deriving DecidableEq, Repr

/-- An accepted command (R405-R407). -/
structure Cmd where
  id : Nat
  queue : Nat
  op : Nat
  flags : Nat := 0
  seq : Nat := 0
  inst : Nat := 0
  gen : Nat := 0
  role : Nat := 0
  /-- the reply queue -/
  rq : Nat := 0
  /-- the packet's parameter bytes, param_len of them -/
  params : List Byte := []
  /-- the queue lies in stacked memory (R651) -/
  stacked : Bool := false
  phase : CmdPhase := .ready
  delayed : Bool := false
  /-- issued by the safety island -/
  island : Bool := false
  /-- the reply an audit record must precede -/
  result : Option (Status × Nat) := none
  /-- answers to its reads of other dies and packages, as address, status code and bytes; and the read it waits for (R31, R651) -/
  answers : List (Nat × Nat × List Byte) := []
  asked : Option Nat := none
  /-- its writes there that are not acknowledged, a refusal among them, and the reply that waits for
  them, with the seal reference it signals (R412) -/
  acks : Nat := 0
  ackBad : Option Nat := none
  final : Option (Status × List Byte × Nat) := none
deriving DecidableEq, Repr

/-- A reply or notice waiting for a slot (R418). -/
structure HeldReply where
  queue : Nat
  bytes : List Byte
  notify : Bool
  /-- it has entered the buffer of 64; otherwise it waits for room there, and the command it answers keeps its slot -/
  inside : Bool := true
  cmd : Option Nat := none
deriving DecidableEq, Repr

/-- Queue states (R436). -/
inductive QState where
  | free | active | error | destroying
deriving DecidableEq, Repr

/-- A queue (R413-R417). -/
structure Queue where
  state : QState := .free
  base : Nat := 0
  log2 : Nat := 0
  kind : Nat := 0
  prio : Nat := 0
  stacked : Bool := false
  emptyMode : Bool := false
  fullMode : Bool := false
  doorbell : Option Nat := none
  defReply : Nat := 0xFFFF
  msix : Nat := 0xFFFF
  inst : Nat := 0
  head : Nat := 0
  tail : Nat := 0
  err : Nat := 0
  overruns : Nat := 0
  /-- role session bound to it: its slot (R454) -/
  bound : Option Nat := none
  /-- when its present head packet reached the head (R419) -/
  headSince : Option Nat := none
  promoted : Bool := false
  /-- QUEUE_DESTROY that waits on it, with the slots it discarded -/
  destroyer : Option (Nat × Nat) := none
  /-- fetching stopped (R431) -/
  stopped : Bool := false
  /-- the QUEUE_POP whose write of the head entry is on its way to another die or package -/
  popping : Option Nat := none
deriving DecidableEq, Repr

/-- A seal (R424). -/
structure Seal where
  alloc : Bool := false
  counter : Nat := 0
  gen : Nat := 0
  /-- target, notice queue, vector, sequence and instance of an arm (R428) -/
  arm : Option (Nat × Nat × Nat × Nat × Nat) := none
  saturated : Bool := false
  /-- the queue it is the doorbell of (R416) -/
  door : Option Nat := none
deriving DecidableEq, Repr

/-- Who waits (R426, R427, R297). -/
inductive Waiter where
  | cmd (id : Nat)
  /-- a SEQ SEAL_WAIT of core 4c + k -/
  | seq (core : Nat)
  /-- a seal gate of engine e of core 4c + k -/
  | gate (core engine : Nat)
deriving DecidableEq, Repr

/-- A pending wait on a seal. -/
structure Wait where
  who : Waiter
  num : Nat
  target : Nat
  deadline : Option Nat
deriving DecidableEq, Repr

/-- A pending QUEUE_POP or QUEUE_PUSH (R427). -/
structure QWait where
  cmd : Nat
  queue : Nat
  push : Bool
  deadline : Option Nat
deriving DecidableEq, Repr

/-- Who signals (R425). -/
inductive Signaller where
  | cmd (id : Nat)
  | task (task core engine op : Nat)
  | job
deriving DecidableEq, Repr

/-- A signal on its way to the seal unit (R425, R426). -/
structure Signal where
  num : Nat
  gen : Nat
  add : Nat
  src : Signaller
deriving DecidableEq, Repr

/-- The command processor and the seal and queue unit. -/
structure CmdState where
  cmds : List Cmd := []
  nextId : Nat := 1
  /-- the last reply: command ID and status code -/
  lastReply : Nat × Nat := (0, 0)
  held : List HeldReply := []
  queues : Tab Queue := []
  seals : Tab Seal := []
  waits : List Wait := []
  qwaits : List QWait := []
  /-- the first 64 stand in the intake, the others stall at their senders (R426) -/
  intake : List Signal := []
  /-- rotating base per pool code (R423) -/
  bases : Tab Nat := []
  /-- last winner of a pool's last free unit: pool, time (R423) -/
  contest : List (Nat × Nat) := []
  /-- rotating base of the queue choice (R419) -/
  rr : Nat := 0
  /-- when each core's heartbeat last advanced since it began (R430, R432) -/
  beat0 : Option Nat := none
  beat1 : Option Nat := none
  /-- when the cores last began to run -/
  began : Nat := 0
  /-- Seloth runs and fetches (CMD_STATUS ready) -/
  ready : Bool := false
  /-- a restart of the command processor began at (R600) -/
  restart : Option Nat := none
  /-- core time: instance, start, end (ns), newest first; and the measure per instance (R421) -/
  coreUse : List (Nat × Nat × Nat) := []
  timeUse : Tab Nat := []
deriving DecidableEq, Repr

/-! ## Registers (R12-R15, R443) -/

/-- A requester's shadow of a high half (R13). -/
structure Shadow where
  req : Nat
  block : Nat
  off : Nat
  high : Word
deriving DecidableEq, Repr

/-- A requester's held low half, least recently used first (R13). -/
structure HeldHalf where
  req : Nat
  block : Nat
  off : Nat
  low : Word
  time : Nat
deriving DecidableEq, Repr

/-- A requester's own copies of a block's selection registers, least recently used first (R443). -/
structure SelCopy where
  req : Nat
  block : Nat
  vals : Tab Word
deriving DecidableEq, Repr

/-- The CSR side of a die: key 0x1_0000 * block + offset + 2^32 * selected index. Unlisted registers read as
their reset value. -/
structure CsrState where
  regs : Tab Word := []
  shadows : List Shadow := []
  halves : List HeldHalf := []
  sels : List SelCopy := []
  /-- counters of cycles and of occupancy inside a step: the blocks that have worked since such a counter of theirs was last
  looked at, and what has been counted since the last clear: block, number of the free value (log entry 9) -/
  worked : List Nat := []
  timed : List (Nat × Nat) := []
deriving DecidableEq, Repr

/-! ## Stacked memory (ch. 12) -/

/-- A granule's errors: the ECC symbols that differ from the last data written (R628), and poison (R391). -/
structure Gran where
  flips : List Nat := []
  poison : Bool := false
deriving DecidableEq, Repr

/-- A monitored temperature (R394, R597). -/
structure TempState where
  value : Option Nat := none
  lastValid : Nat := 0
  warm : Bool := false
  critical : Bool := false
  warmBelow : Option Nat := none
  critBelow : Option Nat := none
deriving DecidableEq, Repr

/-- One stack and its controller. -/
structure HbmState where
  ready : Bool := false
  failed : Bool := false
  temp : TempState := {}
  /-- corrections per pseudo-channel since the last correctable-rate event (R389) -/
  pcCorr : Tab Nat := []
  /-- line index of the patrol scrubber (R393) -/
  scrubPos : Nat := 0
deriving DecidableEq, Repr

/-- Both stacks of a die. Memory and granules are keyed by stack * 2^36 + s_off (and that divided by 32). -/
structure MemState where
  bytes : List Host.Cell := []
  grans : Tab Gran := []
  s0 : HbmState := {}
  s1 : HbmState := {}
  /-- the memory of the host behind the die's PCIe endpoint -/
  host : List Host.Cell := []
  /-- the stipple build buffer (R29) -/
  build : List Host.Cell := []
  /-- stack rows that a spare row stands in for, as the repair record named them at this boot (R398) -/
  spared : List Nat := []
deriving DecidableEq, Repr

/-! ## Cluster stores (ch. 5) -/

/-- An entry of a coalescing buffer (R149): line, enabled bytes, when its first byte entered. -/
structure CbEntry where
  line : Nat
  bytes : Tab Byte
  first : Nat
deriving DecidableEq, Repr

/-- A line that a port has read and keeps until its next op boundary (R151): its bytes, and which of them were of bad
parity. -/
structure ReadLine where
  line : Nat
  bytes : List Byte
  bad : List Nat := []
deriving DecidableEq, Repr

/-- A range the fill engine has to zero (R148, R156, R157). -/
structure FillJob where
  lo : Nat
  len : Nat
  /-- the instance whose task marked the range -/
  inst : Nat := 0
deriving DecidableEq, Repr

/-- A remote-window slot (R160). -/
structure Rwin where
  isOpen : Bool := false
  base : Nat := 0
  size : Nat := 0
  node : Nat := 0
  dies : Nat := 0
  insts : Nat := 0
  rights : Nat := 0
  flags : Nat := 0
  sealRef : Nat := 0
  gen : Nat := 0
deriving DecidableEq, Repr

/-- A cluster store with its ports (R146-R168). -/
structure Cluster where
  bytes : Tab Byte := []
  /-- bytes of bad parity (R164) -/
  bad : Tab Bool := []
  /-- per segment: 0, or the era of its undefined contents (R167) -/
  era : Tab Nat := []
  /-- coalescing buffers by port, oldest entry first -/
  bufs : Tab (List CbEntry) := []
  /-- read lines by port, at most 8, oldest first (R151) -/
  held : Tab (List ReadLine) := []
  retired : Tab Bool := []
  /-- bit s: segment s ready -/
  segReady : Nat := 0
  /-- segments on their way up: segment, since -/
  segRising : List (Nat × Nat) := []
  fills : List FillJob := []
  rwins : Tab Rwin := []
  /-- the power domain is on (R590-R593) -/
  powered : Bool := true
deriving DecidableEq, Repr

/-! ## Cores, tasks and engines (ch. 6 to 10) -/

/-- An op in an engine queue (R189, R192): its index, its 128 bits, and the descriptors copied at dispatch
(empty: none). -/
structure OpEntry where
  idx : Nat
  word : Nat
  da : List Byte := []
  db : List Byte := []
  dout : List Byte := []
  /-- failed attempts so far, and the store lines they failed at (R165, R202) -/
  attempts : Nat := 0
  lines : List Nat := []
  /-- state of its seal gate (R296, R297): 0 not looked at, 1 waiting, 2 open, 3 open at the deadline, 4 timed out, 5 stale,
  6 there is none; and the gate as its program gives it: slot, target, timeout in µs -/
  gate : Nat := 0
  gateAt : Option (Nat × Nat × Nat) := none
  /-- the private descriptors as they stood at dispatch, for the stages of its chain program (R192) -/
  table : List (List Byte) := []
  /-- chain buffers it reads and writes (R300) -/
  inBuf : Option Nat := none
  outBuf : Option Nat := none
  /-- when it reached the head of its queue -/
  headSince : Nat := 0
  /-- its place in the order of dispatch on its core -/
  ord : Nat := 0
deriving DecidableEq, Repr

/-- How an op ended. -/
structure OpResult where
  status : Status := .ok
  detail : Nat := 0
  loc : Nat := 0
  cause : Nat := 0
  line : Option Nat := none
  /-- it failed, and its rule says that nothing is written, or that what it wrote stands (R138, R257, R261) -/
  clean : Bool := false
  /-- it failed, and these rows of its output stand (R170, R293, R330) -/
  kept : List Nat := []
deriving DecidableEq, Repr

/-- An op in flight. -/
structure Running where
  op : OpEntry
  result : Option OpResult := none
  atDl : Bool := false
  /-- generator lanes when it first ran, to restore on a rerun (R202) -/
  lanes : List Nat := []
  /-- its first weight slot in the rotation, and the slots it holds (R219) -/
  slot0 : Nat := 0
  slots : List Nat := []
  /-- a result has wrapped, has saturated (R49, R57) -/
  wrap : Bool := false
  sat : Bool := false
  /-- remote requests of it not yet answered, and a refusal among those answered (R172) -/
  remote : Nat := 0
  remoteBad : Option Status := none
  /-- answers to its remote reads: address, status code, bytes; and the read it waits for -/
  answers : List (Nat × Nat × List Byte) := []
  asked : Option Nat := none
deriving DecidableEq, Repr

/-- A weight slot of every lane (R209, R252): its bytes per lane, and on the sparse engine each lane's code word. -/
structure WeightSlot where
  bytes : List (List Byte) := []
  codes : List Nat := []
deriving DecidableEq, Repr

/-- One engine of a core (codes 1 to 7). -/
structure Engine where
  queue : List OpEntry := []
  run : List Running := []
  /-- generator lanes (R58); empty: undefined since a reset (R63) -/
  lanes : List Nat := []
  /-- accumulator memory of DTE and STE: key 64 * row + lane (R211) -/
  acc : Tab Int := []
  /-- weight slots of DTE and STE: key slot; absent: all zero (R209, R212, R252) -/
  slots : Tab WeightSlot := []
  /-- the slot after the last op's last one (R219) -/
  nextSlot : Nat := 0
  /-- vector registers of the VU, register 0 first; 0 beyond the list (R304) -/
  vregs : List Nat := []
  /-- histogram memory of the SEL, two tables of 256 bins, and its selection register (R315) -/
  bins : List Nat := []
  chosen : List (Nat × Nat) := []
  /-- its rank network: the best elements of the last hardware-mode row (R315, R320) -/
  ranks : List (Nat × Nat) := []
  lastOp : Nat := 0
  lastStatus : Nat := 0
deriving DecidableEq, Repr

/-- One of a core's two chain buffers (R299-R303). -/
structure ChainBuf where
  /-- engine code of the op that took it last (R311) -/
  producer : Nat := 0
  /-- its producer has written its rows -/
  ready : Bool := false
  bytes : List Byte := []
  /-- bytes whose parity bit does not match (R299, R303) -/
  bad : List Nat := []
  /-- the rows that an op which reads and writes this one buffer still reads (R300) -/
  old : List Byte := []
  oldBad : List Nat := []
  /-- type code, row length in elements, rows -/
  vtype : Nat := 0
  cols : Nat := 0
  rows : Nat := 0
deriving DecidableEq, Repr

/-- A core's sequencer and engines. -/
structure Core where
  /-- launch queue: task IDs, oldest first (R186) -/
  launch : List Nat := []
  /-- running task -/
  task : Option Nat := none
  /-- END was executed (R196) -/
  ended : Bool := false
  pc : Nat := 0
  /-- a SEQ op taken by dispatch and not yet finished (R191) -/
  seq : Option OpEntry := none
  /-- a SEQ seal wait has been registered; its end: 0 pending, 2 ok, 3 at the deadline, 4 timeout, 5 stale -/
  sealWait : Option Nat := none
  tokens : List Nat := [0, 0, 0, 0, 0, 0, 0, 0]
  loops : List Nat := [0, 0, 0, 0]
  /-- private descriptor memory (R187) -/
  descs : List (List Byte) := []
  /-- prefetch buffer: line of the op stream, its 64 bytes, bad bytes (R191) -/
  fetched : List (Nat × List Byte × List Nat) := []
  engines : Tab Engine := []
  buf0 : ChainBuf := {}
  buf1 : ChainBuf := {}
  /-- the pending list: buffers that wait for a consumer at dispatch, oldest first; and the buffer the next
  chain_out op takes (R300) -/
  chained : List Nat := []
  nextBuf : Nat := 0
  /-- ops of the task dispatched to engines so far -/
  issued : Nat := 0
  /-- instance of the previous task (R212) -/
  lastInst : Option Nat := none
  started : Nat := 0
  opsDone : Nat := 0
  powered : Bool := true
deriving DecidableEq, Repr

/-- Where a core stands in a task (R184). -/
inductive CoreStage where
  | queued | running | ended
deriving DecidableEq, Repr

/-- A task (R181-R201). -/
structure Task where
  id : Nat
  /-- the TASK_LAUNCH command -/
  cmd : Nat
  /-- its 384 descriptor bytes -/
  desc : List Byte
  inst : Nat
  proof : Bool := false
  /-- stage by global core of the die, 4c + k -/
  stages : List (Nat × CoreStage) := []
  /-- ops completed on the cores that have ended their part -/
  doneOn : List (Nat × Nat) := []
  /-- OR of its ops' flags (R200): wrap, saturation, at_deadline, rerun -/
  flags : Nat := 0
  started : Option Nat := none
  opsDone : Nat := 0
deriving DecidableEq, Repr

/-- Cores and tasks of a die. -/
structure TaskState where
  cores : Tab Core := []
  tasks : List Task := []
  nextTask : Nat := 1
deriving DecidableEq, Repr

/-! ## Boot, resets, clocks and power (ch. 18) -/

/-- Boot and reset state of a die (R27, R600-R603). -/
structure BootState where
  /-- in reset: no clock, no boot -/
  held : Bool := true
  stage : Nat := 0
  /-- error code of R603; 0 none -/
  error : Nat := 0
  /-- Seloth slot booted (R606), and the image that runs (R649) -/
  slot : Nat := 0
  image : List Byte := []
  /-- time base at the release of the reset; what a die reset waits for, and since when that has been absent -/
  released : Nat := 0
  dieReset : Bool := false
  /-- the die reset is for a thermal trip, not for a rail -/
  trip : Bool := false
  causeGone : Option Nat := none
  /-- it boots alone, after a die reset (R603) -/
  alone : Bool := false
  /-- strap values received, by ring position of the sender; closed: the exchange is over (R27) -/
  straps : Tab Nat := []
  closed : Bool := false
  conflict : Bool := false
  /-- bit d: die d ready, lost (GLB_DIE) -/
  ready : Nat := 0
  lost : Nat := 0
  /-- die 0 failed after this boot: until the package restarts, nothing is audited or flushed (R28) -/
  orphan : Bool := false
  /-- the digest of the image received from die 0 was wrong once (R603) -/
  badImage : Bool := false
deriving DecidableEq, Repr

/-- A change of an island group's operating point (R586, R587). -/
structure OpChange where
  group : Nat
  point : Nat
  raising : Bool
  /-- 0: the voltage is stepping up; 1: on the bridge clock; 2: the voltage is stepping down -/
  stage : Nat
  bridgeSince : Nat := 0
  hold : Nat := 0
  cmd : Option Nat := none
deriving DecidableEq, Repr

/-- Clocks of a die (R582-R589, R598). -/
structure ClkState where
  refA : Bool := true
  refB : Bool := true
  refEth : Bool := true
  /-- input B is selected -/
  selB : Bool := false
  /-- loops run from the safety-island oscillator -/
  osc : Bool := false
  /-- the last measured difference of the safety-island oscillator from the reference, in ppm (R526, R607) -/
  oscPpm : Int := 0
  /-- point set last, by group 0-7: cluster groups, stipple unit, forager, spine, seal unit (R590, R602) -/
  sets : List Nat := [1, 1, 1, 1, 2, 2, 1, 1]
  /-- running point by group, and the point whose voltage a cluster regulator holds -/
  points : List Nat := [1, 1, 1, 1, 2, 2, 1, 1]
  volts : List Nat := [1, 1, 1, 1]
  /-- islands on the bridge clock -/
  bridge : List Nat := []
  changes : List OpChange := []
  /-- requests that wait behind a change of their group: group, point, command -/
  waiting : List (Nat × Nat × Option Nat) := []
deriving DecidableEq, Repr

/-- A power change in progress (R592, R593): unit 0-3 a cluster, 4 + 4c + k a core. -/
structure PwrChange where
  unit : Nat
  on : Bool
  start : Nat
  cmd : Nat
  drained : Bool := false
deriving DecidableEq, Repr

/-- A monitored rail or regulator output (R596). -/
structure Rail where
  mv : Nat := 0
  ma : Nat := 0
  warning : Bool := false
  /-- within 2.5 % since -/
  calm : Option Nat := none
  /-- the last reading was outside 5 % -/
  out : Bool := false
  fault : Bool := false
deriving DecidableEq, Repr

/-- Power of a die (R590-R597). -/
structure PwrState where
  changes : List PwrChange := []
  /-- power commands that wait for a change of their cluster in progress (R591): unit, command -/
  waiting : List (Nat × Nat) := []
  /-- POWER_SEGMENTS commands waiting for their segments: cluster, mask wanted, mask refused, command -/
  segs : List (Nat × Nat × Nat × Nat) := []
  die : TempState := {}
  opt0 : TempState := {}
  opt1 : TempState := {}
  rails : Tab Rail := []
deriving DecidableEq, Repr

/-! ## PCIe, Ethernet, PTP and the package ring (ch. 17) -/

/-- The PCIe endpoint (R555-R561). Function 0 is the physical one, n the virtual function n. -/
structure PcieState where
  up : Bool := false
  perst : Bool := true
  /-- configuration space answers -/
  config : Bool := false
  deasserted : Option Nat := none
  /-- log2 of the physical function's BAR2 size, 28 to 36 (R556) -/
  bar2 : Nat := 28
  /-- VFs enabled: bit n -/
  vfs : Nat := 0
  /-- link rate, width, Flit mode, partner's rate and tags, max payload: the fields of PCI_LINK -/
  link : Nat := 0
  /-- secure IDE streams, bit i of four (R560) -/
  ide : Nat := 0
  /-- MSI-X: functions with MSI-X enabled, masked vectors, pending messages (fn * 2048 + vector) -/
  msixOff : List Nat := List.range 9
  masked : List Nat := []
  waiting : List Nat := []
  /-- functions whose FLR waits for the instance reset: function, instance (R559) -/
  flrs : List (Nat × Nat) := []
  /-- index that the board controller wrote (R575; die 0) -/
  i3c : Nat := 0
deriving DecidableEq, Repr

/-- An Ethernet port: 0-3 ingest, 4 safety (R562-R569). -/
structure EthPort where
  link : Bool := false
  fec : Bool := false
  remoteFault : Bool := false
  partner : Bool := false
  /-- replies sent in a second: the second, the count (R565) -/
  replies : Nat × Nat := (0, 0)
deriving DecidableEq, Repr

/-- PTP (R566). -/
structure PtpState where
  /-- elected grandmaster and the port it is reached through -/
  gm : Option Nat := none
  port : Nat := 0
  /-- consecutive Syncs with a measurement since the election -/
  syncs : Nat := 0
  acquired : Bool := false
  /-- consecutive measurements within 1 µs -/
  near : Nat := 0
  locked : Bool := false
  viaUcie : Bool := false
  lastSync : Nat := 0
deriving DecidableEq, Repr

/-- What crosses a UCIe link (R571): class 0 SAFE, 1 MGMT, 2 REQ, 3 RSP, 4 POOL, 5 TRANSIT; a packet in transit
whose egress port is chosen carries it. -/
structure RingMsg where
  cls : Nat
  pkt : Packet
  egress : Option Nat := none
deriving DecidableEq, Repr

/-- A UCIe module (R570-R572, R581). -/
structure Module where
  /-- 0 RESET, 1 TRAINING, 2 ACTIVE, 3 HOLD, 4 DOWN -/
  state : Nat := 0
  cause : Nat := 0
  peer : Nat := 0
  txRepaired : Nat := 0
  rxRepaired : Nat := 0
  /-- when HOLD began, and the last heartbeat sent -/
  since : Nat := 0
  beat : Nat := 0
  /-- sent and not yet received by the neighbour, oldest first -/
  out : List RingMsg := []
deriving DecidableEq, Repr

/-- The die-to-die links of a die. -/
structure D2dState where
  /-- bit l: UCIe link l carries traffic (R23, R24) -/
  links : Nat := 0
  m0 : Module := {}
  m1 : Module := {}
deriving DecidableEq, Repr

/-! ## Fall-back and safety (ch. 16) -/

/-- A network result (R519). -/
structure NetResult where
  /-- posting time (R40, R520) -/
  time : Nat
  frame : Nat
  classes : List Nat
deriving DecidableEq, Repr

/-- A safety discrete output (R540-R542). -/
structure Sdo where
  /-- energised, and driven low by a test pulse since -/
  on : Bool := false
  pulse : Option Nat := none
  /-- level of its readback input, the last edge driven, and the last test pulse -/
  readback : Bool := false
  edge : Nat := 0
  lastPulse : Nat := 0
deriving DecidableEq, Repr

/-- A proof pass (R535, R536). -/
structure ProofPass where
  frame : Nat
  start : Nat
  matched : Nat := 0
  failed : Nat := 0
  /-- cluster and command of the running task -/
  running : Option (Nat × Nat) := none
  late : Bool := false
deriving DecidableEq, Repr

/-- A slice that closes: time of its boundary, its frame and its index (R537). -/
structure SliceEnd where
  time : Nat := 0
  frame : Nat := 0
  slice : Nat := 0
  /-- a slice of a replay (R102) -/
  replay : Bool := false
deriving DecidableEq, Repr

/-- The safety island of a die. -/
structure SafState where
  /-- it has left the boot state -/
  running : Bool := false
  /-- down since its own fault (R529) -/
  down : Option Nat := none
  /-- service mode ends at (R545) -/
  service : Option Nat := none
  /-- authority is NETWORK (R522) -/
  network : Bool := false
  clean : Nat := 0
  /-- bit k - 1: source k is active; it was raised or active since the open frame began (R525, R526) -/
  active : Nat := 0
  dirty : Bool := false
  /-- since when the conditions of source 7 have been absent -/
  clockCalm : Option Nat := none
  /-- results accepted since the network path started, newest first; frame of the last accepted one; frames accepted
  (R521, R525) -/
  results : List NetResult := []
  lastFrame : Option Nat := none
  accepted : List Nat := []
  resultSeal : Option Nat := none
  /-- signals of the result seal that the command processor has answered -/
  noticed : Nat := 0
  /-- records read at a notice and on their way to the island (R520) -/
  records : List (List Byte) := []
  /-- first frame whose deadline is checked (R532); the last check found no result -/
  checkFrom : Option Nat := none
  missing : Bool := false
  /-- a restart of the network path: an instance-0 reset is in progress for it; its launch commands -/
  resetting : Bool := false
  launches : List Nat := []
  /-- it is to be made at the next frame boundary; it has been retried (R530, R531) -/
  atFrame : Bool := false
  retried : Bool := false
  latched : Bool := false
  /-- times of the reset-class detections (R531), newest first -/
  resets : List Nat := []
  /-- ended commands of the island: command ID, status code, and whether a task of it had started -/
  replies : List (Nat × Nat × Bool) := []
  proof : Option ProofPass := none
  sdoA : Sdo := {}
  sdoB : Sdo := {}
  sdoLatched : Bool := false
  sdoCase : Nat := 0
  sdoOutput : Nat := 0
  /-- sequence of the next message, and of the last one sent -/
  seq : Nat := 0
  lastSeq : Nat := 0
  /-- a message has been sent since boot or the restart of the island -/
  sent : Bool := false
  /-- slice that the engine has evaluated and whose merge is to come; the last merged one, and its classes -/
  due : Option SliceEnd := none
  merged : SliceEnd := {}
  classes : List Nat := []
  health : Nat := 0
deriving DecidableEq, Repr

/-! ## The fabric (ch. 15) -/

/-- Whose request a tag stands for (R494). -/
inductive TagUse where
  /-- a core DMA's read of an address, and write -/
  | dmaRead (core addr : Nat)
  | dmaWrite (core : Nat)
  /-- a pool request of lookup batch, bag and request number -/
  | pool (batch bag part : Nat)
  /-- a push of a row that the records of command cmd of die src updated -/
  | push (src cmd : Nat)
  /-- an output write of a lookup batch -/
  | bagWrite (batch : Nat)
  /-- a command's read of an address, and write (R31, R651) -/
  | paramRead (cmd addr : Nat)
  | paramWrite (cmd : Nat)
  | other
deriving DecidableEq, Repr

/-- An outstanding request (R494, R572). -/
structure TagEntry where
  num : Nat
  gen : Nat
  sent : Nat
  resent : Bool := false
  /-- it stays in the package: a die-to-die request with its 20 µs timer -/
  ring : Bool
  /-- module it left through, when over the ring -/
  via : Nat := 0
  pkt : Packet
  use : TagUse
deriving DecidableEq, Repr

/-- An entry of the completion record (R495). -/
structure Served where
  node : Nat
  die : Nat
  tag : Nat
  gen : Nat
  status : Nat
  time : Nat
deriving DecidableEq, Repr

/-- A link injection (R504). -/
structure LinkInj where
  id : Nat
  desc : List Byte
  start : Nat
  /-- matching packets seen, packets acted on -/
  seen : Nat := 0
  acted : Nat := 0
  /-- packets it delays or reorders: when they came, whether they were being sent, and the packet -/
  held : List (Nat × Bool × Packet) := []
deriving DecidableEq, Repr

/-- A packet at an output port: the routing table it was routed by, and the packet after that decision. -/
structure OutPkt where
  ingress : Nat
  pkt : Packet
  /-- bit of its first flit that an injection inverts after the CRC -/
  flip : Option Nat := none
deriving DecidableEq, Repr

/-- A flit sent and not acknowledged (R480, R492): its number, its bytes, how often it was resent, its packet. -/
structure SentFlit where
  num : Nat
  bytes : List Byte
  resends : Nat := 0
  out : OutPkt
deriving DecidableEq, Repr

/-- A fabric port (R472-R483, R509). Its enable bit stands in FAB_PORT_CTRL. -/
structure FPort where
  /-- 0 DISABLED, 1 DARK, 2 TRAINING, 3 UP, 4 ACTIVE, 5 FAILED -/
  state : Nat := 0
  wiringOk : Bool := false
  lengthOk : Bool := false
  powerOk : Bool := false
  cause : Nat := 0
  /-- optical engine over its critical temperature (R597) -/
  hot : Bool := false
  peerNode : Nat := 0
  peerAssigned : Bool := false
  peerPort : Nat := 0
  peerState : Nat := 0
  peerEpoch : Nat := 0
  peerDigest : List Byte := []
  rxPower : Nat := 0
  txPower : Nat := 0
  /-- the last eight one-way results in 0.1 m, newest first -/
  lengths : List Int := []
  /-- consecutive valid waggles; mismatching ones; matching ones -/
  waggles : Nat := 0
  mismatches : Nat := 0
  agreeing : Nat := 0
  /-- t_tx of the last waggle received and its arrival -/
  echo : Option (Nat × Nat) := none
  lastWaggle : Nat := 0
  trainSince : Nat := 0
  upSince : Nat := 0
  /-- it left FAILED and has not yet stayed 100 ms in UP -/
  hold : Bool := false
  /-- link replay (R480): next number sent, last number taken in order, a resend asked for -/
  txSeq : Nat := 0
  rxSeq : Nat := 0
  nak : Bool := false
  /-- sent and not acknowledged, oldest first -/
  replay : List SentFlit := []
  /-- packets that wait for credits or replay room -/
  waiting : List OutPkt := []
  /-- next channel, next lane of each channel, and turns since the last MGMT packet (R479) -/
  turn : Nat := 0
  lanes : List Nat := [0, 0, 0, 0]
  sinceMgmt : Nat := 15
  /-- flits of credit in use, by 8 * vc + lane -/
  used : Tab Nat := []
  /-- flits of packets not yet whole, by 8 * vc + lane -/
  partials : Tab (List (List Byte)) := []
  /-- consecutive uncorrectable frames -/
  badFrames : Nat := 0
deriving DecidableEq, Repr

/-- Fabric side of a die. -/
structure FabState where
  /-- the package's node ID from the active plate (R9), and whether one is assigned -/
  node : Nat := 0
  assigned : Bool := false
  plate : Option Plate := none
  staged : Option Plate := none
  /-- scheduled switch, last switch, and the epoch before it (R498, R499) -/
  switchAt : Option Nat := none
  switched : Option Nat := none
  prevEpoch : Nat := 0
  quarantined : Bool := false
  admitted : Bool := false
  /-- the scheduled switch came due without PTP lock, and waits for a rejoin (R498) -/
  missed : Bool := false
  /-- the scheduled switch is a rejoin's; a plate pull of the package is in progress (R501) -/
  rejoin : Bool := false
  pulling : Bool := false
  /-- packets delivered to this die and not yet served -/
  inbox : List Packet := []
  /-- whole packets to route, with their ingress: 0 or 1 a port, 2 this die's own units -/
  transit : List (Nat × Packet) := []
  tags : List TagEntry := []
  /-- requests that wait for a tag, in order: their tag is not yet set (R490) -/
  tagWait : List TagEntry := []
  /-- generations: those of single tags, and what every tag's has been raised by at rejoins (R494, R501) -/
  tagGens : Tab Nat := []
  tagBase : Nat := 0
  served : List Served := []
  p0 : FPort := {}
  p1 : FPort := {}
  injections : Tab LinkInj := []
  injStarted : Nat := 0
deriving DecidableEq, Repr

/-! ## The package (R26, R573, R574) -/

/-- A change of the boot flash on its way to the management island of die 0 (R573). -/
inductive FlashOp where
  | image (slot : Nat) (bytes : List Byte)
  | slot (n : Nat)
  /-- a repair record: kind 0 a store retirement, 1 a stack row; die; target; removed instead of added (R166, R460) -/
  | repair (kind die target : Nat) (remove : Bool)
  /-- an anchor's key and minimum serial; empty: cleared (R455) -/
  | anchor (slot : Nat) (bytes : List Byte)
  /-- a committed active bank (R439) -/
  | instances (die : Nat) (bytes : List Byte)
  /-- the staged and the active plate's image; empty: none -/
  | staged (image : List Byte)
  | plate (image : List Byte)
deriving DecidableEq, Repr

/-- The boot flash of die 0 (R574), by area. -/
structure Flash where
  /-- slot chosen for the next package reset, and the two Seloth images -/
  slot : Nat := 0
  image0 : List Byte := []
  image1 : List Byte := []
  /-- images of the active and the staged plate; empty: none -/
  plate : List Byte := []
  staged : List Byte := []
  /-- audit records, oldest first (R461) -/
  audit : List AuditRec := []
  auditSeq : Nat := 0
  /-- event-log rings: die, records oldest first -/
  rings : List (Nat × List EvRec) := []
  /-- anchors by slot: key of 96 bytes and minimum serial of 4; of anchor 0 the key is in ROM (R455) -/
  anchors : Tab (List Byte) := []
  /-- stored instance configuration by die, 3,072 bytes; none: the default of R439 -/
  instances : Tab (List Byte) := []
  /-- repair records: kind, die, target (R166, R398) -/
  repairs : List (Nat × Nat × Nat) := []
deriving DecidableEq, Repr

/-- A plate pull (R501): the package port it goes through, when it began there, what it pulls, the bytes so far, and
the ports that have failed. -/
structure PlatePull where
  port : Nat
  start : Nat
  epoch : Nat
  digest : List Byte
  bytes : List Byte := []
  tried : List Nat := []
deriving DecidableEq, Repr

/-- What belongs to the package as a whole: its pins, its boot flash, and a plate pull of its rejoin. -/
structure PkgState where
  pull : Option PlatePull := none
  pwrGood : Bool := false
  /-- PKG_RESET# is low -/
  resetLow : Bool := false
  test : Bool := false
  flash : Flash := {}
deriving DecidableEq, Repr

/-! ## The stipple unit (ch. 3) -/

/-- What the unit keeps of a stream (R93, R109); its counters stand in the register file. -/
structure StreamState where
  /-- a valid packet has come, and when the last one did -/
  present : Bool := false
  absent : Bool := false
  thin : Bool := false
  lastSeen : Nat := 0
  seq : Option Nat := none
  /-- points kept and largest delay in the open slice -/
  slicePts : Nat := 0
  sliceDelay : Nat := 0
deriving DecidableEq, Repr

/-- A packet in the intake (R97, R98). -/
structure IntakePkt where
  stream : Nat
  /-- ingest port 0-3; 4: host-fed -/
  port : Nat
  /-- instance that fed it -/
  inst : Nat := 0
  /-- ns: of its last byte, or its acceptance; and the ingress timestamp of its first byte -/
  arrival : Nat
  ingress : Int
  /-- start of the frame it arrived in, outside replay -/
  start : Nat := 0
  payload : List Byte
  /-- space it occupies: 0-3 a port's reservation, 4 that of safety streams, 5 shared -/
  pool : Nat
  /-- it arrived before the last switch of the tables (R72) -/
  old : Bool := false
  /-- it arrived in replay mode (R101, R102) -/
  replay : Bool := false
deriving DecidableEq, Repr

/-- A frame that opens: its number, whether it opens after it has begun, whether its combs are partial in any case (R102, R599),
whether it is a replay frame. -/
structure FrameOpen where
  num : Nat
  partFrame : Bool := false
  cut : Bool := false
  replay : Bool := false
deriving DecidableEq, Repr

/-- What passes through the intake, in order (R92). -/
inductive IntakeItem where
  | pkt (p : IntakePkt)
  | slice (e : SliceEnd)
  /-- the open frame closes and the next one opens -/
  | frame (o : FrameOpen)
  /-- the zones of a new plate come into force behind it -/
  | zones
  /-- a plate switch has disabled a comb target: its comb ends behind the packets that arrived before (R132) -/
  | combEnd (target : Nat)
deriving DecidableEq, Repr

/-- What the fall-back occupancy engine receives (R92, R95). -/
inductive FoeItem where
  | point (bytes : List Byte)
  | slice (e : SliceEnd)
  | zones
deriving DecidableEq, Repr

/-- What the comb builder receives, in order: a record of a target; the frame-close marker; the place of a record that found
the queue full, which its comb counts (R96, R117); the end of a disabled target's comb (R132). -/
inductive CombItem where
  | point (target : Nat) (bytes : List Byte)
  | frame (o : FrameOpen)
  | dropped (target : Nat)
  | finish (target : Nat)
deriving DecidableEq, Repr

/-- A HOSTFEED_SUBMIT in progress (R100). -/
structure HostFeed where
  cmd : Nat
  addr : Nat
  left : Nat
  sealRef : Nat
  accepted : Nat := 0
  dropped : Nat := 0
deriving DecidableEq, Repr

/-- The stipple unit. -/
structure StpState where
  /-- tables of R71, keyed 2^20 * table + offset; those before the last switch -/
  active : Tab Byte := []
  staged : Tab Byte := []
  before : Tab Byte := []
  /-- STP_TBL_CTRL error -/
  tblError : Bool := false
  intake : List IntakeItem := []
  streams : Tab StreamState := []
  /-- poses posted and not yet taken: stream, 72 bytes, command (R87, R100) -/
  poses : List (Nat × List Byte × Nat) := []
  feeds : List HostFeed := []
  /-- open frame, its start, and the start of the open slice, ns (R37) -/
  frame : Nat := 0
  frameAt : Nat := 0
  sliceAt : Nat := 0
  replay : Bool := false
  /-- slice index in a replay frame, and the packet time of the first packet parsed in it (R101) -/
  replaySlice : Nat := 0
  replayStart : Option Int := none
deriving DecidableEq, Repr

/-! ## The comb builder (ch. 4) -/

/-- Buffer states (R126); none: the buffer has no place in memory. -/
inductive CombPhase where
  | none | clearing | free | building | sorting | closed | publishing | published
deriving DecidableEq, Repr

/-- Section offsets of a comb buffer (R116). -/
structure CombLayout where
  feat : Nat := 0
  bfeat : Nat := 0
  index : Nat := 0
  hash : Nat := 0
  sort : Nat := 0
  pts : Nat := 0
  size : Nat := 0
deriving DecidableEq, Repr

/-- A comb buffer with its comb. -/
structure CombBuf where
  phase : CombPhase := .none
  base : Nat := 0
  /-- the offsets derived when the owner set the buffer (R116) -/
  lay : CombLayout := {}
  gen : Nat := 0
  /-- target descriptor in force when the comb opened (R114) -/
  desc : List Byte := []
  frame : Nat := 0
  partFrame : Bool := false
  replay : Bool := false
  ended : Bool := false
  /-- status bits 1 and 2 of the header -/
  status : Nat := 0
  /-- voxels, records numbered, and the drop counters (R117) -/
  voxels : Nat := 0
  points : Nat := 0
  region : Nat := 0
  overflow : Nat := 0
  backlog : Nat := 0
deriving DecidableEq, Repr

/-- A background job of the builder (R142). -/
inductive CombJob where
  | clear (target buf : Nat)
  | scatter (target buf : Nat)
  | publish (target buf cmd : Nat)
  /-- downsample or trilinear: the command carries its parameters -/
  | build (target cmd : Nat)
deriving DecidableEq, Repr

/-- A comb target (R113). -/
structure CombTarget where
  /-- bytes 64-107 of its descriptor, as the owner set them -/
  owned : List Byte := []
  buf0 : CombBuf := {}
  buf1 : CombBuf := {}
  buf2 : CombBuf := {}
  buf3 : CombBuf := {}
  /-- building buffer -/
  building : Option Nat := none
  /-- new buffers or a new enable: the next comb may be partial (R117) -/
  renewed : Bool := false
  /-- missed points, in all and in this frame (R127) -/
  missed : Nat := 0
  missedFrame : Nat := 0
  /-- an instance reset abandoned the frame's comb (R132) -/
  dead : Bool := false
  /-- the open frame builds no comb: the owner that its comb-missed event names (R127, R132) -/
  skipped : Option Nat := none
  /-- releases that wait for forager references: buffer, command (R348) -/
  releases : List (Nat × Nat) := []
deriving DecidableEq, Repr

/-- The comb builder of a die. -/
structure CombState where
  queue : List CombItem := []
  targets : Tab CombTarget := []
  jobs : List CombJob := []
  /-- the open frame, once one has opened -/
  frame : Option FrameOpen := none
deriving DecidableEq, Repr

/-! ## The fall-back occupancy engine (ch. 16) -/

/-- State of a zone (R517, R518). -/
structure ZoneState where
  count : Nat := 0
  occupied : Bool := true
  raw : Bool := false
  blind : Bool := false
  run : Nat := 0
  clear : Nat := 0
deriving DecidableEq, Repr

/-- The engine. -/
structure FoeState where
  queue : List FoeItem := []
  /-- the safety block and zone records in force in the engine (R512, R513) -/
  block : List Byte := []
  zones : List (Nat × List Byte) := []
  /-- planes: key 4096 * j + i, count 1-15; the one that receives points -/
  plane0 : Tab Nat := []
  plane1 : Tab Nat := []
  plane : Bool := false
  states : Tab ZoneState := []
  /-- the slice under evaluation and when its marker came; a plane still to clear -/
  evaluating : Option (SliceEnd × Nat) := none
  /-- when the evaluated plane is clear (R517) -/
  clearEnd : Nat := 0
deriving DecidableEq, Repr

/-! ## The forager (ch. 11) -/

/-- A version slot of a table (R360). -/
structure TabSlot where
  /-- 0 EMPTY, 1 LOADING, 2 READY, 3 ACTIVE, 4 DRAINING -/
  state : Nat := 0
  version : Nat := 0
  base : Nat := 0
  /-- granule slots at this die -/
  granules : Nat := 0
  /-- descriptor, shard map and serving list that it was loaded or last active under (R336, R337) -/
  desc : List Byte := []
  shards : List Byte := []
  serving : List Byte := []
  /-- hot list, and where its rows stand (R357, R358) -/
  hotKeys : List Nat := []
  /-- places of the hot list that hold the default row -/
  hotMiss : List Nat := []
  hotStaging : Bool := false
  hotAt : Nat := 0
  release : Nat := 0
  /-- the TABLE_LOAD in progress -/
  load : Option Nat := none
  /-- when it began to drain; its own notice was sent; who has sent notices, as node * 4 + die (R362) -/
  switched : Nat := 0
  sent : Bool := false
  notices : List Nat := []
deriving DecidableEq, Repr

/-- The two slots of a table. -/
structure TabSlots where
  a : TabSlot := {}
  b : TabSlot := {}
deriving DecidableEq, Repr

/-- A bag whose partials are not all in (R353). -/
structure Bag where
  num : Nat
  /-- its number of indices -/
  n : Nat
  acc : List Int
  defaulted : Nat
  /-- shares outstanding -/
  shares : Nat
deriving DecidableEq, Repr

/-- The share of a bag that another die pools (R353, R355). Dies are node * 4 + die. -/
structure PoolShare where
  batch : Nat
  bag : Nat
  part : Nat
  die : Nat
  /-- it goes to the other replica: how the first one failed (R355, R390) -/
  why : Option Status := none
  keys : List Nat
  weights : List Int
  /-- it waits for reply space -/
  waiting : Bool := true
deriving DecidableEq, Repr

/-- An accepted lookup batch (R349-R352). -/
structure Batch where
  cmd : Nat
  inst : Nat
  /-- its descriptor with the extension -/
  desc : List Byte
  /-- the table and its slot (false A, true B); none: a comb source -/
  table : Option (Nat × Bool)
  version : Nat := 0
  /-- comb target and buffer it holds (R348) -/
  comb : Option (Nat × Nat) := none
  /-- the bag that is read next -/
  next : Nat := 0
  bags : List Bag := []
  nextPart : Nat := 0
  /-- output writes not yet acknowledged, and a refusal among them -/
  writes : Nat := 0
  bad : Option Status := none
  /-- bags whose output row is written -/
  ready : List Nat := []
  defaulted : Nat := 0
  sat : Bool := false
deriving DecidableEq, Repr

/-- A command's records at a primary owner (R366, R367). -/
structure UpdWork where
  /-- die of this package whose work it is; die of this package it came from, or 4 + node * 4 + die of another package; and its
  command there -/
  home : Nat
  src : Nat
  cmd : Nat
  inst : Nat
  table : Nat
  slotB : Bool
  shift : Nat
  sto : Bool
  seed : Nat
  records : List (Nat × List Int)
  applied : Bool := false
  rows : Nat := 0
  skipped : Nat := 0
  /-- pushes not yet acknowledged -/
  pushes : Nat := 0
  bad : Option Status := none
deriving DecidableEq, Repr

/-- A TABLE_UPDATE at the die it was submitted to. -/
structure Update where
  cmd : Nat
  table : Nat
  slotB : Bool
  sealRef : Nat
  /-- primaries that have not finished: of this package, and elsewhere (node * 4 + die) -/
  works : Nat := 0
  far : List Nat := []
  rows : Nat := 0
  skipped : Nat := 0
  bad : Option Status := none
deriving DecidableEq, Repr

/-- A prefetched row (R359). -/
structure Prefetched where
  table : Nat
  slotB : Bool
  key : Nat
  addr : Nat
  bytes : List Byte
deriving DecidableEq, Repr

/-- The forager of a die. -/
structure FgrState where
  tables : Tab TabSlots := []
  batches : List Batch := []
  shares : List PoolShare := []
  updates : List Update := []
  works : List UpdWork := []
  /-- prefetch area, oldest first -/
  prefetch : List Prefetched := []
  /-- indices of TABLE_PREFETCH on their way to the serving dies of the package: die, table, version, index (R359) -/
  postings : List (Nat × Nat × Nat × Nat) := []
  /-- the staging buffer's hot areas -/
  staging : Tab Byte := []
deriving DecidableEq, Repr


/-! ## The die and the package -/

/-- A die. -/
structure DieState where
  num : Nat := 0
  /-- the die time base, ns (R599) -/
  now : Nat := 0
  csr : CsrState := {}
  log : LogState := {}
  ins : InsState := {}
  rol : RolState := {}
  cmd : CmdState := {}
  mem : MemState := {}
  boot : BootState := {}
  clk : ClkState := {}
  pwr : PwrState := {}
  pcie : PcieState := {}
  eth : Tab EthPort := []
  ptp : PtpState := {}
  d2d : D2dState := {}
  saf : SafState := {}
  stp : StpState := {}
  comb : CombState := {}
  foe : FoeState := {}
  fgr : FgrState := {}
  fab : FabState := {}
  clusters : Quad Cluster := { q0 := {}, q1 := {}, q2 := {}, q3 := {} }
  /-- sources of doubt detected and not yet taken (R526): code, cluster -/
  doubts : List (Nat × Nat) := []
  task : TaskState := {}
  /-- flash changes sent and not yet made -/
  toFlash : List FlashOp := []
  outs : List Output := []
  /-- the model's counter of free values -/
  fresh : Nat := 0
deriving DecidableEq, Repr

/-- The package. -/
structure State where
  dies : Quad DieState
  pkg : PkgState := {}
  pending : List Instr := []
deriving DecidableEq, Repr

/-- The machine right after reset: held in power-on reset, before its release (R600, R602). -/
def State.reset : State :=
  { dies := { q0 := { num := 0 }, q1 := { num := 1 }, q2 := { num := 2 }, q3 := { num := 3 } } }

end Sys2Proof.Machine
end

