-- ==== Sys2Proof/Machine/Base.lean ====
section
/-! DEFINITION. The dies of the package, register words and counters (R12-R15, R623), interrupts (R558), events
(R612-R617) and free values. -/

namespace Sys2Proof.Machine

/-- Thing i of four. -/
def quadGet {α : Type} (q : Quad α) (i : Nat) : α :=
  match i with
  | 0 => q.q0
  | 1 => q.q1
  | 2 => q.q2
  | _ => q.q3

/-- The four with thing i replaced. -/
def quadSet {α : Type} (q : Quad α) (i : Nat) (x : α) : Quad α :=
  match i with
  | 0 => { q with q0 := x }
  | 1 => { q with q1 := x }
  | 2 => { q with q2 := x }
  | _ => { q with q3 := x }

def quadMod {α : Type} (q : Quad α) (i : Nat) (f : α → α) : Quad α := quadSet q i (f (quadGet q i))

/-- The same change of all four. -/
def quadMap {α : Type} (f : α → α) (q : Quad α) : Quad α :=
  { q0 := f q.q0, q1 := f q.q1, q2 := f q.q2, q3 := f q.q3 }

/-- Die d of the package. -/
def State.die (s : State) (d : Die) : DieState := quadGet s.dies d.val

/-- Change die d. -/
def State.onDie (s : State) (d : Die) (f : DieState → DieState) : State :=
  { s with dies := quadMod s.dies d.val f }

/-- The die's time base has reached t (R599); it never runs backward here. -/
def DieState.at (D : DieState) (t : Nat) : DieState := { D with now := max D.now t }

/-- A command at a die and a time: the time base advances, then f. -/
def State.atDie (s : State) (a : At) (f : DieState → DieState) : State :=
  s.onDie a.die (fun D => f (D.at a.time))

/-! ## Register words -/

/-- The key of a register in the register table. -/
def regKey (b off sel : Nat) : Nat := b * 65536 + off + sel * 2 ^ 32

/-- What an unlisted register reads as: its reset value. -/
def regDefault (k : Nat) : Word :=
  BitVec.ofNat 32 (regReset (k % 2 ^ 32 / 65536) (k % 65536))

/-- The word at offset off of block b (under index sel of its selection register). -/
def DieState.reg (D : DieState) (b off : Nat) (sel : Nat := 0) : Nat :=
  (tabGetF regDefault D.csr.regs (regKey b off sel)).toNat

def DieState.setReg (D : DieState) (b off v : Nat) (sel : Nat := 0) : DieState :=
  { D with csr := { D.csr with
      regs := tabSetF regDefault (regKey b off sel) (BitVec.ofNat 32 v) D.csr.regs } }

/-- A 64-bit register: low half at off, high half at off + 4 (R13). -/
def DieState.reg64 (D : DieState) (b off : Nat) (sel : Nat := 0) : Nat :=
  D.reg b off sel + 2 ^ 32 * D.reg b (off + 4) sel

def DieState.setReg64 (D : DieState) (b off v : Nat) (sel : Nat := 0) : DieState :=
  (D.setReg b off (v % 2 ^ 32) sel).setReg b (off + 4) (v / 2 ^ 32) sel

/-- Does block b count? Its count_enable, bit 0 of its control register (R623); the stipple unit has none. -/
def DieState.counts (D : DieState) (b : Nat) : Bool :=
  if b = B_STP then true else bit (D.reg b 0x0004) 0

/-- Add n to a 64-bit counter, saturating at 2^64 - 1 (R623). -/
def DieState.count (D : DieState) (b off : Nat) (n : Nat := 1) (sel : Nat := 0) : DieState :=
  if D.counts b then D.setReg64 b off (satAdd 64 (D.reg64 b off sel) n) sel else D

/-- Add n to a 32-bit counter, saturating at 2^32 - 1. -/
def DieState.count32 (D : DieState) (b off : Nat) (n : Nat := 1) (sel : Nat := 0) : DieState :=
  if D.counts b then D.setReg b off (satAdd 32 (D.reg b off sel) n) sel else D

/-- Block b works: what its counters of cycles and of occupancy count from now on is open until one of them is looked at
(log entry 9). -/
def DieState.work (D : DieState) (b : Nat) : DieState :=
  if D.counts b && !D.csr.worked.contains b then { D with csr := { D.csr with worked := D.csr.worked ++ [b] } } else D

/-! ## Outputs and interrupts -/

def DieState.out (D : DieState) (o : Output) : DieState := { D with outs := D.outs ++ [o] }

/-- Send an MSI-X message, or hold it pending (R558). -/
def DieState.msix (D : DieState) (fn vec : Nat) : DieState :=
  if D.pcie.msixOff.contains fn || D.pcie.masked.contains (fn * 2048 + vec) then
    if D.pcie.waiting.contains (fn * 2048 + vec) then D
    else { D with pcie := { D.pcie with waiting := D.pcie.waiting ++ [fn * 2048 + vec] } }
  else D.out (.msix fn vec)

/-- The vector of the physical function that a block's causes raise (R558). -/
def intVector (b : Nat) : Nat :=
  if b = B_EVL then 1
  else if b = B_SAF ∨ b = B_FOE then 2
  else if 0x180 ≤ b then 3
  else 0

/-- Set a cause bit of a block, and raise its vector when the bit becomes set and is enabled (R558; log entry 66). -/
def DieState.cause (D : DieState) (b bitNo : Nat) : DieState :=
  if bit (D.reg b 0x000C) bitNo then D
  else
    let D := D.setReg b 0x000C (orN (D.reg b 0x000C) (2 ^ bitNo))
    if bit (D.reg b 0x0010) bitNo then D.msix 0 (intVector b) else D

/-- Is the register a block's interrupt enables? Engine blocks but the sequencer's have none, nor has the occupancy engine. -/
def isIntEnable (b off : Nat) : Bool := off == 0x0010 && b != B_FOE && !(0x200 ≤ b && b % 16 != 0)

/-- The register at off of block b has been written, and held old before: if it is the enables, a cause that stands and is
enabled now raises the block's vector (R558). -/
def DieState.enableRaise (D : DieState) (b off old : Nat) : DieState :=
  if isIntEnable b off ∧ andN (andNot (D.reg b 0x0010) old) (D.reg b 0x000C) ≠ 0 then D.msix 0 (intVector b) else D

/-! ## Free values (log entry 3) -/

def DieState.tick (D : DieState) : DieState := { D with fresh := D.fresh + 1 }
def DieState.freeByte (D : DieState) : Byte := Config.freeByte (4 * D.fresh + D.num)
def DieState.freeNat (D : DieState) : Nat := Config.freeNat (4 * D.fresh + D.num)
def DieState.freeInt (D : DieState) : Int := Config.freeInt (4 * D.fresh + D.num)
def DieState.freeBool (D : DieState) : Bool := Config.freeBool (4 * D.fresh + D.num)

/-! ## Events -/

/-- Severity of a class and code (R615). -/
def sevOf (cls code : Nat) : Nat :=
  let t : List Nat := match cls with
    | 0 => [1, 2, 3, 1, 2]
    | 1 => [0, 3, 3, 3, 2, 2, 0]
    | 2 => [2, 3, 2, 1, 1, 3, 1]
    | 3 => [1, 2, 2, 1, 3, 3, 1]
    | 4 => [2, 2, 1, 1, 2]
    | 5 => [2, 1, 2, 2, 2]
    | 6 => [2, 2, 1, 1, 1, 1, 1]
    | 7 => [1, 1, 0, 1, 2, 3]
    | 8 => [1, 0, 1, 1, 1, 1]
    | 9 => [2, 1]
    | 10 => [2, 2, 3, 3, 0, 0, 2]
    | 11 => [1, 3, 1]
    | 12 => [3, 0, 3, 2, 3, 1, 3, 2]
    | 13 => [1, 1]
    | _ => [0]
  t.getD (code - 1) 0

/-- Coalesce an event: no record, only counts (R617). -/
def DieState.coalesce (D : DieState) (e : Event) : DieState :=
  let D := (D.count B_EVL EVL_CLASS_COALESCED 1 e.cls).count B_EVL EVL_COALESCED_TOTAL
  let D := { D with log := { D.log with
      coalFirst := some (D.log.coalFirst.getD e.time)
      coalCount := D.log.coalCount + 1
      coalBy := tabMod 0 e.cls (· + 1) D.log.coalBy } }
  D.cause B_EVL 1

/-- Is the log lost (R622)? -/
def LogState.isLost (l : LogState) : Bool := l.fail0 && l.fail1

/-- Raise an event: it is counted and stamped, and admitted to the intake or coalesced (R613, R616, R617, R622). -/
def DieState.event (D : DieState) (e : Event) : DieState :=
  let e := { e with time := D.now, sev := if e.sev = 0 then sevOf e.cls e.code else e.sev,
                    injection := !D.log.injections.isEmpty || !D.fab.injections.isEmpty }
  let D := (D.count B_EVL EVL_CLASS_COUNT 1 e.cls).setReg64 B_EVL EVL_CLASS_LAST_TIME e.time e.cls
  if D.log.isLost then D.coalesce e
  else if D.log.intake.length < 32 then
    { D with log := { D.log with intake := D.log.intake ++ [e]
                                 intakeMax := max D.log.intakeMax (D.log.intake.length + 1) } }
  else D.coalesce e

/-- Report a source of doubt to the safety island (R526); DOUBT_RAISE takes it. -/
def DieState.doubt (D : DieState) (code : Nat) (cluster : Nat := 0) : DieState :=
  { D with doubts := D.doubts ++ [(code, cluster)] }

/-- Is a lasting condition of source 7 there (R526): PTP not locked, both reference inputs lost, the oscillator more than
1 % off? An offset above 100 µs has ended the lock before (R566). -/
def DieState.clockBad (D : DieState) : Bool :=
  !D.ptp.locked || (!D.clk.refA && !D.clk.refB) || decide (10000 < D.clk.oscPpm.natAbs)

/-- A condition of source 7 was there until now: the second that it must be absent counts from now (R526, R598). -/
def DieState.clockSeen (D : DieState) : DieState :=
  { D with saf := { D.saf with clockCalm := if D.clockBad then none else some D.now } }

end Sys2Proof.Machine
end

