-- ==== Sys2Proof/Machine/Firewall.lean ====
section
/-! DEFINITION. The instance entries (R437), what an instance owns (R446), the address map (R7, R29-R31, R378),
the firewall checks and their refusals (R444-R448), and the roles (R453, R454). -/

namespace Sys2Proof.Machine

/-! ## Instance entries (R437) -/

/-- A region entry (R437). -/
structure Region where
  base : Nat
  size : Nat
  view : Nat
  rights : Nat
  shared : Nat
deriving DecidableEq, Repr

/-- Byte o of instance i's entry in a bank. -/
def bankByte (t : Tab Byte) (i o : Nat) : Byte := tabGet 0 t (384 * i + o)

/-- n bytes of instance i's entry in a bank, from offset o. -/
def bankBytes (t : Tab Byte) (i o n : Nat) : List Byte := (List.range n).map (fun k => bankByte t i (o + k))

/-- A little-endian field of an entry. -/
def bankField (t : Tab Byte) (i o n : Nat) : Nat := leNat (bankBytes t i o n)

def insEnabled (t : Tab Byte) (i : Nat) : Bool := bit (bankField t i 0 1) 0
def insClusters (t : Tab Byte) (i : Nat) : Nat := bankField t i 1 1
def insSealBase (t : Tab Byte) (i : Nat) : Nat := bankField t i 2 2
def insSealCount (t : Tab Byte) (i : Nat) : Nat := bankField t i 4 2
def insQueueMax (t : Tab Byte) (i : Nat) : Nat := bankField t i 6 2

/-- Region r of an entry; the size is in bytes. -/
def insRegion (t : Tab Byte) (i r : Nat) : Region :=
  { base := bankField t i (64 + 16 * r) 8, size := bankField t i (64 + 16 * r + 8) 4 * 2 ^ 20,
    view := bankField t i (64 + 16 * r + 12) 1, rights := bankField t i (64 + 16 * r + 13) 1,
    shared := bankField t i (64 + 16 * r + 14) 1 }

def insRegions (t : Tab Byte) (i : Nat) : List Region := (List.range 16).map (insRegion t i)

/-- The generation of an instance (R440). -/
def DieState.gen (D : DieState) (i : Nat) : Nat := tabGet 0 D.ins.gens i

/-- Does cluster c still wait for the zeroing of what another instance held: a scrub queue, or a reset (R157, R158)? -/
def DieState.clusterHeld (D : DieState) (c i : Nat) : Bool :=
  (quadGet D.clusters c).fills.any (fun f => f.inst != i)
  || D.ins.resets.any (fun e => e.1 != i && bit (field e.2.entry 1 1) c)

/-- The instance that owns cluster c, if one does: another than the last has it only when its zeroing is done (R157). -/
def DieState.clusterOwner (D : DieState) (c : Nat) : Option Nat :=
  (List.range 8).find? (fun i => insEnabled D.ins.active i && bit (insClusters D.ins.active i) c && !D.clusterHeld c i)

/-- The instance whose range holds a seal. -/
def DieState.sealOwner (D : DieState) (n : Nat) : Option Nat :=
  (List.range 8).find? (fun i => insEnabled D.ins.active i && decide (insSealBase D.ins.active i ≤ n)
    && decide (n < insSealBase D.ins.active i + insSealCount D.ins.active i))

/-- Is the instance being reset, its gate closed (R450)? -/
def DieState.gateClosed (D : DieState) (i : Nat) : Bool := (tabFind D.ins.resets i).isSome

/-! ## Addresses (R7, R29-R31, R378) -/

/-- Stack capacity in GiB of the part (R2). -/
def stackGiB : Nat := if Config.partVariant.val % 2 = 0 then 36 else 24

/-- Where a die-local address lies. -/
inductive Place where
  /-- a byte of a stack, with the view (0 interleaved, 1 + n per stack) -/
  | stack (n off view : Nat)
  | store (c off : Nat)
  | build (off : Nat)
  | staging (off : Nat)
  | csr (off : Nat)
  /-- not populated (R30) -/
  | hole
deriving DecidableEq, Repr

/-- Stack and stack offset of an interleaved address (R378). -/
def interleave (a : Nat) : Nat × Nat :=
  ((bits a 12 1 + bits a 20 1 + bits a 28 1) % 2, a / 2 ^ 13 * 2 ^ 12 + a % 2 ^ 12)

/-- The die-local address map for a given stack capacity in GiB (R7, R29). -/
def placeFor (gib a : Nat) : Place :=
  if a / 2 ^ 30 < 2 * gib then .stack (interleave a).1 (interleave a).2 0
  else if 0x0040_0000_0000 ≤ a ∧ (a - 0x0040_0000_0000) / 2 ^ 30 < gib then .stack 0 (a - 0x0040_0000_0000) 1
  else if 0x0050_0000_0000 ≤ a ∧ (a - 0x0050_0000_0000) / 2 ^ 30 < gib then .stack 1 (a - 0x0050_0000_0000) 2
  else if 0x0100_0000_0000 ≤ a ∧ a < 0x0100_1000_0000 ∧ (a - 0x0100_0000_0000) % 0x0400_0000 < 0x0200_0000 then
    .store ((a - 0x0100_0000_0000) / 0x0400_0000) ((a - 0x0100_0000_0000) % 0x0400_0000)
  else if 0x0100_1000_0000 ≤ a ∧ a < 0x0100_1100_0000 then .build (a - 0x0100_1000_0000)
  else if 0x0100_2000_0000 ≤ a ∧ a < 0x0100_2100_0000 then .staging (a - 0x0100_2000_0000)
  else if 0x0200_0000_0000 ≤ a ∧ a < 0x0200_1000_0000 then .csr (a - 0x0200_0000_0000)
  else .hole

def place (a : Nat) : Place := placeFor stackGiB a

/-- A global address (R31): node, die and die-local parts. -/
def gNode (g : Nat) : Nat := g / 2 ^ 52
def gDie (g : Nat) : Nat := bits g 50 2
def gReserved (g : Nat) : Nat := bits g 48 2
def gLocal (g : Nat) : Nat := g % 2 ^ 48

/-- Key of a stack byte in the memory table. -/
def stackKey (n off : Nat) : Nat := n * 2 ^ 36 + off

/-! ## Region rights (R444) -/

/-- Does a region entry cover [a, a + n) of the view? -/
def Region.covers (r : Region) (view a n : Nat) : Bool :=
  r.size != 0 && r.view == view && r.base ≤ a && a + n ≤ r.base + r.size

/-- Index of the region of instance i that covers an access with the rights bit. -/
def ownRegion (t : Tab Byte) (i view a n right : Nat) : Option Nat :=
  (List.range 16).find? (fun r => (insRegion t i r).covers view a n && bit (insRegion t i r).rights right)

/-- Does a stack byte lie, through a view, in [base, base + size) (R378)? -/
def viewHolds (base size view stack off : Nat) : Bool :=
  size != 0 &&
  (if view = 0 then
     let a := off / 2 ^ 12 * 2 ^ 13 + off % 2 ^ 12
     let a12 := (stack + bits off 19 1 + bits off 27 1) % 2
     let a := a + a12 * 2 ^ 12
     base ≤ a && a < base + size
   else view == stack + 1 &&
     (let a := (if stack = 0 then 0x0040_0000_0000 else 0x0050_0000_0000) + off
      base ≤ a && a < base + size))

/-- Does a stack byte lie, through any view, in a region of instance i? -/
def inRegionOf (t : Tab Byte) (i stack off : Nat) : Bool :=
  (insRegions t i).any (fun r => viewHolds r.base r.size r.view stack off)

/-- The 4 KiB units that [a, a + n) touches, as the address of a byte of each. -/
def unitStarts (a n : Nat) : List Nat :=
  (List.range ((a + n - 1) / 4096 - a / 4096 + 1)).map (fun k => if k = 0 then a else (a / 4096 + k) * 4096)

/-- Does an access touch a region that waits for its zeroing (R452)? Regions are multiples of 2 MiB. -/
def DieState.scrubbing (D : DieState) (a n : Nat) : Bool :=
  !D.ins.scrubs.isEmpty && (unitStarts a n).any (fun x =>
    match place x with
    | .stack k off _ => D.ins.scrubs.any (fun r => viewHolds r.base r.size r.view k off)
    | _ => false)

/-- Does the memory controller admit the access (R444)? A region that waits for its zeroing admits none (R452), and
the gate of a resetting instance is closed (R450). -/
def DieState.regionAdmits (D : DieState) (inst view a n : Nat) (write : Bool) : Bool :=
  let t := D.ins.active
  let own := insEnabled t inst && (ownRegion t inst view a n (if write then 1 else 0)).isSome
  let shared := !write && (List.range 8).any (fun j =>
    j != inst && insEnabled t j && (List.range 16).any (fun r =>
      (insRegion t j r).covers view a n && bit (insRegion t j r).shared inst))
  !D.gateClosed inst && (own || shared) && !D.scrubbing a n

/-! ## Refusals (R16, R445, R446, R614) -/

/-- The requester identifier of a refusal event (R614). -/
def refusalIdent (r : Req) (dieNum checkpoint : Nat) (write : Bool) : Nat :=
  r.id % 4096 + (r.overDie.getD dieNum % 4) * 2 ^ 12 + (r.overNode.getD 0 % 4096) * 2 ^ 16
    + checkpoint * 2 ^ 28 + b2n write * 2 ^ 31

/-- What every refusal records: the counter, the latest refusal, the cause, and the event (R445). i0: the resource
is owned by instance 0, which R446 reports. -/
def DieState.refuse (D : DieState) (r : Req) (checkpoint addr : Nat) (write i0 : Bool)
    (cls code : Nat) : DieState :=
  let viol := i0 || r.inst == 0
  let D := D.count B_INS INS_FW_REFUSED 1 checkpoint
  let D := D.setReg64 B_INS INS_LAST_REFUSAL_ADDR addr
  let D := D.setReg B_INS INS_LAST_REFUSAL_INFO
    (r.id % 4096 + (r.inst % 8) * 2 ^ 12 + b2n write * 2 ^ 15 + checkpoint * 2 ^ 16
      + (r.overDie.getD D.num % 4) * 2 ^ 19)
  let D := D.cause B_INS 0
  let D := D.event { cls := cls, code := code, inst := some r.inst, loc := addr,
                     ident := refusalIdent r D.num checkpoint write,
                     sev := if viol && cls == 7 && code == 1 then 2 else 0 }
  if viol then ((D.count B_INS INS_I0_VIOLATIONS).cause B_INS 3).doubt 9 else D

/-! ## Roles (R453, R454, R447) -/

/-- The highest role the requester holds in an open session: 0 operator, 1 installer, 2 maker. -/
def DieState.roleOf (D : DieState) (r : Req) : Nat :=
  if r.overDie.isSome || r.overNode.isSome then 0
  else (D.rol.sessions.filter (fun e => e.2.req == r.id)).foldl (fun m e => max m e.2.role) 0

/-- A command or CSR write under a role keeps its session alive (R459). -/
def DieState.touchSession (D : DieState) (r : Req) : DieState :=
  { D with rol := { D.rol with
      sessions := tabMap (fun _ s => if s.req = r.id then { s with lastUse := D.now } else s) D.rol.sessions } }

/-- The safety island's requester ID (R440). -/
def islandReq : Nat := 0x093

/-- The cluster a CST or engine block belongs to. -/
def blockCluster (b : Nat) : Option Nat :=
  if 0x180 ≤ b ∧ b < 0x184 then some (b - 0x180)
  else if 0x200 ≤ b ∧ b < 0x300 then some ((b - 0x200) / 0x40)
  else none

/-- Is the block, or what it stands for, owned by instance 0 (R446)? -/
def DieState.blockI0 (D : DieState) (b : Nat) : Bool :=
  match blockCluster b with
  | some c => D.clusterOwner c == some 0
  | none => b == B_SAF || b == B_FOE

/-- Does the id fall in the doorbell pages, 16 to each 64 KiB (R415)? -/
def doorBlock (b : Nat) : Bool := 0x800 ≤ b && b < 0x900

/-- Is anything assigned to the 64 KiB with id b (R32, R415)? -/
def csrAssigned (b : Nat) : Bool := (blockKind b).isSome || doorBlock b

/-- Is the requester a PCIe function (R440)? -/
def isPcieReq (r : Req) : Bool := 0x0A0 ≤ r.id && r.id ≤ 0x0A8 && r.overDie.isNone && r.overNode.isNone

/-- Does BAR0 reach the block now (R556, R561)? A virtual function's holds doorbell pages alone. -/
def DieState.barOpen (D : DieState) (r : Req) (b : Nat) : Bool :=
  !isPcieReq r || ((r.id == 0x0A0 || doorBlock b) && (D.cmd.ready || b == B_GLB || b == B_CLK || b == B_PWR))

/-- The requester's own copy of a selection register (R443). -/
def DieState.sel (D : DieState) (req b off : Nat) : Nat :=
  match D.csr.sels.find? (fun c => c.req == req && c.block == b) with
  | some c => (tabGet 0 c.vals off).toNat
  | none => 0

/-- May the requester write the admin registers of instance i (R430)? -/
def DieState.adminAdmits (D : DieState) (r : Req) (i : Nat) : Bool :=
  if i = 0 then r.id == islandReq else (r.inst == i && r.overNode.isNone) || D.roleOf r ≥ 1

/-- Does the CSR block admit the access (R448)? service: the die is in service mode. sel: a write of the
requester's own copy of a selection register. -/
def DieState.csrAdmits (D : DieState) (service : Bool) (r : Req) (b off : Nat) (write sel : Bool) : Bool :=
  let role := D.roleOf r
  let remote := r.overNode.isSome
  if remote then false
  else if D.gateClosed r.inst && write then false
  else match blockCluster b with
    | some c => D.clusterOwner c == some r.inst || role ≥ 1
    | none =>
      if !write then
        (b != B_ROL || !(0x00B8 ≤ off && off ≤ 0x013C) || role ≥ 1)
      else if sel then true
      else if b = B_SAF ∨ b = B_FOE then
        r.id == islandReq || (role ≥ 1 && service)
      else if b = B_CMD then
        if off = CMD_ADMIN_CQ_BASE ∨ off = CMD_ADMIN_CQ_BASE + 4 ∨ off = CMD_ADMIN_RQ_BASE
            ∨ off = CMD_ADMIN_RQ_BASE + 4 ∨ off = CMD_ADMIN_CFG then
          D.adminAdmits r (D.sel r.id B_CMD CMD_ADMIN_SEL % 8)
        else role ≥ 1
      else if b = B_INS then off == INS_RESET || role ≥ 1
      else if b = B_ROL then
        (off == ROL_AUTH_ADDR || off == ROL_AUTH_ADDR + 4 || off == ROL_AUTH_CTRL) || role ≥ 1
      else role ≥ 1

end Sys2Proof.Machine
end

