-- ==== Sys2Proof/Machine/Mem.lean ====
section
/-! DEFINITION. Stacked memory: requests, ECC, poison, partial writes (ch. 12), and the host's memory behind the
PCIe endpoint. Accesses are actions over the die that may fail with a status. -/

namespace Sys2Proof.Machine

/-- How an access, an op or a command fails. -/
structure Fail where
  status : Status
  /-- reason byte of a reply (R410) -/
  reason : Nat := 0
  /-- failing offset, address or line, and the window or case it belongs to -/
  loc : Nat := 0
  cause : Nat := 0
  /-- fault detail of R200 -/
  detail : Nat := 0
  /-- store line of a parity error: 2^19 * cluster + line (R165) -/
  line : Option Nat := none
  /-- a remote read that the op has to wait for: address and length -/
  need : Option (Nat × Nat) := none
  /-- an op's output is as its rule says although it failed (R138, R257, R261) -/
  clean : Bool := false
  /-- rows of an op's output that stand although it failed (R170, R293, R330) -/
  kept : List Nat := []
deriving DecidableEq, Repr

/-- An action on a die. The changes made before a failure stand. -/
abbrev M := ExceptT Fail (StateM DieState)

/-- Run an action: what it answers and the die after it. -/
def runM {α : Type} (m : M α) (D : DieState) : Except Fail α × DieState := m D

/-- Run an action for its effect on the die. -/
def execM {α : Type} (m : M α) (D : DieState) : DieState := (m D).2

def failWith {α : Type} (st : Status) (reason : Nat := 0) : M α := throw { status := st, reason := reason }

/-- Fail unless the condition holds. -/
def guardS (b : Bool) (st : Status) (reason : Nat := 0) : M Unit :=
  if b then pure () else throw { status := st, reason := reason }

/-- Change the die. -/
def onD (f : DieState → DieState) : M Unit := modify f

/-- Who makes a memory access: instance, requester ID and requester class (R385, R440). -/
structure Ctx where
  inst : Nat
  req : Nat
  cls : Nat
deriving DecidableEq, Repr

def MemState.hbm (m : MemState) (n : Nat) : HbmState := if n = 0 then m.s0 else m.s1
def MemState.setHbm (m : MemState) (n : Nat) (h : HbmState) : MemState :=
  if n = 0 then { m with s0 := h } else { m with s1 := h }

def DieState.onHbm (D : DieState) (n : Nat) (f : HbmState → HbmState) : DieState :=
  { D with mem := D.mem.setHbm n (f (D.mem.hbm n)) }

/-- Pseudo-channel of a stack offset (R379). -/
def pseudoChannel (off : Nat) : Nat := xorN (bits off 6 6) (bits off 12 6)
/-- Bank of a stack offset within its pseudo-channel (R379). -/
def hbmBank (off : Nat) : Nat := xorN (bits off 18 4) (bits off 12 4)

/-- The pieces of [a, a + n) that lie in one 32-byte granule each: address and length. -/
def granPieces (a : Nat) : Nat → Nat → List (Nat × Nat)
  | 0, _ => []
  | _, 0 => []
  | fuel + 1, n =>
    let k := min n (32 - a % 32)
    (a, k) :: granPieces (a + k) fuel (n - k)

def pieces (a n : Nat) : List (Nat × Nat) := granPieces a (n / 32 + 2) n

/-- State of a granule (R388, R628). -/
inductive GranState where
  | clean | correctable | uncorrectable | poisoned
  /-- three or more symbols, miscorrected to these bytes -/
  | wrong (b : List Byte)
deriving DecidableEq, Repr

/-- Granule number of a stack byte. -/
def granKey (n off : Nat) : Nat := stackKey n off / 32

def DieState.gran (D : DieState) (n off : Nat) : Gran := tabGet {} D.mem.grans (granKey n off)

def DieState.setGran (D : DieState) (n off : Nat) (g : Gran) : DieState :=
  { D with mem := { D.mem with grans := tabSet {} (granKey n off) g D.mem.grans } }

/-- The bytes of a granule as last written. -/
def DieState.granBytes (D : DieState) (n off : Nat) : List Byte :=
  memRead D.mem.bytes (stackKey n (off / 32 * 32)) 32

/-- What a read of the granule finds. -/
def DieState.granState (D : DieState) (n off : Nat) : GranState :=
  let g := D.gran n off
  if g.poison then .poisoned
  else match g.flips.length with
    | 0 => .clean
    | 1 => .correctable
    | 2 => .uncorrectable
    | _ => match Config.eccMany (4 * D.fresh + D.num) (D.granBytes n off) with
      | none => .uncorrectable
      | some b => .wrong (padTo 32 b)

/-- Count a corrected error, and record the correctable-rate event when the threshold is crossed (R389). -/
def DieState.corrected (D : DieState) (n off : Nat) : DieState :=
  let b := B_HBMn n
  let pc := pseudoChannel off
  let D := D.count b HBM_CORRECTED
  let D := D.onHbm n (fun h => { h with pcCorr := tabMod 0 pc (· + 1) h.pcCorr })
  let th := D.reg b HBM_CE_THRESH
  if th != 0 && D.counts b && D.reg64 b HBM_CORRECTED % th == 0 then
    let best := (D.mem.hbm n).pcCorr.foldl (fun (m : Nat × Nat) e => if m.2 < e.2 then e else m) (0, 0)
    let D := D.event { cls := 3, code := 0x01, island := 27 + n, loc := n, ident := best.1,
                       count := min best.2 65535 }
    (D.onHbm n (fun h => { h with pcCorr := [] })).cause b 2
  else D

/-- Re-encode a granule with the poison marker (R391). -/
def DieState.poison (D : DieState) (n off : Nat) : DieState :=
  let D := D.setGran n off { flips := [], poison := true }
  (D.count (B_HBMn n) HBM_POISON_CREATED).cause (B_HBMn n) 1

/-- Is a granule in a region of instance 0 (R526 code 3)? -/
def DieState.granI0 (D : DieState) (n off : Nat) : Bool :=
  insEnabled D.ins.active 0 && inRegionOf D.ins.active 0 n off

/-- Everything an uncorrectable or poisoned read reports (R390). -/
def DieState.reportBadRead (D : DieState) (cx : Ctx) (n off : Nat) (poisoned : Bool) : DieState :=
  let b := B_HBMn n
  let o := off / 32 * 32
  let D := D.count b HBM_UNCORRECTABLE
  let D := D.setReg64 b HBM_LAST_ERR_OFFSET o
  let D := D.setReg b HBM_LAST_ERR_INFO
    (cx.cls + b2n poisoned * 8 + (cx.inst % 8) * 2 ^ 8 + pseudoChannel off * 2 ^ 16)
  let D := D.cause b 0
  let D := D.event { cls := 3, code := 0x02, island := 27 + n, inst := some cx.inst, loc := o, ident := cx.req,
                     status := Status.faultUncorrectable.code, cause := cx.cls + b2n poisoned * 8 }
  if cx.inst = 0 ∨ D.granI0 n off = true then D.doubt 3 else D

/-- One request for a line at stack n: requests are counted by line, writes by granule as well (R381, R399). -/
def DieState.lineServed (D : DieState) (n off : Nat) : DieState := (D.count (B_HBMn n) HBM_PC_REQUESTS 1 (pseudoChannel off)).work (B_HBMn n)
def DieState.lineRead (D : DieState) (n off : Nat) : DieState := (D.count (B_HBMn n) HBM_READS).lineServed n off

/-- A miscorrected granule: the controller takes it for a corrected one and stores what it corrected it to (R388, R389). -/
def DieState.miscorrect (D : DieState) (n off : Nat) (w : List Byte) : DieState :=
  let D := D.tick.setGran n off {}
  { D with mem := { D.mem with bytes := memWrite D.mem.bytes (stackKey n (off / 32 * 32)) w } }

/-- Read bytes of one granule at stack n (R389-R391). -/
def readGran (cx : Ctx) (n off k : Nat) : M (List Byte) := do
  let D ← get
  let raw := memRead D.mem.bytes (stackKey n off) k
  onD (fun D => D.count (B_HBMn n) HBM_CLASS_BYTES k cx.cls)
  match D.granState n off with
  | .clean => pure raw
  | .correctable =>
    onD (fun D => (D.setGran n off {}).corrected n off)
    pure raw
  | .wrong b =>
    onD (fun D => (D.miscorrect n off b).corrected n off)
    pure ((b.drop (off % 32)).take k)
  | .uncorrectable =>
    onD (fun D => ((D.tick).poison n off).reportBadRead cx n off false)
    throw { status := .faultUncorrectable, loc := off }
  | .poisoned =>
    onD (fun D => D.reportBadRead cx n off true)
    throw { status := .faultUncorrectable, loc := off }

/-- Write bytes into one granule at stack n (R392). -/
def DieState.writeGran (D : DieState) (cx : Ctx) (n off : Nat) (bs : List Byte) : DieState :=
  let b := B_HBMn n
  let st := D.granState n off
  let D := { D with mem := { D.mem with bytes := memWrite D.mem.bytes (stackKey n off) bs } }
  let D := D.count b HBM_WRITES
  let D := D.count b HBM_CLASS_BYTES bs.length cx.cls
  if bs.length = 32 then D.setGran n off {}
  else match st with
    | .clean => D
    | .correctable => (D.setGran n off {}).corrected n off
    | .wrong w =>
      let D := (D.miscorrect n off w).corrected n off
      { D with mem := { D.mem with bytes := memWrite D.mem.bytes (stackKey n off) bs } }
    | .uncorrectable =>
      (D.tick.poison n off).event
        { cls := 3, code := 0x03, island := 27 + n, inst := some cx.inst, loc := off / 32 * 32, ident := cx.req }
    | .poisoned => D.count b HBM_POISON_WRITES

/-- An access outside the populated ranges (R7, R30). -/
def DieState.unpopulated (D : DieState) (cx : Ctx) (a : Nat) : DieState :=
  D.event { cls := 3, code := 0x07, inst := some cx.inst, loc := a, ident := cx.req,
            status := Status.faultBounds.code }

/-- A refusal by a memory controller (R445). -/
def DieState.refuseMem (D : DieState) (cx : Ctx) (a : Nat) (write : Bool) : DieState :=
  let i0 := match place a with
    | .stack n off _ => D.granI0 n off
    | _ => false
  D.refuse { id := cx.req, inst := cx.inst } 1 a write i0 7 0x01

/-- View number of a stacked-memory address. -/
def viewOf (a : Nat) : Nat := match place a with
  | .stack _ _ v => v
  | _ => 3

/-- Do both ends of [a, a + n) lie in one populated view? -/
def stackRange (a n : Nat) : Bool :=
  match place a, place (a + (n - 1)) with
  | .stack _ _ v, .stack _ _ w => v == w
  | _, _ => false

/-- Check an access to stacked memory: populated (R7, R30), then admitted by the firewall (R444, R445). -/
def checkStack (cx : Ctx) (a n : Nat) (write : Bool) : M Unit := do
  let D ← get
  if !stackRange a n then
    onD (fun D => D.unpopulated cx a)
    throw { status := .faultBounds, loc := a }
  else if !D.regionAdmits cx.inst (viewOf a) a n write then
    onD (fun D => D.refuseMem cx a write)
    throw { status := .faultBounds, loc := a }
  else pure ()

/-- Read n bytes of stacked memory, the check made. -/
def rawStackRead (cx : Ctx) (a n : Nat) : M (List Byte) := do
  let parts ← (pieces a n).mapM (fun p =>
    match place p.1 with
    | .stack k off _ => do
      if p.1 = a ∨ p.1 % 64 = 0 then onD (fun D => D.lineRead k off)
      readGran cx k off p.2
    | _ => throw { status := .faultBounds, loc := p.1 })
  pure parts.flatten

/-- Read n bytes of stacked memory under a context (R381, R444). -/
def stackRead (cx : Ctx) (a n : Nat) : M (List Byte) :=
  if n = 0 then pure [] else do
    checkStack cx a n false
    rawStackRead cx a n

/-- The pieces of a write: stack, offset and bytes. -/
def writePieces (cx : Ctx) (a : Nat) (bs : List Byte) (D : DieState) : DieState :=
  (pieces a bs.length).foldl (fun D p =>
    match place p.1 with
    | .stack k off _ =>
      (if p.1 = a ∨ p.1 % 64 = 0 then D.lineServed k off else D).writeGran cx k off ((bs.drop (p.1 - a)).take p.2)
    | _ => D) D

/-- Write bytes to stacked memory under a context. -/
def stackWrite (cx : Ctx) (a : Nat) (bs : List Byte) : M Unit :=
  if bs.isEmpty then pure () else do
    checkStack cx a bs.length true
    onD (writePieces cx a bs)

/-! ## Host memory -/

/-- Host memory reads and writes go through the endpoint; they fail while its link is down (R555, R559). -/
def hostRead (a n : Nat) : M (List Byte) := do
  let D ← get
  guardS D.pcie.up .faultUncorrectable
  pure (memRead D.mem.host a n)

def DieState.hostPut (D : DieState) (a : Nat) (bs : List Byte) : DieState :=
  if !D.pcie.up then D else
  { D with mem := { D.mem with host := memWrite D.mem.host a bs } }

end Sys2Proof.Machine
end

