-- ==== Sys2Proof/Machine/Net.lean ====
section
/-! DEFINITION. Requests and answers between dies and packages: packets (R475, R476), tags (R494, R572), the way
round the package ring (R23-R25, R571), and the delivery of packets to a die (R484). -/

namespace Sys2Proof.Machine

/-! ## Packet types (R475) -/

def pkWrite : Nat := 1
def pkRead : Nat := 2
def pkWriteAck : Nat := 3
def pkReadData : Nat := 4
def pkPoolReq : Nat := 5
def pkPoolReply : Nat := 6
def pkPush : Nat := 7
def pkError : Nat := 8
def pkWaggle : Nat := 9
def pkDrain : Nat := 10
def pkPlate : Nat := 11

/-- The virtual channel of a packet type: 0 REQ, 1 RSP, 2 POOL, 3 MGMT (R475). -/
def pkVc (k : Nat) : Nat :=
  if k = pkWrite ∨ k = pkRead ∨ k = pkPoolReq ∨ k = pkPush then 0
  else if k = pkPoolReply then 2
  else if k = pkWaggle ∨ k = pkDrain ∨ k = pkPlate then 3
  else 1

/-- The class in which a packet of its own package crosses UCIe (R571). -/
def ringClass (p : Packet) : Nat :=
  if p.vc = 3 then 1 else if p.vc = 0 then 2 else if p.vc = 1 then 3 else 4

/-! ## The ring (R23-R25) -/

def D2dState.mod (x : D2dState) (m : Nat) : Module := if m = 0 then x.m0 else x.m1

def DieState.onMod (D : DieState) (m : Nat) (f : Module → Module) : DieState :=
  { D with d2d := if m = 0 then { D.d2d with m0 := f D.d2d.m0 } else { D.d2d with m1 := f D.d2d.m1 } }

/-- Do all the links from die d, n of them upward, carry traffic? -/
def linksUp (links d n : Nat) : Bool := (List.range n).all (fun k => bit links ((d + k) % 4))

/-- The module through which die d sends to die t: the shortest way, opposite dies upward, the other way round when
a link of it is down; none: unreachable. -/
def ringModule (links d t : Nat) : Option Nat :=
  let up := (t + 4 - d) % 4
  let down := (d + 4 - t) % 4
  let okUp := linksUp links d up
  let okDown := linksUp links t down
  if up ≤ down then (if okUp then some 0 else if okDown then some 1 else none)
  else (if okDown then some 1 else if okUp then some 0 else none)

/-- Put a packet on the ring toward die t. -/
def DieState.ringSend (D : DieState) (t : Nat) (msg : RingMsg) : Option DieState :=
  match ringModule D.d2d.links D.num t with
  | none => none
  | some m => some ((D.onMod m (fun x => { x with out := x.out ++ [msg] })).count B_D2D D2D_FLITS_TX
      ((msg.pkt.body.length + 16 + 235) / 236) m)

/-- A packet on its way from this die: to itself, over the ring, or to the routing of the fabric (R484). An
unreachable die's packet is dropped and counted. -/
def DieState.post (D : DieState) (p : Packet) : DieState :=
  if p.dstNode = D.fab.node then
    if p.dstDie = D.num then { D with fab := { D.fab with inbox := D.fab.inbox ++ [p] } }
    else (D.ringSend p.dstDie { cls := ringClass p, pkt := { p with arrival := 0x0B0 + D.num } }).getD (D.count B_FAB FAB_NOROUTE_DROPS)
  else { D with fab := { D.fab with transit := D.fab.transit ++ [(2, p)] } }

/-- Pieces of at most 4,096 bytes that do not cross a 4 KiB line. (R475) -/
def pages (a : Nat) : Nat → Nat → List (Nat × Nat)
  | 0, _ => []
  | _, 0 => []
  | fuel + 1, n =>
    let k := min n (4096 - a % 4096)
    (a, k) :: pages (a + k) fuel (n - k)

/-- The packets that n bytes from address a take. -/
def packetPieces (a n : Nat) : List (Nat × Nat) := pages a (n / 4096 + 2) n

/-! ## Tags (R494) -/

/-- The lowest free tag. -/
def DieState.freeTag (D : DieState) : Nat :=
  ((List.range (D.fab.tags.length + 1)).find? (fun n => !(D.fab.tags.any (fun t => t.num == n)))).getD 0

/-- The low bits of the active plate's epoch (R474). -/
def DieState.epochTag (D : DieState) : Nat := match D.fab.plate with | some p => p.epoch % 65536 | none => 0

/-- A request leaves under the lowest free tag, with its instance's generation of this moment (R440, R494). -/
def DieState.issue (D : DieState) (p : Packet) (use : TagUse) : DieState :=
  let tag := D.freeTag
  let p := { p with tag := tag, tagGen := (D.fab.tagBase + tabGet 0 D.fab.tagGens tag) % 64, instGen := D.gen p.inst,
                    epoch := D.epochTag }
  let e : TagEntry := { num := tag, gen := p.tagGen, sent := D.now, ring := p.dstNode == D.fab.node,
                        via := (ringModule D.d2d.links D.num p.dstDie).getD 0, pkt := p, use := use }
  ({ D with fab := { D.fab with tags := D.fab.tags ++ [e] } }).post p

/-- Issue a request, which waits while all 65,536 tags are taken (R490, R494). none: it ends at once with the status. -/
def DieState.request (D : DieState) (p : Packet) (use : TagUse) : Except Status DieState :=
  let ring := p.dstNode == D.fab.node
  if !ring && D.fab.quarantined then .error .refusedPlate
  else if ring && p.dstDie != D.num && (ringModule D.d2d.links D.num p.dstDie).isNone then .error .faultTimeout
  else
    let p := { p with vc := pkVc p.kind, srcNode := D.fab.node, srcDie := D.num }
    if D.fab.tags.length < 65536 then .ok (D.issue p use)
    else
      let e : TagEntry := { num := 0, gen := 0, sent := D.now, ring := ring, pkt := p, use := use }
      .ok { D with fab := { D.fab with tagWait := D.fab.tagWait ++ [e] } }

/-- A tag has come free: the request that waits longest for one leaves (R490). -/
def DieState.issueNext (D : DieState) : DieState :=
  match D.fab.tagWait with
  | [] => D
  | e :: rest => ({ D with fab := { D.fab with tagWait := rest } }).issue e.pkt e.use

/-- The answer to a request: WRITE_ACK, READ_DATA, POOL_REPLY or ERROR, with the request's tag and instance, to its
source (R476). -/
def DieState.answer (D : DieState) (q : Packet) (kind status : Nat) (body : List Byte) (addr : Nat := 0) (aux : Nat := 0) :
    DieState :=
  D.post { kind := kind, vc := if kind = pkError ∧ q.kind = pkPoolReq then 2 else pkVc kind,
           dstNode := q.srcNode, dstDie := q.srcDie, srcNode := D.fab.node, srcDie := D.num, inst := q.inst,
           instGen := q.instGen, tag := q.tag, tagGen := q.tagGen, epoch := D.epochTag, addr := addr,
           length := body.length, status := status, aux := aux, body := body }

/-- The tag of a response, if it is outstanding with its generation. -/
def DieState.tagOf (D : DieState) (p : Packet) : Option TagEntry :=
  D.fab.tags.find? (fun t => t.num == p.tag && t.gen == p.tagGen)

/-- The tag is free again. -/
def DieState.dropTag (D : DieState) (t : TagEntry) : DieState :=
  ({ D with fab := { D.fab with tags := D.fab.tags.erase t } }).issueNext

/-- A tag ends under R494's second expiry, or a rejoin: its generation increments. -/
def DieState.bumpTag (D : DieState) (t : TagEntry) : DieState :=
  ({ D with fab := { D.fab with tags := D.fab.tags.erase t
                                tagGens := tabMod 0 t.num (fun g => (g + 1) % 64) D.fab.tagGens } }).issueNext

end Sys2Proof.Machine
end

