-- ==== Sys2Proof/Machine/Replies.lean ====
section
/-! DEFINITION. Queues as rings (R413-R417), replies and notices (R410, R412, R418), MSI-X messages (R558). -/

namespace Sys2Proof.Machine

def DieState.queue (D : DieState) (q : Nat) : Queue := tabGet {} D.cmd.queues q

def DieState.setQueue (D : DieState) (q : Nat) (x : Queue) : DieState :=
  { D with cmd := { D.cmd with queues := tabSet {} q x D.cmd.queues } }

/-- Slots of a ring and filled slots (R415). -/
def Queue.size (q : Queue) : Nat := 2 ^ q.log2
def Queue.filled (q : Queue) : Nat := (q.tail + 2 ^ 32 - q.head) % 2 ^ 32
def Queue.isFull (q : Queue) : Bool := q.size ≤ q.filled
/-- Address of the slot of a count (R415). -/
def Queue.slotAddr (q : Queue) (count : Nat) : Nat := q.base + 64 * (count % q.size)
/-- The phase the next reply will carry (R410). -/
def Queue.phase (q : Queue) : Bool := bit q.tail q.log2

/-- The PCIe function of an instance: the physical one when INS_PF_INST names it, else its virtual one (R441;
log entry 21). -/
def DieState.fnOf (D : DieState) (inst : Nat) : Nat :=
  if D.reg B_INS INS_PF_INST = inst then 0 else inst + 1

/-- Vectors of a function's MSI-X table (R558). -/
def fnVectors (fn : Nat) : Nat := if fn = 0 then 256 else 224

/-- Memory context of the command processor for an instance (R440, class 5). -/
def cpCtx (inst : Nat) : Ctx := { inst := inst, req := 0x090, cls := 5 }

/-- Read a slot of a queue's ring. -/
def readSlot (q : Queue) (count : Nat) : M (List Byte) :=
  if q.stacked then stackRead (cpCtx q.inst) (q.slotAddr count) 64 else hostRead (q.slotAddr count) 64

/-- Write a slot of a queue's ring: the die after, or none where the write cannot be made. -/
def DieState.writeSlot (D : DieState) (q : Queue) (bs : List Byte) : Option DieState :=
  if q.stacked then
    match runM (stackWrite (cpCtx q.inst) (q.slotAddr q.tail) bs) D with
    | (.ok _, D') => some D'
    | (.error _, _) => none
  else if D.pcie.up then some (D.hostPut (q.slotAddr q.tail) bs) else none

/-- A reply or notice that cannot be written (R412). -/
def DieState.replyLost (D : DieState) (q : Nat) (record : Bool) : DieState :=
  let D := (D.count B_CMD CMD_REPLIES_LOST).cause B_CMD 1
  if record then D.event { cls := 6, code := 0x02, island := 1, ident := q } else D

/-- Is q a live reply queue (R407)? -/
def Queue.liveReply (q : Queue) : Bool := q.kind == 1 && (q.state == .active || q.state == .error)

/-- Put 32 reply bytes into the next slot of a reply queue, the phase bit set as the tail gives (R410). -/
def DieState.putReply (D : DieState) (qn : Nat) (bytes : List Byte) (notify : Bool) : DieState :=
  let q := D.queue qn
  let flags := (bytes.getD 6 0).toNat % 128 + b2n q.phase * 128
  let b := putBytes (padTo 64 bytes) 6 [BitVec.ofNat 8 flags]
  match D.writeSlot q b with
  | none => D.replyLost qn true
  | some D =>
    let D := D.setQueue qn { q with tail := (q.tail + 1) % 2 ^ 32 }
    let D := D.count B_CMD CMD_REPLIES
    if notify && q.msix != 0xFFFF then D.msix (D.fnOf q.inst) q.msix else D

/-- Replies in the buffer of R418. -/
def CmdState.heldIn (c : CmdState) : Nat := (c.held.filter (fun h => h.inside)).length

/-- Write, hold or drop a reply or notice (R412, R417, R418). keep: the command that keeps its slot when even
the buffer of 64 is full. -/
def DieState.sendReply (D : DieState) (qn : Nat) (bytes : List Byte) (notify : Bool) (keep : Option Nat) :
    DieState :=
  let q := D.queue qn
  if q.kind ≠ 1 ∨ q.state ≠ .active then D.replyLost qn true
  else if D.cmd.held.any (fun h => h.queue == qn) || (q.isFull && !q.fullMode) then
    let room := decide (D.cmd.heldIn < 64)
    let h : HeldReply := { queue := qn, bytes := bytes, notify := notify, inside := room, cmd := if room then none else keep }
    ({ D with cmd := { D.cmd with held := D.cmd.held ++ [h] } }).cause B_CMD 4
  else if q.isFull then
    (D.setQueue qn { q with overruns := satAdd 32 q.overruns 1 }).replyLost qn false
  else D.putReply qn bytes notify

/-- The command with an ID. -/
def DieState.cmdOf (D : DieState) (id : Nat) : Option Cmd := D.cmd.cmds.find? (fun c => c.id == id)

def DieState.mapCmd (D : DieState) (id : Nat) (f : Cmd → Cmd) : DieState :=
  { D with cmd := { D.cmd with cmds := D.cmd.cmds.map (fun c => if c.id = id then f c else c) } }

/-- A command keeps its slot while its reply waits outside the buffer (R418). -/
def DieState.keepsSlot (D : DieState) (id : Nat) : Bool := D.cmd.held.any (fun h => h.cmd == some id)

/-- The command-slot measure of an instance (R421), command id left out. -/
def DieState.slotMeasure (D : DieState) (inst id : Nat) : Nat :=
  (D.cmd.cmds.filter (fun c => c.inst == inst && c.id != id &&
    (match c.phase with | .delayed _ => false | _ => true))).length

/-- Is the opcode covered by the forager-share budget (R421)? -/
def isForagerOp (op : Nat) : Bool := op == 0x0302 || op == 0x0303 || op == 0x0304

/-- The forager-share measure: forager commands accepted and not complete, delayed ones among them (R421). -/
def DieState.foragerMeasure (D : DieState) (inst id : Nat) : Nat :=
  (D.cmd.cmds.filter (fun c => c.inst == inst && c.id != id && isForagerOp c.op)).length

/-- The measure of budget k (1 slots, 2 cluster time, 3 forager share: the pool codes of R422). -/
def DieState.measure (D : DieState) (k inst id : Nat) : Nat :=
  match k with
  | 1 => D.slotMeasure inst id
  | 2 => tabGet 0 D.cmd.timeUse inst
  | _ => D.foragerMeasure inst id

/-- Soft limit, hard limit and the field's maximum of budget k (R437). -/
def DieState.limits (D : DieState) (k inst : Nat) : Nat × Nat × Nat :=
  let t := D.ins.active
  match k with
  | 1 => (bankField t inst 8 2, bankField t inst 10 2, 4096)
  | 2 => (bankField t inst 12 4, bankField t inst 16 4, 160000)
  | _ => (bankField t inst 20 2, bankField t inst 22 2, 256)

/-- A delayed command enters step 8 once every measure that delayed it is below soft (R421). -/
def DieState.releaseDelayed (D : DieState) : DieState :=
  (D.cmd.cmds.map (·.id)).foldl (fun D id =>
    match D.cmdOf id with
    | some c => match c.phase with
      | .delayed ks =>
        if ks.all (fun k => D.measure k c.inst id < (D.limits k c.inst).1) then
          D.mapCmd id (fun c => { c with phase := .ready })
        else D
      | _ => D
    | none => D) D

/-- The command leaves the accepted list, unless its reply waits outside the buffer (R418); the measures fell. -/
def DieState.dropCmd (D : DieState) (id : Nat) : DieState :=
  (if D.keepsSlot id then D.mapCmd id (fun c => { c with phase := .running, op := 0xFFFF })
   else { D with cmd := { D.cmd with cmds := D.cmd.cmds.filter (fun c => c.id != id) } }).releaseDelayed

/-- Status, class and flags of a reply, the delay list taken into account (R411). -/
def replyHead (st : Status) (delayed : Bool) : Nat × Nat × Nat :=
  if st = .okAtDeadline then (st.code, b2n delayed, b2n delayed + 2)
  else if st.isOk && delayed then (Status.okDelayed.code, 1, 1)
  else (st.code, st.outcome, b2n delayed)

/-- The 32 bytes of a reply (R410). -/
def replyBytes (seq : Nat) (st : Status) (delayed : Bool) (reason time : Nat) (detail : List Byte) : List Byte :=
  let h := replyHead st delayed
  toLE 4 seq ++ [BitVec.ofNat 8 h.1, BitVec.ofNat 8 h.2.1, BitVec.ofNat 8 h.2.2, BitVec.ofNat 8 reason]
    ++ toLE 8 time ++ padTo 16 detail

/-- Count a reply by its class, and keep the instance's last refusal (R430, R432). -/
def DieState.countReply (D : DieState) (inst op : Nat) (st : Status) (reason : Nat) : DieState :=
  let last (D : DieState) := D.setReg B_CMD CMD_INST_LAST_REFUSAL (st.code + reason * 2 ^ 8 + op * 2 ^ 16) inst
  match st.outcome with
  | 2 => last ((D.count B_CMD CMD_REFUSED).cause B_CMD 2)
  | 3 => D.count B_CMD CMD_FAULTS
  | 4 => last (D.count B_CMD CMD_RETRIES)
  | _ => D

/-- Had a task begun, by the status and task detail that its launch ends with (R200)? -/
def taskBegan (st : Status) (detail : List Byte) : Bool :=
  st.isOk || (!detail.isEmpty && (field detail 4 4 != 0xFFFF_FFFF || field detail 11 1 == 5))

/-- End a command with its one reply (R410-R412); a command of the safety island answers the island. -/
def DieState.reply (D : DieState) (c : Cmd) (st : Status) (reason : Nat := 0) (detail : List Byte := []) :
    DieState :=
  let D := D.countReply c.inst c.op st reason
  let D := { D with cmd := { D.cmd with lastReply := (c.id, (replyHead st c.delayed).1) } }
  let D := if c.island then { D with saf := { D.saf with replies := D.saf.replies ++ [(c.id, st.code, taskBegan st detail)] } }
    else D.sendReply c.rq (replyBytes c.seq st c.delayed reason D.now detail) (bit c.flags 3) (some c.id)
  D.dropCmd c.id

/-- End a command by ID, if it is still there. -/
def DieState.replyId (D : DieState) (id : Nat) (st : Status) (reason : Nat := 0) (detail : List Byte := []) :
    DieState :=
  match D.cmdOf id with
  | some c => D.reply c st reason detail
  | none => D

/-- The command that a held reply answers gives its slot back (R418). -/
def DieState.freeKept (D : DieState) (h : HeldReply) : DieState :=
  match h.cmd with
  | some id => { D with cmd := { D.cmd with cmds := D.cmd.cmds.filter (fun c => c.id != id) } }
  | none => D

/-- Held replies that now find a free slot are written, oldest first per queue (R418). -/
def DieState.writeHeld (D : DieState) (qn : Nat) : Nat → DieState
  | 0 => D
  | fuel + 1 =>
    let q := D.queue qn
    match D.cmd.held.find? (fun h => h.queue == qn) with
    | none => D
    | some h =>
      if q.state = .active ∧ q.isFull = true then D
      else
        let D := ({ D with cmd := { D.cmd with held := D.cmd.held.erase h } }).freeKept h
        let D := if q.state = .active ∧ q.kind = 1 then D.putReply qn h.bytes h.notify else D.replyLost qn true
        D.writeHeld qn fuel

/-- The oldest reply outside the buffer enters it while an entry is free (R418). -/
def DieState.settleHeld (D : DieState) : Nat → DieState
  | 0 => D
  | fuel + 1 =>
    match D.cmd.held.find? (fun h => !h.inside) with
    | none => D
    | some h =>
      if 64 ≤ D.cmd.heldIn then D
      else
        let D := D.freeKept h
        ({ D with cmd := { D.cmd with
          held := D.cmd.held.map (fun x => if x = h then { h with inside := true, cmd := none } else x) } }).settleHeld fuel

/-- A reply queue has room, or takes no more replies: its held replies go, others enter the buffer, and the slots that this
frees are measured (R418, R421). -/
def DieState.releaseHeld (D : DieState) (qn : Nat) : DieState :=
  let n := D.cmd.held.length + 1
  ((D.writeHeld qn n).settleHeld n).releaseDelayed

/-- A queue enters ERROR (R417): the event, the causes, the end of the pushes and pops that wait on it,
and the loss of the replies held for it (R412). -/
def DieState.queueError (D : DieState) (qn : Nat) (st : Status) : DieState :=
  let q := D.queue qn
  let D := D.setQueue qn { q with state := .error, err := st.code, popping := none }
  let D := (D.cause B_CMD 0).cause B_SEAL 3
  let D := D.event { cls := 6, code := 0x01, island := 38, inst := some q.inst, ident := qn, status := st.code }
  let (gone, stay) := D.cmd.qwaits.partition (fun w => w.queue == qn)
  let D := { D with cmd := { D.cmd with qwaits := stay } }
  let D := gone.foldl (fun D w => D.replyId w.cmd st) D
  if q.kind = 1 then D.releaseHeld qn else D

end Sys2Proof.Machine
end

