-- ==== Sys2Proof/Machine/Commands.lean ====
section
/-! DEFINITION. Command packets: the choice of a queue (R419), the checks of R407, the budgets (R421), the audit of
installer and maker commands (R461), and how a row of the opcode table carries out an accepted command. -/

namespace Sys2Proof.Machine

/-- The role an opcode needs at least: 0 operator, 1 installer, 2 maker; none: the opcode is not defined (R408). -/
def opRole (op : Nat) : Option Nat :=
  match op with
  | 0x0000 | 0x0001 | 0x0002 | 0x0003 | 0x0004 | 0x0005 | 0x0006
  | 0x0010 | 0x0011 | 0x0012 | 0x0013 | 0x0014 | 0x0015 | 0x0016
  | 0x0110 | 0x0111 | 0x0112 | 0x0200 | 0x0201 | 0x0202
  | 0x0300 | 0x0301 | 0x0302 | 0x0303 | 0x0304 | 0x0305
  | 0x0400 | 0x0401 | 0x0420 | 0x0421 | 0x0422 | 0x0423 | 0x0424 | 0x0425
  | 0x0603 | 0x0604 | 0x0702 | 0x0703 | 0x0800 | 0x0801 | 0x0802 | 0x0804 => some 0
  | 0x0500 | 0x0501 | 0x0502 | 0x0503 | 0x0504
  | 0x0600 | 0x0601 | 0x0602 | 0x0605
  | 0x0700 | 0x0701 | 0x0750 | 0x0751 | 0x0803 => some 1
  | 0x0F00 | 0x0F01 | 0x0F02 | 0x0F03 | 0x0F04 | 0x0F05 | 0x0F06 => some 2
  | _ => none

/-- Does the opcode's service-mode condition hold (step 6 of R407)? -/
def opServiceOk (op : Nat) (service : Bool) : Bool :=
  match op with
  | 0x0700 | 0x0F04 | 0x0F05 => service
  | _ => true

/-- Is the audit log out of reach: die 0 lost, or failed since the package last restarted (R28, R461)? -/
def DieState.auditLost (D : DieState) : Bool := bit D.boot.lost 0 || D.boot.orphan

/-- Queue an audit record for die 0, with what waits on it (R461). -/
def DieState.audit (D : DieState) (r : AuditRec) (act : AuditAct) : DieState :=
  { D with rol := { D.rol with auditQ := D.rol.auditQ ++ [{ record := { r with die := D.num }, act := act }] } }

/-- The session a queue is bound to. -/
def DieState.queueSession (D : DieState) (q : Queue) : Option Session :=
  match q.bound with
  | some s => tabFind D.rol.sessions s
  | none => none

/-- The audit record of a command (R462). -/
def DieState.cmdRecord (D : DieState) (c : Cmd) (st : Status) : AuditRec :=
  { kind := 0, inst := c.inst, role := c.role, op := c.op, status := st.code,
    req := match D.queueSession (D.queue c.queue) with | some s => s.req | none => 0,
    serial := match D.queueSession (D.queue c.queue) with | some s => s.serial | none => 0,
    digest := (Config.sha384 c.params).take 32 }

/-- End a refused packet: at once, or after its audit record when it is an installer or maker command (R461). -/
def DieState.refusePacket (D : DieState) (c : Cmd) (st : Status) (reason : Nat) : DieState :=
  let D := { D with cmd := { D.cmd with cmds := D.cmd.cmds ++ [c] } }
  if (opRole c.op).getD 0 ≥ 1 then
    if D.auditLost then
      ((D.count32 B_ROL ROL_UNRECORDED).cause B_ROL 4).reply c .refusedDomainOff
    else
      (D.mapCmd c.id (fun c => { c with phase := .audit, result := some (st, reason) })).audit
        (D.cmdRecord c st) (.reply c.id)
  else D.reply c st reason

/-- The budgets that cover an opcode (R421). -/
def budgetsOf (op : Nat) : List Nat :=
  [1] ++ (if op = 0x0200 then [2] else []) ++ (if isForagerOp op then [3] else [])

/-- Step 7 of R407: refused with a pool code, delayed by some budgets, or served. -/
def DieState.budgetCheck (D : DieState) (c : Cmd) : Except Nat (List Nat) :=
  match (budgetsOf c.op).find? (fun k =>
      (D.limits k c.inst).2.1 < (D.limits k c.inst).2.2 && (D.limits k c.inst).2.1 ≤ D.measure k c.inst c.id) with
  | some k => .error k
  | none => .ok ((budgetsOf c.op).filter (fun k => (D.limits k c.inst).1 ≤ D.measure k c.inst c.id))

/-- Steps 1 to 6 of R407 on a packet of a queue: the first failing check decides the reply. -/
def DieState.packetCheck (D : DieState) (qn : Nat) (h : List Byte) : Option (Status × Nat) :=
  let q := D.queue qn
  let slots := bits (field h 2 2) 0 2 + 1
  let rq := field h 12 2
  let role := field h 9 1
  let held := match D.queueSession q with | some s => s.role | none => 0
  let op := field h 0 2
  if bits (field h 2 2) 4 12 ≠ 0 then some (.faultFormat, 2)
  else if role > 2 then some (.faultFormat, 9)
  else if field h 10 2 > 64 * slots - 16 then some (.faultFormat, 10)
  else if rq ≠ 0xFFFF ∧ (D.queue rq).liveReply = false then some (.faultFormat, 12)
  else if field h 14 2 ≠ 0 then some (.faultFormat, 14)
  else if field h 8 1 ≠ q.inst then some (.refusedRole, 0)
  else if rq ≠ 0xFFFF ∧ (D.queue rq).inst ≠ q.inst then some (.refusedRole, 0)
  else if role > held then some (.refusedRole, 0)
  else match opRole op with
    | none => some (.faultFormat, 0)
    | some need =>
      if role < need then some (.refusedRole, 0)
      else if !opServiceOk op D.saf.service.isSome then some (.refusedServiceMode, 0)
      else none

/-- Bytes of a queue's ring without the effects of a read, to see how many slots a packet takes. -/
def DieState.peekSlot (D : DieState) (q : Queue) : List Byte :=
  if q.stacked then
    (List.range 64).map (fun i => match place (q.slotAddr q.head + i) with
      | .stack n off _ => memGet D.mem.bytes (stackKey n off)
      | _ => 0)
  else memRead D.mem.host (q.slotAddr q.head) 64

/-- Can the packet at the head of queue qn start (R406, R418-R420)? -/
def DieState.canFetch (D : DieState) (qn : Nat) : Bool :=
  let q := D.queue qn
  let f := field (D.peekSlot q) 2 2
  q.state == .active && q.kind == 0 && !q.stopped && !D.gateClosed q.inst &&
  (bits f 0 2 + 1 ≤ q.filled) &&
  !(D.cmd.cmds.any (fun c => c.queue == qn && !c.island &&
      (match c.phase with | .delayed _ => true | _ => false))) &&
  !(bit f 2 && D.cmd.cmds.any (fun c => c.queue == qn && !c.island)) &&
  !(D.cmd.held.any (fun h => h.queue == q.defReply))

/-- The queues the tables list. -/
def DieState.queueNums (D : DieState) : List Nat := D.cmd.queues.map (·.1)

/-- Priority a queue has for its next pick (R419). -/
def Queue.pickPrio (q : Queue) : Nat := if q.promoted then 7 else q.prio

/-- The queue the command processor fetches from next (R419): instance 0's admin queue first, then the highest
priority, round robin from the rotating base. -/
def DieState.pickQueue (D : DieState) : Option Nat :=
  let cand := D.queueNums.filter D.canFetch
  if !D.cmd.ready || 64 ≤ D.cmd.heldIn || D.cmd.cmds.length ≥ 4096 then none
  else if cand.contains 0 then some 0
  else
    let best := cand.foldl (fun m q => max m (D.queue q).pickPrio) 0
    let top := cand.filter (fun q => (D.queue q).pickPrio == best)
    match top.find? (fun q => D.cmd.rr ≤ q) with
    | some q => some q
    | none => top.head?

/-- The head of a queue advances past n slots; a new packet is at its head from now on. -/
def DieState.advanceHead (D : DieState) (qn n : Nat) : DieState :=
  let q := D.queue qn
  let q := { q with head := (q.head + n) % 2 ^ 32, promoted := false }
  D.setQueue qn { q with headSince := if q.filled = 0 then none else some D.now }

/-! ## The last unit of a pool (R423) -/

/-- The winner among requesters of a pool's last unit: the lowest at or above the base, else the lowest. -/
def poolWinner (base : Nat) (ids : List Nat) : Option Nat :=
  match (sortBy (· < ·) ids).find? (fun i => base ≤ i) with
  | some i => some i
  | none => (sortBy (· < ·) ids).head?

/-- Claim a unit of a pool that has some free: rivals are the IDs that claim in the same cycle. Answers RETRY for a
loser, REFUSED_FULL when none is free and none was contested in this cycle. -/
def claim (pool key free me : Nat) (rivals : List Nat) : M Unit := do
  let D ← get
  if free = 0 then
    if D.cmd.contest.contains (key, D.now) then failWith .retry pool else failWith .refusedFull pool
  else if free = 1 ∧ rivals ≠ [] then
    if poolWinner (tabGet 0 D.cmd.bases key) (me :: rivals) = some me then
      onD (fun D => { D with cmd := { D.cmd with
        bases := tabSet 0 key ((me + 1) % 0x2000) D.cmd.bases
        contest := (key, D.now) :: D.cmd.contest.filter (fun e => e.2 == D.now) } })
    else failWith .retry pool
  else pure ()

/-- Enter the command that a packet spells, as the checks of R407 decide; rivals claim an entry of the delay lists in the same
cycle (R421, R423). -/
def DieState.takePacket (D : DieState) (qn : Nat) (rivals : List Nat) (bytes : List Byte) : DieState :=
  let q := D.queue qn
  let rq := field bytes 12 2
  let verdict := D.packetCheck qn bytes
  let badRq := rq != 0xFFFF && (!(D.queue rq).liveReply || (D.queue rq).inst != q.inst)
  let c : Cmd :=
    { id := D.cmd.nextId, queue := qn, op := field bytes 0 2, flags := field bytes 2 2,
      seq := field bytes 4 4, inst := q.inst, gen := D.gen q.inst, role := field bytes 9 1,
      rq := if rq = 0xFFFF ∨ badRq = true then q.defReply else rq,
      params := (bytes.drop 16).take (field bytes 10 2), stacked := q.stacked }
  let D := { D with cmd := { D.cmd with nextId := D.cmd.nextId + 1 } }
  let D := D.count B_CMD CMD_PACKETS
  let D := match D.queueSession q with
    | some s => D.touchSession { id := s.req, inst := q.inst }
    | none => D
  match verdict with
  | some (st, reason) => D.refusePacket c st reason
  | none =>
    match D.budgetCheck c with
    | .error k => D.refusePacket c .refusedQuota k
    | .ok [] => { D with cmd := { D.cmd with cmds := D.cmd.cmds ++ [c] } }
    | .ok ks =>
      let taken := (D.cmd.cmds.filter (fun c => match c.phase with | .delayed _ => true | _ => false)).length
      match runM (claim 7 112 (1024 - taken) qn rivals) D with
      | (.error f, D) => (if f.status = .refusedFull then D.cause B_CMD 3 else D).refusePacket c f.status 7
      | (.ok _, D) =>
        let D := D.count B_CMD CMD_DELAYED
        { D with cmd := { D.cmd with cmds := D.cmd.cmds ++ [{ c with phase := .delayed ks, delayed := true }] } }

/-- Fetch the packet at the head of queue qn (R405, R407, R417). -/
def DieState.fetchFrom (D : DieState) (qn : Nat) (rivals : List Nat) : DieState :=
  let q := D.queue qn
  let n := bits (field (D.peekSlot q) 2 2) 0 2 + 1
  let read : M (List Byte) := do
    let parts ← (List.range n).mapM (fun i => readSlot q (q.head + i))
    pure parts.flatten
  match runM read D with
  | (.error _, D) => D.queueError qn .faultUncorrectable
  | (.ok bytes, D) =>
    let D := { D with cmd := { D.cmd with rr := (qn + 1) % 4096 } }
    (D.advanceHead qn n).takePacket qn rivals bytes

/-- Must a command's record be durable before it is carried out, and is it not yet (R461)? -/
def Cmd.needsAudit (c : Cmd) : Bool := (opRole c.op).getD 0 ≥ 1 && c.result.isNone

/-- The status a command's audit record carries: that of the reply it writes, or OK when the reply comes later. -/
def DieState.outcomeOf (D : DieState) (c : Cmd) : Status :=
  if D.cmd.lastReply.1 = c.id then (Status.ofCode D.cmd.lastReply.2).getD .ok else .ok

/-- Carry out accepted command id, which must have the opcode op: an installer or maker command first sends its
audit record; no such command, or one not ready, changes nothing (log entry 2). -/
def DieState.runCmd (D : DieState) (op id : Nat) (body : Cmd → DieState → DieState) : DieState :=
  match D.cmdOf id with
  | none => D
  | some c =>
    if c.op = op ∧ c.phase = .ready then
      if c.needsAudit then
        if D.auditLost then ((D.count32 B_ROL ROL_UNRECORDED).cause B_ROL 4).reply c .refusedDomainOff
        else
          (D.mapCmd id (fun c => { c with phase := .audit })).audit
            (D.cmdRecord c ((body c D).outcomeOf c)) (.command id)
      else body c D
    else D

/-- Mark a command as started, its reply to come. -/
def DieState.started (D : DieState) (id : Nat) : DieState := D.mapCmd id (fun c => { c with phase := .running })

/-- A little-endian parameter of a command: n bytes at offset o. -/
def Cmd.p (c : Cmd) (o n : Nat) : Nat := field c.params o n

/-- Instance context of a command's own accesses (R651). -/
def Cmd.ctx (c : Cmd) : Ctx := cpCtx c.inst

end Sys2Proof.Machine
end

