-- ==== Sys2Proof/Machine/Store.lean ====
section
/-! DEFINITION. The cluster stores: banks, ports, coalescing buffers, parity, retirement, segments, the fill engine
and remote windows (ch. 5). -/

namespace Sys2Proof.Machine

/-- Bank and line of a store offset (R146). -/
def storeBank (a : Nat) : Nat := xorN (bits a 6 6) (bits a 12 6)
def storeLine (a : Nat) : Nat := bits a 12 13

def DieState.cluster (D : DieState) (c : Nat) : Cluster := quadGet D.clusters c

def DieState.onCluster (D : DieState) (c : Nat) (f : Cluster → Cluster) : DieState :=
  { D with clusters := quadMod D.clusters c f }

/-- What an unlisted store byte reads as: 0, or an undefined byte of its segment's era (R167). -/
def Cluster.byteDefault (C : Cluster) (off : Nat) : Byte :=
  let e := tabGet 0 C.era (off / 0x80000)
  if e = 0 then 0 else Config.segByte e off
def Cluster.badDefault (C : Cluster) (off : Nat) : Bool :=
  let e := tabGet 0 C.era (off / 0x80000)
  if e = 0 then false else Config.segBad e off

/-- The byte and the parity that the banks hold. -/
def Cluster.get (C : Cluster) (off : Nat) : Byte := tabGetF C.byteDefault C.bytes off
def Cluster.isBad (C : Cluster) (off : Nat) : Bool := tabGetF C.badDefault C.bad off

/-- Write a byte with good parity (R164). -/
def Cluster.put (C : Cluster) (off : Nat) (b : Byte) : Cluster :=
  { C with bytes := tabSetF C.byteDefault off b C.bytes, bad := tabSetF C.badDefault off false C.bad }

/-- Make the parity of a stored byte bad (R628 kind 1). -/
def Cluster.flipParity (C : Cluster) (off : Nat) : Cluster :=
  { C with bad := tabSetF C.badDefault off (!C.isBad off) C.bad }

/-- Zero a range with good parity (R156, R157); only whole segments' eras end (R167). -/
def Cluster.zero (C : Cluster) (lo len : Nat) : Cluster :=
  let hit (s : Nat) : Bool := tabGet 0 C.era s != 0 && decide (lo < (s + 1) * 0x80000) && decide (s * 0x80000 < lo + len)
  let keep : Tab Byte := C.bytes.filter (fun e => e.1 < lo || lo + len ≤ e.1)
  let keepBad : Tab Bool := C.bad.filter (fun e => e.1 < lo || lo + len ≤ e.1)
  let C0 : Cluster := { C with bytes := keep, bad := keepBad }
  (List.range 64).foldl (fun C s =>
    if hit s then
      if lo ≤ s * 0x80000 ∧ (s + 1) * 0x80000 ≤ lo + len then { C with era := tabSet 0 s 0 C.era }
      else
        let a := max lo (s * 0x80000)
        let b := min (lo + len) ((s + 1) * 0x80000)
        (List.range (b - a)).foldl (fun C i => C.put (a + i) 0) C
    else C) C0

/-- The fill engine zeroes a range, whole rows of 64 lines: its traffic counts at port 34 (R148, R174; log entry 163). -/
def DieState.fill (D : DieState) (c lo len : Nat) : DieState :=
  let rows := len / 4096
  let D := D.onCluster c (fun C => C.zero lo len)
  let D := D.count (B_CST c) CST_PORT_REL_FULL (64 * rows) 34
  if rows = 0 then D else (List.range 64).foldl (fun D b => D.count (B_CST c) CST_BANK_ACCESSES rows b) D

/-- Is the byte's segment powered and ready (R167, R168)? -/
def Cluster.ready (C : Cluster) (off : Nat) : Bool := C.powered && bit C.segReady (off / 0x80000)

def Cluster.retiredAt (C : Cluster) (off : Nat) : Bool := tabGet false C.retired (off / 4096)

/-- Does any 4 KiB unit of [lo, lo + len) satisfy p? -/
def anyUnit (unit lo len : Nat) (p : Nat → Bool) : Bool :=
  (List.range ((lo + len + unit - 1) / unit - lo / unit)).any (fun i => p (lo / unit + i))

def Cluster.rangeReady (C : Cluster) (lo len : Nat) : Bool :=
  !anyUnit 0x80000 lo len (fun s => !C.ready (s * 0x80000))

def Cluster.rangeRetired (C : Cluster) (lo len : Nat) : Bool :=
  anyUnit 4096 lo len (fun r => tabGet false C.retired r)

/-! ## Coalescing buffers (R149-R151) -/

def Cluster.buf (C : Cluster) (port : Nat) : List CbEntry := tabGet [] C.bufs port
def Cluster.setBuf (C : Cluster) (port : Nat) (l : List CbEntry) : Cluster :=
  { C with bufs := tabSet [] port l C.bufs }

/-- Write a released entry to its bank. -/
def Cluster.release (C : Cluster) (e : CbEntry) : Cluster :=
  e.bytes.foldl (fun C b => C.put (e.line * 64 + b.1) b.2) C

/-- How an entry left its buffer: the counter that counts it (R174). -/
inductive Release where
  | full | timeout | boundary
deriving DecidableEq, Repr

def Release.counter : Release → Nat
  | .full => CST_PORT_REL_FULL
  | .timeout => CST_PORT_REL_TIMEOUT
  | .boundary => CST_PORT_REL_BOUNDARY

/-- The lines that a port holds read, oldest first (R151). -/
def Cluster.heldLines (C : Cluster) (port : Nat) : List ReadLine := tabGet [] C.held port
def Cluster.setHeld (C : Cluster) (port : Nat) (l : List ReadLine) : Cluster := { C with held := tabSet [] port l C.held }

/-- Release an entry of a port to its bank, counted; the port drops its read copy of that line (R150, R151, R174). -/
def DieState.releaseEntry (D : DieState) (c port : Nat) (e : CbEntry) (why : Release) : DieState :=
  let D := D.onCluster c (fun C =>
    (C.release e).setHeld port ((C.heldLines port).filter (fun l => l.line != e.line)))
  let D := D.count (B_CST c) why.counter 1 port
  (D.count (B_CST c) CST_BANK_ACCESSES 1 (storeBank (e.line * 64))).work (B_CST c)

/-- Bytes of one line enter the port's buffer (R150): a new entry evicts the oldest when all 8 are in use, and a full one is
released in the next cycle. -/
def DieState.bufferLine (D : DieState) (c port off : Nat) (bs : List Byte) : DieState :=
  let C := D.cluster c
  let line := off / 64
  let es := C.buf port
  let put (t : Tab Byte) : Tab Byte :=
    (bs.foldl (fun (acc : Nat × Tab Byte) b => (acc.1 + 1, tabPut acc.1 b acc.2)) (off % 64, t)).2
  match es.find? (fun e => e.line == line) with
  | some e =>
    let e' := { e with bytes := put e.bytes }
    if e'.bytes.length = 64 then
      (D.onCluster c (fun C => C.setBuf port (es.filter (fun x => x.line != line)))).releaseEntry c port e' .full
    else D.onCluster c (fun C => C.setBuf port (es.map (fun x => if x.line = line then e' else x)))
  | none =>
    let e' : CbEntry := { line := line, bytes := put [], first := D.now }
    let D := match es with
      | old :: rest =>
        if es.length ≥ 8 then (D.releaseEntry c port old .boundary).onCluster c (fun C => C.setBuf port rest) else D
      | [] => D
    if e'.bytes.length = 64 then D.releaseEntry c port e' .full
    else D.onCluster c (fun C => C.setBuf port (C.buf port ++ [e']))

/-- Split bytes at line boundaries. -/
def linePieces (off : Nat) : Nat → List Byte → List (Nat × List Byte)
  | 0, _ => []
  | _, [] => []
  | fuel + 1, bs =>
    let k := 64 - off % 64
    (off, bs.take k) :: linePieces (off + k) fuel (bs.drop k)

/-- A write of a port, through its coalescing buffer. -/
def DieState.bufferWrite (D : DieState) (c port off : Nat) (bs : List Byte) : DieState :=
  (linePieces off (bs.length / 64 + 2) bs).foldl (fun D p => D.bufferLine c port p.1 p.2) D

/-- The port drops the lines it holds read (R151). -/
def DieState.dropHeld (D : DieState) (c port : Nat) : DieState := D.onCluster c (fun C => C.setHeld port [])

/-- An op boundary of a port: every entry is released, and the lines held read are dropped (R150, R151, R157). -/
def DieState.boundary (D : DieState) (c port : Nat) : DieState :=
  let es := (D.cluster c).buf port
  (es.foldl (fun D e => D.releaseEntry c port e .boundary) (D.onCluster c (fun C => C.setBuf port []))).dropHeld c port

/-- Discard every entry of a port; how many bytes entries were lost (R594). -/
def DieState.discard (D : DieState) (c port : Nat) : DieState × Nat :=
  ((D.onCluster c (fun C => C.setBuf port [])).dropHeld c port, ((D.cluster c).buf port).length)

/-- A byte that the port has written and not yet released. -/
def Cluster.ownByte (C : Cluster) (port off : Nat) : Option Byte :=
  ((C.buf port).find? (fun e => e.line == off / 64)).bind (fun e => tabFind e.bytes (off % 64))

/-- The line that a port holds read. -/
def Cluster.heldLine (C : Cluster) (port off : Nat) : Option ReadLine :=
  (C.heldLines port).find? (fun l => l.line == off / 64)

/-- The byte a port reads: its own byte not yet released, else that of its held line, else the bank's (R151). -/
def Cluster.portByte (C : Cluster) (port off : Nat) : Byte :=
  (C.ownByte port off).getD (match C.heldLine port off with | some l => l.bytes.getD (off % 64) 0 | none => C.get off)

/-- Is the byte, as the port reads it, of bad parity? -/
def Cluster.portBad (C : Cluster) (port off : Nat) : Bool :=
  (C.ownByte port off).isNone && (match C.heldLine port off with | some l => l.bad.contains (off % 64) | none => C.isBad off)

/-- A line of the store as a port fetches it. -/
def Cluster.readLine (C : Cluster) (line : Nat) : ReadLine :=
  { line := line, bytes := (List.range 64).map (fun i => C.get (64 * line + i)),
    bad := (List.range 64).filter (fun i => C.isBad (64 * line + i)) }

/-- The port has the line of a store offset at hand: it holds it, or fetches it with an access to its bank; a ninth line
takes the place of the one fetched first (R151, R174; log entry 163). -/
def DieState.holdLine (D : DieState) (c port off : Nat) : DieState :=
  let hs := (D.cluster c).heldLines port
  if ((D.cluster c).heldLine port off).isSome then D
  else ((D.onCluster c (fun C => C.setHeld port ((hs ++ [C.readLine (off / 64)]).drop (hs.length - 7)))).count (B_CST c)
    CST_BANK_ACCESSES 1 (storeBank off)).work (B_CST c)

/-- The port of engine e of core k (R147). -/
def enginePort (k e : Nat) : Nat := 8 * k + e

/-- A parity error is reported (R165, R174). -/
def DieState.parityError (D : DieState) (c port off : Nat) : DieState :=
  let D := D.setReg (B_CST c) CST_PAR_LAST_OFFSET (off / 64 * 64)
  let D := D.setReg (B_CST c) CST_PAR_LAST_INFO (port + off % 64 * 2 ^ 8)
  let D := (D.count (B_CST c) CST_PAR_COUNT).cause (B_CST c) 0
  D.event { cls := 4, code := 0x01, island := 19 + c, inst := D.clusterOwner c, loc := off, ident := port }

/-- An access to a segment that is off (R168). -/
def DieState.segOff (D : DieState) (c off : Nat) : DieState :=
  (D.cause (B_CST c) 3).event
    { cls := 3, code := 0x07, island := 19 + c, inst := D.clusterOwner c, loc := off, status := 0x20 }

/-- A port reads n bytes of one line: its own bytes need no line; only the bytes it reads count for parity (R151, R164). -/
def readPiece (c port off n : Nat) : M (List Byte) := do
  onD (fun D => if (List.range n).all (fun i => ((D.cluster c).ownByte port (off + i)).isSome) then D else D.holdLine c port off)
  let D ← get
  match (List.range n).find? (fun i => (D.cluster c).portBad port (off + i)) with
  | some i =>
    onD (fun D => D.parityError c port (off + i))
    throw { status := .faultParityPersistent, loc := off + i, line := some (c * 2 ^ 19 + (off + i) / 64) }
  | none => pure ((List.range n).map (fun i => (D.cluster c).portByte port (off + i)))

/-- [off, off + n) by lines: offset and length. -/
def lineSpans (off : Nat) : Nat → Nat → List (Nat × Nat)
  | 0, _ => []
  | _, 0 => []
  | fuel + 1, n =>
    let k := min n (64 - off % 64)
    (off, k) :: lineSpans (off + k) fuel (n - k)

/-- A port reads n bytes, line by line (R151, R166, R168). -/
def storeRead (c port off n : Nat) : M (List Byte) := do
  let D ← get
  let C := D.cluster c
  if n = 0 then pure []
  else if 2 ^ 25 < off + n then throw { status := .faultBounds, loc := off }
  else if !C.rangeReady off n then
    onD (fun D => D.segOff c off)
    throw { status := .faultBounds, loc := off }
  else if C.rangeRetired off n then throw { status := .faultBounds, loc := off }
  else do
    let parts ← (lineSpans off (n / 64 + 2) n).mapM (fun p => readPiece c port p.1 p.2)
    pure parts.flatten

/-- A port writes bytes through its buffer. -/
def storeWrite (c port off : Nat) (bs : List Byte) : M Unit := do
  let D ← get
  let C := D.cluster c
  if bs.isEmpty then pure ()
  else if 2 ^ 25 < off + bs.length then throw { status := .faultBounds, loc := off }
  else if !C.rangeReady off bs.length then
    onD (fun D => D.segOff c off)
    throw { status := .faultBounds, loc := off }
  else if C.rangeRetired off bs.length then throw { status := .faultBounds, loc := off }
  else onD (fun D => D.bufferWrite c port off bs)

/-- Retire the 4 KiB region of a store offset (R165, R166). -/
def DieState.retire (D : DieState) (c off : Nat) : DieState :=
  let D := D.onCluster c (fun C => { C with retired := tabSet false (off / 4096) true C.retired })
  let D := { D with toFlash := D.toFlash ++ [FlashOp.repair 0 D.num (c * 2 ^ 13 + off / 4096) false] }
  (D.cause (B_CST c) 1).event
    { cls := 4, code := 0x02, island := 19 + c, inst := D.clusterOwner c, loc := off / 4096 * 4096 }

/-! ## Remote windows (R159-R163) -/

def Cluster.rwin (C : Cluster) (s : Nat) : Rwin := tabGet {} C.rwins s

/-- Who a remote access comes from. -/
structure Source where
  node : Nat
  die : Nat
  inst : Nat
deriving DecidableEq, Repr

/-- Does an open window admit the access (R159, R160)? -/
def Rwin.admits (w : Rwin) (src : Source) (off n : Nat) (write : Bool) : Bool :=
  w.isOpen && w.base ≤ off && off + n ≤ w.base + w.size
  && (bit w.node 15 || w.node % 4096 == src.node) && bit w.dies src.die && bit w.insts src.inst
  && bit w.rights (if write then 1 else 0)

/-- The lowest-numbered open window that admits the access (R160). -/
def Cluster.admitting (C : Cluster) (src : Source) (off n : Nat) (write : Bool) : Option Nat :=
  (List.range 64).find? (fun s => (C.rwin s).admits src off n write)

/-- A refusal at a store port: R159 records it under STORE 0x03. -/
def DieState.refuseStore (D : DieState) (c : Nat) (r : Req) (off : Nat) (write : Bool) : DieState :=
  let n := satAdd 64 (D.reg64 (B_CST c) CST_RWIN_REFUSED) 1
  let D := (D.setReg64 (B_CST c) CST_RWIN_REFUSED n).cause (B_CST c) 2
  D.refuse r 0 off write (D.clusterOwner c == some 0) 4 0x03

/-- A packet that reaches a powered-down cluster, or one whose power-down has begun, bounces (R592). -/
def bounceOff (c : Nat) : M Unit := do
  let D ← get
  if (D.cluster c).powered then pure ()
  else do
    onD (fun D => D.count B_GLB GLB_DOMAIN_BOUNCED)
    throw { status := .refusedDomainOff }

/-- An access at port 32 or 33 is an op of its own: its boundary follows it (R150, R151; log entry 163). -/
def oneOp {α : Type} (c port : Nat) (m : M α) : M α := do
  let r ← tryCatch m (fun f => do
    onD (fun D => D.boundary c port)
    throw f)
  onD (fun D => D.boundary c port)
  pure r

/-- A read through a remote window, port 33 or, from the die, 32 (R159). -/
def remoteRead (c port : Nat) (src : Source) (r : Req) (off n : Nat) : M (List Byte) := do
  bounceOff c
  let D ← get
  match (D.cluster c).admitting src off n false with
  | some _ =>
    if !(D.cluster c).rangeReady off n then
      onD (fun D => D.refuseStore c r off false)
      throw { status := .faultBounds, loc := off }
    else oneOp c port (storeRead c port off n)
  | none =>
    onD (fun D => D.refuseStore c r off false)
    throw { status := .faultBounds, loc := off }

/-- A signal joins the seal unit's intake (R425, R426). -/
def DieState.signal (D : DieState) (num gen add : Nat) (src : Signaller) : DieState :=
  { D with cmd := { D.cmd with intake := D.cmd.intake ++ [{ num := num, gen := gen, add := add, src := src }] } }

/-- Signal by a seal reference (R182). -/
def DieState.signalRef (D : DieState) (ref add : Nat) (src : Signaller) : DieState :=
  D.signal (bits ref 0 14) (bits ref 16 8) add src

/-- A write through a remote window, with its signal bit (R159, R163, R168). -/
def remoteWrite (c port : Nat) (src : Source) (r : Req) (off : Nat) (bs : List Byte) (mark : Bool) : M Unit := do
  bounceOff c
  let D ← get
  match (D.cluster c).admitting src off bs.length true with
  | some s =>
    if !(D.cluster c).rangeReady off bs.length then
      onD (fun D => D.refuseStore c r off true)
      throw { status := .faultBounds, loc := off }
    else do
      oneOp c port (storeWrite c port off bs)
      let w := (D.cluster c).rwin s
      if mark && bit w.flags 0 then onD (fun D => D.signalRef w.sealRef 1 .job)
  | none =>
    onD (fun D => D.refuseStore c r off true)
    throw { status := .faultBounds, loc := off }

/-- Close every remote window of a cluster (R158). -/
def DieState.closeRwins (D : DieState) (c : Nat) : DieState :=
  D.onCluster c (fun C => { C with rwins := tabMap (fun _ w => { w with isOpen := false }) C.rwins })

/-- A read at a store port that comes through the die spine: the instance that owns the cluster needs no remote window
(R159, R444). -/
def spineRead (c : Nat) (inst : Nat) (r : Req) (off n : Nat) : M (List Byte) := do
  let D ← get
  if D.clusterOwner c = some inst then do
    bounceOff c
    oneOp c 32 (storeRead c 32 off n)
  else remoteRead c 32 { node := D.fab.node, die := D.num, inst := inst } r off n

/-- A write at a store port that comes through the die spine. -/
def spineWrite (c : Nat) (inst : Nat) (r : Req) (off : Nat) (bs : List Byte) (mark : Bool) : M Unit := do
  let D ← get
  if D.clusterOwner c = some inst then do
    bounceOff c
    oneOp c 32 (storeWrite c 32 off bs)
  else remoteWrite c 32 { node := D.fab.node, die := D.num, inst := inst } r off bs mark

/-- Does [a, a + n) lie in one populated range (R29, R30)? -/
def populated (a n : Nat) : Bool :=
  match place a with
  | .stack _ _ _ => stackRange a n
  | .store _ off => off + n ≤ 2 ^ 25
  | .build off => off + n ≤ 2 ^ 24
  | .staging off => off + n ≤ 2 ^ 24
  | .csr off => off + n ≤ 2 ^ 28
  | .hole => false

/-- A transfer of bytes to CSR space is no 32-bit access: it has no effect, a read returns ones, and the event is recorded
(R12; log entry 164). -/
def DieState.csrBytes (D : DieState) (cx : Ctx) (a : Nat) : DieState :=
  D.event { cls := 6, code := 0x05, inst := some cx.inst, loc := a % 2 ^ 28, ident := cx.req }

/-- Fail, with its event, an access that does not lie in one populated range (R7, R30). -/
def checkPopulated (cx : Ctx) (a n : Nat) : M Unit := do
  if populated a n then pure ()
  else do
    onD (fun D => D.unpopulated cx a)
    throw { status := .faultBounds, loc := a }

/-- Read a die-local address under a context: stacked memory through its regions, a store at its port, the stipple unit's and
the forager's buffers as plain memory (R29; log entry 164). -/
def localRead (cx : Ctx) (a n : Nat) : M (List Byte) :=
  if n = 0 then pure [] else do
    checkPopulated cx a n
    let D ← get
    match place a with
    | .stack _ _ _ => stackRead cx a n
    | .store c off => spineRead c cx.inst { id := cx.req, inst := cx.inst } off n
    | .build off => pure (memRead D.mem.build off n)
    | .staging off => pure (memRead D.fgr.staging off n)
    | _ => do
      onD (fun D => D.csrBytes cx a)
      pure (List.replicate n 0xFF)

/-- Write a die-local address; mark: the write may signal the seal of a remote window (R163). -/
def localWrite (cx : Ctx) (a : Nat) (bs : List Byte) (mark : Bool := false) : M Unit :=
  if bs.isEmpty then pure () else do
    checkPopulated cx a bs.length
    match place a with
    | .stack _ _ _ => stackWrite cx a bs
    | .store c off => spineWrite c cx.inst { id := cx.req, inst := cx.inst } off bs mark
    | .build off => onD (fun D => { D with mem := { D.mem with build := memWrite D.mem.build off bs } })
    | .staging off => onD (fun D => { D with fgr := { D.fgr with staging := memWrite D.fgr.staging off bs } })
    | _ => onD (fun D => D.csrBytes cx a)

/-! ## Addresses in commands (R31, R651) -/

/-- Is an address of a command die-local, or global and of this die (R31; log entry 20)? -/
def DieState.isLocal (D : DieState) (g : Nat) : Bool :=
  (gNode g == D.fab.node && gDie g == D.num) || g < 2 ^ 48

/-- A read of command id at another die or package: its answer, or the READ that is still to be sent. -/
def farRead (id g n : Nat) : M (List Byte) := do
  let D ← get
  match (D.cmdOf id).bind (fun c => c.answers.find? (fun x => x.1 == g && (x.2.1 != 0 || n ≤ x.2.2.length))) with
  | none => throw { status := .faultTimeout, need := some (g, n) }
  | some (_, st, bs) =>
    if st = 0 then pure (padTo n bs) else throw { status := (Status.ofCode st).getD .faultTimeout }

/-- Command id reads n bytes at an address of its parameters (R651): host memory, this die, or, with READ requests, another
die or package (R31; log entry 165). -/
def paramRead (id : Nat) (stacked : Bool) (cx : Ctx) (a n : Nat) : M (List Byte) := do
  let D ← get
  if !stacked then hostRead a n
  else if gReserved a ≠ 0 then throw { status := .faultBounds, loc := a }
  else if D.isLocal a then localRead cx (gLocal a) n
  else do
    let parts ← (packetPieces a n).mapM (fun p => farRead id p.1 p.2)
    pure parts.flatten

/-- Command id writes bytes at an address of its parameters (R651); its reply waits for the answers to the WRITE requests that
go to another die or package (R412). -/
def paramWrite (id : Nat) (stacked : Bool) (cx : Ctx) (a : Nat) (bs : List Byte) : M Unit := do
  let D ← get
  if !stacked then do
    guardS D.pcie.up .faultUncorrectable
    onD (fun D => D.hostPut a bs)
  else if gReserved a ≠ 0 then throw { status := .faultBounds, loc := a }
  else if D.isLocal a then localWrite cx (gLocal a) bs
  else (packetPieces a bs.length).forM (fun p => do
    let D ← get
    match D.request { kind := pkWrite, dstNode := gNode a, dstDie := gDie a, inst := cx.inst, addr := p.1, length := p.2,
                      body := (bs.drop (p.1 - a)).take p.2 } (.paramWrite id) with
    | .ok D => onD (fun _ => D.mapCmd id (fun c => { c with acks := c.acks + 1 }))
    | .error st => throw { status := st, loc := a })

/-- Send the READ that command id waits for; one that cannot be sent is answered with its status (R31, R494). -/
def DieState.askParam (D : DieState) (id inst g n : Nat) : DieState :=
  match D.cmdOf id with
  | none => D
  | some c =>
    if c.asked.isSome then D
    else match D.request { kind := pkRead, dstNode := gNode g, dstDie := gDie g, inst := inst, addr := g, length := n }
        (.paramRead id g) with
      | .ok D => D.mapCmd id (fun c => { c with asked := some g })
      | .error st => D.mapCmd id (fun c => { c with answers := c.answers ++ [(g, st.code, [])] })

/-- Carry out an action of command id; when it needs a read of another die or package that has not been answered, the READ is
sent and the action leaves no other trace: the row that carries it out comes again once the answer is there. -/
def DieState.withParams {α : Type} (D : DieState) (id inst : Nat) (m : M α) (fin : Except Fail α → DieState → DieState) : DieState :=
  match runM m D with
  | (.error f, D') => match f.need with
    | some (g, n) => D.askParam id inst g n
    | none => fin (.error f) D'
  | (.ok r, D') => fin (.ok r) D'

/-- Are all writes of command id to other dies and packages acknowledged? -/
def DieState.acked (D : DieState) (id : Nat) : Bool := match D.cmdOf id with | some x => x.acks == 0 | none => true

/-- The reply of command id, and the seal it signals, wait for the answers to its writes. -/
def DieState.finalReply (D : DieState) (id : Nat) (st : Status) (detail : List Byte) (ref : Nat := 0) : DieState :=
  D.mapCmd id (fun x => { x with phase := .running, final := some (st, detail, ref) })

/-- A command has done all it does: it is answered now, or when its writes to other dies and packages are (R412). -/
def DieState.replyDone (D : DieState) (c : Cmd) (st : Status) (detail : List Byte) : DieState :=
  if D.acked c.id then D.reply c st 0 detail else D.finalReply c.id st detail

/-- End a command as an action ended: its detail on success, its failure otherwise. -/
def DieState.replyM (D : DieState) (c : Cmd) (m : M (List Byte)) : DieState :=
  D.withParams c.id c.inst m (fun r D => match r with
    | .ok d => D.replyDone c .ok d
    | .error f => D.reply c f.status f.reason)

/-- Reply at once, or leave the command waiting. -/
def DieState.replyOpt (D : DieState) (c : Cmd) (m : M (Option (List Byte))) : DieState :=
  D.withParams c.id c.inst m (fun r D => match r with
    | .ok (some d) => D.replyDone c .ok d
    | .ok none => D
    | .error f => D.reply c f.status f.reason)

/-- The answer to a READ of command id has come. -/
def DieState.paramAnswer (D : DieState) (id g status : Nat) (bs : List Byte) : DieState :=
  D.mapCmd id (fun c => if c.asked = some g then { c with asked := none, answers := c.answers ++ [(g, status, bs)] } else c)

/-- The answer to a WRITE of command id has come: the reply that waits for the last one is written, with the first refusal
among them. -/
def DieState.paramAck (D : DieState) (id status : Nat) : DieState :=
  let D := D.mapCmd id (fun c => { c with
    acks := c.acks - 1, ackBad := if status = 0 ∨ c.ackBad.isSome = true then c.ackBad else some status })
  match D.cmdOf id with
  | none => D
  | some c =>
    match c.acks, c.final with
    | 0, some (st, d, ref) => match c.ackBad with
      | none => (if bit ref 24 then D.signalRef ref 1 .job else D).reply c st 0 d
      | some b => D.reply c ((Status.ofCode b).getD .faultTimeout)
    | _, _ => D

end Sys2Proof.Machine
end

