-- ==== Sys2Proof/Machine/Queues.lean ====
section
/-! DEFINITION. The queue commands, doorbells and packet fetch (R405-R421, R652). -/

namespace Sys2Proof.Machine

/-- What a step answers. -/
abbrev Out := Host.Outcome State Fault Refusal

/-- A command of one die, at its time. A die held in reset carries out nothing (R600). -/
def onDie (a : At) (s : State) (f : DieState → DieState) : Out :=
  if (s.die a.die).boot.held then .next s else .next (s.atDie a f)

/-- A 64-bit host or die address check etc. fails with the packet offset of parameter o. -/
def badField {α : Type} (o : Nat) : M α := failWith .faultFormat (16 + o)

/-- FAULT_FORMAT at parameter o unless the condition holds. -/
def okField (b : Bool) (o : Nat) : M Unit := guardS b .faultFormat (16 + o)

/-! ## Naming a queue (R652) -/

/-- The queue a command names: it must hold one, and be the instance's own. -/
def namedQueue (c : Cmd) : M (Nat × Queue) := do
  let D ← get
  let qn := c.p 0 2
  let q := D.queue qn
  okField (qn < 4096 && q.state != .free) 0
  guardS (q.inst == c.inst) .refusedRole
  pure (qn, q)

/-- NOP (R409). -/
def doNop (c : Cmd) (D : DieState) : DieState := D.reply c .ok 0 (c.params.take 16)

/-- A seal (R424). -/
def DieState.sealOf (D : DieState) (n : Nat) : Seal := tabGet {} D.cmd.seals n

def DieState.setSeal (D : DieState) (n : Nat) (x : Seal) : DieState :=
  { D with cmd := { D.cmd with seals := tabSet {} n x D.cmd.seals } }

/-- Reference of a seal under its current generation (R182). -/
def sealRef (n gen : Nat) : Nat := n + gen * 2 ^ 16 + 2 ^ 24

/-- Number and generation of a reference. -/
def refNum (r : Nat) : Nat := bits r 0 14
def refGen (r : Nat) : Nat := bits r 16 8
/-- Does a reference keep its fixed bits (R182)? -/
def refOk (r : Nat) : Bool := bits r 14 2 == 0 && bits r 25 7 == 0 && bit r 24

/-- Is a seal in the instance's range? -/
def DieState.ownsSeal (D : DieState) (inst n : Nat) : Bool := D.sealOwner n == some inst

/-- A seal's new use: the generation increments (R424). -/
def nextGen (g : Nat) : Nat := (g + 1) % 256

/-- Does a queue number name a live reply queue of the instance, of another one, or none? -/
def DieState.replyQueueOf (D : DieState) (inst q : Nat) : Option Bool :=
  if (D.queue q).liveReply && q < 4096 then some ((D.queue q).inst == inst) else none

/-- QUEUE_CREATE (R414, R416, R413). -/
def queueCreate (rivals : List Nat) (c : Cmd) : M (List Byte) := do
  let D ← get
  let base := c.p 0 8
  let log2 := c.p 8 1
  let kind := c.p 9 1
  let prio := c.p 10 1
  let mode := c.p 11 1
  let dflt := c.p 12 2
  let vec := c.p 14 2
  let ref := c.p 16 4
  let ring := 64 * 2 ^ log2
  okField (log2 ≥ 4 && log2 ≤ 16 || base % 1024 == 0) 0
  okField (log2 < 4 || log2 > 16 || base % (min ring 4096) == 0) 0
  okField (log2 ≥ 4 && log2 ≤ 16) 8
  okField (kind ≤ 2) 9
  okField (if kind = 0 then prio ≤ 7 else prio == 0) 10
  okField (mode < 16 && !(bit mode 3 && kind == 1)) 11
  okField (if kind = 0 then D.replyQueueOf c.inst dflt == some true else dflt == 0xFFFF) 12
  okField (vec == 0xFFFF || vec < fnVectors (D.fnOf c.inst)) 14
  okField (if bit mode 3 then refOk ref else ref == 0) 16
  okField (zeros c.params 20 12) 20
  let sl := D.sealOf (refNum ref)
  okField (!(bit mode 3) || !(D.ownsSeal c.inst (refNum ref)) || !sl.alloc || sl.gen != refGen ref
    || (sl.arm.isNone && sl.door.isNone && !(D.cmd.waits.any (fun w => w.num == refNum ref)))) 16
  guardS (!(bit mode 0) || (insRegions D.ins.active c.inst).any (fun r => r.covers (viewOf base) base ring))
    .faultBounds
  guardS (!(bit mode 3) || D.ownsSeal c.inst (refNum ref)) .faultBounds
  guardS (!(bit mode 3) || (sl.alloc && sl.gen == refGen ref)) .faultStaleGeneration
  let mine := (D.queueNums.filter (fun q => 16 ≤ q && (D.queue q).state != .free && (D.queue q).inst == c.inst)).length
  let free := 4080 - (D.queueNums.filter (fun q => 16 ≤ q && (D.queue q).state != .free)).length
  guardS (mine < insQueueMax D.ins.active c.inst) .refusedFull 4
  claim 4 64 free c.queue rivals
  let D ← get
  let qn := ((List.range 4080).map (· + 16)).find? (fun q => (D.queue q).state == .free)
  let q : Queue :=
    { state := .active, base := base, log2 := log2, kind := kind, prio := prio, stacked := bit mode 0,
      emptyMode := bit mode 1, fullMode := bit mode 2,
      doorbell := if bit mode 3 then some (refNum ref) else none,
      defReply := dflt, msix := vec, inst := c.inst }
  match qn with
  | some n =>
    onD (fun D => D.setQueue n q)
    if bit mode 3 then
      onD (fun D => D.setSeal (refNum ref) { sl with counter := 0, saturated := false, door := some n })
    pure (toLE 2 n)
  | none => failWith .refusedFull 4

/-- QUEUE_DESTROY (R436): the queue enters state 3, and the reply waits for its packets. -/
def queueDestroy (c : Cmd) : M Unit := do
  let (qn, q) ← namedQueue c
  let D ← get
  okField (16 ≤ qn) 0
  okField (!(q.kind == 1 && D.queueNums.any (fun k => (D.queue k).kind == 0 && (D.queue k).state != .free
    && (D.queue k).defReply == qn))) 0
  guardS (q.state != .destroying) .faultStaleGeneration
  onD (fun D => D.setQueue qn { q with state := .destroying, destroyer := some (c.id, q.filled) })
  let (gone, stay) := D.cmd.qwaits.partition (fun w => w.queue == qn)
  onD (fun D => { D with cmd := { D.cmd with qwaits := stay } })
  onD (fun D => gone.foldl (fun D w => D.replyId w.cmd .faultStaleGeneration) D)
  if q.kind = 1 then onD (fun D => D.releaseHeld qn)

/-- Release a doorbell seal, or reset it: counter 0, generation on (R416). -/
def DieState.resetDoor (D : DieState) (n : Nat) (bound : Bool) : DieState :=
  let s := D.sealOf n
  D.setSeal n { s with counter := 0, gen := nextGen s.gen, saturated := false, door := if bound then s.door else none }

/-- Once every other accepted packet of a destroyed queue is replied to, it is freed and the destroy replies. -/
def DieState.finishDestroy (D : DieState) (qn : Nat) : DieState :=
  let q := D.queue qn
  match q.state, q.destroyer with
  | .destroying, some (id, n) =>
    if D.cmd.cmds.any (fun c => c.queue == qn && c.id != id) then D
    else
      let D := match q.doorbell with | some s => D.resetDoor s false | none => D
      (D.setQueue qn {}).replyId id .ok 0 (toLE 4 n)
  | _, _ => D

/-- Code of a queue state (R436). -/
def QState.code : QState → Nat
  | .free => 0 | .active => 1 | .error => 2 | .destroying => 3

/-- QUEUE_STATUS (R652). -/
def queueStatus (c : Cmd) : M (List Byte) := do
  let (_, q) ← namedQueue c
  pure (toLE 4 q.head ++ toLE 4 q.tail ++ toLE 1 q.state.code ++ toLE 1 q.err ++ toLE 2 0 ++ toLE 4 q.overruns)

/-- Number of pending command waits (R429). -/
def DieState.commandWaits (D : DieState) : Nat :=
  (D.cmd.waits.filter (fun w => match w.who with | .cmd _ => true | _ => false)).length + D.cmd.qwaits.length

/-- Deadline of a wait of so many µs; 0: none (R427). -/
def deadlineOf (now us : Nat) : Option Nat := if us = 0 then none else some (now + us * 1000)

/-- A success at a time, seen against a deadline (R427). -/
def atDeadline (now : Nat) (dl : Option Nat) : Status := if dl = some now then .okAtDeadline else .ok

/-- Claim an entry for a command's wait (R423, R429). -/
def claimWait (c : Cmd) (rivals : List Nat) : M Unit := do
  let D ← get
  tryCatch (claim 8 128 (8192 - D.commandWaits) c.queue rivals) (fun f => do
    if f.status = .refusedFull then onD (fun D => D.cause B_SEAL 2)
    throw f)

/-- Register a pop or push that waits (R427, R429). -/
def waitQueue (c : Cmd) (rivals : List Nat) (qn us : Nat) (push : Bool) : M Unit := do
  claimWait c rivals
  onD (fun D => D.started c.id)
  onD (fun D => { D with cmd := { D.cmd with
    qwaits := D.cmd.qwaits ++ [{ cmd := c.id, queue := qn, push := push, deadline := deadlineOf D.now us }] } })

/-- Append an entry to a message queue (R409, R417). -/
def pushEntry (qn : Nat) (e : List Byte) : M Nat := do
  let D ← get
  let q := D.queue qn
  match D.writeSlot q (padTo 64 e) with
  | none => failWith .faultBounds
  | some D' =>
    set (D'.setQueue qn { q with tail := (q.tail + 1) % 2 ^ 32 })
    pure ((q.tail + 1) % 2 ^ 32)

/-- Does command id wait for answers from another die or package? -/
def DieState.farWrites (D : DieState) (id : Nat) : Bool := match D.cmdOf id with | some c => c.acks != 0 | none => false

/-- The entry that a pop took has left the queue (R409). -/
def DieState.popped (D : DieState) (qn : Nat) : DieState :=
  let q := D.queue qn
  D.setQueue qn { q with head := (q.head + 1) % 2 ^ 32, popping := none }

/-- Take the entry at the head of a message queue and deliver it (R409). An entry on its way to another die or package leaves
the queue when it has arrived (log entry 165). -/
def popEntry (c : Cmd) (qn : Nat) : M (List Byte) := do
  let D ← get
  let q := D.queue qn
  match runM (readSlot q q.head) D with
  | (.error _, D') =>
    set (D'.queueError qn .faultUncorrectable)
    failWith .faultUncorrectable
  | (.ok e, D') =>
    set D'
    paramWrite c.id c.stacked c.ctx (c.p 8 8) e
    onD (fun D => if D.farWrites c.id then D.setQueue qn { q with popping := some c.id } else D.popped qn)
    pure (toLE 4 ((q.head + 1) % 2 ^ 32) ++ toLE 4 1)

/-- Count a pop or push whose wait has ended with success (R433). -/
def DieState.queueWaitEnded (D : DieState) (w : QWait) : DieState :=
  let D := D.count B_SEAL SEAL_WAITS
  if w.deadline = some D.now then D.count32 B_SEAL SEAL_AT_DEADLINE else D

/-- Pops and pushes whose deadline lies before now have ended in the cycles since (R427). -/
def DieState.lateQueueWaits (D : DieState) : DieState :=
  let late (w : QWait) : Bool := match w.deadline with | some t => t < D.now | none => false
  (D.cmd.qwaits.filter late).foldl (fun D w => (D.count B_SEAL SEAL_TIMEOUTS).replyId w.cmd .faultTimeout)
    { D with cmd := { D.cmd with qwaits := D.cmd.qwaits.filter (fun w => !(late w)) } }

/-- Can a waiting pop or push be served? -/
def Queue.serves (q : Queue) (push : Bool) : Bool := if push then !q.isFull else q.filled != 0 && q.popping.isNone

/-- Serve the pops and pushes that wait on a queue, oldest first, while the ring lets them (R427). -/
def DieState.serveWaits (D : DieState) (qn : Nat) : Nat → DieState
  | 0 => D
  | fuel + 1 =>
    let q := D.queue qn
    match q.state, D.cmd.qwaits.find? (fun w => w.queue == qn && q.serves w.push) with
    | .active, some w =>
      let D := { D with cmd := { D.cmd with qwaits := D.cmd.qwaits.erase w } }
      match D.cmdOf w.cmd with
      | none => D.serveWaits qn fuel
      | some c =>
        let m : M (List Byte) := if w.push then (do let t ← pushEntry qn (c.params.drop 12); pure (toLE 4 t))
                                 else popEntry c qn
        let D := match runM m D with
          | (.ok d, D) => (D.queueWaitEnded w).replyDone c (atDeadline D.now w.deadline) d
          | (.error f, D) => D.reply c f.status f.reason
        D.serveWaits qn fuel
    | _, _ => D

/-- The ring of a queue has changed: waits that are late end, the others are served while it lets them. -/
def DieState.serveQueue (D : DieState) (qn : Nat) : DieState :=
  let D := D.lateQueueWaits
  D.serveWaits qn (D.cmd.qwaits.length + 1)

/-- The answer to a WRITE of command id's parameters has come; the entry of a pop leaves its queue when the last one says that
it has arrived, and the next wait is served. -/
def DieState.paramAcked (D : DieState) (id status : Nat) : DieState :=
  match D.cmdOf id with
  | none => D
  | some c =>
    let qn := c.p 0 2
    let mine := c.op == 0x0006 && (D.queue qn).popping == some id && c.acks == 1
    let took := mine && status == 0 && c.ackBad.isNone
    let D := if took then D.popped qn
      else if mine then D.setQueue qn { D.queue qn with popping := none } else D
    let D := D.paramAck id status
    if mine then D.serveQueue qn else D

/-- QUEUE_RESET (R417, R416): the empty ring takes the replies held for it and the pushes that wait (R418, R427). -/
def queueReset (c : Cmd) : M (List Byte) := do
  let (qn, q) ← namedQueue c
  guardS (q.state != .destroying) .faultStaleGeneration
  onD (fun D => D.setQueue qn { q with state := .active, head := 0, tail := 0, err := 0, headSince := none,
                                       promoted := false, popping := none })
  onD (fun D => (D.releaseHeld qn).serveQueue qn)
  match q.doorbell with
  | none => pure (toLE 4 q.head ++ toLE 4 q.tail)
  | some s =>
    onD (fun D => D.resetDoor s true)
    let D ← get
    pure (toLE 4 q.head ++ toLE 4 q.tail ++ toLE 4 (sealRef s (D.sealOf s).gen))

/-- QUEUE_PUSH (R409, R416, R417): pushes of one cycle contend for the last slot (R423). -/
def queuePush (rivals : List Nat) (c : Cmd) : M (Option (List Byte)) := do
  let (qn, q) ← namedQueue c
  okField (q.kind == 2 && q.doorbell.isNone) 0
  okField (zeros c.params 2 6) 2
  if q.state = .error then throw { status := (Status.ofCode q.err).getD .faultOverrun }
  guardS (q.state == .active) .faultStaleGeneration
  let D ← get
  if q.isFull && !D.cmd.contest.contains (176 + 65536 * qn, D.now) then
    if q.fullMode then
      onD (fun D => D.setQueue qn { q with overruns := satAdd 32 q.overruns 1 })
      failWith .faultOverrun
    else
      waitQueue c rivals qn (c.p 8 4) true
      pure none
  else
    claim 11 (176 + 65536 * qn) (q.size - q.filled) c.queue rivals
    let t ← pushEntry qn (c.params.drop 12)
    pure (some (toLE 4 t))

/-- QUEUE_POP (R409, R417); an entry on its way out holds back the one behind it. -/
def queuePop (rivals : List Nat) (c : Cmd) : M (Option (List Byte)) := do
  let (qn, q) ← namedQueue c
  okField (q.kind == 2) 0
  okField (zeros c.params 2 2) 2
  if q.state = .error then throw { status := (Status.ofCode q.err).getD .faultOverrun }
  guardS (q.state == .active) .faultStaleGeneration
  if q.serves false then
    let d ← popEntry c qn
    pure (some d)
  else if q.emptyMode && q.filled == 0 then pure (some (toLE 4 q.head ++ toLE 4 0))
  else
    waitQueue c rivals qn (c.p 4 4) false
    pure none

/-! ## Rows: queues -/

/-- NOP. -/
def execNop (a : At) (id : Nat) (s : State) : Out := onDie a s (fun D => D.runCmd 0x0000 id doNop)

/-- QUEUE_CREATE. -/
def execQueueCreate (a : At) (id : Nat) (rivals : List Nat) (s : State) : Out :=
  onDie a s (fun D => D.runCmd 0x0001 id (fun c D => D.replyM c (queueCreate rivals c)))

/-- QUEUE_DESTROY. -/
def execQueueDestroy (a : At) (id : Nat) (s : State) : Out :=
  onDie a s (fun D => D.runCmd 0x0002 id (fun c D =>
    match runM (queueDestroy c) D with
    | (.ok _, D) => D.started id
    | (.error f, D) => D.reply c f.status f.reason))

/-- QUEUE_DESTROY_COMPLETE. -/
def execQueueDestroyComplete (a : At) (q : Nat) (s : State) : Out := onDie a s (fun D => D.finishDestroy q)

/-- QUEUE_RESET. -/
def execQueueReset (a : At) (id : Nat) (s : State) : Out :=
  onDie a s (fun D => D.runCmd 0x0003 id (fun c D => D.replyM c (queueReset c)))

/-- QUEUE_STATUS. -/
def execQueueStatus (a : At) (id : Nat) (s : State) : Out :=
  onDie a s (fun D => D.runCmd 0x0004 id (fun c D => D.replyM c (queueStatus c)))

/-- QUEUE_PUSH: the entry enters, and a pop that waits takes it. -/
def execQueuePush (a : At) (id : Nat) (rivals : List Nat) (s : State) : Out :=
  onDie a s (fun D => D.runCmd 0x0005 id (fun c D => (D.replyOpt c (queuePush rivals c)).serveQueue (c.p 0 2)))

/-- QUEUE_POP: the entry is delivered, and a push that waits takes the slot. -/
def execQueuePop (a : At) (id : Nat) (rivals : List Nat) (s : State) : Out :=
  onDie a s (fun D => D.runCmd 0x0006 id (fun c D => (D.replyOpt c (queuePop rivals c)).serveQueue (c.p 0 2)))

/-- COMMAND_PACKET_FETCH: the command processor takes the packet R419 chooses. -/
def execCommandPacketFetch (a : At) (rivals : List Nat) (s : State) : Out :=
  onDie a s (fun D => match D.pickQueue with | some q => D.fetchFrom q rivals | none => D)

/-- PACKET_AGE_PROMOTE: a head packet that has waited 1 ms (R419). -/
def execPacketAgePromote (a : At) (q : Nat) (s : State) : Out :=
  onDie a s (fun D =>
    match (D.queue q).headSince with
    | some t => if t + 1000000 ≤ D.now then D.setQueue q { D.queue q with promoted := true } else D
    | none => D)

/-- Core time of an instance in [lo, hi), in ns. -/
def coreTime (l : List (Nat × Nat × Nat)) (inst lo hi : Nat) : Nat :=
  l.foldl (fun n e => if e.1 = inst then n + (min e.2.2 hi - max e.2.1 lo) else n) 0

/-- The core time of the tasks that run: instance, start, now. -/
def DieState.runningUse (D : DieState) : List (Nat × Nat × Nat) :=
  D.task.cores.filterMap (fun e => match e.2.task with
    | some id => (D.task.tasks.find? (fun t => t.id == id)).map (fun t => (t.inst, e.2.started, D.now))
    | none => none)

/-- Recompute the cluster-time measures over the 10 ms that end now (R421). -/
def DieState.remeasure (D : DieState) : DieState :=
  let lo := D.now - 10000000
  let use := D.cmd.coreUse.filter (fun e => lo < e.2.2)
  let all := use ++ D.runningUse
  { D with cmd := { D.cmd with
      coreUse := use
      timeUse := (List.range 8).foldl (fun t i => tabSet 0 i (coreTime all i lo D.now / 1000) t) [] } }

/-- BUDGET_REEVALUATE, at multiples of 10 µs of the time base (R421). -/
def execBudgetReevaluate (a : At) (s : State) : Out :=
  onDie a s (fun D => if D.now % 10000 = 0 then D.remeasure.releaseDelayed else D)

/-! ## Doorbells (R415-R417) -/

/-- Does the doorbell page admit the write (R444, R454)? device: the end belongs to the device. -/
def DieState.doorAdmits (D : DieState) (r : Req) (q : Queue) (device : Bool) : Bool :=
  q.state != .free && q.inst == r.inst && !device && !D.gateClosed r.inst
  && (match D.queueSession q with | some ses => ses.req == r.id | none => true)

/-- A doorbell access that is refused (R16, R445). -/
def DieState.refuseDoor (D : DieState) (r : Req) (qn off : Nat) (write : Bool := true) : DieState :=
  D.refuse r 5 (0x0200_0800_0000 + qn * 0x1000 + off) write ((D.queue qn).state != .free && (D.queue qn).inst == 0)
    7 0x02

/-- A software producer moves the tail (R417). -/
def DieState.writeTail (D : DieState) (r : Req) (qn v : Nat) : DieState :=
  let q := D.queue qn
  if !D.barOpen r 0x800 then D
  else if !D.doorAdmits r q (q.kind == 1 || q.doorbell.isSome) then D.refuseDoor r qn 0
  else if q.state ≠ .active then D
  else if (v + 2 ^ 32 - q.tail) % 2 ^ 32 > 2 ^ 31 ∨ q.size < (v + 2 ^ 32 - q.head) % 2 ^ 32 then
    D.queueError qn .faultOverrun
  else
    let D := D.setQueue qn { q with tail := v, headSince := if q.filled = 0 then some D.now else q.headSince }
    D.serveQueue qn

/-- A software consumer moves the head (R417); held replies then find room (R418). -/
def DieState.writeHead (D : DieState) (r : Req) (qn v : Nat) : DieState :=
  let q := D.queue qn
  if !D.barOpen r 0x800 then D
  else if !D.doorAdmits r q (q.kind == 0) then D.refuseDoor r qn 4
  else if q.state ≠ .active then D
  else if q.filled < (v + 2 ^ 32 - q.head) % 2 ^ 32 then D.queueError qn .faultOverrun
  else
    let D := D.setQueue qn { q with head := v }
    (D.releaseHeld qn).serveQueue qn

/-- QDB_TAIL_WRITE. -/
def execQdbTailWrite (a : At) (r : Req) (q : Nat) (v : Word) (s : State) : Out :=
  onDie a s (fun D => D.writeTail r q v.toNat)

/-- QDB_HEAD_WRITE. -/
def execQdbHeadWrite (a : At) (r : Req) (q : Nat) (v : Word) (s : State) : Out :=
  onDie a s (fun D => D.writeHead r q v.toNat)

/-- The admin queue pair of instance i as its registers set it up (R413, R431). -/
def DieState.adminPair (D : DieState) (i cfg : Nat) : DieState :=
  let q : Queue := { state := .active, log2 := bits cfg 0 5, stacked := bit cfg 5, inst := i }
  let D := D.setQueue (2 * i) { q with base := D.reg64 B_CMD CMD_ADMIN_CQ_BASE i, kind := 0, prio := 7,
                                        defReply := 2 * i + 1 }
  D.setQueue (2 * i + 1) { q with base := D.reg64 B_CMD CMD_ADMIN_RQ_BASE i, kind := 1,
                                  msix := if bit cfg 19 then bits cfg 8 11 else 0xFFFF }

/-- A write of CMD_ADMIN_CFG by an admitted requester (R431). -/
def DieState.writeAdminCfg (D : DieState) (i v : Nat) : DieState :=
  let old := D.reg B_CMD CMD_ADMIN_CFG i
  let size := if 4 ≤ bits v 0 5 ∧ bits v 0 5 ≤ 16 then bits v 0 5 else 4
  let new := andN (putBits v 0 5 size) 0xFFF7F
  if bit old 6 then
    let kept := putBits new 0 6 (bits old 0 6)
    let D := if bits new 0 6 ≠ bits old 0 6 ∧ bits v 0 6 ≠ bits old 0 6 then
      D.event { cls := 6, code := 0x07, island := 1, inst := some i } else D
    let D := D.setReg B_CMD CMD_ADMIN_CFG kept i
    if bit kept 6 then
      D.setQueue (2 * i + 1) { D.queue (2 * i + 1) with msix := if bit kept 19 then bits kept 8 11 else 0xFFFF }
    else D.setQueue (2 * i) { D.queue (2 * i) with stopped := true }
  else
    let vecBad := bit new 19 && fnVectors (D.fnOf i) ≤ bits new 8 11
    let D := D.setReg B_CMD CMD_ADMIN_CFG new i
    if bit new 6 && !vecBad then D.adminPair i new else D

end Sys2Proof.Machine
end

