-- ==== Sys2Proof/Machine/Csr.lean ====
section
/-! DEFINITION. Accesses to the registers: admission (R16, R448, R561), the access codes (R15), selection copies
(R443), 64-bit halves (R13), and clearing the counters (R623). -/

namespace Sys2Proof.Machine

/-- CSR address of a register. -/
def csrAddr (b off : Nat) : Nat := b * 65536 + off

/-- A refused CSR access (R16). -/
def DieState.refuseCsr (D : DieState) (r : Req) (b off : Nat) (write : Bool) : DieState :=
  D.refuse r 4 (csrAddr b off) write (D.blockI0 b) 7 0x02

/-- A write to a register, if BAR0 and the firewall admit it. A misaligned one, or one of an unassigned block, has a row of
its own. -/
def DieState.csrDo (D : DieState) (r : Req) (b off : Nat) (body : DieState → DieState) : DieState :=
  if off % 4 ≠ 0 ∨ (blockKind b).isSome = false ∨ D.barOpen r b = false then D
  else if D.csrAdmits D.saf.service.isSome r b off true false then body (D.touchSession r)
  else D.refuseCsr r b off true

/-- Are block b's RWL fields committed (R15, R448)? -/
def DieState.committed (D : DieState) (b : Nat) : Bool := !(D.rol.lockOpen.contains b)

/-- Selection copies of block b: the requester's own at the end of the list (R443). -/
def DieState.setSel (D : DieState) (req b off : Nat) (v : Word) : DieState :=
  let old := D.csr.sels.find? (fun c => c.req == req && c.block == b)
  let rest := D.csr.sels.filter (fun c => !(c.req == req && c.block == b))
  let rest := if old.isNone && (rest.filter (fun c => c.block == b)).length ≥ 32 then
      match rest.find? (fun c => c.block == b) with
      | some lru => rest.erase lru
      | none => rest
    else rest
  let vals := match old with | some c => c.vals | none => []
  { D with csr := { D.csr with sels := rest ++ [{ req := req, block := b, vals := tabSet 0 off v vals }] } }

/-- A use of the requester's copy makes it the most recently used (R443). -/
def DieState.useSel (D : DieState) (req b : Nat) : DieState :=
  match D.csr.sels.find? (fun c => c.req == req && c.block == b) with
  | some c => { D with csr := { D.csr with sels := D.csr.sels.erase c ++ [c] } }
  | none => D

/-- Index under which a requester reaches a register: its selected entry, or itself for the ROL registers that are
kept per requester (R443, R468). -/
def DieState.regIndex (D : DieState) (req b : Nat) (d : RegDesc) : Nat :=
  if b = B_ROL ∧ (d.off = ROL_AUTH_ADDR ∨ d.off = ROL_AUTH_STATUS) then req
  else if b = B_ETH ∧ d.off = ETH_PORT_LIST then
    D.sel req b ETH_PORT_SEL % 8 + 8 * (D.sel req b ETH_PORT_LIST_SEL % 32)
  else if d.selMask = 0 then 0
  else andN (D.sel req b d.selOff) d.selMask

/-- Is the register one that each requester keeps its own copy of (R443)? -/
def isSelReg (b off : Nat) : Bool :=
  match blockKind b with
  | none => false
  | some k => (b == B_EVL && off == EVL_READ_SEQ) || (regMap k).any (fun d => d.selMask != 0 && d.selOff == off)
      || (b == B_STP && (off == STP_TBL_SEL)) || (b == B_INS && off == INS_SEL)
      || (k == .cst && off == CST_RETIRE_SEL)
      || (b == B_ETH && off == ETH_PORT_LIST_SEL) || (b == B_ROL && off == ROL_LOCK_SEL)

/-- Bounds that registers hold their written values at (R395, R399, R403, R597, R620, R631). -/
def heldValue (b off v : Nat) : Nat :=
  if (b = 0x090 ∨ b = 0x0A0) ∧ off = HBM_TEMP_THRESH then min (bits v 0 8) 85 + min (bits v 8 8) 95 * 256
  else if (b = 0x090 ∨ b = 0x0A0) ∧ off = HBM_SCRUB_PERIOD then min (bits v 0 8) 168
  else if (b = 0x090 ∨ b = 0x0A0) ∧ off = HBM_SHARE then (if bits v 20 4 = 0 then putBits v 20 4 1 else v)
  else if b = B_PWR ∧ off = PWR_TEMP_THRESH then
    min (bits v 0 8) 95 + min (bits v 8 8) 105 * 2 ^ 8 + min (bits v 16 8) 75 * 2 ^ 16 + min (bits v 24 8) 85 * 2 ^ 24
  else if b = B_EVL ∧ off = EVL_FLUSH_PERIOD then max 100 (min 60000 (bits v 0 16))
  else v

/-- The word a register holds after a write, by its access codes (R15): RW bits take the value, RWL bits take it
unless committed, W1C bits clear where a 1 is written, other bits stay. -/
def fieldWrite (d : RegDesc) (committed : Bool) (old v : Nat) : Nat :=
  let m := orN d.rw (if committed then 0 else d.rwl)
  let kept := andNot old m
  let w := orN kept (andN v m)
  andNot w (andN v d.w1c)

/-- Does a requester write RWL fields alone in a block? The installer in SAF and FOE, whose other fields are the safety
island's (R448). -/
def rwlOnly (r : Req) (b : Nat) : Bool := (b == B_SAF || b == B_FOE) && r.id != islandReq

/-- A register's fields as far as a requester writes them. -/
def fieldsFor (r : Req) (b : Nat) (d : RegDesc) : RegDesc := if rwlOnly r b then { d with rw := 0, w1c := 0 } else d

/-- The event of a write that reaches a committed RWL field (R15). -/
def DieState.rwlEvent (D : DieState) (r : Req) (b off : Nat) : DieState :=
  D.event { cls := 6, code := 0x06, inst := some r.inst, loc := csrAddr b off, ident := r.id }

/-- Is block b at work now: an engine with an op in flight or held at its gate, a sequencer with a task, a port with packets
waiting, a PCIe link that is up? The spine and the clock crossings always are. -/
def DieState.atWork (D : DieState) (b : Nat) : Bool :=
  let k : Core := tabGet {} D.task.cores ((b - 0x200) / 0x10)
  let g : Engine := tabGet {} k.engines (b % 0x10)
  if b = B_GLB ∨ b = B_CLK then true
  else if b = B_PCI then D.pcie.up
  else if b = B_FAB then !(D.fab.p0.waiting.isEmpty && D.fab.p1.waiting.isEmpty)
  else if b < 0x200 then false
  else if b % 0x10 = 0 then k.task.isSome
  else !g.run.isEmpty || (match g.queue.head? with | some o => o.gate == 1 | none => false)

/-- The counters of cycles and of occupancy of block b are looked at: what they counted while the block worked joins their
values (log entry 9). -/
def DieState.lookTimed (D : DieState) (b : Nat) : DieState :=
  if D.csr.worked.contains b || (D.counts b && D.atWork b) then
    { D with fresh := D.fresh + 1, csr := { D.csr with worked := D.csr.worked.erase b, timed := D.csr.timed ++ [(b, 4 * D.fresh + D.num)] } }
  else D

/-- A write reaches a register of block b: if it holds a committed RWL field, that is recorded once (R15). -/
def DieState.rwlTouch (D : DieState) (r : Req) (b off : Nat) (d : RegDesc) : DieState :=
  if d.rwl ≠ 0 ∧ D.committed b = true then D.rwlEvent r b off else D

/-- Write a 32-bit register by its access codes (R15). -/
def DieState.csrFields (D : DieState) (r : Req) (b off v : Nat) : DieState :=
  match regDesc b off with
  | none => D
  | some d =>
    let d := fieldsFor r b d
    let i := D.regIndex r.id b d
    let old := D.reg b off i
    let new := fieldWrite d (D.committed b) old v
    let D := if off = 0x0004 then D.lookTimed b else D
    let D := D.setReg b off (if d.rw = 0 ∧ d.rwl = 0 then new else if new = old then new else heldValue b off new) i
    let D := D.enableRaise b off old
    D.rwlTouch r b off d

/-- A write of the INS window: 4 bytes of the staged chunk (R437, R467). -/
def DieState.writeInsData (D : DieState) (r : Req) (off v : Nat) : DieState :=
  let sel := D.sel r.id B_INS INS_SEL
  let chunk := bits sel 8 3
  if bit sel 3 && chunk < 6 then
    let k := 384 * bits sel 0 3 + 64 * chunk + (off - INS_DATA)
    { D with ins := { D.ins with staged := memWrite D.ins.staged k (toLE 4 v) } }
  else D

/-- CSR_WRITE: a 32-bit aligned write to a register that has no row of its own (R15); a 64-bit register's halves,
a selection register and an action bit have rows of their own, and this row leaves them alone. -/
def DieState.csrWrite (D : DieState) (r : Req) (b off v : Nat) : DieState :=
  match regDesc b off with
  | none => D.csrDo r b off id
  | some d =>
    if isSelReg b off || d.w64 then D
    else D.csrDo r b off (fun D =>
      if b = B_INS ∧ d.off = INS_DATA then D.writeInsData r off v
      else D.csrFields r b off v)

/-- A 64-bit register takes a value in one cycle (R13, R15). -/
def DieState.commit64 (D : DieState) (r : Req) (b : Nat) (d : RegDesc) (off v : Nat) : DieState :=
  let d := fieldsFor r b d
  let i := D.regIndex r.id b d
  let m := if D.committed b then d.rw else orN d.rw d.rwl
  let lo := orN (andNot (D.reg b off i) m) (andN (v % 2 ^ 32) m)
  let hi := orN (andNot (D.reg b (off + 4) i) m) (andN (v / 2 ^ 32) m)
  let D' := (D.setReg b off lo i).setReg b (off + 4) hi i
  D'.rwlTouch r b off d

/-- The held half of a requester for the 64-bit register at off (R13). -/
def DieState.heldHalf (D : DieState) (r : Req) (b off : Nat) : Option HeldHalf :=
  D.csr.halves.find? (fun h => h.req == r.id && h.block == b && h.off == off)

/-- Hold a low half: one per requester and block, 32 requesters per block (R13). -/
def DieState.holdHalf (D : DieState) (r : Req) (b off : Nat) (v : Word) : DieState :=
  let rest := D.csr.halves.filter (fun h => !(h.req == r.id && h.block == b))
  let rest := if (rest.filter (fun h => h.block == b)).length ≥ 32 then
      match rest.find? (fun h => h.block == b) with
      | some lru => rest.erase lru
      | none => rest
    else rest
  { D with csr := { D.csr with
      halves := rest ++ [{ req := r.id, block := b, off := off, low := v, time := D.now }] } }

/-- Segments that a running task's windows or an open remote window cover (R167); the tasks' part is given. -/
def Cluster.rwinCovers (C : Cluster) (s : Nat) : Bool :=
  C.rwins.any (fun e => e.2.isOpen && decide (e.2.base < (s + 1) * 0x80000)
    && decide (s * 0x80000 < e.2.base + e.2.size))

/-- Clear every counter of a block (R623, and each CTRL register's clear_counters). -/
def DieState.clearBlock (D : DieState) (b : Nat) : DieState :=
  match blockKind b with
  | none => D
  | some k =>
    let hit (key : Nat) : Bool :=
      key % 2 ^ 32 / 65536 == b &&
        (match findReg (key % 65536) (regMap k) with | some d => d.ctr | none => false)
    let D := { D with csr := { D.csr with
      regs := D.csr.regs.filter (fun e => !(hit e.1))
      worked := D.csr.worked.erase b
      timed := D.csr.timed.filter (fun e => e.1 != b) } }
    if b = B_EVL then { D with log := { D.log with intakeMax := D.log.intake.length } } else D

/-- May the requester clear a block's counters: in ROL the installer alone (R469), in SAF and FOE the safety island (R448)? -/
def DieState.clearAdmits (D : DieState) (r : Req) (b : Nat) : Bool :=
  (b != B_ROL || D.roleOf r ≥ 1) && !rwlOnly r b

/-- A write of v to a block's control register reaches its fields, and its clear_counters bit acts (R15, R623). The rows of
the register's other actions write it through this too, so that one write starts every action whose bit it sets. -/
def DieState.ctrlWrite (D : DieState) (r : Req) (b v : Nat) : DieState :=
  let D := D.csrFields r b 0x0004 v
  if bit v 1 && D.clearAdmits r b then D.clearBlock b else D

/-! ## Rows -/

/-- CSR_MISALIGNED_ACCESS: misaligned, odd-sized, or of an unassigned block (R12, R32): no effect, a read returns
0xFFFF_FFFF, and an event is recorded. An aligned 32-bit access of an assigned block is not one. DESIGN CHOICE (log entry
181): the spec does not say which comes first where an access is both misaligned and one that the firewall refuses; the
misaligned rule answers it, with its one event and no firewall check. -/
def execCsrMisalignedAccess (a : At) (r : Req) (block off size : Nat) (write : Bool) (s : State) : Out :=
  onDie a s (fun D =>
    if size = 4 ∧ off % 4 = 0 ∧ csrAssigned block = true then D
    else
      let D := D.event { cls := 6, code := 0x05, inst := some r.inst, loc := csrAddr block off, ident := r.id }
      if write then D else D.out (.csrData r.id 0xFFFF_FFFF))

/-- REG64_LOW_WRITE: the half is held for its requester (R13); the access reaches the register, so a committed RWL field
records its event (R15). -/
def execReg64LowWrite (a : At) (r : Req) (block off : Nat) (v : Word) (s : State) : Out :=
  onDie a s (fun D =>
    match regDesc block off with
    | none => D
    | some d =>
      if d.w64 && off % 8 == d.off % 8 then
        D.csrDo r block off (fun D => (D.holdHalf r block off v).rwlTouch r block off d)
      else D)

/-- HELD_HALF_EXPIRE: halves held for 1 ms are dropped (R13). -/
def execHeldHalfExpire (a : At) (s : State) : Out :=
  onDie a s (fun D => { D with csr := { D.csr with
    halves := D.csr.halves.filter (fun h => decide (D.now < h.time + 1000000)) } })

/-- SELECTION_WRITE: the requester's own copy (R443); a requester that may read the block may write it. -/
def execSelectionWrite (a : At) (r : Req) (block off : Nat) (v : Word) (s : State) : Out :=
  onDie a s (fun D =>
    if !isSelReg block off || !D.barOpen r block then D
    else if D.csrAdmits D.saf.service.isSome r block off false true && !D.gateClosed r.inst then
      let m := match regDesc block off with | some d => d.rw | none => 0
      D.setSel r.id block off (BitVec.ofNat 32 (andN v.toNat m))
    else D.refuseCsr r block off true)

end Sys2Proof.Machine
end

