-- ==== Sys2Proof/Machine/Tasks.lean ====
section
/-! DEFINITION. Tasks, their windows and their launch; op words; dispatch, start, completion, faults and reruns of
ops (R153-R158, R181-R202, R300). -/

namespace Sys2Proof.Machine

/-! ## Task descriptors (R181-R183) and windows (R153) -/

/-- A window entry of a task (R153). -/
structure Window where
  base : Nat
  size : Nat
  kind : Nat
  rights : Nat
  flags : Nat
deriving DecidableEq, Repr

def taskWindow (d : List Byte) (w : Nat) : Window :=
  { base := field d (128 + 32 * w) 8, size := field d (136 + 32 * w) 8, kind := field d (144 + 32 * w) 1,
    rights := field d (145 + 32 * w) 1, flags := field d (146 + 32 * w) 1 }

def tdOpWindow (d : List Byte) : Nat := field d 0 1
def tdDescWindow (d : List Byte) : Nat := field d 1 1
def tdChainWindow (d : List Byte) : Nat := field d 2 1
def tdProof (d : List Byte) : Bool := bit (field d 3 1) 0
def tdOpOffset (d : List Byte) : Nat := field d 4 4
def tdOpCount (d : List Byte) : Nat := field d 8 4
def tdDescOffset (d : List Byte) : Nat := field d 12 4
def tdDescCount (d : List Byte) : Nat := field d 16 2
def tdCoreMask (d : List Byte) : Nat := field d 18 2
def tdChainOffset (d : List Byte) : Nat := field d 20 4
def tdChainSize (d : List Byte) : Nat := field d 24 4
def tdInst (d : List Byte) : Nat := field d 28 1
def tdSeed (d : List Byte) : Nat := field d 32 4
def tdToken (d : List Byte) (i : Nat) : Nat := field d (36 + i) 1
def tdLimit (d : List Byte) : Nat := field d 44 4
def tdSlot (d : List Byte) (i : Nat) : Nat := field d (48 + 4 * i) 4

/-- The cores of a mask, ascending (4c + k). -/
def maskCores (m : Nat) : List Nat := (List.range 16).filter (fun i => bit m i)

/-- Is a window used? -/
def Window.used (w : Window) : Bool := w.size != 0

/-- Window fields that R155 calls a format error. -/
def windowFormatOk (d : List Byte) (i : Nat) : Bool :=
  let w := taskWindow d i
  !w.used ||
  (w.kind ≤ 2 && w.rights < 8 && w.flags < 8 && zeros d (147 + 32 * i) 13
   && (if w.kind = 0 then w.base % 4096 == 0 && w.size % 4096 == 0
       else w.base % 64 == 0 && w.size % 64 == 0 && w.flags == 0))

/-- Field checks of a task descriptor (R185, first row; R182). -/
def taskFormatOk (d : List Byte) : Bool :=
  tdOpWindow d < 8 && tdDescWindow d < 8 && (tdChainWindow d < 8 || tdChainWindow d == 0xFF)
  && field d 3 1 < 2 && tdOpOffset d % 16 == 0 && 1 ≤ tdOpCount d && tdOpCount d ≤ 2 ^ 24
  && tdDescOffset d % 64 == 0 && 1 ≤ tdDescCount d && tdDescCount d ≤ 1024
  && tdChainOffset d % 64 == 0 && tdChainSize d % 64 == 0 && tdInst d < 8 && zeros d 29 3 && zeros d 112 16
  && (List.range 16).all (fun i => bits (tdSlot d i) 14 2 == 0 && bits (tdSlot d i) 25 7 == 0)

/-- Rights and kinds of R183. -/
def taskRightsOk (d : List Byte) : Bool :=
  let ok (i r : Nat) : Bool := (taskWindow d i).used && (taskWindow d i).kind == 0 && andN (taskWindow d i).rights r == r
  ok (tdOpWindow d) 5 && ok (tdDescWindow d) 5 && (tdChainWindow d == 0xFF || ok (tdChainWindow d) 1)

/-- Areas inside their windows (R183). -/
def taskAreasOk (d : List Byte) : Bool :=
  tdOpOffset d + 16 * tdOpCount d ≤ (taskWindow d (tdOpWindow d)).size
  && tdDescOffset d + 64 * tdDescCount d ≤ (taskWindow d (tdDescWindow d)).size
  && (tdChainWindow d == 0xFF || tdChainOffset d + tdChainSize d ≤ (taskWindow d (tdChainWindow d)).size)

/-! ## Cores and tasks in the state -/

def DieState.core (D : DieState) (i : Nat) : Core := tabGet {} D.task.cores i

def DieState.onCore (D : DieState) (i : Nat) (f : Core → Core) : DieState :=
  { D with task := { D.task with cores := tabMod {} i f D.task.cores } }

def DieState.taskOf (D : DieState) (id : Nat) : Option Task := D.task.tasks.find? (fun t => t.id == id)

def DieState.mapTask (D : DieState) (id : Nat) (f : Task → Task) : DieState :=
  { D with task := { D.task with tasks := D.task.tasks.map (fun t => if t.id = id then f t else t) } }

/-- The task that runs on a core. -/
def DieState.runningTask (D : DieState) (i : Nat) : Option Task :=
  match (D.core i).task with
  | some id => D.taskOf id
  | none => none

/-- Block of a core's sequencer or engine. -/
def coreBlock (i e : Nat) : Nat := B_ENG (i / 4) (i % 4) e

/-- Global core number (R9). -/
def DieState.globalCore (D : DieState) (i : Nat) : Nat := 16 * D.num + i

def Core.engine (k : Core) (e : Nat) : Engine := tabGet {} k.engines e
def Core.onEngine (k : Core) (e : Nat) (f : Engine → Engine) : Core :=
  { k with engines := tabMod {} e f k.engines }
def DieState.onEngine (D : DieState) (i e : Nat) (f : Engine → Engine) : DieState :=
  D.onCore i (fun k => k.onEngine e f)

/-- Is an engine idle with an empty queue? -/
def Engine.idle (e : Engine) : Bool := e.queue.isEmpty && e.run.isEmpty

/-! ## Launch (R184-R188) -/

/-- Enter an accepted task into the queues of its cores (R186, R188). -/
def DieState.enqueueTask (D : DieState) (c : Cmd) (d : List Byte) : DieState :=
  let id := D.task.nextTask
  let t : Task := { id := id, cmd := c.id, desc := d, inst := tdInst d, proof := tdProof d,
                    stages := (maskCores (tdCoreMask d)).map (fun i => (i, .queued)) }
  let D := { D with task := { D.task with tasks := D.task.tasks ++ [t]
                                          nextTask := (id + 1) % 2 ^ 32 } }
  (maskCores (tdCoreMask d)).foldl (fun D i =>
    D.onCore i (fun k => { k with launch := if tdProof d then id :: k.launch else k.launch ++ [id] })) D

/-- Does a core take a launch (R591)? It is powered with its cluster, and no power-down accepted earlier waits for it. -/
def DieState.takesLaunch (D : DieState) (i : Nat) : Bool :=
  (D.core i).powered && (D.cluster (i / 4)).powered
  && !(D.pwr.waiting.any (fun w => (w.1 == 4 + i || w.1 == i / 4)
    && (match D.cmdOf w.2 with | some c => field c.params 4 4 == 0 | none => false)))

/-- TASK_LAUNCH up to acceptance: the checks of R185, R188 and R591. -/
def taskLaunch (rivals : List Nat) (c : Cmd) : M Unit := do
  let D ← get
  okField (c.p 0 8 % 64 == 0) 0
  let d ← paramRead c.id c.stacked c.ctx (c.p 0 8) 384
  okField (taskFormatOk d) 0
  okField (taskRightsOk d) 0
  guardS (taskAreasOk d) .faultBounds
  guardS (tdCoreMask d != 0 && (maskCores (tdCoreMask d)).all (fun i => D.clusterOwner (i / 4) == some (tdInst d)))
    .faultBounds
  guardS (tdInst d == c.inst) .refusedRole
  guardS (!(tdProof d) || c.island) .refusedRole
  guardS ((List.range 16).all (fun i => !(bit (tdSlot d i) 24) || D.ownsSeal c.inst (refNum (tdSlot d i))))
    .faultBounds
  guardS ((maskCores (tdCoreMask d)).all D.takesLaunch) .refusedDomainOff
  let free := (maskCores (tdCoreMask d)).foldl (fun m i => min m (4 - (D.core i).launch.length)) 4
  claim 9 144 free c.queue rivals
  onD (fun D => (D.enqueueTask c d).started c.id)

/-- The task detail of R200. -/
def taskDetail (id op core engine flags detail done : Nat) : List Byte :=
  toLE 4 id ++ toLE 4 op ++ toLE 1 core ++ toLE 1 engine ++ toLE 1 flags ++ toLE 1 detail
    ++ toLE 4 (min done (2 ^ 32 - 1))

/-- Signal through a task's seal-table slot (R197). -/
def DieState.slotSignal (D : DieState) (t : Task) (slot add : Nat) (src : Signaller) : DieState :=
  D.signalRef (tdSlot t.desc slot) add src

/-- Queue the scrubs of a finished task (R157), per cluster of its mask. -/
def DieState.queueScrubs (D : DieState) (t : Task) : DieState :=
  let clusters := (List.range 4).filter (fun c => (maskCores (tdCoreMask t.desc)).any (fun i => i / 4 == c))
  clusters.foldl (fun D c =>
    (List.range 8).foldl (fun D w =>
      let x := taskWindow t.desc w
      if x.used && x.kind == 0 && bit x.flags 1 then
        D.onCluster c (fun C => { C with fills := C.fills ++ [{ lo := x.base, len := x.size, inst := t.inst }] })
      else D) D) D

/-- A core leaves its task: its waits, gates and chain state go, its core time is booked (R201, R303, R421). -/
def DieState.clearCore (D : DieState) (i : Nat) (inst : Nat) : DieState :=
  let k := D.core i
  let mine (w : Wait) : Bool := match w.who with | .seq j => j == i | .gate j _ => j == i | .cmd _ => false
  let D := { D with cmd := { D.cmd with
      waits := D.cmd.waits.filter (fun w => !(mine w))
      coreUse := if k.task.isSome then (inst, k.started, D.now) :: D.cmd.coreUse else D.cmd.coreUse } }
  D.onCore i (fun k => { k with
    task := none, ended := false, seq := none, sealWait := none, fetched := [],
    chained := [], nextBuf := 0, issued := 0, buf0 := {}, buf1 := {}, lastInst := some inst,
    engines := tabMap (fun _ e => { e with queue := [], run := [] }) k.engines })

/-- Discard the buffered stores of a core's ports, counted (R594). -/
def DieState.discardCore (D : DieState) (i : Nat) : DieState :=
  (List.range 8).foldl (fun D e =>
    let r := D.discard (i / 4) (enginePort (i % 4) e)
    if r.2 = 0 then r.1 else r.1.count B_GLB GLB_STORES_DISCARDED r.2) D

/-- Release the buffered stores of a core's ports (R157). -/
def DieState.flushCore (D : DieState) (i : Nat) : DieState :=
  (List.range 8).foldl (fun D e => D.boundary (i / 4) (enginePort (i % 4) e)) D

/-- How a task ended badly (R200, R201). -/
structure TaskFault where
  status : Status
  op : Nat
  core : Nat
  engine : Nat
  detail : Nat := 0
  loc : Nat := 0
  cause : Nat := 0
  attempts : Nat := 0
  /-- a refusal of the launch checks: no event of class 5 -/
  quiet : Bool := false
deriving DecidableEq, Repr

/-- Bytes of a row of n elements: dense, zero-run at its longest, or 2:4 weights (R199, R248, R263). -/
def packedRow (t : VType) (comp n : Nat) : Nat :=
  if comp = 1 then 2 + (3 * n + 1) / 2 else if comp = 2 then n / 2 else rowBytes t n

/-- Rows of an output descriptor as offset in its window and length (R198, R199). -/
def outRows (d : List Byte) : List (Nat × Nat) :=
  let n := match VType.ofCode (bits (field d 1 1) 0 4) with
    | some t => packedRow t (bits (field d 1 1) 4 4) (field d 12 4)
    | none => 0
  (List.range (field d 16 4 * field d 20 4 * field d 24 4)).map (fun r =>
    (field d 4 8 + r % field d 16 4 * field d 28 4 + r / field d 16 4 % field d 20 4 * field d 32 4
      + r / (field d 16 4 * field d 20 4) * field d 36 4, n))

/-- Bytes that have become undefined take free values (log entry 3): in the store, or in stacked memory. -/
def DieState.spoilBytes (D : DieState) (kind c : Nat) : Nat → Nat → DieState
  | _, 0 => D
  | a, n + 1 =>
    let D := if kind = 0 then D.onCluster c (fun C => C.put a D.freeByte)
      else match place a with
        | .stack k off _ => { D with mem := { D.mem with bytes := memSet D.mem.bytes (stackKey k off) D.freeByte } }
        | _ => D
    D.tick.spoilBytes kind c (a + 1) n

/-- The output extent of an op that started and did not complete is undefined (R154, R201, R595), but for the rows in
kept. -/
def DieState.spoilOutput (D : DieState) (t : Task) (i : Nat) (op : OpEntry) (kept : List Nat) : DieState :=
  let w := taskWindow t.desc (bits (field op.dout 0 1) 0 3)
  let rows := outRows op.dout
  if op.dout.isEmpty || w.kind == 2 then D
  else (List.range rows.length).foldl (fun D n =>
    let r := rows.getD n (0, 0)
    if r.1 + r.2 ≤ w.size ∧ kept.contains n = false then D.spoilBytes w.kind (i / 4) (w.base + r.1) r.2 else D) D

/-- Has the op failed under a rule that says that nothing is written, or that what it wrote stands (R138, R149, R198,
R215, R257, R261, R287)? -/
def Running.untouched (r : Running) : Bool :=
  match r.result with
  | some x => x.status == .faultFormat || x.clean
  | none => false

/-- Rows of a failed op's output that stand. -/
def Running.keptRows (r : Running) : List Nat :=
  match r.result with
  | some x => x.kept
  | none => []

/-- The outputs of every op in flight on a core. -/
def DieState.spoilCore (D : DieState) (t : Task) (i : Nat) : DieState :=
  (List.range 8).foldl (fun D e =>
    (((D.core i).engine e).run).foldl (fun D r => if r.untouched then D else D.spoilOutput t i r.op r.keptRows) D) D

/-- What a fault leaves on a core of its task (R206, R207): the fault itself on the core that is named, and that the task
ended for another core's fault on every other one; a run-time limit ends it alike on all (log entry 166). -/
def DieState.markFault (D : DieState) (f : TaskFault) (i : Nat) : DieState :=
  let named := i == f.core % 16
  let b := coreBlock i 0
  ((D.setReg b SEQ_FAULT_OP f.op).setReg b SEQ_FAULT_INFO
    (f.status.code + (f.engine % 8) * 2 ^ 8 + (if named || f.detail == 5 then f.detail else 6) * 2 ^ 16
      + (if named then f.attempts % 4 else 0) * 2 ^ 24)).cause b 1

/-- Ops of a task that core i has completed. -/
def DieState.opsOn (D : DieState) (t : Task) (i : Nat) : Nat :=
  if (D.core i).task = some t.id then (D.core i).opsDone
  else ((t.doneOn.find? (fun e => e.1 == i)).map (·.2)).getD 0

/-- The reason byte that a task's end gives (R410): a format fault of an op has no field of the packet; one of the window
table is of the descriptor that the address names. -/
def TaskFault.reason (f : TaskFault) : Nat :=
  if f.status = .faultFormat then (if f.quiet then 16 else 0xFF) else 0

/-- Take a task off the die: every core stops, its stores are discarded, scrubs queue if a core had begun it, and TASK_LAUNCH
replies (R157, R200, R201, R594). -/
def DieState.endTaskBadly (D : DieState) (t : Task) (f : TaskFault) : DieState :=
  let cores := t.stages.map (·.1)
  let run := cores.filter (fun i => (D.core i).task == some t.id)
  let done := if f.op = 0xFFFFFFFF ∧ f.detail = 5 then (cores.map (D.opsOn t)).sum else D.opsOn t (f.core % 16)
  let D := run.foldl (fun D i => ((D.discardCore i).spoilCore t i).clearCore i t.inst) D
  let D := cores.foldl (fun D i => D.onCore i (fun k => { k with launch := k.launch.filter (· != t.id) })) D
  let D := if f.quiet then D else (if run.contains (f.core % 16) then run else f.core % 16 :: run).foldl (fun D i => D.markFault f i) D
  let D := run.foldl (fun D i => D.cause (coreBlock i 0) 0) D
  let D := if f.quiet then D else
    D.event { cls := 5, code := 0x01, island := 3 + f.core % 16, inst := some t.inst, loc := f.loc, ident := t.id,
              status := f.status.code, cause := f.cause }
  let D := if f.status = .faultParityPersistent ∧ t.inst = 0 then D.doubt 4 else D
  let D := if t.started.isSome then D.queueScrubs t else D
  let D := { D with task := { D.task with tasks := D.task.tasks.filter (fun x => x.id != t.id) } }
  D.replyId t.cmd f.status f.reason (taskDetail t.id f.op f.core f.engine t.flags f.detail done)

/-- The launch checks of R155 failed: the task ends on every core with that reply. -/
def DieState.failLaunch (D : DieState) (t : Task) (i : Nat) (st : Status) : DieState :=
  D.endTaskBadly t { status := st, op := 0xFFFFFFFF, core := D.globalCore i, engine := 0, quiet := true }

/-- A task whose cores have all ended replies once its signals have been applied (R200, R412). -/
def DieState.settleTask (D : DieState) (id : Nat) : DieState :=
  match D.taskOf id with
  | none => D
  | some t =>
    if t.stages.all (fun e => e.2 == .ended) &&
        !(D.cmd.intake.any (fun g => match g.src with | .task i _ _ _ => i == id | _ => false)) then
      let D := D.queueScrubs t
      let D := { D with task := { D.task with tasks := D.task.tasks.filter (fun x => x.id != t.id) } }
      D.replyId t.cmd .ok 0
        (taskDetail t.id 0xFFFFFFFF (D.globalCore ((t.stages.head?.map (·.1)).getD 0)) 0 t.flags 0 t.opsDone)
    else D

/-- A core's part of a task is complete: its done slot is signalled; the last core ends the task (R182, R200). -/
def DieState.finishCore (D : DieState) (i : Nat) : DieState :=
  match D.runningTask i with
  | none => D
  | some t =>
    let n := (D.core i).opsDone
    let D := D.flushCore i
    let D := if bit (tdSlot t.desc 15) 24 then
      D.slotSignal t 15 1 (.task t.id i 0 0xFFFFFFFF) else D
    let D := (D.clearCore i t.inst).cause (coreBlock i 0) 0
    let D := D.mapTask t.id (fun t => { t with
      stages := t.stages.map (fun e => if e.1 = i then (i, .ended) else e), opsDone := t.opsDone + n,
      doneOn := t.doneOn ++ [(i, n)] })
    D.settleTask t.id

/-- Does the core's part end now: END executed and every engine idle (R196)? -/
def DieState.maybeFinish (D : DieState) (i : Nat) : DieState :=
  let k := D.core i
  if k.ended && (List.range 8).all (fun e => (k.engine e).idle) then D.finishCore i else D

/-- A fault that stands on a core of a task: core, engine, and what the task ends with if it is the one named. -/
structure Standing where
  core : Nat
  eng : Nat
  fault : TaskFault
deriving DecidableEq, Repr

/-- The fault of an op of core j's engine g, with the result x it ended with. -/
def DieState.opFault (D : DieState) (j g : Nat) (op : OpEntry) (x : OpResult) : Standing :=
  { core := j, eng := g,
    fault := { status := x.status, op := op.idx, core := D.globalCore j, engine := g, detail := x.detail, loc := x.loc,
               cause := x.cause, attempts := op.attempts } }

/-- Faults of ops in flight of a task, those of core i's engine e left out: their results stand and have not been taken. -/
def DieState.standing (D : DieState) (t : Task) (i e : Nat) : List Standing :=
  (t.stages.map (·.1)).flatMap (fun j =>
    if (D.core j).task == some t.id then
      (List.range 8).flatMap (fun g => ((D.core j).engine g).run.filterMap (fun r =>
        match r.result with
        | some x => if x.status.isOk || (j == i && g == e) || x.status == .faultParityPersistent then none
                    else some (D.opFault j g r.op x)
        | none => none))
    else [])

/-- Is one fault named before another: of a lower core, or of a lower engine there (R201)? -/
def Standing.before (x y : Standing) : Bool := x.core < y.core || (x.core == y.core && x.eng < y.eng)

/-- Several faults of a task stand in one cycle: the first one named ends it, the others are recorded (R201; log entry 24). -/
def DieState.faultsEnd (D : DieState) (t : Task) (all : List Standing) : DieState :=
  match sortBy Standing.before all with
  | [] => D
  | x :: rest =>
    (rest.foldl (fun D y => D.event
      { cls := 5, code := 0x02, island := 3 + y.core, inst := some t.inst, ident := t.id, status := y.fault.status.code })
      D).endTaskBadly t x.fault

/-- An op of core i faults, and the task ends, with the other faults of its ops that stand at the same moment (R201). -/
def DieState.faultTask (D : DieState) (i e : Nat) (op : OpEntry) (st : Status) (detail loc cause : Nat) : DieState :=
  match D.runningTask i with
  | none => D
  | some t =>
    D.faultsEnd t (D.opFault i e op { status := st, detail := detail, loc := loc, cause := cause } :: D.standing t i e)

/-! ## Start of a task (R187, R155, R156) -/

/-- What the window checks of R155 answer for a core: wait for a scrub, a failure, or fine. -/
inductive WindowCheck where
  | fine | wait
  | fail (st : Status)
deriving DecidableEq, Repr

/-- Do two ranges overlap? -/
def overlap (a n b m : Nat) : Bool := n != 0 && m != 0 && decide (a < b + m) && decide (b < a + n)

/-- Kind-0 windows of other tasks that run in cluster c. -/
def DieState.runningWindows (D : DieState) (c : Nat) (except : Nat) : List Window :=
  (D.task.tasks.filter (fun t => t.id != except && t.stages.any (fun e => e.1 / 4 == c && e.2 == .running))).flatMap
    (fun t => ((List.range 8).map (taskWindow t.desc)).filter (fun w => w.used && w.kind == 0))

def DieState.checkWindow (D : DieState) (t : Task) (c : Nat) (i : Nat) : WindowCheck :=
  let w := taskWindow t.desc i
  let C := D.cluster c
  if !windowFormatOk t.desc i then .fail .faultFormat
  else if !w.used || w.kind ≠ 0 then .fine
  else if 2 ^ 25 < w.base + w.size ∨ D.clusterOwner c ≠ some t.inst then .fail .faultBounds
  else if C.rangeRetired w.base w.size then .fail .faultBounds
  else if !C.rangeReady w.base w.size then .fail .refusedDomainOff
  else if (D.runningWindows c t.id).any (fun x => overlap w.base w.size x.base x.size && !(bit w.flags 2 && bit x.flags 2))
    then .fail .faultBounds
  else if C.fills.any (fun f => overlap w.base w.size f.lo f.len) then .wait
  else .fine

/-- The first failure among the windows, else a wait, else fine. -/
def DieState.checkWindows (D : DieState) (t : Task) (c : Nat) : WindowCheck :=
  let rs := (List.range 8).map (D.checkWindow t c)
  match rs.find? (fun r => match r with | .fail _ => true | _ => false) with
  | some r => r
  | none => if rs.contains .wait then .wait else .fine

/-- One line of an op stream: bytes, and the positions that are bad (64: the line is off, R168). -/
def DieState.opLine (D : DieState) (i : Nat) (line : Nat) : Nat × List Byte × List Nat :=
  let C := D.cluster (i / 4)
  let port := enginePort (i % 4) 0
  let off := line * 64
  if !C.rangeReady off 64 || C.rangeRetired off 64 then (line, List.replicate 64 0, [64])
  else (line, (List.range 64).map (fun j => C.portByte port (off + j)),
        (List.range 64).filter (fun j => C.portBad port (off + j)))

/-- Store offset of an op of a task. -/
def opOffset (d : List Byte) (idx : Nat) : Nat := (taskWindow d (tdOpWindow d)).base + tdOpOffset d + 16 * idx

/-- Bring the prefetch buffer around the next op: its line, three before it, twelve after it (R191). -/
def DieState.prefetch (D : DieState) (i : Nat) : DieState :=
  match D.runningTask i with
  | none => D
  | some t =>
    let k := D.core i
    let cur := opOffset t.desc k.pc / 64
    let first := opOffset t.desc 0 / 64
    let last := opOffset t.desc (tdOpCount t.desc - 1) / 64
    let want := ((List.range 16).map (fun j => cur + j)).filterMap (fun l =>
      if 3 ≤ l ∧ first ≤ l - 3 ∧ l - 3 ≤ last then some (l - 3) else none)
    let D := (want.filter (fun l => !(k.fetched.any (fun f => f.1 == l)))).foldl (fun D l =>
      (D.count (B_CST (i / 4)) CST_BANK_ACCESSES 1 (storeBank (64 * l))).work (B_CST (i / 4))) D
    D.onCore i (fun k => { k with
      fetched := want.map (fun l => match k.fetched.find? (fun f => f.1 == l) with
        | some f => f
        | none => D.opLine i l) })

/-- Seed the generators of a core's arithmetic engines (R62, R63). -/
def Core.seedAll (k : Core) (seed : Nat) : Core :=
  [1, 2, 3, 4].foldl (fun k e => k.onEngine e (fun x => { x with lanes := seedLanes seed (64 * e) })) k

/-- Zero the marked windows of a task in a cluster, once per cluster (R156; log entry 25). -/
def DieState.zeroFill (D : DieState) (t : Task) (c : Nat) : DieState :=
  if t.stages.any (fun e => e.1 / 4 == c && e.2 != .queued) then D
  else (List.range 8).foldl (fun D w =>
    let x := taskWindow t.desc w
    if x.used && x.kind == 0 && bit x.flags 0 then D.fill c x.base x.size else D) D

/-- A task that passed its launch checks takes core i, with the rest of the launch queue: marked windows zeroed, the
accumulators too after a task of another instance, generators, tokens and loop registers set (R187, R212). -/
def DieState.beginTask (D : DieState) (i : Nat) (t : Task) (rest : List Nat) : DieState :=
  let other := (D.core i).lastInst != some t.inst
  let cores := maskCores (tdCoreMask t.desc)
  let D := (D.zeroFill t (i / 4)).onCore i (fun k =>
    let k := if other then (k.onEngine 1 (fun e => { e with acc := [], slots := [] })).onEngine 2
               (fun e => { e with acc := [], slots := [] }) else k
    { (k.seedAll (tdSeed t.desc)) with
      launch := rest, task := some t.id, ended := false, pc := 0, seq := none, opsDone := 0, started := D.now,
      tokens := (List.range 8).map (tdToken t.desc),
      loops := [0, 0, cores.length, (cores.filter (· < i)).length] })
  D.mapTask t.id (fun t => { t with
    stages := t.stages.map (fun e => if e.1 = i then (i, .running) else e),
    started := some (t.started.getD D.now) })

/-- The descriptors of task t have been read: they enter the private descriptor memory, and the prefetch begins. -/
def DieState.loadDescs (D : DieState) (i : Nat) (t : Task) (b : List Byte) : DieState :=
  (D.onCore i (fun k => { k with
    descs := (List.range (tdDescCount t.desc)).map (fun j => (b.drop (64 * j)).take 64) })).prefetch i

/-- Read the descriptors of task t through core i's port (R187). -/
def descRead (i : Nat) (t : Task) : M (List Byte) :=
  storeRead (i / 4) (enginePort (i % 4) 0) ((taskWindow t.desc (tdDescWindow t.desc)).base + tdDescOffset t.desc)
    (64 * tdDescCount t.desc)

/-- Start the task at the head of core i's launch queue (R187). -/
def DieState.startTask (D : DieState) (i : Nat) : DieState :=
  match (D.core i).task, (D.core i).launch with
  | none, id :: rest =>
    match D.taskOf id with
    | none => D
    | some t =>
      match D.checkWindows t (i / 4) with
      | .wait => D
      | .fail st => D.failLaunch t i st
      | .fine =>
        match runM (descRead i t) (D.beginTask i t rest) with
        | (.error f, D) =>
          match D.taskOf id with
          | some t => D.endTaskBadly t
              { status := f.status, op := 0xFFFFFFFF, core := D.globalCore i, engine := 0, loc := f.loc,
                detail := if f.status = .faultParityPersistent then 3 else 0 }
          | none => D
        | (.ok b, D) => D.loadDescs i t b
  | _, _ => D

/-! ## Op words (R189, R190) -/

def opEngine (w : Nat) : Nat := bits w 124 4
def opCode (w : Nat) : Nat := bits w 116 8
def opWait (w : Nat) : Nat := bits w 108 8
def opSignal (w : Nat) : Nat := bits w 100 8
def opSealSignal (w : Nat) : Bool := bit w 99
def opChainOut (w : Nat) : Bool := bit w 98
def opChainIn (w : Nat) : Bool := bit w 97
def opRerun (w : Nat) : Bool := bit w 96
def opDescA (w : Nat) : Nat := bits w 80 16
def opDescB (w : Nat) : Nat := bits w 64 16
def opDescOut (w : Nat) : Nat := bits w 48 16
def opChain (w : Nat) : Nat := bits w 32 16
def opImm (w : Nat) : Nat := bits w 0 32

/-- Which descriptors an op of an engine requires (A, B, output); none: the opcode is not defined (R190). -/
def opNeeds (e code : Nat) : Option (Bool × Bool × Bool) :=
  match e, code with
  | 0, c => if c ≤ 0x0A then some (6 ≤ c && c ≤ 8, false, false) else none
  | 1, 0x01 | 1, 0x02 | 1, 0x03 | 1, 0x04 | 1, 0x11 | 1, 0x12 | 1, 0x13 => some (true, true, true)
  | 2, 0x01 | 2, 0x02 | 2, 0x03 => some (true, true, true)
  | 2, 0x20 | 2, 0x21 => some (true, false, true)
  | 3, 0x01 | 3, 0x02 => some (true, true, true)
  | 4, 0x01 | 4, 0x02 | 4, 0x03 | 4, 0x05 => some (true, false, true)
  | 4, 0x04 => some (true, true, true)
  | 5, 0x01 | 5, 0x02 | 5, 0x03 | 5, 0x04 | 5, 0x05 => some (true, false, true)
  | 6, 0x01 => some (true, false, true)
  | 6, 0x02 => some (true, true, true)
  | 6, 0x03 => some (true, true, true)
  | 7, 0x01 => some (true, false, true)
  | 7, 0x02 | 7, 0x03 => some (true, true, true)
  | 7, 0x04 => some (true, false, true)
  | 7, 0x05 => some (false, false, true)
  | _, _ => none

/-- Does a descriptor field break R190? need: the opcode requires it. -/
def descFieldBad (need : Bool) (f count : Nat) : Bool := if f = 0xFFFF then need else count ≤ f

/-- The checks of R190, and of R282 for SEQ ops. -/
def opWordOk (t : List Byte) (w : Nat) : Bool :=
  match opNeeds (opEngine w) (opCode w) with
  | none => false
  | some (na, nb, no) =>
    let n := tdDescCount t
    let chainOk := opChain w == 0xFFFF || (tdChainWindow t != 0xFF && 64 * opChain w + 16 ≤ tdChainSize t)
    if opEngine w = 0 then (!na || opDescA w < n) && opChain w == 0xFFFF && !(opChainIn w) && !(opChainOut w)
    else !(descFieldBad na (opDescA w) n) && !(descFieldBad nb (opDescB w) n) && !(descFieldBad no (opDescOut w) n)
      && !((opChainIn w || opChainOut w) && opChain w == 0xFFFF) && chainOk

/-- Copy of a descriptor at dispatch (R192). -/
def Core.descCopy (k : Core) (f : Nat) : List Byte := if f = 0xFFFF then [] else k.descs.getD f []

/-! ## Tokens (R194, R195) -/

/-- Does every counter of a mask hold a token? -/
def Core.hasTokens (k : Core) (mask : Nat) : Bool :=
  (List.range 8).all (fun i => !(bit mask i) || 1 ≤ k.tokens.getD i 0)

/-- Take one token from each counter of a mask. -/
def Core.takeTokens (k : Core) (mask : Nat) : Core :=
  { k with tokens := (List.range 8).map (fun i => k.tokens.getD i 0 - b2n (bit mask i)) }

/-- Add one token to each counter of a mask; does one pass 255? -/
def Core.addTokens (k : Core) (mask : Nat) : Core × Bool :=
  ({ k with tokens := (List.range 8).map (fun i => min 255 (k.tokens.getD i 0 + b2n (bit mask i))) },
   (List.range 8).any (fun i => bit mask i && k.tokens.getD i 0 == 255))

/-- Does a queue head wait on tokens? One held at a seal gate does not (R296). -/
def Core.waitsTokens (k : Core) (op : OpEntry) : Bool := !(k.hasTokens (opWait op.word)) && op.gate != 1 && op.gate != 4 && op.gate != 5

/-- The condition of R195: no engine runs, every queue head waits on tokens, and dispatch is stalled on op w, a SEQ
op without its tokens or an op whose engine queue is full. -/
def Core.deadlocked (k : Core) (w : Nat) : Bool :=
  (List.range 8).all (fun e =>
    (k.engine e).run.isEmpty &&
      (match (k.engine e).queue.head? with
       | some op => k.waitsTokens op
       | none => true)) &&
  (if opEngine w = 0 then !(k.hasTokens (opWait w)) else 8 ≤ (k.engine (opEngine w)).queue.length)

/-- The op at the program counter, from the prefetch buffer: its word and whether a byte of it is bad. -/
def DieState.nextOp (D : DieState) (i : Nat) (t : Task) : Option (Nat × Bool × Bool) :=
  let k := D.core i
  let off := opOffset t.desc k.pc
  match k.fetched.find? (fun f => f.1 == off / 64) with
  | none => none
  | some f =>
    some (field f.2.1 (off % 64) 16, f.2.2.any (fun j => off % 64 ≤ j && j < off % 64 + 16), f.2.2.contains 64)

/-- The op on whose dispatch core i is deadlocked, in a task of the die (R195). -/
def DieState.deadlockOp (D : DieState) (t : Task) (i : Nat) : Option OpEntry :=
  let k := D.core i
  if k.task ≠ some t.id ∨ k.ended = true ∨ k.seq.isSome = true then none
  else match D.nextOp i t with
    | some (w, false, false) => if k.deadlocked w then some { idx := k.pc, word := w } else none
    | _ => none

/-- Token deadlocks of a task's cores are detected in one cycle: each is reported, and the task ends with that of the lowest
core (R195, R201). -/
def DieState.deadlockFault (D : DieState) (t : Task) : DieState :=
  let all := (t.stages.map (·.1)).filterMap (fun i => (D.deadlockOp t i).map (fun op => (i, op)))
  let D := all.foldl (fun D x => (D.cause (coreBlock x.1 0) 3).event
    { cls := 5, code := 0x03, island := 3 + x.1, inst := some t.inst, ident := t.id }) D
  D.faultsEnd t (all.map (fun x => D.opFault x.1 (opEngine x.2.word) x.2 { status := .faultTimeout, detail := 4 }))

/-! ## Completion (R193, R197, R199, R200, R202) -/

/-- How many ops an engine may have in flight (R219). -/
def inFlight (e : Nat) : Nat := if e = 1 ∨ e = 2 then 2 else 1

/-- Put the flags of an op into its task (R200). -/
def DieState.orFlags (D : DieState) (id f : Nat) : DieState := D.mapTask id (fun t => { t with flags := orN t.flags f })

/-- May the op be rerun (R202, R303)? The extents overlap test is given. -/
def OpEntry.rerunnable (op : OpEntry) (noOverlap : Bool) : Bool :=
  opRerun op.word && noOverlap && !(opChainIn op.word) && !(opChainOut op.word)
  && !(bit (field op.dout 43 1) 0)

/-- The extent of a tensor descriptor as R199 gives it: window, first byte, length. -/
def tensorExtent (d : List Byte) : Option (Nat × Nat × Nat) :=
  match VType.ofCode (bits (field d 1 1) 0 4) with
  | none => none
  | some t =>
    let span := ((List.range 3).map (fun j => (field d (16 + 4 * j) 4 - 1) * field d (28 + 4 * j) 4)).sum
    some (bits (field d 0 1) 0 3, field d 4 8, span + packedRow t (bits (field d 1 1) 4 4) (field d 12 4))

/-- Do two descriptors of a task overlap in the store (R202)? -/
def descOverlap (t : List Byte) (a b : List Byte) : Bool :=
  if a.isEmpty || b.isEmpty then false
  else match tensorExtent a, tensorExtent b with
    | some (wa, oa, na), some (wb, ob, nb) =>
      (taskWindow t wa).kind == (taskWindow t wb).kind &&
        overlap ((taskWindow t wa).base + oa) na ((taskWindow t wb).base + ob) nb
    | _, _ => false

/-- An op has ended, as x or as it went on: its opcode and status stand in the engine's status, its flags join the task's and
are counted (R180, R200, R203). -/
def DieState.opFlags (D : DieState) (i e : Nat) (t : Task) (r : Running) (x : OpResult) : DieState :=
  let wrap := r.wrap
  let sat := r.sat
  let D := D.onEngine i e (fun g => { g with lastOp := opCode r.op.word, lastStatus := x.status.code })
  let D := D.orFlags t.id (b2n wrap + b2n sat * 2)
  let D := if wrap then D.count (coreBlock i 0) SEQ_WRAP_OPS else D
  if sat then D.count (coreBlock i 0) SEQ_SAT_OPS else D

/-- The op at the head of an engine's flight has succeeded: outputs visible, tokens, seal, flags. -/
def DieState.completeOk (D : DieState) (i e : Nat) (t : Task) (r : Running) (x : OpResult) : DieState :=
  let port := enginePort (i % 4) e
  let D := D.boundary (i / 4) port
  let D := (D.onEngine i e (fun g => { g with run := g.run.tail })).opFlags i e t r x
  let D := if r.op.attempts = 0 then D else D.orFlags t.id 8
  let D := if r.op.inBuf = r.op.outBuf then D else match r.op.inBuf with
    | some 0 => D.onCore i (fun k => { k with buf0 := { producer := k.buf0.producer } })
    | some _ => D.onCore i (fun k => { k with buf1 := { producer := k.buf1.producer } })
    | none => D
  let D := D.onCore i (fun k => { k with opsDone := k.opsDone + 1 })
  let D := if opSealSignal r.op.word then
      D.slotSignal t (bits (field r.op.dout 42 1) 0 4) 1 (.task t.id i e r.op.idx) else D
  let a := (D.core i).addTokens (opSignal r.op.word)
  let D := D.onCore i (fun _ => a.1)
  if a.2 then D.faultTask i e r.op .faultOverrun 0 0 0 else D.maybeFinish i

/-- An op that has ended fails its task (R199, R201). -/
def DieState.opFails (D : DieState) (i e : Nat) (t : Task) (r : Running) (x : OpResult) (detail : Nat) : DieState :=
  (D.opFlags i e t r x).faultTask i e r.op x.status detail x.loc x.cause

/-- An op failed on parity: rerun it, or end the task as R165 gives. A line is 2^19 * cluster + line: a DMA may have read
another cluster's store. -/
def DieState.parityFault (D : DieState) (i e : Nat) (t : Task) (r : Running) (x : OpResult) : DieState :=
  let line := x.line.getD 0
  let noOverlap := !(descOverlap t.desc r.op.dout r.op.da) && !(descOverlap t.desc r.op.dout r.op.db)
  if !(r.op.rerunnable noOverlap) || x.line.isNone then D.opFails i e t r x 3
  else if r.op.lines.contains line then (D.retire (line / 2 ^ 19) (line % 2 ^ 19 * 64)).opFails i e t r x 1
  else if 2 ≤ r.op.attempts then D.opFails i e t r x 2
  else (D.dropHeld (i / 4) (enginePort (i % 4) e)).onEngine i e (fun g => { g with
    run := { r with result := none, wrap := false, sat := false, remote := 0, remoteBad := none, answers := [], asked := none,
                    op := { r.op with attempts := r.op.attempts, lines := line :: r.op.lines } } :: g.run.tail })

/-- OP_COMPLETE for engine e of core i: its oldest op in flight that has a result and no request outstanding. -/
def DieState.opComplete (D : DieState) (i e : Nat) : DieState :=
  match D.runningTask i, ((D.core i).engine e).run with
  | some t, r :: _ =>
    match r.result with
    | none => D
    | some x =>
      if r.remote ≠ 0 then D
      else
        let x := match r.remoteBad with | some st => if x.status.isOk then { x with status := st } else x | none => x
        if x.status.isOk then D.completeOk i e t r x
        else if x.status = .faultParityPersistent then D.parityFault i e t r x
        else D.opFails i e t r x x.detail
  | _, _ => D

/-- OP_RERUN: an op in flight that failed on parity and may be tried again is reset to its first start: its
generators restored, the attempt counted (R202). -/
def DieState.opRerun (D : DieState) (i e : Nat) : DieState :=
  match ((D.core i).engine e).run with
  | r :: _ =>
    if r.result.isNone && r.op.attempts < r.op.lines.length then
      let D := D.onEngine i e (fun g => { g with
        lanes := r.lanes
        run := { r with op := { r.op with attempts := r.op.attempts + 1 } } :: g.run.tail })
      (D.count (coreBlock i 0) SEQ_OPS_RERUN).cause (coreBlock i 0) 2
    else D
  | [] => D

/-- TASK_LIMIT_EXPIRE (R201). -/
def DieState.limitExpire (D : DieState) (id : Nat) : DieState :=
  match D.taskOf id with
  | none => D
  | some t =>
    match t.started with
    | none => D
    | some s =>
      if tdLimit t.desc ≠ 0 ∧ s + tdLimit t.desc * 1000 < D.now then
        D.endTaskBadly t { status := .faultTimeout, op := 0xFFFFFFFF,
                           core := D.globalCore ((maskCores (tdCoreMask t.desc)).headD 0), engine := 0, detail := 5 }
      else D

end Sys2Proof.Machine
end

