-- ==== Sys2Proof/Machine/SealUnit.lean ====
section
/-! DEFINITION. The seal unit (R424-R429): signals, waits, arms, and the cycle of R426; the seal commands (R409). -/

namespace Sys2Proof.Machine

/-- How a wait ends (R427), with the code a core keeps. -/
inductive WaitEnd where
  | ok | atDeadline | timeout | stale
deriving DecidableEq, Repr

def WaitEnd.code : WaitEnd → Nat
  | .ok => 2 | .atDeadline => 3 | .timeout => 4 | .stale => 5

def WaitEnd.status : WaitEnd → Status
  | .ok => .ok | .atDeadline => .okAtDeadline | .timeout => .faultTimeout | .stale => .faultStaleGeneration

/-- Count an ended wait (R433). -/
def DieState.countWait (D : DieState) (e : WaitEnd) : DieState :=
  match e with
  | .ok => D.count B_SEAL SEAL_WAITS
  | .atDeadline => (D.count B_SEAL SEAL_WAITS).count32 B_SEAL SEAL_AT_DEADLINE
  | .timeout => D.count B_SEAL SEAL_TIMEOUTS
  | .stale => D

/-- Tell the waiter (R409, R197, R297). -/
def DieState.endWait (D : DieState) (w : Wait) (e : WaitEnd) : DieState :=
  let D := D.countWait e
  match w.who with
  | .cmd id => D.replyId id e.status 0 (toLE 4 (D.sealOf w.num).counter)
  | .seq i => D.onCore i (fun k => { k with sealWait := some e.code })
  | .gate i g => D.onEngine i g (fun x => { x with
      queue := match x.queue with | h :: t => { h with gate := e.code } :: t | [] => [] })

/-- End every pending wait that p picks, with the outcome f gives. -/
def DieState.endWaits (D : DieState) (p : Wait → Bool) (f : Wait → WaitEnd) : DieState :=
  let gone := D.cmd.waits.filter p
  gone.foldl (fun D w => D.endWait w (f w))
    { D with cmd := { D.cmd with waits := D.cmd.waits.filter (fun w => !(p w)) } }

/-- A success seen against the deadline. -/
def Wait.success (w : Wait) (now : Nat) : WaitEnd := if w.deadline = some now then .atDeadline else .ok

/-- The tail of a queue follows its doorbell seal, checked like a software move (R416, R417). -/
def DieState.doorTail (D : DieState) (qn v : Nat) : DieState :=
  let q := D.queue qn
  if q.state ≠ .active then D
  else if (v + 2 ^ 32 - q.tail) % 2 ^ 32 > 2 ^ 31 ∨ q.size < (v + 2 ^ 32 - q.head) % 2 ^ 32 then
    D.queueError qn .faultOverrun
  else
    let D := D.setQueue qn { q with tail := v, headSince := if q.filled = 0 then some D.now else q.headSince }
    D.serveQueue qn

/-- A task's signal is stale: the task faults (R197, R425). -/
def DieState.staleTask (D : DieState) (t core engine op : Nat) : DieState :=
  match D.taskOf t with
  | none => D
  | some x =>
    if (D.core core).task = some t then
      D.faultTask core engine { idx := op, word := 0 } .faultStaleGeneration 0 0 0
    else D.endTaskBadly x { status := .faultStaleGeneration, op := op, core := D.globalCore core, engine := engine }

/-- Apply one signal (R425, R416). -/
def DieState.applySignal (D : DieState) (g : Signal) : DieState :=
  let sl := D.sealOf g.num
  let ref := sealRef g.num g.gen
  if !sl.alloc || sl.gen != g.gen then
    let D := (D.count B_SEAL SEAL_STALE).cause B_SEAL 0
    match g.src with
    | .cmd id => D.replyId id .faultStaleGeneration
    | .task t i e op => D.staleTask t i e op
    | .job => D.event { cls := 6, code := 0x03, island := 38, inst := D.sealOwner g.num, ident := ref }
  else
    let D := D.count B_SEAL SEAL_SIGNALS
    match sl.door with
    | some q =>
      let v := (sl.counter + g.add) % 2 ^ 32
      let D := (D.setSeal g.num { sl with counter := v }).doorTail q v
      match g.src with
      | .cmd id => D.replyId id .ok 0 (toLE 4 v)
      | _ => D
    | none =>
      let past := decide (2 ^ 32 ≤ sl.counter + g.add)
      let v := min (sl.counter + g.add) (2 ^ 32 - 1)
      let D := D.setSeal g.num { sl with counter := v, saturated := sl.saturated || past }
      let D := if past then (D.count32 B_SEAL SEAL_SATURATED).cause B_SEAL 1 else D
      match g.src with
      | .cmd id => if past then D.replyId id .faultOverrun else D.replyId id .ok 0 (toLE 4 v)
      | _ =>
        if past then
          D.event { cls := 6, code := 0x04, island := 38, inst := D.sealOwner g.num, ident := ref }
        else D

/-- Send the notice of an armed seal whose counter has reached its target (R428). -/
def DieState.notice (D : DieState) (n : Nat) : DieState :=
  let sl := D.sealOf n
  match sl.arm with
  | none => D
  | some (target, q, vec, seq, inst) =>
    if sl.counter < target then D
    else
      let D := D.setSeal n { sl with arm := none }
      let bytes := replyBytes seq .ok false 0 D.now (toLE 4 (sealRef n sl.gen) ++ toLE 4 sl.counter)
      let D := if q = 0xFFFF then D else D.sendReply q bytes false none
      if vec = 0xFFFF then D else D.msix (D.fnOf inst) vec

/-- Waits whose deadline lies before now have ended in the cycles since (R427). -/
def DieState.pastDeadlines (D : DieState) : DieState :=
  let late (d : Option Nat) : Bool := match d with | some t => t < D.now | none => false
  (D.endWaits (fun w => late w.deadline) (fun _ => .timeout)).lateQueueWaits

/-- Steps 1 and 2 of R426: up to 4 signals, then the waits they satisfy, then the notices. -/
def DieState.signalCycle (D : DieState) : DieState :=
  let D := D.pastDeadlines
  let batch := D.cmd.intake.take 4
  let D := { D with cmd := { D.cmd with intake := D.cmd.intake.drop 4 } }
  let D := batch.foldl (fun D g => D.applySignal g) D
  let D := D.endWaits (fun w => (D.sealOf w.num).alloc && w.target ≤ (D.sealOf w.num).counter)
    (fun w => w.success D.now)
  let D := batch.foldl (fun D g => D.notice g.num) D
  (D.task.tasks.map (·.id)).foldl (fun D id => D.settleTask id) D

/-- Steps 1 to 3 of R426. -/
def DieState.sealCycle (D : DieState) : DieState :=
  let D := D.signalCycle
  let D := D.endWaits (fun w => w.deadline == some D.now) (fun _ => .timeout)
  let due := D.cmd.qwaits.filter (fun w => w.deadline == some D.now)
  due.foldl (fun D w => (D.countWait .timeout).replyId w.cmd .faultTimeout)
    { D with cmd := { D.cmd with qwaits := D.cmd.qwaits.filter (fun w => w.deadline != some D.now) } }

/-- Every signal that stands in the intake is applied: what a completion waits for before it replies (R412). -/
def DieState.drainSignals (D : DieState) : Nat → DieState
  | 0 => D
  | n + 1 => if D.cmd.intake.isEmpty then D else D.signalCycle.drainSignals n

/-- Signal for a job, and see it applied before going on (R412, R425). -/
def DieState.jobSignal (D : DieState) (ref add : Nat) : DieState :=
  let D := D.signalRef ref add .job
  D.drainSignals (D.cmd.intake.length + 1)

/-- Step 4 of R426 on one seal: its waits end, it is disarmed, and its generation moves on (R424). -/
def DieState.newUse (D : DieState) (n : Nat) (alloc : Bool) : DieState :=
  let D := D.endWaits (fun w => w.num == n) (fun _ => .stale)
  let sl := D.sealOf n
  D.setSeal n { sl with alloc := alloc, counter := 0, gen := nextGen sl.gen, arm := none, saturated := false,
                        door := none }

/-! ## The seal commands -/

/-- The seal a command's reference names: well-formed and in the instance's range (R409, R425). -/
def namedSeal (c : Cmd) : M Nat := do
  let D ← get
  okField (refOk (c.p 0 4)) 0
  guardS (D.ownsSeal c.inst (refNum (c.p 0 4))) .faultBounds
  pure (refNum (c.p 0 4))

/-- The reference is of the seal's present use (R424). -/
def freshRef (c : Cmd) : M Seal := do
  let D ← get
  let sl := D.sealOf (refNum (c.p 0 4))
  guardS (sl.alloc && sl.gen == refGen (c.p 0 4)) .faultStaleGeneration
  pure sl

/-- SEAL_ALLOC (R424, R423). -/
def sealAlloc (rivals : List Nat) (c : Cmd) : M (List Byte) := do
  let D ← get
  let base := insSealBase D.ins.active c.inst
  let free := ((List.range (insSealCount D.ins.active c.inst)).map (base + ·)).filter
    (fun n => !(D.sealOf n).alloc)
  claim 5 (80 + c.inst) free.length c.queue rivals
  match free.head? with
  | none => failWith .refusedFull 5
  | some n =>
    onD (fun D => D.setSeal n { D.sealOf n with alloc := true, counter := 0, arm := none, saturated := false })
    pure (toLE 4 (sealRef n (D.sealOf n).gen))

/-- SEAL_FREE and SEAL_RESET: the rest of the cycle, then the reset (R426, R416). -/
def sealNewUse (keep : Bool) (c : Cmd) : M (List Byte) := do
  let n ← namedSeal c
  let sl ← freshRef c
  okField (sl.door.isNone) 0
  onD (fun D => D.sealCycle.newUse n keep)
  let D ← get
  pure (if keep then toLE 4 (sealRef n (D.sealOf n).gen) else [])

/-- SEAL_SIGNAL: the signal is on its way; the seal unit replies (R425). -/
def sealSignal (c : Cmd) : M Unit := do
  let n ← namedSeal c
  onD (fun D => (D.started c.id).signal n (refGen (c.p 0 4)) (c.p 4 4) (.cmd c.id))

/-- SEAL_WAIT (R426, R427, R429). -/
def sealWait (rivals : List Nat) (c : Cmd) : M (Option (List Byte)) := do
  let n ← namedSeal c
  let sl ← freshRef c
  okField (sl.door.isNone) 0
  if c.p 4 4 ≤ sl.counter then
    onD (fun D => D.countWait .ok)
    pure (some (toLE 4 sl.counter))
  else
    claimWait c rivals
    onD (fun D => D.started c.id)
    onD (fun D => { D with cmd := { D.cmd with
      waits := D.cmd.waits ++ [{ who := .cmd c.id, num := n, target := c.p 4 4, deadline := deadlineOf D.now (c.p 8 4) }] } })
    pure none

/-- SEAL_ARM (R428). -/
def sealArm (c : Cmd) : M (List Byte) := do
  let n ← namedSeal c
  let sl ← freshRef c
  let D ← get
  okField (sl.door.isNone) 0
  let q := c.p 8 2
  okField (q == 0xFFFF || (D.replyQueueOf c.inst q).isSome) 8
  okField (c.p 10 2 == 0xFFFF || c.p 10 2 < fnVectors (D.fnOf c.inst)) 10
  guardS (q == 0xFFFF || D.replyQueueOf c.inst q == some true) .refusedRole
  onD (fun D => (D.setSeal n { sl with arm := some (c.p 4 4, q, c.p 10 2, c.seq, c.inst) }).notice n)
  pure []

/-- Pending waits on a seal, saturating at 255. -/
def DieState.waitersOf (D : DieState) (n : Nat) : Nat := min 255 (D.cmd.waits.filter (fun w => w.num == n)).length

/-- SEAL_QUERY (R652). -/
def sealQuery (c : Cmd) : M (List Byte) := do
  let D ← get
  let n := c.p 0 2
  guardS (D.ownsSeal c.inst n) .faultBounds
  let sl := D.sealOf n
  let st := b2n sl.alloc + b2n sl.arm.isSome * 2 + b2n sl.saturated * 4 + b2n sl.door.isSome * 8
  pure (toLE 4 sl.counter ++ toLE 4 (match sl.arm with | some (t, _) => t | none => 0)
    ++ toLE 1 sl.gen ++ toLE 1 st ++ toLE 1 (D.waitersOf n) ++ toLE 1 c.inst)

/-! ## Rows -/

/-- SEAL_ALLOC. -/
def execSealAlloc (a : At) (id : Nat) (rivals : List Nat) (s : State) : Out :=
  onDie a s (fun D => D.runCmd 0x0010 id (fun c D => D.replyM c (sealAlloc rivals c)))

/-- SEAL_FREE. -/
def execSealFree (a : At) (id : Nat) (s : State) : Out :=
  onDie a s (fun D => D.runCmd 0x0011 id (fun c D => D.replyM c (sealNewUse false c)))

/-- SEAL_RESET. -/
def execSealReset (a : At) (id : Nat) (s : State) : Out :=
  onDie a s (fun D => D.runCmd 0x0012 id (fun c D => D.replyM c (sealNewUse true c)))

/-- SEAL_SIGNAL. -/
def execSealSignal (a : At) (id : Nat) (s : State) : Out :=
  onDie a s (fun D => D.runCmd 0x0013 id (fun c D => D.replyOpt c (do sealSignal c; pure none)))

/-- SEAL_WAIT. -/
def execSealWait (a : At) (id : Nat) (rivals : List Nat) (s : State) : Out :=
  onDie a s (fun D => D.runCmd 0x0014 id (fun c D => D.pastDeadlines.replyOpt c (sealWait rivals c)))

/-- SEAL_ARM. -/
def execSealArm (a : At) (id : Nat) (s : State) : Out :=
  onDie a s (fun D => D.runCmd 0x0015 id (fun c D => D.replyM c (sealArm c)))

/-- SEAL_QUERY. -/
def execSealQuery (a : At) (id : Nat) (s : State) : Out :=
  onDie a s (fun D => D.runCmd 0x0016 id (fun c D => D.replyM c (sealQuery c)))

/-- SEAL_SIGNAL_APPLY: a cycle of the seal unit with signals (R426). -/
def execSealSignalApply (a : At) (s : State) : Out := onDie a s (fun D => D.signalCycle)

/-- SEAL_WAIT_TIMEOUT: a cycle in which deadlines fall (R426, R427). -/
def execSealWaitTimeout (a : At) (s : State) : Out := onDie a s (fun D => D.sealCycle)

end Sys2Proof.Machine
end

