-- ==== Sys2Proof/Machine/Tensor.lean ====
section
/-! DEFINITION. Tensor descriptors (R198, R199, R248, R263), the windows an op reaches them through (R153, R154), and
rows in dense, zero-run and chain-buffer form (R45, R263-R268, R299-R302). -/

namespace Sys2Proof.Machine

/-- The op at work: core 4c + k of the die, engine, its task and its queue entry. -/
structure OpCtx where
  core : Nat
  eng : Nat
  task : Task
  op : OpEntry

def OpCtx.cluster (x : OpCtx) : Nat := x.core / 4
def OpCtx.port (x : OpCtx) : Nat := enginePort (x.core % 4) x.eng
def OpCtx.block (x : OpCtx) : Nat := coreBlock x.core x.eng
def OpCtx.window (x : OpCtx) (w : Nat) : Window := taskWindow x.task.desc w

/-- The memory context of a core's DMA (R385, R440): class 1, the DMA engine's requester ID. -/
def OpCtx.dmaCtx (x : OpCtx) : Ctx :=
  { inst := x.task.inst, req := 0x20 * (x.core / 4) + 8 * (x.core % 4) + 7, cls := 1 }

/-! ## Windows -/

/-- Rights bits of R153. -/
def rRead : Nat := 0
def rWrite : Nat := 1

/-- The bounds and rights check of R154: the failure carries the offset and the window. -/
def checkWin (x : OpCtx) (w off n right : Nat) : M Unit :=
  let e := x.window w
  if e.used && decide (off + n ≤ e.size) && bit e.rights right then pure ()
  else throw { status := .faultBounds, loc := off, cause := w }

/-- Give a failure the location and window of R154 where it is a bounds failure. -/
def atWin {α : Type} (w off : Nat) (m : M α) : M α :=
  tryCatch m (fun f => throw (if f.status = .faultBounds then { f with loc := off, cause := w } else f))

/-- Read bytes of a kind-0 window through the engine's port. -/
def winRead (x : OpCtx) (w off n : Nat) : M (List Byte) := do
  checkWin x w off n rRead
  if (x.window w).kind = 0 then atWin w off (storeRead x.cluster x.port ((x.window w).base + off) n)
  else throw { status := .faultBounds, loc := off, cause := w }

/-- Write bytes of a kind-0 window. -/
def winWrite (x : OpCtx) (w off : Nat) (bs : List Byte) : M Unit := do
  checkWin x w off bs.length rWrite
  if (x.window w).kind = 0 then atWin w off (storeWrite x.cluster x.port ((x.window w).base + off) bs)
  else throw { status := .faultBounds, loc := off, cause := w }

/-! ## Tensor descriptors (R198) -/

structure Tensor where
  win : Nat
  vtype : VType
  comp : Nat
  dims : Nat
  gran : Nat
  off : Nat
  sizes : List Nat
  strides : List Nat
  scaleWin : Nat
  bref : Int
  slot : Nat
  accum : Bool
  scaleOff : Nat
  auxWin : Nat
  auxOff : Nat
  scaleWord : Nat

/-- Size of dimension d. -/
def Tensor.size (t : Tensor) (d : Nat) : Nat := t.sizes.getD d 1

/-- Rows: the indices over dimensions 1 to 3. -/
def Tensor.rows (t : Tensor) : Nat := t.size 1 * t.size 2 * t.size 3

/-- Row bytes of R199, R248 and R263. -/
def Tensor.rowBytes (t : Tensor) : Nat :=
  if t.comp = 1 then 2 + (3 * t.size 0 + 1) / 2
  else if t.comp = 2 then t.size 0 / 2
  else Sys2Proof.Machine.rowBytes t.vtype (t.size 0)

/-- Offset of row r, dimension 1 fastest. -/
def Tensor.rowOff (t : Tensor) (r : Nat) : Nat :=
  t.off + r % t.size 1 * t.strides.getD 0 0 + r / t.size 1 % t.size 2 * t.strides.getD 1 0
    + r / (t.size 1 * t.size 2) * t.strides.getD 2 0

/-- Bytes from offset 0 of the descriptor's offset to the end of its last row (R199). -/
def Tensor.span (t : Tensor) : Nat :=
  (t.size 1 - 1) * t.strides.getD 0 0 + (t.size 2 - 1) * t.strides.getD 1 0
    + (t.size 3 - 1) * t.strides.getD 2 0 + t.rowBytes

/-- Is every size and stride field in its place (R198, R149)? -/
def tensorShapeOk (d : List Byte) : Bool :=
  let dims := field d 2 1
  let sz (i : Nat) : Nat := field d (12 + 4 * i) 4
  1 ≤ dims && dims ≤ 4
  && (List.range 4).all (fun i => if i < dims then 1 ≤ sz i else sz i == 1)

/-- Layouts that imply an unaligned access (R149). -/
def tensorAligned (d : List Byte) : Bool :=
  field d 4 8 % 4 == 0
  && (List.range 3).all (fun i => field d (16 + 4 * i) 4 ≤ 1 || field d (28 + 4 * i) 4 % 4 == 0)

/-- Read a descriptor (R198): a field out of its range or a non-zero reserved bit is FAULT_FORMAT. access: the op
reaches memory through it. DESIGN CHOICE (log entry 182): the reserved bits 31:24 of the scale words of R50 stand in the scale
area, not in the descriptor; the spec does not say that an op checks them, and none does. -/
def parseTensor (d : List Byte) (access : Bool) : M Tensor := do
  let ty := VType.ofCode (bits (field d 1 1) 0 4)
  let comp := bits (field d 1 1) 4 4
  let gran := field d 3 1
  guardS (d.length == 64 && field d 0 1 < 8 && comp ≤ 2 && gran < 4 && field d 43 1 < 2
    && (field d 42 1 == 0xFF || field d 42 1 < 16) && field d 44 4 % 4 == 0
    && zeros d 49 3 && zeros d 60 4) .faultFormat
  guardS (tensorShapeOk d) .faultFormat
  guardS (!access || tensorAligned d) .faultFormat
  match ty with
  | none => failWith .faultFormat
  | some ty =>
    guardS ty.storable .faultFormat
    let t : Tensor :=
      { win := field d 0 1, vtype := ty, comp := comp, dims := field d 2 1, gran := gran, off := field d 4 8,
        sizes := (List.range 4).map (fun i => field d (12 + 4 * i) 4),
        strides := (List.range 3).map (fun i => field d (28 + 4 * i) 4),
        scaleWin := bits (field d 40 1) 0 3, bref := sext 8 (field d 41 1), slot := field d 42 1,
        accum := bit (field d 43 1) 0, scaleOff := field d 44 4, auxWin := bits (field d 48 1) 0 3,
        auxOff := field d 52 4, scaleWord := field d 56 4 }
    if comp = 1 then
      guardS ((ty == .i8 || ty == .u8) && t.size 0 ≤ 65535
        && (!access || (t.strides.getD 0 0 % 4 == 0 && t.rowBytes ≤ t.strides.getD 0 0))) .faultFormat
    if comp = 2 then
      guardS ((ty == .i8 || ty == .u8) && t.size 3 == 1 && t.size 0 % 4 == 0 && t.size 1 ≤ 64 && t.size 0 / 2 ≤ t.strides.getD 0 0
        && t.auxOff % 64 == 0) .faultFormat
    pure t

/-- Bytes of a ZRC row's map (R265). -/
def Tensor.mapRow (t : Tensor) : Nat := 4 * ((t.size 0 + 1023) / 1024)

/-- First code word of a 2:4 metadata area, from its start (R250). -/
def Tensor.codeBase (t : Tensor) : Nat := (16 + 4 * t.size 1 * t.size 2 + 63) / 64 * 64
/-- Chunks of a 2:4 matrix. -/
def Tensor.chunks (t : Tensor) : Nat := (t.size 0 + 31) / 32
/-- Length of a 2:4 metadata area. -/
def Tensor.metaBytes (t : Tensor) : Nat := t.codeBase + 4 * t.size 2 * t.chunks * t.size 1

/-- Bytes of the aux area. -/
def Tensor.auxBytes (t : Tensor) : Nat :=
  if t.comp = 1 then t.mapRow * t.rows else if t.comp = 2 then t.metaBytes else 0

/-- Bytes of the scale area, for nch output channels and a reduction of k (R198). -/
def Tensor.scaleBytes (t : Tensor) (nch k : Nat) : Nat :=
  if t.gran = 2 then 4 * nch else if t.gran = 3 then 4 * nch + nch * ((k + 31) / 32) else 0

/-- A tile engine, the MVP, the VU, the SEL and the HPU use kind-0 windows only (R154): no access is made through another. -/
def checkKind (x : OpCtx) (w off : Nat) : M Unit :=
  if x.eng = 7 ∨ (x.window w).kind = 0 then pure ()
  else throw { status := .faultBounds, loc := off, cause := w, clean := true }

/-- The extent checks of R199 against the windows (R154); streamed: the operand that the DMA reads for the MVP (R237). -/
def checkExtent (x : OpCtx) (t : Tensor) (right nch k : Nat) (streamed : Bool := false) : M Unit := do
  checkWin x t.win t.off t.span right
  if !streamed then checkKind x t.win t.off
  if t.auxBytes ≠ 0 then checkWin x t.auxWin t.auxOff t.auxBytes right
  if t.scaleBytes nch k ≠ 0 then checkWin x t.scaleWin t.scaleOff (t.scaleBytes nch k) rRead

/-- A descriptor of the task's private table as dispatch copied it, named by a chain stage (R192). -/
def namedDesc (x : OpCtx) (i : Nat) : M Tensor := do
  guardS (i < tdDescCount x.task.desc) .faultFormat
  parseTensor (x.op.table.getD i []) true

/-! ## Zero-run rows (R264-R268) -/

/-- Element bytes that a token list spells; each token is (run, value). -/
def expandTokens : List (Nat × Nat) → List Nat
  | [] => []
  | (r, v) :: t =>
    (if r = 15 ∧ v = 0 then List.replicate 15 0 else List.replicate r 0 ++ [v]) ++ expandTokens t

/-- Tokens that close or carry a run of z zeros (R266). -/
def flushRun (z : Nat) : Nat → List (Nat × Nat) × Nat
  | 0 => ([], z)
  | fuel + 1 => if 15 < z then let r := flushRun (z - 15) fuel; ((15, 0) :: r.1, r.2) else ([], z)

/-- The canonical tokens of one vector of element bytes (R266), z zeros pending. -/
def vectorTokens : List Nat → Nat → List (Nat × Nat)
  | [], z =>
    let r := flushRun z (z + 1)
    r.1 ++ (if r.2 > 0 then [(r.2 - 1, 0)] else [])
  | e :: es, z =>
    if e = 0 then vectorTokens es (z + 1)
    else
      let r := flushRun z (z + 1)
      r.1 ++ (r.2, e) :: vectorTokens es 0

/-- A list cut into vectors of n. -/
def chunksOf {α : Type} (n : Nat) : Nat → List α → List (List α)
  | 0, _ => []
  | _, [] => []
  | fuel + 1, l => l.take n :: chunksOf n fuel (l.drop n)

def vectors {α : Type} (n : Nat) (l : List α) : List (List α) := chunksOf n (l.length + 1) l

/-- The canonical tokens of a row segment. -/
def rowTokens (es : List Nat) : List (Nat × Nat) := (vectors 32 es).flatMap (fun v => vectorTokens v 0)

/-- A token word (R264). -/
def tokenWord (t : Nat × Nat) : Nat := t.1 % 16 + t.2 % 256 * 16

/-- The 12-bit stream as one number. -/
def tokenStream (ts : List (Nat × Nat)) : Nat := ts.foldr (fun t n => tokenWord t + 2 ^ 12 * n) 0

/-- Token t of a stream. -/
def tokenAt (v t : Nat) : Nat × Nat := (bits v (12 * t) 4, bits v (12 * t + 4) 8)

/-- A metadata or ZRC fault (R259, R273): the event, the counter, and on the STE the last-fault registers, with the offset of
the word that failed. off: what the event and the reply carry. -/
def metaFault {α : Type} (x : OpCtx) (check channel operand off word : Nat) : M α := do
  onD (fun D =>
    let D := D.event { cls := 5, code := 0x04, island := 3 + x.core, inst := some x.task.inst, loc := off,
                       ident := x.op.idx, status := Status.faultMetadata.code, cause := check }
    if x.eng = 2 then
      let D := D.count x.block STE_META_FAULTS
      let D := D.setReg x.block STE_META_LAST
        (check + opCode x.op.word * 2 ^ 8 + (channel % 64) * 2 ^ 16 + operand * 2 ^ 24)
      D.setReg x.block STE_META_LAST_OFFSET (word % 2 ^ 32)
    else D)
  throw { status := .faultMetadata, loc := off, clean := check ≤ 8 }

/-- Read a ZRC row and check it (R273): its elements, and which vectors its map marks zero. -/
def readZrcRow (x : OpCtx) (t : Tensor) (r : Nat) : M (List Int × List Bool) := do
  let L := t.size 0
  let off := t.rowOff r
  let cnt ← winRead x t.win off 2
  let T := leNat cnt
  let nb := min ((3 * T + 1) / 2) (t.rowBytes - 2)
  let body ← winRead x t.win (off + 2) nb
  let toks := (List.range T).map (tokenAt (leNat body))
  let es := expandTokens toks
  if L < es.length then metaFault x 9 0 2 off off
  else if es.length < L then metaFault x 10 0 2 off off
  else do
    let mp ← winRead x t.auxWin (t.auxOff + t.mapRow * r) t.mapRow
    let zs := (vectors 32 es).map (fun v => v.all (· == 0))
    let marks := (List.range zs.length).map (fun j => bit (leNat mp) j)
    match (List.range zs.length).find? (fun j => marks.getD j false != zs.getD j false) with
    | some j => metaFault x 11 0 3 off (t.auxOff + t.mapRow * r + 4 * (j / 32))
    | none => pure (es.map (fun e => ofBits e t.vtype), zs)

/-- Read a dense row. -/
def readDenseRow (x : OpCtx) (t : Tensor) (r : Nat) : M (List Int) := do
  let b ← winRead x t.win (t.rowOff r) t.rowBytes
  pure (rowElems t.vtype (t.size 0) b)

/-- Write a dense row. -/
def writeDenseRow (x : OpCtx) (t : Tensor) (r : Nat) (es : List Int) : M Unit :=
  winWrite x t.win (t.rowOff r) (packRow t.vtype es)

/-- Set bits [lo, lo + n) of a map row (R268): at the start of a row the other bits of the bytes written are 0; an
append keeps them. -/
def writeMapBits (x : OpCtx) (t : Tensor) (r lo : Nat) (zs : List Bool) : M Unit := do
  let base := t.auxOff + t.mapRow * r
  let b0 := lo / 8
  let b1 := (lo + zs.length + 7) / 8
  let v := zs.foldr (fun b n => b2n b + 2 * n) 0
  let old ← if lo = 0 then pure (List.replicate (b1 - b0) (0 : Byte)) else winRead x t.auxWin (base + b0) (b1 - b0)
  winWrite x t.auxWin (base + b0) (toLE (b1 - b0) (putBits (leNat old) (lo % 8) zs.length v))

/-- The zero-run compress stage on one row segment from element e0 (R268). -/
def writeZrcRow (x : OpCtx) (t : Tensor) (r e0 : Nat) (es : List Int) : M Unit := do
  let bytes := es.map (fun e => toBits e t.vtype)
  let ts := rowTokens bytes
  let off := t.rowOff r
  let zs := (vectors 32 bytes).map (fun v => v.all (· == 0))
  let T0 ← if e0 = 0 then pure 0 else (do let b ← winRead x t.win off 2; pure (leNat b))
  let lead ← if T0 % 2 = 1 then (do let b ← winRead x t.win (off + 2 + 12 * T0 / 8) 1; pure (leNat b % 16)) else pure 0
  let stream := if T0 % 2 = 1 then lead + 16 * tokenStream ts else tokenStream ts
  let nbits := 12 * ts.length + (if T0 % 2 = 1 then 4 else 0)
  winWrite x t.win (off + 2 + 12 * T0 / 8) (toLE ((nbits + 7) / 8) stream)
  winWrite x t.win off (toLE 2 (T0 + ts.length))
  writeMapBits x t r (e0 / 32) zs

/-! ## Chain buffers (R299-R302) -/

def Core.chainBuf (k : Core) (n : Nat) : ChainBuf := if n = 0 then k.buf0 else k.buf1
def Core.setChainBuf (k : Core) (n : Nat) (b : ChainBuf) : Core :=
  if n = 0 then { k with buf0 := b } else { k with buf1 := b }

/-- Bytes of a chain-buffer row: whole lines. -/
def chainRowBytes (t : VType) (cols : Nat) : Nat := (cols * (t.width / 8) + 63) / 64 * 64

/-- Is the op's input buffer filled by its producer? -/
def DieState.chainReady (D : DieState) (x : OpCtx) : Bool :=
  match x.op.inBuf with
  | some b => ((D.core x.core).chainBuf b).ready
  | none => true

/-- A parity error in a weight slot, an accumulator, a chain buffer or SEL memory (R211, R303, R315). -/
def internalFault {α : Type} (x : OpCtx) (chain : Bool) : M α := do
  onD (fun D =>
    let D := D.event { cls := 4, code := 0x05, island := 3 + x.core, inst := some x.task.inst, ident := x.task.id,
                       status := Status.faultInternal.code }
    if chain then D.count32 (coreBlock x.core 4) VU_CHAIN_PARITY else D)
  throw { status := .faultInternal }

/-- The bytes that the consumer of a buffer reads, and those whose parity is bad: an op that writes the same buffer reads what
stood there before its first row (R300). -/
def ChainBuf.input (b : ChainBuf) (same : Bool) : List Byte × List Nat := if same then (b.old, b.oldBad) else (b.bytes, b.bad)

/-- The elements of row r of the input chain buffer, and which of its vectors are zero (R301); a parity error fails the consumer
(R303). -/
def readChainRow (x : OpCtx) (t : Tensor) (b r : Nat) : M (List Int × List Bool) := do
  let D ← get
  let buf := ((D.core x.core).chainBuf b).input (x.op.inBuf == x.op.outBuf)
  let rb := chainRowBytes t.vtype (t.size 0)
  if buf.2.any (fun n => rb * r ≤ n && n < rb * r + rb) then internalFault x true
  else do
    let es := rowElems t.vtype (t.size 0) ((buf.1.drop (rb * r)).take rb)
    pure (es, (vectors 32 es).map (fun v => v.all (· == 0)))

/-- An upset of a byte of the op's input chain buffer. -/
def upsetChain (x : OpCtx) (u : Upset) : M Unit :=
  match u, x.op.inBuf with
  | .chain n, some b => onD (fun D => D.onCore x.core (fun k =>
      let buf := k.chainBuf b
      k.setChainBuf b (if n < buf.bytes.length then { buf with bad := n :: buf.bad } else buf)))
  | _, _ => pure ()

/-- Row r of operand A: from a chain buffer, zero-run or dense. The list of zero vectors is empty where none is
skipped. -/
def readA (x : OpCtx) (t : Tensor) (r : Nat) : M (List Int × List Bool) :=
  match x.op.inBuf with
  | some b => readChainRow x t b r
  | none =>
    if t.comp = 1 then do
      if x.eng = 2 then onD (fun D => D.count x.block STE_ZRC_ROWS)
      readZrcRow x t r
    else do
      let es ← readDenseRow x t r
      pure (es, [])

/-- The consumer's descriptor must match what its producer wrote (R302). -/
def checkChainIn (x : OpCtx) (a : Tensor) : M Unit := do
  match x.op.inBuf with
  | none => pure ()
  | some b =>
    let D ← get
    let buf := (D.core x.core).chainBuf b
    guardS (a.comp == 0 && buf.vtype == bits (field x.op.da 1 1) 0 4 && buf.cols == a.size 0 && buf.rows == a.size 1
      && a.size 2 == 1 && a.size 3 == 1) .faultFormat

/-- An action for each of 0 to n - 1, in order. -/
def forUpTo (n : Nat) (f : Nat → M Unit) : M Unit := (List.range n).foldlM (fun _ m => f m) ()

end Sys2Proof.Machine
end

