-- ==== Sys2Proof/Machine/Chain.lean ====
section
/-! DEFINITION. Chain programs (R282-R294): reading and checking them, the stages, and the writing of output rows. -/

namespace Sys2Proof.Machine

/-- A stage as its 16 bytes give it (R284), its data read from the store. -/
structure Stage where
  kind : Nat
  outCode : Nat
  mode : RMode
  perCh : Bool
  win : Nat
  off : Nat
  raw : List Byte
  data : List Int := []
  sub : Option Tensor := none

def stageOf (b : List Byte) : Stage :=
  { kind := field b 0 1, outCode := bits (field b 1 1) 0 4, mode := RMode.ofCode (bits (field b 2 1) 0 2),
    perCh := bit (field b 2 1) 2, win := field b 3 1, off := field b 4 4, raw := b }

def Stage.isPrologue (s : Stage) : Bool := s.kind == 0x10 || s.kind == 0x11
def Stage.outT (s : Stage) : VType := (VType.ofCode s.outCode).getD .i32
def Stage.lo (s : Stage) : Int := sext 32 (field s.raw 8 4)
def Stage.hi (s : Stage) : Int := sext 32 (field s.raw 12 4)

/-- Fields of a stage in their places (R284, R285, R294). -/
def Stage.fieldsOk (s : Stage) : Bool :=
  (1 ≤ s.kind && s.kind ≤ 8 || s.kind == 0x10 || s.kind == 0x11)
  && (if s.kind = 0x10 then
        1 ≤ field s.raw 1 2 && field s.raw 1 2 ≤ 1024 && s.win < 8 && s.off % 64 == 0
      else
        field s.raw 1 1 < 16 && field s.raw 2 1 < 8
        && (if s.kind = 0x11 then s.win < 16 && zeros s.raw 12 4 else s.win < 8)
        && (s.isPrologue || (VType.ofCode s.outCode).isSome)
        && (s.kind != 0x05 || field s.raw 10 1 < 32))

/-- In and out types a stage lists (R285). -/
def Stage.typesOk (s : Stage) (inT : VType) : Bool :=
  let o := s.outT
  let acc (t : VType) : Bool := t == .i32 || t == .i48 || t == .i64
  let byte (t : VType) : Bool := t == .i8 || t == .u8
  match s.kind with
  | 0x01 => (inT == .i32 || inT == .i64) && (o == .i32 || o == .i64)
  | 0x02 => acc inT && o.storable && o != .i64
  | 0x03 => byte inT && (byte o || o == .i16)
  | 0x04 => s.lo ≤ s.hi && Sys2Proof.Machine.inT s.lo o && Sys2Proof.Machine.inT s.hi o
  | 0x05 => inT != .i64 && (o == .i8 || o == .i16 || o == .i32 || o == .u8 || o == .u16 || o == .u32)
  | 0x06 => acc inT && o.storable && o != .i64
  | 0x07 => byte inT && o == inT
  | 0x08 => inT == .i32 && o == .i32
  | _ => true

/-- Order rules of R286. -/
def orderOk (ss : List Stage) : Bool :=
  let epi := ss.dropWhile (·.isPrologue)
  epi.all (fun s => !s.isPrologue)
  && (ss.filter (fun s => s.kind == 0x10)).length ≤ 1 && (ss.filter (fun s => s.kind == 0x11)).length ≤ 1
  && (ss.filter (fun s => s.kind == 0x03)).length ≤ 2
  && (epi.dropLast).all (fun s => s.kind != 0x07 && s.kind != 0x08)

/-- The types through the epilogue, from the first in type; none: a stage refuses its in type. -/
def typesThrough : List Stage → VType → Option VType
  | [], t => some t
  | s :: ss, t => if s.typesOk t then typesThrough ss s.outT else none

/-- Read the stages of an op's program (R282-R284); none: the op has no chain. -/
def readProgram (x : OpCtx) : M (Option (List Stage)) := do
  let i := opChain x.op.word
  if i = 0xFFFF then pure none
  else do
    let d := x.task.desc
    guardS (tdChainWindow d != 0xFF && 64 * i + 16 ≤ tdChainSize d) .faultFormat
    let base := tdChainOffset d + 64 * i
    let h ← winRead x (tdChainWindow d) base 16
    let n := field h 1 1
    guardS (field h 0 1 == 1 && 1 ≤ n && n ≤ 8 && zeros h 2 14) .faultFormat
    guardS (64 * i + 16 + 16 * n ≤ tdChainSize d) .faultFormat
    let b ← winRead x (tdChainWindow d) (base + 16) (16 * n)
    let ss := (List.range n).map (fun k => stageOf ((b.drop (16 * k)).take 16))
    guardS (ss.all (·.fieldsOk) && orderOk ss) .faultFormat
    pure (some ss)

/-- Signed or unsigned words of n bytes. -/
def wordsOf (n : Nat) (signed : Bool) (b : List Byte) : List Int :=
  (List.range (b.length / n)).map (fun k =>
    let v := field b (n * k) n
    if signed then sext (8 * n) v else (v : Int))

/-- Load the data of a stage (R285, R288, R292): nch channels, an output of cols columns and rows rows, inner of them
along dimension 1. -/
def loadStage (x : OpCtx) (nch cols inner rows : Nat) (s : Stage) : M Stage := do
  match s.kind with
  | 0x01 =>
    if s.perCh then do
      let b ← winRead x s.win s.off (4 * nch)
      pure { s with data := wordsOf 4 true b }
    else pure { s with data := [sext 32 (field s.raw 8 4)] }
  | 0x02 =>
    let b ← if s.perCh then winRead x s.win s.off (4 * nch) else pure ((s.raw.drop 8).take 4)
    let ws := wordsOf 4 false b
    guardS (ws.all (fun w => scaleOk w.toNat)) .faultFormat
    pure { s with data := ws }
  | 0x03 =>
    let n := if s.outT = .i16 then 2 else 1
    let b ← winRead x s.win s.off (256 * n)
    pure { s with data := wordsOf n s.outT.signed b }
  | 0x05 =>
    let t ← namedDesc x (field s.raw 8 2)
    guardS (t.comp == 0 && (t.vtype == .i8 || t.vtype == .u8 || t.vtype == .i16 || t.vtype == .i32)
      && t.size 0 == cols && t.size 1 == inner) .faultFormat
    checkExtent x t rRead nch cols
    pure { s with sub := some t }
  | 0x06 =>
    let b ← if s.perCh then winRead x s.win s.off nch else pure ((s.raw.drop 8).take 1)
    pure { s with data := wordsOf 1 true b }
  | 0x08 =>
    let t ← namedDesc x (field s.raw 8 2)
    guardS (t.comp == 0 && t.vtype == .u32 && rows ≤ t.size 0) .faultFormat
    checkExtent x t rRead nch cols
    pure { s with sub := some t }
  | _ => pure s

/-- Does a list hold a stage of a kind? -/
def hasKind (ss : List Stage) (k : Nat) : Bool := ss.any (fun s => s.kind == k)

/-- What an op does with its output rows. -/
structure Drain where
  out : Tensor
  /-- leave the sums in accumulator memory (R214) -/
  hold : Bool
  /-- the chain buffer written in place of the window (R299) -/
  buf : Option Nat
  /-- epilogue stages with their data -/
  stages : List Stage
  /-- the gather stage (R294) -/
  gather : Option Stage
  /-- columns and rows the op produces -/
  cols : Nat
  rows : Nat

/-- Does the stage hold data per channel (R285)? -/
def Stage.perChannel (s : Stage) : Bool := s.perCh && (s.kind == 0x01 || s.kind == 0x02 || s.kind == 0x06)

/-- Check the output descriptor and the program of an op, and load the stages (R267, R271, R287, R299, R302).
first: the first in type; nch: channels; maxCh: their limit; conv: the op is a CONV.G. -/
def prepareDrain (x : OpCtx) (out : Tensor) (hold : Bool) (first : VType) (plain : VType → Bool)
    (cols rows nch maxCh : Nat) (conv : Bool) : M Drain := do
  let prog ← readProgram x
  let ss := prog.getD []
  let epi := ss.filter (fun s => !s.isPrologue)
  let buf := x.op.outBuf
  guardS (hasKind ss 0x10 == conv) .faultFormat
  match typesThrough epi first with
  | none => failWith .faultFormat
  | some t =>
    guardS (hold || (if epi.isEmpty then plain out.vtype else out.vtype == t)) .faultFormat
    guardS (nch ≤ maxCh || epi.all (fun s => !s.perChannel)) .faultFormat
    guardS (hold || (out.comp == 1) == hasKind epi 0x07) .faultFormat
    guardS (out.comp ≤ 1) .faultFormat
    guardS (!(out.comp == 1 && (out.vtype == .i32 || out.vtype == .i64 || out.accum))) .faultFormat
    if hasKind epi 0x07 then
      let e0 := match epi.getLast? with | some s => field s.raw 8 4 | none => 0
      guardS (e0 % 32 == 0 && e0 + cols ≤ out.size 0 && (cols % 32 == 0 || e0 + cols == out.size 0)
        && out.rows == rows) .faultFormat
    else if hasKind epi 0x08 then
      guardS (out.size 0 == cols && (x.window out.win).kind == 0) .faultFormat
    else guardS (out.size 0 == cols && out.rows == rows) .faultFormat
    if buf.isSome then
      guardS (out.comp == 0 && (out.vtype == .i8 || out.vtype == .u8 || out.vtype == .i16 || out.vtype == .i32)
        && !(hasKind epi 0x07) && !(hasKind epi 0x08)
        && out.size 1 * chainRowBytes out.vtype cols ≤ 65536) .faultFormat
    if !hold && buf.isNone then checkExtent x out rWrite nch 0
    let st ← epi.mapM (loadStage x nch cols (if hasKind epi 0x08 then rows else out.size 1) rows)
    pure { out := out, hold := hold, buf := buf, stages := st, gather := ss.find? (fun s => s.kind == 0x10),
           cols := cols, rows := rows }

/-- An op whose only stage may be a seal gate, and that has no chain buffers (R282, R299). -/
def gateOnly (x : OpCtx) : M Unit := do
  let prog ← readProgram x
  guardS ((prog.getD []).all (fun s => s.kind == 0x11) && x.op.inBuf.isNone && x.op.outBuf.isNone) .faultFormat

/-! ## Stages on an element (R285, R289) -/

/-- What one stage makes of a value: the result and whether it saturated. ch: channel; r: the second stream's
element; draw: the lane's present state. -/
def Stage.apply (s : Stage) (ch : Nat) (r : Int) (draw : Nat) (inT : VType) (v : Int) : Int × Bool :=
  let d := s.data.getD (if s.perCh then ch else 0) 0
  let satR (y : Int) : Int × Bool := (satT y s.outT, !(Sys2Proof.Machine.inT y s.outT))
  match s.kind with
  | 0x01 => satR (v + d)
  | 0x02 => requant v d.toNat s.mode s.outT draw
  | 0x03 => (s.data.getD ((if inT = .i8 then v + 128 else v).toNat) 0, false)
  | 0x04 => (min (max v s.lo) s.hi, false)
  | 0x05 => satR (v + shl r (field s.raw 10 1))
  | 0x06 => satR (rndShift v d s.mode draw)
  | _ => (v, false)

/-- Does the stage draw from the generators (R59, R289)? -/
def Stage.draws (s : Stage) : Bool := (s.kind == 0x02 || s.kind == 0x06) && s.mode == .sto

/-- Elements being drained: the value, its type, the lanes and the saturations so far. -/
structure Flow where
  v : Int
  t : VType
  lanes : List Nat
  sats : Nat

/-- An element of channel ch and column j passes the stages, drawing from lane j mod 64 (R61, R289; log entry 29); res: the second
streams' elements, one per stage. -/
def passStages (ch j : Nat) : List Stage → List Int → Flow → Flow
  | [], _, f => f
  | s :: ss, res, f =>
    let r := s.apply ch (res.headD 0) (laneDraw f.lanes j) f.t f.v
    passStages ch j ss res.tail
      { v := r.1, t := s.outT, lanes := if s.draws then laneStep f.lanes j else f.lanes,
        sats := f.sats + b2n r.2 }

/-- A row of values passes the stages, in column order. chOf: channel of a column. res: the second streams' rows. -/
def passRow (ss : List Stage) (first : VType) (chOf : Nat → Nat) (res : List (List Int)) :
    Nat → List Int → List Nat → Nat → List Int × List Nat × Nat
  | _, [], lanes, n => ([], lanes, n)
  | j, v :: vs, lanes, n =>
    let f := passStages (chOf j) j ss (res.map (fun r => r.getD j 0)) { v := v, t := first, lanes := lanes, sats := n }
    let rest := passRow ss first chOf res (j + 1) vs f.lanes f.sats
    (f.v :: rest.1, rest.2.1, rest.2.2)

/-- The second streams' rows for output row m: element (n, m) joins element (n, m) of the output. Of a stream with fewer rows beyond
dimension 1 than the output, its first such rows serve again (R292, log entry 30). -/
def residualRows (x : OpCtx) (ss : List Stage) (m : Nat) : M (List (List Int)) :=
  ss.mapM (fun s => match s.kind, s.sub with
    | 0x05, some t => readDenseRow x t (m % t.rows)
    | _, _ => pure [])

/-- Scatter-add of a row (R293). -/
def scatterRow (x : OpCtx) (out idx : Tensor) (m : Nat) (es : List Int) : M Unit := do
  let b ← winRead x idx.win (idx.off + 4 * m) 4
  let r := leNat b
  if r = 0xFFFFFFFF then pure ()
  else if out.rows ≤ r then do
    let before ← winRead x idx.win idx.off (4 * m)
    onD (fun D => D.boundary x.cluster x.port)
    throw { status := .faultBounds, loc := out.off + r * out.strides.getD 0 0, cause := out.win,
            kept := (List.range m).map (fun j => field before (4 * j) 4) }
  else do
    let old ← readDenseRow x out r
    writeDenseRow x out r ((old.zip es).map (fun p => wrap32 (p.1 + p.2)))

/-- A row of bytes into a chain buffer (R301), of 64 KiB: what a producer writes past its end is not kept (log entry 168). -/
def ChainBuf.append (b : ChainBuf) (row : List Byte) : ChainBuf :=
  if b.bytes.length + row.length ≤ 65536 then { b with bytes := b.bytes ++ row } else b

/-- One output row to its place (R226, R227, R267, R293, R301). -/
def emitRow (x : OpCtx) (dr : Drain) (m : Nat) (es : List Int) : M Unit :=
  match dr.buf with
  | some b => onD (fun D => D.onCore x.core (fun k => k.setChainBuf b
      ((k.chainBuf b).append (padTo (chainRowBytes dr.out.vtype dr.cols) (packRow dr.out.vtype es)))))
  | none =>
    match dr.stages.getLast? with
    | some s =>
      if s.kind = 0x07 then writeZrcRow x dr.out m (field s.raw 8 4) es
      else if s.kind = 0x08 then
        match s.sub with
        | some idx => scatterRow x dr.out idx m es
        | none => pure ()
      else writeDenseRow x dr.out m es
    | none => writeDenseRow x dr.out m es

/-- The generator lanes of the op's engine. -/
def engineLanes (x : OpCtx) : M (List Nat) := do
  let D ← get
  pure ((D.core x.core).engine x.eng).lanes

/-- The producer takes its output buffer, empty but for what the same op still reads of it (R299, R300, R302). -/
def openBuf (x : OpCtx) (dr : Drain) : M Unit :=
  match dr.buf with
  | some b => onD (fun D => D.onCore x.core (fun k =>
      let buf := k.chainBuf b
      k.setChainBuf b { buf with ready := false, vtype := bits (field x.op.dout 1 1) 0 4, cols := dr.cols, rows := dr.out.size 1,
                                 old := buf.bytes, oldBad := buf.bad, bytes := [], bad := [] }))
  | none => pure ()

/-- The producer's rows stand in its output buffer. -/
def closeBuf (x : OpCtx) (dr : Drain) : M Unit :=
  match dr.buf with
  | some b => onD (fun D => D.onCore x.core (fun k =>
      k.setChainBuf b { k.chainBuf b with ready := true, old := [], oldBad := [] }))
  | none => pure ()

/-- The saturation counter of an engine. -/
def satCounter (e : Nat) : Nat :=
  match e with
  | 1 => DTE_SAT_COUNT | 2 => STE_SAT_COUNT | 3 => MVP_SAT_COUNT | _ => VU_SAT_COUNT

/-- Note in the op's entry in flight that a result of it has wrapped, or has saturated (R49, R57, R200). -/
def markOp (x : OpCtx) (wrap sat : Bool) : M Unit :=
  if wrap || sat then onD (fun D => D.onEngine x.core x.eng (fun g => { g with run := g.run.map (fun r =>
    if r.op.ord = x.op.ord then { r with wrap := r.wrap || wrap, sat := r.sat || sat } else r) }))
  else pure ()

/-- Count an op's saturated elements as they pass (R57, R291). -/
def countSats (x : OpCtx) (n : Nat) : M Unit :=
  if n = 0 then pure ()
  else do
    onD (fun D => D.count32 x.block (satCounter x.eng) n)
    markOp x false true

/-- Drain one row of values through the epilogue (R226, R291). -/
def drainRow (x : OpCtx) (dr : Drain) (first : VType) (chOf : Nat → Nat) (m : Nat) (vs : List Int) : M Unit :=
  if dr.hold then pure ()
  else do
    let res ← residualRows x dr.stages m
    let lanes ← engineLanes x
    let r := passRow dr.stages first chOf res 0 vs lanes 0
    let out := r.1.map (fun v => satT v dr.out.vtype)
    let extra := if dr.stages.isEmpty then (r.1.filter (fun v => !(inT v dr.out.vtype))).length else 0
    onD (fun D => D.onEngine x.core x.eng (fun e => { e with lanes := r.2.1 }))
    countSats x (r.2.2 + extra)
    emitRow x dr m out

/-- Drain every row, in row order. -/
def drainRows (x : OpCtx) (dr : Drain) (first : VType) (chOf : Nat → Nat → Nat) (rows : Nat → M (List Int)) : M Unit := do
  if dr.hold then pure ()
  else do
    openBuf x dr
    forUpTo dr.rows (fun m => do
      let vs ← rows m
      drainRow x dr first (chOf m) m vs)
    closeBuf x dr

end Sys2Proof.Machine
end

