-- ==== Sys2Proof/Machine/LaneRow.lean ====
section
/-! DEFINITION. What the dense and the sparse tile engine share: the products of a lane row (R208-R231), gathered
rows (R223), 2:4 weights and their checks (R248-R258). -/

namespace Sys2Proof.Machine

/-! ## Products -/

/-- Exact product sum of two lists (R47). -/
def dot : List Int → List Int → Int
  | a :: as, w :: ws => a * w + dot as ws
  | _, _ => 0

/-- Tree sums, one per chunk of so many blocks of 32; each block sum is shifted by its block shift (R53, R210). -/
def chunkSums (blocks : Nat) (sh : List Nat) (as ws : List Int) : List Int :=
  let bs := (vectors 32 as).zip (vectors 32 ws)
  let sums := (List.range bs.length).map (fun k => match bs[k]? with
    | some p => shl (dot p.1 p.2) (sh.getD k 0)
    | none => 0)
  (vectors blocks sums).map (·.sum)

/-- Add to an accumulator of 32 or 64 bits: the value, and whether the exact sum left the range (R48, R49, R65). -/
def accAdd (wide : Bool) (a s : Int) : Int × Bool :=
  if wide then (wrap64 (a + s), !(inT (a + s) .i64)) else (wrap32 (a + s), !(inT (a + s) .i32))

/-- Add the chunk sums in order. -/
def accAll (wide : Bool) (a : Int) (ss : List Int) : Int × Bool :=
  ss.foldl (fun r s => let x := accAdd wide r.1 s; (x.1, r.2 || x.2)) (a, false)

/-- A pass of a row: what it takes from A's row and from the weights, its weight, and the plane of accumulators it
adds into (R64, R66). -/
structure Pass where
  fromA : List Int → List Int
  fromW : List Int → List Int
  shift : Nat
  plane : Nat

/-- How an op multiplies. -/
structure Kernel where
  /-- blocks of 32 per chunk: 1, or 2 in int4 mode -/
  blocks : Nat
  passes : List Pass
  /-- planes of accumulators per row and rows of I32 a plane takes -/
  planes : Nat
  wide : Bool
  /-- what the slots of one chunk hold, of a channel's weights (R219, R225) -/
  parts : List (List Int → List Int) := [id]

/-- Accumulator rows an output row takes (R215). -/
def Kernel.width (k : Kernel) : Nat := if k.wide then 2 else k.planes

def evens {α : Type} : List α → List α
  | a :: _ :: t => a :: evens t
  | [a] => [a]
  | [] => []
def odds {α : Type} : List α → List α
  | _ :: b :: t => b :: odds t
  | _ => []

def plainKernel (blocks : Nat) : Kernel :=
  { blocks := blocks, passes := [{ fromA := id, fromW := id, shift := 0, plane := 0 }], planes := 1, wide := false }

/-- MUL.W16 of a kind (R64, R66, R225). -/
def mulKernel (kind : Nat) : Kernel :=
  let lo (l : List Int) := l.map lowByte
  let hi (l : List Int) := l.map highByte
  match kind with
  | 0 => { blocks := 1, planes := 1, wide := true,
           passes := [{ fromA := lo, fromW := id, shift := 0, plane := 0 },
                      { fromA := hi, fromW := id, shift := 8, plane := 0 }] }
  | 1 => { blocks := 1, planes := 1, wide := true, parts := [lo, hi],
           passes := [{ fromA := lo, fromW := lo, shift := 0, plane := 0 },
                      { fromA := lo, fromW := hi, shift := 8, plane := 0 },
                      { fromA := hi, fromW := lo, shift := 8, plane := 0 },
                      { fromA := hi, fromW := hi, shift := 16, plane := 0 }] }
  | _ => { blocks := 1, planes := 4, wide := false, parts := [evens, odds],
           passes := [{ fromA := evens, fromW := evens, shift := 0, plane := 0 },
                      { fromA := odds, fromW := odds, shift := 0, plane := 1 },
                      { fromA := evens, fromW := odds, shift := 0, plane := 2 },
                      { fromA := odds, fromW := evens, shift := 0, plane := 3 }] }

/-- One row of A against one channel: the channel's sum in each plane, and the wrap flag. Chunks in ascending order, the passes in
order inside each chunk (R221). -/
def laneSum (k : Kernel) (sh : List Nat) (as ws : List Int) (acc : List Int) : List Int × Bool :=
  let ps := k.passes.map (fun p => (p.plane, (chunkSums k.blocks sh (p.fromA as) (p.fromW ws)).map (fun s => shl s p.shift)))
  let chunks := match ps with | p :: _ => p.2.length | [] => 0
  (List.range chunks).foldl (fun st j => ps.foldl (fun (st : List Int × Bool) p =>
    let r := accAdd k.wide (st.1.getD p.1 0) (p.2.getD j 0)
    (st.1.set p.1 r.1, st.2 || r.2)) st) (acc, false)

/-- One row of A against every channel: planes of sums, and the wrap flag. sh: block shifts per channel. -/
def rowProduct (k : Kernel) (sh : List (List Nat)) (ws : List (List Int)) (as : List Int) (acc : List (List Int)) :
    List (List Int) × Bool :=
  let rs := (List.range ws.length).map (fun n =>
    laneSum k (sh.getD n []) as (ws.getD n []) (acc.map (fun plane => plane.getD n 0)))
  ((List.range acc.length).map (fun p => rs.map (fun r => r.1.getD p 0)), rs.any (·.2))

/-! ## Accumulator memory (R211, R46) -/

/-- Planes of an output row as the accumulator memory holds them. -/
def loadAcc (e : Engine) (k : Kernel) (base m n : Nat) : List (List Int) :=
  let cell (r l : Nat) : Int := tabGet 0 e.acc (64 * r + l)
  if k.wide then
    [(List.range n).map (fun l => shl (cell (base + 2 * m + 1) l) 32 + cell (base + 2 * m) l % ((2 ^ 32 : Nat) : Int))]
  else (List.range k.planes).map (fun p => (List.range n).map (fun l => cell (base + k.planes * m + p) l))

/-- Put a row of 64 lanes. -/
def putAccRow (e : Engine) (r : Nat) (vs : List Int) : Engine :=
  { e with acc := (List.range vs.length).foldl (fun t l => tabSet 0 (64 * r + l) (vs.getD l 0) t) e.acc }

def storeAcc (e : Engine) (k : Kernel) (base m : Nat) (planes : List (List Int)) : Engine :=
  if k.wide then
    let vs := planes.getD 0 []
    putAccRow (putAccRow e (base + 2 * m) (vs.map wrap32)) (base + 2 * m + 1)
      (vs.map (fun v => Int.fdiv v ((2 ^ 32 : Nat) : Int)))
  else (List.range k.planes).foldl (fun e p => putAccRow e (base + k.planes * m + p) (planes.getD p [])) e

/-- Clear accumulator rows. -/
def clearAcc (e : Engine) (base rows : Nat) : Engine :=
  { e with acc := e.acc.filter (fun c => c.1 < 64 * base || 64 * (base + rows) ≤ c.1) }

/-- Accumulator rows of a failed op are undefined, in every lane (R211, R224, R257). -/
def spoilAcc (x : OpCtx) (base rows : Nat) : M Unit :=
  onD (fun D => (List.range rows).foldl (fun D r => (List.range 64).foldl (fun D l =>
    (D.onEngine x.core x.eng (fun e => { e with acc := tabSet 0 (64 * (base + r) + l) (wrap32 D.freeInt) e.acc })).tick)
    D) D)

/-! ## Weights -/

/-- The weights of a matrix: per channel, the elements in dense positions; on the sparse engine also its codes and payload. -/
structure Weights where
  rows : List (List Int)
  codes : List (List Nat) := []
  payload : List (List Int) := []

/-- Dense weights of matrix o: one row per channel. -/
def denseWeights (x : OpCtx) (b : Tensor) (o : Nat) : M Weights := do
  let rows ← (List.range (b.size 1)).mapM (fun n => readDenseRow x b (o * b.size 1 + n))
  pure { rows := rows }

/-- Positions a code names (R249). -/
def codeI0 (c : Nat) : Nat := bits c 0 2
def codeI1 (c : Nat) : Nat := bits c 2 2
def codeOk (c : Nat) : Bool := codeI0 c < codeI1 c

/-- A channel's weights in dense positions, from its codes (one per group) and its payload (R249). -/
def spread : List Nat → List Int → List Int
  | c :: cs, p0 :: p1 :: ps =>
    (List.range 4).map (fun i => if i = codeI0 c then p0 else if i = codeI1 c then p1 else 0) ++ spread cs ps
  | _, _ => []

/-- Values at the coded positions of a dense channel (R261). -/
def gatherCoded : List Nat → List Int → List Int
  | c :: cs, ws => [ws.getD (codeI0 c) 0, ws.getD (codeI1 c) 0] ++ gatherCoded cs (ws.drop 4)
  | [], _ => []

/-- Offset in the aux window of a code word (R250). -/
def codeOff (b : Tensor) (o j n : Nat) : Nat := b.auxOff + b.codeBase + 4 * ((o * b.chunks + j) * b.size 1 + n)

/-- Offset in the aux window of an nz_count word. -/
def nzOff (b : Tensor) (o n : Nat) : Nat := b.auxOff + 16 + 4 * (o * b.size 1 + n)

/-- The header checks 1 to 3 of R256: the transposable flag. -/
def metaHeader (x : OpCtx) (b : Tensor) : M Bool := do
  let h ← winRead x b.auxWin b.auxOff 16
  let bad (check word : Nat) : M Bool := metaFault x check 0 0 (b.auxOff + word) (b.auxOff + word)
  if field h 0 2 ≠ 1 then bad 1 0
  else
    let tr := bit (field h 2 2) 0
    if field h 4 4 ≠ b.size 0 then bad 2 4
    else if field h 8 2 ≠ b.size 1 ∨ field h 10 2 ≠ b.size 2 then bad 2 8
    else if tr = true ∧ b.size 1 % 4 ≠ 0 then bad 2 0
    else if field h 12 4 * 2 ≠ field h 4 4 then bad 3 12
    else pure tr

/-- How often the four channels of a quad name position k of a chunk: codes[n] are the channel's codes there. -/
def namesAt (codes : List (List Nat)) (q k : Nat) : Nat :=
  ((List.range 4).filter (fun i =>
    let c := (codes.getD (4 * q + i) []).getD (k / 4) 0
    codeI0 c == k % 4 || codeI1 c == k % 4)).length

/-- The codes of a matrix, per channel, checked with 4 and, where the flag says so, 6 (R256). -/
def readCodes (x : OpCtx) (b : Tensor) (o : Nat) (tr : Bool) : M (List (List Nat)) := do
  let N := b.size 1
  let parts ← (List.range b.chunks).mapM (fun j => do
    let groups := min 8 (b.size 0 / 4 - 8 * j)
    let words ← winRead x b.auxWin (codeOff b o j 0) (4 * N)
    let codes := (List.range N).map (fun n => (List.range groups).map (fun g => bits (field words (4 * n) 4) (4 * g) 4))
    match (List.range N).find? (fun n => !((codes.getD n []).all codeOk)) with
    | some n => metaFault x 4 n 0 (codeOff b o j n) (codeOff b o j n)
    | none =>
      match if tr then (List.range (N / 4)).find? (fun q => !((List.range (4 * groups)).all (fun k =>
          namesAt codes q k == 2))) else none with
      | some q => metaFault x 6 (4 * q) 0 (codeOff b o j (4 * q)) (codeOff b o j (4 * q))
      | none => pure codes)
  pure ((List.range N).map (fun n => parts.flatMap (fun cs => cs.getD n [])))

/-- Payload of channel n of matrix o. -/
def readPayload (x : OpCtx) (b : Tensor) (o n : Nat) : M (List Int) := do
  let bs ← winRead x b.win (b.rowOff (o * b.size 1 + n)) (b.size 0 / 2)
  pure (rowElems b.vtype (b.size 0 / 2) bs)

/-- Non-zero values of a list. -/
def nonZeros (l : List Int) : Nat := (l.filter (· != 0)).length

/-- Weights of matrix o of a 2:4 tensor, every check made (R256). -/
def sparseWeights (x : OpCtx) (b : Tensor) (tr : Bool) (o : Nat) : M Weights := do
  let codes ← readCodes x b o tr
  let pays ← (List.range (b.size 1)).mapM (fun n => do
    let pay ← readPayload x b o n
    let nz ← winRead x b.auxWin (nzOff b o n) 4
    if nonZeros pay ≠ leNat nz then metaFault x 5 n 0 (nzOff b o n) (nzOff b o n)
    else pure pay)
  pure { rows := (List.range (b.size 1)).map (fun n => spread (codes.getD n []) (pays.getD n [])), codes := codes,
         payload := pays }

/-- Block shifts of every channel (R53): a shift outside 0 to 11 is FAULT_FORMAT. k: reduction length. -/
def blockShifts (x : OpCtx) (b : Tensor) (nch k : Nat) : M (List (List Nat)) := do
  if b.gran ≠ 3 then pure []
  else
    let nb := (k + 31) / 32
    let bs ← winRead x b.scaleWin (b.scaleOff + 4 * nch) (nch * nb)
    let ds := (wordsOf 1 true bs).map (fun v => v - b.bref)
    guardS (ds.all (fun d => 0 ≤ d && d ≤ 11)) .faultFormat
    pure ((List.range nch).map (fun n => ((ds.drop (nb * n)).take nb).map (·.toNat)))

/-! ## The map of a gathered-row op (R136, R223, R294) -/

structure GatherMap where
  tileRows : Nat
  inFirst : Nat
  outFirst : Nat
  /-- pairs (in_row, out_row) per offset -/
  pairs : List (List (Nat × Nat))

/-- Read the map a gather stage names; its offset count must be n. -/
def readMap (x : OpCtx) (s : Stage) (n : Nat) : M GatherMap := do
  let h ← winRead x s.win s.off 64
  guardS (field h 0 1 == 1 && field h 4 2 == n && field h 20 4 == field h 24 4) .faultFormat
  let es ← winRead x s.win (s.off + 64) (16 * n)
  let pairs ← (List.range n).mapM (fun o => do
    let first := field es (16 * o + 4) 4
    let cnt := field es (16 * o + 8) 4
    let b ← winRead x s.win (s.off + 64 + 16 * n + 8 * first) (8 * cnt)
    pure ((List.range cnt).map (fun i => (field b (8 * i) 4, field b (8 * i + 4) 4))))
  pure { tileRows := field s.raw 1 2, inFirst := field s.raw 8 4, outFirst := field s.raw 12 4, pairs := pairs }

/-! ## Broadcast counts (R217, R240) -/

/-- Chunks of a row that are broadcast and that are skipped, for vectors marked zero: a chunk takes so many vectors, and the row has
so many elements. -/
def rowBroadcasts (perChunk elems : Nat) (zs : List Bool) : Nat × Nat :=
  let n := (elems + 32 * perChunk - 1) / (32 * perChunk)
  let skipped := ((vectors perChunk zs).filter (fun c => c.all id)).length
  (n - skipped, skipped)

def countBroadcasts (x : OpCtx) (perChunk elems passes : Nat) (zs : List Bool) : M Unit :=
  let c := rowBroadcasts perChunk elems zs
  onD (fun D => (D.count x.block DTE_BROADCASTS (passes * c.1)).count x.block DTE_ZERO_SKIPS (passes * c.2))

/-! ## Weight slots (R209, R212, R219, R252) -/

/-- The code word of chunk j of a channel (R250); padding nibbles are 0 (log entry 31). -/
def codeWord (codes : List Nat) (j : Nat) : Nat :=
  ((codes.drop (8 * j)).take 8).foldr (fun c n => c + 16 * n) 0

/-- The bytes of a lane's slot: one weight each, or two I4 weights (R209). -/
def slotBytes (blocks : Nat) (ws : List Int) : List Byte :=
  if blocks = 2 then packNibbles (ws.map (wrapN 4)) else ws.map (fun w => BitVec.ofNat 8 (wrapN 8 w))

/-- What the n-th slot load of a matrix puts into its slot: chunk by chunk, and within a chunk part by part (R219, R225). -/
def Weights.slot (w : Weights) (k : Kernel) (sparse : Bool) (n : Nat) : WeightSlot :=
  if sparse then
    { bytes := w.payload.map (fun p => slotBytes 1 ((p.drop (16 * n)).take 16)), codes := w.codes.map (fun c => codeWord c n) }
  else
    let parts := k.parts.length
    let part := k.parts.getD (n % parts) id
    { bytes := w.rows.map (fun r => slotBytes k.blocks (((part r).drop (32 * k.blocks * (n / parts))).take (32 * k.blocks))) }

/-- The slots after an op with matrices of length len has loaded its weights, in rotation from its first slot (R219). -/
def loadSlots (x : OpCtx) (k : Kernel) (sparse : Bool) (len : Nat) (mats : List Weights) : M Unit :=
  let per := (len + 32 * k.blocks - 1) / (32 * k.blocks) * k.parts.length
  let total := per * mats.length
  onD (fun D => D.onEngine x.core x.eng (fun g =>
    let first := match g.run.find? (fun r => r.op.ord == x.op.ord) with | some r => r.slot0 | none => 0
    { g with slots := (List.range (min 4 total)).foldl (fun t i =>
        let n := total - min 4 total + i
        tabSet {} ((first + n) % 4) ((mats.getD (n / per) { rows := [] }).slot k sparse (n % per)) t) g.slots }))

/-- Slots an op of a tile engine needs first, slots it may hold at once, and its slot loads in all (R219, R253); an op that can
pass no check needs none. -/
def slotUse (e : Nat) (op : OpEntry) : Nat × Nat × Nat :=
  let code := opCode op.word
  let K := field op.da 12 4
  let chunk := if 0x10 ≤ code then 64 else 32
  let n := (K + chunk - 1) / chunk
  let kind := bits (opImm op.word) 11 2
  let use : Nat × Nat × Nat := match code % 16 with
    | 1 => (n, n, n)
    | 2 => (1, min 4 n, n)
    | 3 => (n, min 2 (field op.db 20 4) * n, field op.db 20 4 * n)
    | _ => if kind = 0 then (n, n, n) else if kind = 1 then (2 * n, 2 * n, 2 * n)
           else (2 * ((K / 2 + 31) / 32), 2 * ((K / 2 + 31) / 32), 2 * ((K / 2 + 31) / 32))
  if (e ≠ 1 ∧ e ≠ 2) ∨ 0x20 ≤ code ∨ K = 0 ∨ 4 < use.1 then (0, 0, 0) else use

/-- Is slot i loading or computing? -/
def Engine.slotBusy (g : Engine) (i : Nat) : Bool := g.run.any (fun r => r.result.isNone && r.slots.contains i)

/-- The next n slots of the rotation, and whether they are free. -/
def Engine.nextSlots (g : Engine) (n : Nat) : List Nat := (List.range n).map (fun i => (g.nextSlot + i) % 4)
def Engine.slotsFree (g : Engine) (n : Nat) : Bool := n ≤ 4 && (g.nextSlots n).all (fun i => !(g.slotBusy i))

/-- The slots an op takes as it starts: all it may hold at once where they are free, else those it needs first (R219, log entry
169). -/
def Engine.takenSlots (g : Engine) (use : Nat × Nat × Nat) : List Nat :=
  g.nextSlots (if g.slotsFree use.2.1 then use.2.1 else use.1)

/-! ## The whole op -/

/-- What a tile op is. -/
structure LaneOp where
  kernel : Kernel
  gather : Bool
  sparse : Bool
  kMax : Nat
  /-- chunk-outer order (R222) -/
  stream : Bool := false
  /-- the operand types the op takes -/
  aOk : VType → Bool
  bOk : VType → Bool
  first : VType
  kind : Nat

/-- Immediate fields of R214. -/
def immBase (w : Nat) : Nat := bits (opImm w) 0 10
def immHold (w : Nat) : Bool := bit (opImm w) 10
def immKind (w : Nat) : Nat := bits (opImm w) 11 2
def immTop (w : Nat) : Nat := bits (opImm w) 13 19

/-- Planes of an output row as its output values: plain, or the parts of a complex pair (R66, R225). -/
def rowValues (kind2 : Bool) (planes : List (List Int)) : List Int :=
  if kind2 then
    let p (i : Nat) := planes.getD i []
    (List.range (p 0).length).flatMap (fun n =>
      [(p 0).getD n 0 - (p 1).getD n 0, (p 2).getD n 0 + (p 3).getD n 0])
  else planes.getD 0 []

/-- A tile op past its checks: the operand A, the block shifts, the first accumulator row, and the elements of A per channel
element (2 for complex pairs). -/
structure LaneRun where
  op : LaneOp
  a : Tensor
  sh : List (List Nat)
  base : Nat
  per : Nat

/-- Row i of A is broadcast against the weights and added into accumulator row m of the op (R217, R221). -/
def LaneRun.add (x : OpCtx) (R : LaneRun) (ws : List (List Int)) (i m : Nat) : M Unit := do
  let k := R.op.kernel
  let r ← readA x R.a i
  countBroadcasts x (k.blocks * R.per) (R.a.size 0) k.passes.length r.2
  let D ← get
  let p := rowProduct k R.sh ws r.1 (loadAcc ((D.core x.core).engine x.eng) k R.base m ws.length)
  onD (fun D => D.onEngine x.core x.eng (fun e => storeAcc e k R.base m p.1))
  markOp x p.2 false

/-- The gathered pairs of one offset (R223). -/
def LaneRun.addPairs (x : OpCtx) (R : LaneRun) (g : GatherMap) (ws : List (List Int)) (pairs : List (Nat × Nat)) : M Unit :=
  pairs.foldlM (fun _ p =>
    if p.2 < g.outFirst ∨ g.outFirst + g.tileRows ≤ p.2 then pure ()
    else if p.1 < g.inFirst ∨ g.inFirst + R.a.size 1 ≤ p.1 then
      throw { status := .faultBounds, loc := R.a.off + (p.1 - g.inFirst) * R.a.strides.getD 0 0, cause := R.a.win }
    else R.add x ws (p.1 - g.inFirst) (p.2 - g.outFirst)) ()

/-- Row m of the op, complete, passes the drain (R226). -/
def LaneRun.drain (x : OpCtx) (R : LaneRun) (dr : Drain) (n m : Nat) : M Unit := do
  let D ← get
  drainRow x dr R.op.first (fun j => j / R.per) m
    (rowValues (R.per == 2) (loadAcc ((D.core x.core).engine x.eng) R.op.kernel R.base m n))

/-- A zero-run fault at row m of a row-outer op leaves the rows that have drained by then: some of those before it, how many the
spec does not say (R273, log entry 170). -/
def keepDrained (m : Nat) (act : M Unit) : M Unit :=
  tryCatch act (fun f => do
    let D ← get
    onD (fun D => D.tick)
    throw (if f.status = .faultMetadata ∧ f.clean = false then { f with kept := List.range (D.freeNat % (m + 1)) } else f))

/-- The rows of an op without a gather stage: row-outer, each row drained as it completes (R221), or chunk-outer, where no row is
complete before the last chunk (R222). -/
def LaneRun.rows (x : OpCtx) (R : LaneRun) (dr : Drain) (ws : List (List Int)) (rows : Nat) : M Unit :=
  if R.op.stream && 32 * R.op.kernel.blocks < R.a.size 0 then do
    forUpTo rows (fun m => R.add x ws m m)
    forUpTo rows (fun m => R.drain x dr ws.length m)
  else forUpTo rows (fun m => do
    keepDrained m (R.add x ws m m)
    R.drain x dr ws.length m)

/-- A tile op of the DTE or the STE, from its checks to its last row (R215, R255). upset: a parity error during the op (R211, R303).
The shifts of granularity 3 are the weight operand's (R53): on the activation operand alone they are only checked for their extent
(DESIGN CHOICE, log entry 171). -/
def laneOp (x : OpCtx) (op : LaneOp) (upset : Upset) : M OpResult := do
  let w := x.op.word
  let a ← parseTensor x.op.da (x.op.inBuf.isNone)
  let b ← parseTensor x.op.db true
  let hold := immHold w
  let out ← parseTensor x.op.dout (!hold && x.op.outBuf.isNone)
  let per := if op.kind = 2 ∧ op.kernel.planes = 4 then 2 else 1
  let K := a.size 0 / per
  let N := b.size 1
  guardS (immTop w == 0 && immKind w == op.kind) .faultFormat
  guardS (op.aOk a.vtype && op.bOk b.vtype && a.comp ≤ 1 && b.comp == (if op.sparse then 2 else 0)) .faultFormat
  guardS (a.comp == 0 || a.vtype == .i8 || a.vtype == .u8) .faultFormat
  guardS (a.size 0 == b.size 0 && a.size 0 % per == 0 && 1 ≤ K && K ≤ op.kMax && N ≤ 64) .faultFormat
  guardS (a.size 2 == 1 && a.size 3 == 1 && b.size 3 == 1 && (op.gather || b.size 2 == 1)) .faultFormat
  guardS (!(a.gran == 3 && b.gran == 3)) .faultFormat
  let rows := if op.gather then out.size 1 else a.size 1
  let base := immBase w
  let used := rows * op.kernel.width
  guardS (base + used ≤ 1024) .faultFormat
  checkChainIn x a
  let dr ← prepareDrain x out hold op.first (· == op.first) (per * N) rows N 64 op.gather
  if x.op.inBuf.isNone then checkExtent x a rRead (a.size 1) K
  checkExtent x b rRead N K
  let sh ← blockShifts x b N K
  let map ← match dr.gather with
    | some s => do
      let g ← readMap x s (b.size 2)
      guardS (g.tileRows == rows) .faultFormat
      pure (some g)
    | none => pure none
  upsetChain x upset
  if upset = .own then do
    spoilAcc x base used
    internalFault x false
  else do
    let R : LaneRun := { op := op, a := a, sh := sh, base := base, per := per }
    let body : M OpResult := do
      if !out.accum then onD (fun D => D.onEngine x.core x.eng (fun e => clearAcc e base used))
      let tr ← if op.sparse then metaHeader x b else pure false
      let mats ← (List.range (b.size 2)).mapM (fun o => if op.sparse then sparseWeights x b tr o else denseWeights x b o)
      loadSlots x op.kernel op.sparse (b.size 0 / per) mats
      if !hold then openBuf x dr
      match map with
      | none => R.rows x dr (mats.headD { rows := [] }).rows rows
      | some g => do
        forUpTo (b.size 2) (fun o => R.addPairs x g (mats.getD o { rows := [] }).rows (g.pairs.getD o []))
        forUpTo rows (fun m => R.drain x dr N m)
      if !hold then closeBuf x dr
      pure {}
    tryCatch body (fun f => do
      spoilAcc x base used
      throw f)

/-! ## Running an op (R193) -/

/-- May an op in flight behind another one run? The one before it has succeeded, so that no rerun of it draws again (R69, R202),
and, for zero-run rows, has completed (R269). -/
def mayFollow (before : List Running) (op : OpEntry) : Bool :=
  before.all (fun r => match r.result with | some x => x.status.isOk | none => false)
  && (before.isEmpty || bits (field op.dout 1 1) 4 4 != 1)

/-- The oldest op in flight of engine e that has no result yet, where it may run now: a failed attempt waits for its rerun (R165). -/
def DieState.opToRun (D : DieState) (i e : Nat) : Option OpEntry :=
  let run := ((D.core i).engine e).run
  match run.dropWhile (fun r => r.result.isSome) with
  | [] => none
  | r :: _ =>
    if r.op.attempts = r.op.lines.length ∧ mayFollow (run.takeWhile (fun r => r.result.isSome)) r.op = true then some r.op else none

/-- Record the result of the oldest op in flight without one. -/
def setResult (res : OpResult) : List Running → List Running
  | [] => []
  | r :: rs => if r.result.isNone then { r with result := some res } :: rs else r :: setResult res rs

/-- The generators as the op finds them when it first runs (R202). -/
def noteLanes (op : OpEntry) (lanes : List Nat) (run : List Running) : List Running :=
  run.map (fun r => if r.op.ord = op.ord ∧ r.op.attempts = 0 then { r with lanes := lanes } else r)

/-- How an op failed, as its result. -/
def Fail.result (f : Fail) : OpResult :=
  { status := f.status, detail := f.detail, loc := f.loc, cause := f.cause, line := f.line, clean := f.clean, kept := f.kept }

/-- Is the op's output buffer still used by an op dispatched before it, on any engine of the core (R300, R301)? -/
def Core.bufBusy (k : Core) (op : OpEntry) : Bool :=
  match op.outBuf with
  | none => false
  | some b =>
    let uses (o : OpEntry) : Bool := decide (o.ord < op.ord) && (o.inBuf == some b || o.outBuf == some b)
    k.engines.any (fun e => e.2.queue.any uses || e.2.run.any (fun r => uses r.op))

/-- Carry out the data effect of the op of engine e of core i, when it has the opcode: it waits while its input chain
buffer is not filled, and while its output buffer is not free (R301); nothing else waits here. -/
def DieState.runOp (D : DieState) (i e code : Nat) (body : OpCtx → M OpResult) : DieState :=
  match D.runningTask i, D.opToRun i e with
  | some t, some op =>
    let x : OpCtx := { core := i, eng := e, task := t, op := op }
    if opCode op.word ≠ code ∨ D.chainReady x = false ∨ (D.core i).bufBusy op = true then D
    else
      let D := D.onEngine i e (fun g => { g with run := noteLanes op g.lanes g.run })
      match runM (body x) D with
      | (.ok r, D) => D.onEngine i e (fun g => { g with run := setResult r g.run })
      | (.error f, D) => D.onEngine i e (fun g => { g with run := setResult f.result g.run })
  | _, _ => D

end Sys2Proof.Machine
end

