-- ==== Sys2Proof/Machine/Dte.lean ====
section
/-! DEFINITION. The ops of the dense tile engine (R213) and of the matrix-vector path (R235-R239). -/

namespace Sys2Proof.Machine

def byteOrNibble (t : VType) : Bool := t == .i4 || t == .i8 || t == .u8
def byteType (t : VType) : Bool := t == .i8 || t == .u8

/-- A plain op of the dense engine. -/
def denseOp (blocks kMax : Nat) (gather : Bool) (bOk : VType → Bool) : LaneOp :=
  { kernel := plainKernel blocks, gather := gather, sparse := false, kMax := kMax, aOk := byteOrNibble, bOk := bOk,
    stream := 256 < kMax, first := .i32, kind := 0 }

/-- MUL.W16 of the kind its immediate names (R214, R215). -/
def mulOp (kind : Nat) : LaneOp :=
  { kernel := mulKernel kind, gather := false, sparse := false, kMax := if kind = 0 then 128 else 64,
    aOk := if kind = 2 then (· == .i8) else (· == .i16), bOk := if kind = 1 then (· == .i16) else (· == .i8),
    first := if kind = 2 then .i32 else .i64, kind := kind }

/-- DTE_GEMM_W. upset: a parity error in the op's own memories (R211). -/
def execDteGemmW (a : At) (core : Nat) (upset : Upset) (s : State) : Out :=
  onDie a s (fun D => D.runOp core 1 0x01 (fun x => laneOp x (denseOp 1 128 false byteType) upset))

/-- DTE_GEMM_S. -/
def execDteGemmS (a : At) (core : Nat) (upset : Upset) (s : State) : Out :=
  onDie a s (fun D => D.runOp core 1 0x02 (fun x => laneOp x (denseOp 1 65536 false byteType) upset))

/-- DTE_CONV_G. -/
def execDteConvG (a : At) (core : Nat) (upset : Upset) (s : State) : Out :=
  onDie a s (fun D => D.runOp core 1 0x03 (fun x => laneOp x (denseOp 1 128 true byteType) upset))

/-- DTE_MUL_W16. -/
def execDteMulW16 (a : At) (core : Nat) (upset : Upset) (s : State) : Out :=
  onDie a s (fun D => D.runOp core 1 0x04 (fun x => do
    guardS (immKind x.op.word != 3) .faultFormat
    laneOp x (mulOp (immKind x.op.word)) upset))

/-- DTE_GEMM_W4. -/
def execDteGemmW4 (a : At) (core : Nat) (upset : Upset) (s : State) : Out :=
  onDie a s (fun D => D.runOp core 1 0x11 (fun x => laneOp x (denseOp 2 256 false (· == .i4)) upset))

/-- DTE_GEMM_S4. -/
def execDteGemmS4 (a : At) (core : Nat) (upset : Upset) (s : State) : Out :=
  onDie a s (fun D => D.runOp core 1 0x12 (fun x => laneOp x (denseOp 2 131072 false (· == .i4)) upset))

/-- DTE_CONV_G4. -/
def execDteConvG4 (a : At) (core : Nat) (upset : Upset) (s : State) : Out :=
  onDie a s (fun D => D.runOp core 1 0x13 (fun x => laneOp x (denseOp 2 256 true (· == .i4)) upset))

/-! ## The matrix-vector path -/

/-- Row r of the streamed operand: from the store, or, with direct, from stacked memory through the core's DMA
(R237). -/
def readStreamed (x : OpCtx) (t : Tensor) (direct : Bool) (r : Nat) : M (List Int) :=
  if !direct then (do
    let r ← readA { x with op := { x.op with inBuf := none } } t r
    pure r.1)
  else do
    checkWin x t.win (t.rowOff r) t.rowBytes rRead
    let b ← stackRead x.dmaCtx ((x.window t.win).base + t.rowOff r) t.rowBytes
    onD (fun D => D.count (coreBlock x.core 7) DMA_BYTES_READ t.rowBytes)
    pure (rowElems t.vtype (t.size 0) b)

/-- One streamed row against every held vector (R234, R239): sums and the wrap flag. sh: block shifts, of the
streamed row or of each held vector. -/
def mvpRow (held : List (List Int)) (sh : Nat → List Nat) (row : List Int) : List Int × Bool :=
  let rs := (List.range held.length).map (fun h => accAll false 0 (chunkSums 1 (sh h) (held.getD h []) row))
  (rs.map (·.1), rs.any (·.2))

/-- An op of the MVP (R235-R239). heldIsA: MV holds A and streams the weights B; THIN holds B and streams A. -/
def mvpOp (x : OpCtx) (heldIsA : Bool) (upset : Upset) : M OpResult := do
  let w := x.op.word
  let direct := bit (opImm w) 0
  let chainA := x.op.inBuf.isSome
  let a ← parseTensor x.op.da (!chainA)
  let b ← parseTensor x.op.db true
  let out ← parseTensor x.op.dout (x.op.outBuf.isNone)
  let held := if heldIsA then a else b
  let stream := if heldIsA then b else a
  let h := held.size 1
  let K := held.size 0
  let rows := stream.size 1
  guardS (opImm w < 2) .faultFormat
  guardS (byteOrNibble a.vtype && byteOrNibble b.vtype && a.comp == 0 && b.comp == 0 && !a.accum && !out.accum) .faultFormat
  guardS (a.size 0 == b.size 0 && 1 ≤ h && h ≤ 16 && h * rowBytes held.vtype K ≤ 65536 && rows ≤ 2 ^ 24) .faultFormat
  guardS (a.size 2 == 1 && a.size 3 == 1 && b.size 2 == 1 && b.size 3 == 1 && !(a.gran == 3 && b.gran == 3)) .faultFormat
  checkChainIn x a
  let nch := b.size 1
  let dr ← prepareDrain x out false .i32 (· == .i32) h rows nch 64 false
  let streamed := x.window stream.win
  if !(chainA && !heldIsA) then
    if (streamed.kind == 1) != direct || streamed.kind == 2 then
      throw { status := .faultBounds, loc := stream.off, cause := stream.win, clean := true }
  if !chainA then checkExtent x a rRead (a.size 1) K (!heldIsA && direct)
  checkExtent x b rRead nch K (heldIsA && direct)
  let sh ← blockShifts x b nch K
  upsetChain x upset
  let heldRows ← (List.range h).mapM (fun i => if heldIsA then (do let r ← readA x a i; pure r.1) else readDenseRow x b i)
  drainRows x dr .i32 (fun m j => if heldIsA then m else j) (fun m => do
    let row ← if !heldIsA && chainA then (do let r ← readA x a m; pure r.1) else readStreamed x stream direct m
    onD (fun D => D.count x.block MVP_STREAM_BYTES (rowBytes stream.vtype K))
    let r := mvpRow heldRows (fun i => if heldIsA then sh.getD m [] else sh.getD i []) row
    markOp x r.2 false
    pure r.1)
  pure {}

/-- MVP_MV. -/
def execMvpMv (a : At) (core : Nat) (upset : Upset) (s : State) : Out :=
  onDie a s (fun D => D.runOp core 3 0x01 (fun x => mvpOp x true upset))

/-- MVP_THIN. -/
def execMvpThin (a : At) (core : Nat) (upset : Upset) (s : State) : Out :=
  onDie a s (fun D => D.runOp core 3 0x02 (fun x => mvpOp x false upset))

end Sys2Proof.Machine
end

