-- ==== Sys2Proof/Machine/Ste.lean ====
section
/-! DEFINITION. The ops of the sparse tile engine (R251-R262). -/

namespace Sys2Proof.Machine

/-- A multiplying op of the sparse engine (R254, R255): K or C is a multiple of 4, which the 2:4 descriptor sees to. -/
def sparseOp (kMax : Nat) (gather : Bool) : LaneOp :=
  { kernel := plainKernel 1, gather := gather, sparse := true, kMax := kMax, aOk := byteOrNibble, bOk := byteType,
    stream := 256 < kMax, first := .i32, kind := 0 }

/-- STE_GEMM_W. -/
def execSteGemmW (a : At) (core : Nat) (upset : Upset) (s : State) : Out :=
  onDie a s (fun D => D.runOp core 2 0x01 (fun x => laneOp x (sparseOp 128 false) upset))

/-- STE_GEMM_S. -/
def execSteGemmS (a : At) (core : Nat) (upset : Upset) (s : State) : Out :=
  onDie a s (fun D => D.runOp core 2 0x02 (fun x => laneOp x (sparseOp 65536 false) upset))

/-- STE_CONV_G. -/
def execSteConvG (a : At) (core : Nat) (upset : Upset) (s : State) : Out :=
  onDie a s (fun D => D.runOp core 2 0x03 (fun x => laneOp x (sparseOp 128 true) upset))

/-- A 2:4 tensor as the ops that multiply nothing check it: its codes and payload per matrix, every check made before
any write (R256, R260). -/
def checkedMatrix (x : OpCtx) (t : Tensor) (tr : Bool) (o : Nat) : M (List (List Nat) × List (List Int)) := do
  let codes ← readCodes x t o tr
  let pays ← (List.range (t.size 1)).mapM (fun n => do
    let pay ← readPayload x t o n
    let nz ← winRead x t.auxWin (nzOff t o n) 4
    if nonZeros pay ≠ leNat nz then metaFault x 5 n 0 (nzOff t o n) (nzOff t o n) else pure pay)
  pure (codes, pays)

/-- The mask of a channel: 1 at both coded positions of each group (R260). -/
def maskOf (codes : List Nat) : List Int :=
  codes.flatMap (fun c => (List.range 4).map (fun i => if i = codeI0 c ∨ i = codeI1 c then 1 else 0))

/-- Do two descriptors name the same shape? -/
def sameShape (a b : Tensor) : Bool := (List.range 4).all (fun i => a.size i == b.size i)

/-- UNPACK (R260). Its dense rows are the values that an epilogue takes, as I32 (R282, R287, log entry 172); the mask passes none. -/
def unpackOp (x : OpCtx) : M OpResult := do
  guardS (opImm x.op.word == 0 && x.op.inBuf.isNone) .faultFormat
  let a ← parseTensor x.op.da true
  let out ← parseTensor x.op.dout (x.op.outBuf.isNone)
  let mask ← if x.op.db.isEmpty then pure none else (do let t ← parseTensor x.op.db true; pure (some t))
  guardS (a.comp == 2 && out.comp == 0 && out.vtype == a.vtype && sameShape a out) .faultFormat
  match mask with
  | some m => guardS (m.comp == 0 && m.vtype == .u8 && sameShape a m) .faultFormat
  | none => pure ()
  let dr ← prepareDrain x out false .i32 (· == a.vtype) (a.size 0) (a.size 1 * a.size 2) (a.size 0) 64 false
  checkExtent x a rRead (a.size 1) (a.size 0)
  match mask with
  | some m => checkExtent x m rWrite (a.size 1) (a.size 0)
  | none => pure ()
  let tr ← metaHeader x a
  let ms ← (List.range (a.size 2)).mapM (checkedMatrix x a tr)
  let n := a.size 1
  drainRows x dr .i32 (fun _ j => j) (fun r => do
    let c := (((ms.getD (r / n) ([], [])).1).getD (r % n) [])
    let p := (((ms.getD (r / n) ([], [])).2).getD (r % n) [])
    match mask with
    | some m => writeDenseRow x m r (maskOf c)
    | none => pure ()
    pure (spread c p))
  pure {}

/-- The code of a mask group of four: the two positions marked 1 (R261). -/
def maskCode (g : List Int) : Option Nat :=
  match (List.range 4).filter (fun i => g.getD i 0 == 1) with
  | [i, j] => some (i + 4 * j)
  | _ => none

/-- The first group of four of a mask row that does not name two positions, and the first byte that is neither 0 nor 1. -/
def maskGroupBad (row : List Int) : Option Nat := firstIdx (fun g => (maskCode g).isNone) (vectors 4 row) 0
def maskByteBad (row : List Int) : Option Nat := firstIdx (fun v => !(v == 0 || v == 1)) row 0

/-- The first row of a list with a fault, and where in the row it lies. -/
def firstRow (f : List Int → Option Nat) (rows : List (List Int)) : Option (Nat × Nat) :=
  (List.range rows.length).findSome? (fun n => (f (rows.getD n [])).map (fun k => (n, k)))

/-- The checks of a PACK mask (checks 7 and 8 of R256): the code, and the channel and position of the mask word that fails; the counts
along K, along N where asked for, and the values, the lowest code first (R257). -/
def maskBad (mask : List (List Int)) (tr : Bool) : Option (Nat × Nat × Nat) :=
  let quad (q : Nat) : Option Nat := (List.range (mask.headD []).length).find? (fun k =>
    ((List.range 4).filter (fun i => (mask.getD (4 * q + i) []).getD k 0 == 1)).length != 2)
  match firstRow maskGroupBad mask with
  | some (n, g) => some (7, n, 4 * g)
  | none =>
    match if tr then (List.range (mask.length / 4)).findSome? (fun q => (quad q).map (fun k => (q, k))) else none with
    | some (q, k) => some (7, 4 * q, k / 4 * 4)
    | none => (firstRow maskByteBad mask).map (fun p => (8, p.1, p.2 / 4 * 4))

/-- Write a 2:4 matrix's payload and its non-zero counts. -/
def writePayload (x : OpCtx) (out : Tensor) (o : Nat) (codes : List (List Nat)) (rows : List (List Int)) : M Unit := do
  let _ ← (List.range (out.size 1)).mapM (fun n => do
    let c := codes.getD n []
    let vals := gatherCoded c (rows.getD n [])
    let lost := nonZeros (rows.getD n []) - nonZeros vals
    if lost ≠ 0 then onD (fun D => D.count x.block STE_PACK_DISCARDS lost)
    winWrite x out.win (out.rowOff (o * out.size 1 + n)) (packRow out.vtype vals)
    winWrite x out.auxWin (nzOff out o n) (toLE 4 (nonZeros vals)))
  pure ()

/-- Row r of the dense operand of a PACK as its payload takes it: the values after the epilogue stages, where it has any (R282, log
entry 172). -/
def packedValues (x : OpCtx) (ss : List Stage) (r : Nat) (vs : List Int) : M (List Int) := do
  let res ← residualRows x ss r
  let lanes ← engineLanes x
  let p := passRow ss .i32 id res 0 vs lanes 0
  onD (fun D => D.onEngine x.core x.eng (fun e => { e with lanes := p.2.1 }))
  countSats x p.2.2
  pure p.1

/-- The epilogue of a PACK: its stages and their data, whose last type is the output's (R282, R287). -/
def packStages (x : OpCtx) (a out : Tensor) : M (List Stage) := do
  let prog ← readProgram x
  let ss := prog.getD []
  let epi := ss.filter (fun s => !s.isPrologue)
  guardS (!(hasKind ss 0x10) && !(hasKind epi 0x07) && !(hasKind epi 0x08)) .faultFormat
  guardS (epi.isEmpty || typesThrough epi .i32 == some out.vtype) .faultFormat
  guardS (a.size 0 ≤ 64 || epi.all (fun s => !s.perChannel)) .faultFormat
  epi.mapM (loadStage x (a.size 0) (a.size 0) (a.size 1) (a.size 1 * a.size 2))

/-- PACK (R261). upset: a parity error in the input chain buffer (R303). -/
def packOp (x : OpCtx) (upset : Upset) : M OpResult := do
  let imm := opImm x.op.word
  let mode1 := bit imm 0
  let tr := bit imm 1
  guardS (imm < 4 && x.op.outBuf.isNone) .faultFormat
  guardS (x.op.db.isEmpty == mode1) .faultFormat
  let a ← parseTensor x.op.da (x.op.inBuf.isNone)
  let out ← parseTensor x.op.dout true
  guardS (a.comp == 0 && byteType a.vtype && out.comp == 2 && out.vtype == a.vtype && sameShape a out
    && a.size 0 % 4 == 0 && (mode1 || !tr || a.size 1 % 4 == 0)) .faultFormat
  checkChainIn x a
  let ss ← packStages x a out
  if x.op.inBuf.isNone then checkExtent x a rRead (a.size 1) (a.size 0)
  checkExtent x out rWrite (a.size 1) (a.size 0)
  let N := a.size 1
  let mats (f : Nat → M (List Int)) : M (List (List (List Int))) :=
    (List.range (a.size 2)).mapM (fun o => (List.range N).mapM (fun n => f (o * N + n)))
  if mode1 then
    checkWin x out.auxWin out.auxOff out.auxBytes rRead
    let trh ← metaHeader x out
    let cs ← (List.range (a.size 2)).mapM (fun o => readCodes x out o trh)
    upsetChain x upset
    let ws ← mats (fun r => do let v ← readA x a r; packedValues x ss r v.1)
    forUpTo (a.size 2) (fun o => writePayload x out o (cs.getD o []) (ws.getD o []))
    pure {}
  else do
    let b ← parseTensor x.op.db true
    guardS (b.comp == 0 && b.vtype == .u8 && sameShape a b) .faultFormat
    checkExtent x b rRead N (a.size 0)
    let masks ← mats (readDenseRow x b)
    let bad := (List.range (a.size 2)).findSome? (fun o => (maskBad (masks.getD o []) tr).map (fun p => (p.1, o, p.2)))
    match bad with
    | some (check, o, n, k) => metaFault x check 0 1 (b.rowOff (o * N + n) + k) (b.rowOff (o * N + n) + k)
    | none =>
      upsetChain x upset
      let ws ← mats (fun r => do let v ← readA x a r; packedValues x ss r v.1)
      winWrite x out.auxWin out.auxOff
        (toLE 2 1 ++ toLE 2 (b2n tr) ++ toLE 4 (a.size 0) ++ toLE 2 N ++ toLE 2 (a.size 2) ++ toLE 4 (a.size 0 / 2))
      forUpTo (a.size 2) (fun o => do
        let codes := (masks.getD o []).map (fun r => (vectors 4 r).map (fun g => (maskCode g).getD 0))
        forUpTo out.chunks (fun j =>
          winWrite x out.auxWin (codeOff out o j 0) (codes.map (fun c => toLE 4 (codeWord c j))).flatten)
        writePayload x out o codes (ws.getD o []))
      pure {}

/-- STE_UNPACK. -/
def execSteUnpack (a : At) (core : Nat) (s : State) : Out :=
  onDie a s (fun D => D.runOp core 2 0x20 unpackOp)

/-- STE_PACK. -/
def execStePack (a : At) (core : Nat) (upset : Upset) (s : State) : Out :=
  onDie a s (fun D => D.runOp core 2 0x21 (fun x => packOp x upset))

end Sys2Proof.Machine
end

