-- ==== Sys2Proof/Machine/Vu.lean ====
section
/-! DEFINITION. The vector unit (R304-R310). -/

namespace Sys2Proof.Machine

/-- The floor square root, one bit at a time from bit n - 1. -/
def isqrtFrom : Nat → Nat → Nat → Nat
  | 0, r, _ => r
  | n + 1, r, v => isqrtFrom n (if (r + 2 ^ n) * (r + 2 ^ n) ≤ v then r + 2 ^ n else r) v

def isqrt (v : Nat) : Nat := isqrtFrom 64 0 v

def maxOf : List Int → Int
  | [] => 0
  | [a] => a
  | a :: t => max a (maxOf t)

/-- ROWMAX and ROWSUM of a row (R307). -/
def rowMax (row : List Int) : List Int := [maxOf row]
def rowSum (row : List Int) : List Int := [row.sum]

/-- The table entries e of a softmax row, which stand in the vector registers (R304, R308). -/
def softmaxEntries (table : List Int) (sh : Nat) (row : List Int) : List Int :=
  let mx := maxOf row
  row.map (fun v => table.getD (min 255 (shr (mx - v) sh)).toNat 0)

/-- SOFTMAX of a row (R308). -/
def softmaxRow (table : List Int) (sh p : Nat) (row : List Int) : List Int :=
  let e := softmaxEntries table sh row
  let R := Int.fdiv ((2 ^ 47 : Nat) : Int) e.sum
  e.map (fun v => rnd (v * R) (47 - p) .rne 0)

/-- NORM of a row (R309). -/
def normRow (k eps : Nat) (row : List Int) : List Int :=
  let L : Int := (row.length : Int)
  let c := row.map (fun v => v * L - row.sum)
  let v := Int.fdiv (c.map (fun y => y * y)).sum (L * L * L)
  let sd : Int := max 1 (isqrt (v.toNat + eps) : Nat)
  let rr := Int.fdiv ((2 ^ 62 : Nat) : Int) (L * sd)
  c.map (fun y => rnd (y * rr) (62 - k) .rne 0)

/-- What a VU op is (R305). -/
structure VuOp where
  aOk : VType → Bool
  /-- the value type, from A's -/
  value : VType → VType
  /-- one output element per row -/
  reduces : Bool
  lMax : Nat
  immOk : Nat → Bool
  passes : Nat
  /-- row function, from the table and the immediate -/
  f : List Int → Nat → List Int → List Int
  /-- what a row leaves in the vector registers (R304) -/
  regs : List Int → Nat → List Int → List Nat → List Nat := fun _ _ _ old => old

/-- An op of the vector unit (R304-R306). table: it takes a softmax table as B. -/
def vuOp (x : OpCtx) (op : VuOp) (table : Bool) (upset : Upset) : M OpResult := do
  let w := x.op.word
  let chainA := x.op.inBuf.isSome
  let a ← parseTensor x.op.da (!chainA)
  let out ← parseTensor x.op.dout (x.op.outBuf.isNone)
  let L := a.size 0
  guardS (a.comp == 0 && op.aOk a.vtype && 1 ≤ L && L ≤ op.lMax && op.immOk (opImm w)) .faultFormat
  let tab ← if table then (do
      let b ← parseTensor x.op.db true
      guardS (b.comp == 0 && b.vtype == .u16 && b.size 0 == 256 && b.rows == 1) .faultFormat
      checkExtent x b rRead 1 256
      let t ← readDenseRow x b 0
      guardS (t.headD 0 != 0) .faultFormat
      pure t)
    else pure []
  checkChainIn x a
  let cols := if op.reduces then 1 else L
  let dr ← prepareDrain x out false (op.value a.vtype) (fun t => t.storable && t != .i64) cols a.rows cols 2048 false
  guardS ([1, 2, 3].all (fun d => out.size d == a.size d) || hasKind dr.stages 0x08) .faultFormat
  if !chainA then checkExtent x a rRead (a.size 1) L
  upsetChain x upset
  let value := op.value a.vtype
  openBuf x dr
  forUpTo dr.rows (fun m => do
    let r ← readA x a m
    onD (fun D => D.count x.block VU_ELEMENTS (L * op.passes))
    onD (fun D => D.onEngine x.core x.eng (fun e => { e with vregs := op.regs tab (opImm w) r.1 e.vregs }))
    drainRow x dr value id m (op.f tab (opImm w) r.1)
    onD (fun D => D.count x.block VU_ROWS))
  closeBuf x dr
  pure {}

def narrowType (t : VType) : Bool := t == .i8 || t == .u8 || t == .i16 || t == .i32

def vuEltwise : VuOp :=
  { aOk := fun t => t.storable && t != .i64, value := id, reduces := false, lMax := 2 ^ 24, immOk := (· == 0), passes := 1,
    f := fun _ _ r => r }
def vuRowmax : VuOp :=
  { aOk := narrowType, value := fun _ => .i32, reduces := true, lMax := 65536, immOk := (· == 0), passes := 1,
    f := fun _ _ r => rowMax r }
def vuRowsum : VuOp :=
  { aOk := narrowType, value := fun _ => .i48, reduces := true, lMax := 65536, immOk := (· == 0), passes := 1,
    f := fun _ _ r => rowSum r }
def vuSoftmax : VuOp :=
  { aOk := (· == .i32), value := fun _ => .i32, reduces := false, lMax := 65536, passes := 3,
    immOk := fun i => i < 1024 && 1 ≤ bits i 5 5 && bits i 5 5 ≤ 16,
    f := fun t i r => softmaxRow t (bits i 0 5) (bits i 5 5) r,
    regs := fun t i r old => (softmaxEntries t (bits i 0 5) r).map Int.toNat ++ old.drop r.length }
def vuNorm : VuOp :=
  { aOk := fun t => t == .i8 || t == .i16 || t == .i32, value := fun _ => .i32, reduces := false, lMax := 65536, passes := 3,
    immOk := fun i => bits i 4 4 == 0 && bits i 0 4 ≤ 14, f := fun _ i r => normRow (bits i 0 4) (bits i 8 24) r }

/-- VU_ELTWISE. upset: a parity error in the input chain buffer (R303). -/
def execVuEltwise (a : At) (core : Nat) (upset : Upset) (s : State) : Out :=
  onDie a s (fun D => D.runOp core 4 0x01 (fun x => vuOp x vuEltwise false upset))

/-- VU_ROWMAX. -/
def execVuRowmax (a : At) (core : Nat) (upset : Upset) (s : State) : Out :=
  onDie a s (fun D => D.runOp core 4 0x02 (fun x => vuOp x vuRowmax false upset))

/-- VU_ROWSUM. -/
def execVuRowsum (a : At) (core : Nat) (upset : Upset) (s : State) : Out :=
  onDie a s (fun D => D.runOp core 4 0x03 (fun x => vuOp x vuRowsum false upset))

/-- VU_SOFTMAX. -/
def execVuSoftmax (a : At) (core : Nat) (upset : Upset) (s : State) : Out :=
  onDie a s (fun D => D.runOp core 4 0x04 (fun x => vuOp x vuSoftmax true upset))

/-- VU_NORM. -/
def execVuNorm (a : At) (core : Nat) (upset : Upset) (s : State) : Out :=
  onDie a s (fun D => D.runOp core 4 0x05 (fun x => vuOp x vuNorm false upset))

end Sys2Proof.Machine
end

