-- ==== Sys2Proof/Machine/Select.lean ====
section
/-! DEFINITION. The select engine (R315-R330). -/

namespace Sys2Proof.Machine

/-- An element of a row: its key as a number, its key's 32-bit pattern, its carried index and its position (R317). -/
structure SelElem where
  key : Int
  word : Nat
  carried : Nat
  pos : Nat
deriving DecidableEq, Repr

/-- How an op reads elements (R317). -/
structure SelForm where
  packed : Nat
  vtype : VType

def SelForm.elemBytes (f : SelForm) : Nat := if f.packed = 0 then f.vtype.width / 8 else 8
def SelForm.signed (f : SelForm) : Bool := if f.packed = 0 then f.vtype == .i32 else f.packed == 2
/-- Digits of a key. -/
def SelForm.digits (f : SelForm) : Nat := if f.packed = 0 then f.vtype.width / 8 else 4

def SelForm.keyOf (f : SelForm) (w : Nat) : Int := if f.signed then sext 32 w else (w : Int)

/-- The elements of a row's bytes. -/
def SelForm.elems (f : SelForm) (L : Nat) (b : List Byte) : List SelElem :=
  (List.range L).map (fun i =>
    if f.packed = 0 then
      let w := field b (f.elemBytes * i) f.elemBytes
      { key := f.keyOf w, word := w, carried := i, pos := i }
    else
      let w := field b (8 * i) 4
      { key := f.keyOf w, word := w, carried := field b (8 * i + 4) 4, pos := i })

/-- The key as the digit passes order it: bit 31 of an I32 key inverted (R317). -/
def SelForm.orderKey (f : SelForm) (e : SelElem) : Nat := if f.signed then xorN e.word (2 ^ 31) else e.word

/-- An entry (R319). -/
def entryBytes (e : SelElem) : List Byte := toLE 4 e.word ++ toLE 4 e.carried

/-- The row in rank order (R318). -/
def ranked (dir1 : Bool) (es : List SelElem) : List SelElem :=
  sortBy (fun (a b : SelElem) => if dir1 then decide (a.key < b.key) else decide (b.key < a.key)) es

/-- A sum saturated to I48, and whether it saturated (R325). -/
def sum48 (es : List SelElem) : Int × Bool :=
  let s := (es.map (·.key)).sum
  (satT s .i48, !(inT s .i48))

/-- A summary record (R324). -/
def summaryBytes (count flags : Nat) (sel out : Int) (boundary equal : Nat) : List Byte :=
  toLE 4 count ++ toLE 4 flags ++ toLE 8 (wrapN 64 sel) ++ toLE 8 (wrapN 64 out) ++ toLE 4 boundary ++ toLE 4 equal

/-- Digit passes of a register-mode row (R331): the first after which the groups that hold the first and the last
selected element hold no more elements than are selected from them. -/
def digitPasses (f : SelForm) (es sel : List SelElem) : Nat :=
  let D := f.digits
  let done (p : Nat) : Bool :=
    let pre (e : SelElem) : Nat := f.orderKey e / 2 ^ (8 * (D - p))
    [sel.head?, sel.getLast?].all (fun b => match b with
      | none => true
      | some b => (es.filter (fun e => pre e == pre b)).length ≤ (sel.filter (fun e => pre e == pre b)).length)
  match ((List.range D).map (· + 1)).find? done with
  | some p => p
  | none => D

/-- What a TOPK or KTH makes of a row: the entries, the summary, the sums that saturated, the digit passes. -/
structure RowPick where
  entries : List SelElem
  summary : List Byte
  sats : Nat
  passes : Nat

/-- TOPK and KTH of a row (R322-R325). -/
def pickRow (f : SelForm) (kth dir1 : Bool) (k r0 : Nat) (es : List SelElem) : RowPick :=
  let rk := ranked dir1 es
  let chosen := (rk.drop r0).take (if kth then 1 else k)
  let set : List SelElem := if kth then rk.take (r0 + 1) else chosen
  let rest : List SelElem := if kth then rk.drop (r0 + 1) else rk.take r0 ++ rk.drop (r0 + k)
  let last := set.getLast?
  let s := sum48 set
  let o := sum48 rest
  let same : List SelElem := match last with | some b => es.filter (fun e => e.key == b.key) | none => []
  let split := match last with
    | some b => !set.isEmpty && rest.any (fun e => e.key == b.key) && (!kth || r0 < es.length)
    | none => false
  let beyond := es.length ≤ r0
  { entries := sortBy (fun (a b : SelElem) => decide (a.pos < b.pos)) chosen,
    summary := summaryBytes set.length (b2n s.2 + b2n o.2 * 2 + b2n beyond * 4 + b2n (split && !(kth && beyond)) * 8) s.1 o.1
      (match last with | some b => b.word | none => 0) same.length,
    sats := b2n s.2 + b2n o.2,
    passes := digitPasses f es chosen }

/-- Extent of a descriptor in the store: start and length. -/
def storeExtent (x : OpCtx) (t : Tensor) : Nat × Nat := ((x.window t.win).base + t.off, t.span)

def extentsMeet (a b : Nat × Nat) : Bool := overlap a.1 a.2 b.1 b.2

/-- A consistency fault (R330): the event names the row and the pass. -/
def tornFault {α : Type} (x : OpCtx) (row pass : Nat) : M α := do
  onD (fun D =>
    let D := D.event { cls := 5, code := 0x05, island := 3 + x.core, inst := some x.task.inst, loc := row,
                       ident := x.task.id, status := Status.faultMetadata.code, cause := pass % 256 }
    (D.count32 x.block SEL_CONSIST_FAULTS).boundary x.cluster x.port)
  throw { status := .faultMetadata, kept := List.range row }

/-- Descriptors and checks every SEL op shares (R315, R324, R329). -/
structure SelPrep where
  a : Tensor
  out : Tensor
  sum : Option Tensor
  form : SelForm
  L : Nat

def selPrepare (x : OpCtx) (packed : Nat) : M SelPrep := do
  gateOnly x
  let a ← parseTensor x.op.da true
  let out ← parseTensor x.op.dout true
  let b ← if x.op.db.isEmpty then pure none else (do let t ← parseTensor x.op.db true; pure (some t))
  guardS (packed < 3 && a.comp == 0 && out.comp == 0 && out.vtype == .u32) .faultFormat
  guardS (if packed = 0 then a.vtype == .u8 || a.vtype == .u16 || a.vtype == .u32 || a.vtype == .i32
          else a.vtype == .u32 && a.size 0 % 2 == 0) .faultFormat
  let L := if packed = 0 then a.size 0 else a.size 0 / 2
  guardS (1 ≤ L && L ≤ 65536) .faultFormat
  match b with
  | some t =>
    guardS (t.comp == 0 && t.vtype == .u32 && t.size 0 == 8 && [1, 2, 3].all (fun d => t.size d == a.size d)) .faultFormat
    checkExtent x t rWrite (t.size 1) (t.size 0)
  | none => pure ()
  checkExtent x a rRead (a.size 1) (a.size 0)
  checkExtent x out rWrite (out.size 1) (out.size 0)
  pure { a := a, out := out, sum := b, form := { packed := packed, vtype := a.vtype }, L := L }

/-- Neither the output nor B overlaps A (R329): TOPK, KTH and SPLIT. -/
def SelPrep.apart (p : SelPrep) (x : OpCtx) : Bool :=
  !(extentsMeet (storeExtent x p.out) (storeExtent x p.a))
  && (match p.sum with | some t => !(extentsMeet (storeExtent x t) (storeExtent x p.a)) | none => true)

/-- Read row r of the keys. -/
def selRow (x : OpCtx) (p : SelPrep) (r : Nat) : M (List SelElem) := do
  let b ← winRead x p.a.win (p.a.rowOff r) p.a.rowBytes
  pure (p.form.elems p.L b)

/-- Write the summary of row r, where B is present. -/
def putSummary (x : OpCtx) (p : SelPrep) (r : Nat) (b : List Byte) : M Unit :=
  match p.sum with
  | some t => winWrite x t.win (t.rowOff r) b
  | none => pure ()

/-- Count the saturated sums of a row (R57, R325). -/
def selSats (x : OpCtx) (n : Nat) : M Unit :=
  if n = 0 then pure ()
  else do
    onD (fun D => D.count32 x.block SEL_SAT_COUNT n)
    markOp x false true

/-- Histogram of a digit over elements (R315, R331). -/
def digitBins (digit : SelElem → Nat) (es : List SelElem) : List Nat :=
  (List.range 256).map (fun d => (es.filter (fun e => digit e % 256 == d)).length)

/-- The engine's histogram memory and selection register after a pass (R315; log entry 173). -/
def setSelMem (x : OpCtx) (bins : List Nat) (chosen : List SelElem) : M Unit :=
  onD (fun D => D.onEngine x.core x.eng (fun e => { e with
    bins := bins, chosen := chosen.map (fun c => (c.word, c.carried)) }))

/-- The histograms of digit pass p (from 1) of a register-mode row: one for each boundary of the selection, over the elements that
share the boundary's digits so far (R331). -/
def passBins (f : SelForm) (es sel : List SelElem) (p : Nat) : List Nat :=
  let pre (n : Nat) (e : SelElem) : Nat := f.orderKey e / 2 ^ (8 * (f.digits - n))
  [sel.head?, sel.getLast?].flatMap (fun b => match b with
    | none => List.replicate 256 0
    | some b => digitBins (pre p) (es.filter (fun e => pre (p - 1) e == pre (p - 1) b)))

/-- Elements read, and digit and scatter passes made (R332). -/
def countPasses (x : OpCtx) (elems passes : Nat) : M Unit :=
  onD (fun D => (D.count x.block SEL_ELEMENTS elems).count x.block SEL_DIGIT_PASSES passes)

/-- The pass at which a count of row r disagrees, if that is one of passes 1 to last (R330). -/
def tornAt (torn : Option (Nat × Nat)) (r last : Nat) : Option Nat :=
  match torn with
  | some (row, pass) => if row = r ∧ 1 ≤ pass ∧ pass ≤ last then some pass else none
  | none => none

/-- TOPK and KTH (R320-R323). torn: the row and pass in which a count disagrees, where the program broke R152. -/
def pickOp (x : OpCtx) (kth upset : Bool) (torn : Option (Nat × Nat)) : M OpResult := do
  let imm := opImm x.op.word
  let k := bits imm 0 12
  let r0 := bits imm 12 16
  let reg := bit imm 29
  let p ← selPrepare x (bits imm 30 2)
  guardS (if kth then k == 1 else 1 ≤ k && k ≤ 2048) .faultFormat
  guardS (reg || r0 + k ≤ 64) .faultFormat
  guardS (p.out.size 0 % 2 == 0 && 2 * k ≤ p.out.size 0 && [1, 2, 3].all (fun d => p.out.size d == p.a.size d)) .faultFormat
  guardS (p.apart x) .faultFormat
  if upset then internalFault x false
  else do
    forUpTo p.a.rows (fun r => do
      let es ← selRow x p r
      let q := pickRow p.form kth (bit imm 28) k r0 es
      if reg then do
        match tornAt torn r q.passes with
        | some pass => do
          countPasses x (p.L * (pass + 1)) (min (pass + 1) q.passes)
          tornFault x r pass
        | none => do
          countPasses x (p.L * (q.passes + 1)) q.passes
          if q.passes < p.form.digits then onD (fun D => D.count x.block SEL_EARLY_STOPS)
          setSelMem x (passBins p.form es q.entries q.passes) q.entries
      else do
        onD (fun D => (D.count x.block SEL_ELEMENTS p.L).count x.block SEL_HW_SWEEPS)
        onD (fun D => D.onEngine x.core x.eng (fun e => { e with
          ranks := ((ranked (bit imm 28) es).take 64).map (fun c => (c.word, c.carried)) }))
      winWrite x p.out.win (p.out.rowOff r) (q.entries.flatMap entryBytes)
      putSummary x p r q.summary
      onD (fun D => D.count x.block SEL_ROWS)
      selSats x q.sats)
    pure {}

/-- The first element of each distinct key, by position, with the key's count (R326). -/
def distinct (es : List SelElem) : List (SelElem × Nat) :=
  let firsts := es.filter (fun e => !(es.any (fun f => f.key == e.key && f.pos < e.pos)))
  firsts.map (fun e => (e, (es.filter (fun f => f.key == e.key)).length))

/-- Digits that the OR of all keys needs, at least 1 (R331). -/
def orDigits (es : List SelElem) : Nat :=
  let v := es.foldl (fun n e => orN n e.word) 0
  if 2 ^ 24 ≤ v then 4 else if 2 ^ 16 ≤ v then 3 else if 2 ^ 8 ≤ v then 2 else 1

/-- The work area of an op: present and large enough (R329), in a kind-0 window it may read and write, apart from the operands (R316,
R327). -/
def workArea (x : OpCtx) (p : SelPrep) (n : Nat) : M Unit := do
  let w := x.window p.out.auxWin
  guardS (w.used && decide (p.out.auxOff + n ≤ w.size)) .faultFormat
  checkWin x p.out.auxWin p.out.auxOff n rRead
  checkWin x p.out.auxWin p.out.auxOff n rWrite
  checkKind x p.out.auxWin p.out.auxOff
  let e := (w.base + p.out.auxOff, n)
  guardS (!(extentsMeet e (storeExtent x p.a)) && !(extentsMeet e (storeExtent x p.out))) .faultFormat

/-- Bytes whose contents the spec leaves undefined are written with free values (log entry 3). -/
def writeFree (x : OpCtx) (w off n : Nat) : M Unit := do
  let D ← get
  let bs := (List.range n).map (fun i => Config.freeByte (4 * (D.fresh + i) + D.num))
  onD (fun D => { D with fresh := D.fresh + n })
  winWrite x w off bs

/-- UNIQUE and ORDERED_UNIQUE (R326, R327). -/
def uniqueOp (x : OpCtx) (ordered upset : Bool) (torn : Option (Nat × Nat)) : M OpResult := do
  let imm := opImm x.op.word
  let p ← selPrepare x (bits imm 30 2)
  guardS (bits imm 0 30 == 0) .faultFormat
  guardS (p.a.rows == 1 && p.out.rows == 1 && p.out.size 0 % 2 == 0 && 2 * p.L ≤ p.out.size 0) .faultFormat
  let ea := storeExtent x p.a
  let eo := storeExtent x p.out
  guardS (!(extentsMeet ea eo) || (ea == eo && p.form.packed != 0)) .faultFormat
  workArea x p (8 * p.L + 64)
  if upset then internalFault x false
  else do
    let es ← selRow x p 0
    let ds := distinct es
    let ds := if ordered then sortBy (fun (a b : SelElem × Nat) => decide (a.1.key < b.1.key)) ds else ds
    let D := orDigits es
    let more := if ordered then 0 else 4
    match tornAt torn 0 (2 * D + 1 + more) with
    | some pass => do
      countPasses x (p.L * min (pass + 1) (2 * D + 2) + ds.length * (pass + 1 - (2 * D + 2)))
        (min pass (2 * D) + (pass - (2 * D + 1)))
      tornFault x 0 pass
    | none => countPasses x (p.L * (2 * D + 2) + more * ds.length) (2 * D + more)
    setSelMem x (digitBins (fun e => p.form.orderKey e) es) []
    winWrite x p.out.win (p.out.rowOff 0) (ds.flatMap (fun d => entryBytes d.1))
    winWrite x p.out.auxWin p.out.auxOff (ds.flatMap (fun d => toLE 4 d.2))
    writeFree x p.out.auxWin (p.out.auxOff + 4 * ds.length) (8 * p.L + 64 - 4 * ds.length)
    let s := sum48 (ds.map (·.1))
    let dup := es.filter (fun e => !(ds.any (fun d => d.1.pos == e.pos)))
    let o := sum48 dup
    let top := (sortBy (fun (a b : SelElem × Nat) => decide (a.1.key < b.1.key)) ds).getLast?
    putSummary x p 0 (summaryBytes ds.length (b2n s.2 + b2n o.2 * 2) s.1 o.1
      (match top with | some d => d.1.word | none => 0) (ds.foldl (fun m d => max m d.2) 0))
    onD (fun D => D.count x.block SEL_ROWS)
    selSats x (b2n s.2 + b2n o.2)
    pure {}

/-- SPLIT (R328). -/
def splitOp (x : OpCtx) (upset : Bool) (torn : Option (Nat × Nat)) : M OpResult := do
  let imm := opImm x.op.word
  let p ← selPrepare x (bits imm 30 2)
  guardS (bits imm 5 25 == 0 && bits imm 0 5 ≤ 24) .faultFormat
  guardS (p.a.rows == 1 && p.out.rows == 1 && p.out.size 0 == p.L) .faultFormat
  guardS (p.apart x) .faultFormat
  workArea x p 2048
  if upset then internalFault x false
  else do
    let es ← selRow x p 0
    countPasses x (2 * p.L) 2
    let digit (e : SelElem) : Nat := p.form.orderKey e / 2 ^ bits imm 0 5 % 256
    let ds := es.map digit
    setSelMem x (digitBins digit es) []
    let count (d : Nat) : Nat := (ds.filter (· == d)).length
    let start (d : Nat) : Nat := (ds.filter (· < d)).length
    winWrite x p.out.auxWin p.out.auxOff ((List.range 256).flatMap (fun d => toLE 4 (count d)))
    winWrite x p.out.auxWin (p.out.auxOff + 1024) ((List.range 256).flatMap (fun d => toLE 4 (start d)))
    match tornAt torn 0 1 with
    | some pass => tornFault x 0 pass
    | none => pure ()
    let dest := (List.range ds.length).map (fun i =>
      let d := ds.getD i 0
      start d + ((ds.take i).filter (· == d)).length)
    winWrite x p.out.win (p.out.rowOff 0) (dest.flatMap (toLE 4))
    let s := sum48 es
    putSummary x p 0 (summaryBytes p.L (b2n s.2) s.1 0 0 0)
    onD (fun D => D.count x.block SEL_ROWS)
    selSats x (b2n s.2)
    pure {}

/-- SEL_TOPK. upset: a parity error in the engine's memories (R315). -/
def execSelTopk (a : At) (core : Nat) (upset : Bool) (torn : Option (Nat × Nat)) (s : State) : Out :=
  onDie a s (fun D => D.runOp core 5 0x01 (fun x => pickOp x false upset torn))

/-- SEL_KTH. -/
def execSelKth (a : At) (core : Nat) (upset : Bool) (torn : Option (Nat × Nat)) (s : State) : Out :=
  onDie a s (fun D => D.runOp core 5 0x02 (fun x => pickOp x true upset torn))

/-- SEL_UNIQUE. -/
def execSelUnique (a : At) (core : Nat) (upset : Bool) (torn : Option (Nat × Nat)) (s : State) : Out :=
  onDie a s (fun D => D.runOp core 5 0x03 (fun x => uniqueOp x false upset torn))

/-- SEL_ORDERED_UNIQUE. -/
def execSelOrderedUnique (a : At) (core : Nat) (upset : Bool) (torn : Option (Nat × Nat)) (s : State) : Out :=
  onDie a s (fun D => D.runOp core 5 0x04 (fun x => uniqueOp x true upset torn))

/-- SEL_SPLIT. -/
def execSelSplit (a : At) (core : Nat) (upset : Bool) (torn : Option (Nat × Nat)) (s : State) : Out :=
  onDie a s (fun D => D.runOp core 5 0x05 (fun x => splitOp x upset torn))

end Sys2Proof.Machine
end

