-- ==== Sys2Proof/Machine/Hpu.lean ====
section
/-! DEFINITION. Voxel keys (R110-R112), hash tables (R121) and the hash probe unit (R134-R138). -/

namespace Sys2Proof.Machine

/-! ## Keys -/

/-- The Morton interleave of three 21-bit coordinates (R111). -/
def morton (X Y Z : Nat) : Nat :=
  (List.range 21).foldl (fun n i => n + bits X i 1 * 2 ^ (3 * i) + bits Y i 1 * 2 ^ (3 * i + 1)
    + bits Z i 1 * 2 ^ (3 * i + 2)) 0

/-- Coordinate a (0 X, 1 Y, 2 Z) of a key. -/
def unmorton (k a : Nat) : Nat := (List.range 21).foldl (fun n i => n + bits k (3 * i + a) 1 * 2 ^ i) 0

/-- The empty bucket's key (R111). -/
def emptyKey : Nat := 2 ^ 64 - 1

/-- Home bucket of a key in a table of 2^lg buckets (R121). -/
def homeBucket (k c lg : Nat) : Nat := k * c % 2 ^ 64 / 2 ^ (64 - lg)

/-- Linear probing (R121) from bucket j: the row, if the key is there, and the buckets read. bucket gives the key and
row of a bucket. -/
def probe (bucket : Nat → Nat × Nat) (k h size : Nat) : Nat → Nat → Option Nat × Nat
  | 0, j => (none, j)
  | fuel + 1, j =>
    let b := bucket ((h + j) % size)
    if b.1 = k then (some b.2, j + 1)
    else if b.1 = emptyKey then (none, j + 1)
    else probe bucket k h size fuel (j + 1)

/-- The first empty bucket for a key, and the buckets read. -/
def probeFree (used : Tab (Nat × Nat)) (h size : Nat) : Nat → Nat → Nat × Nat
  | 0, j => ((h + j) % size, j)
  | fuel + 1, j =>
    if (tabFind used ((h + j) % size)).isNone then ((h + j) % size, j + 1) else probeFree used h size fuel (j + 1)

/-- A bucket's 16 bytes (R121). -/
def bucketBytes (k row level : Nat) : List Byte := toLE 8 k ++ toLE 4 row ++ toLE 4 level
def emptyBucket : List Byte := toLE 8 emptyKey ++ toLE 8 0

/-! ## The unit -/

/-- U64 keys of a descriptor: I64 elements or pairs of U32 words (log entry 32). -/
def hpuKeys (x : OpCtx) (t : Tensor) : M (List Nat) := do
  guardS (t.comp == 0 && t.rows == 1 && (t.vtype == .i64 || (t.vtype == .u32 && t.size 0 % 2 == 0))) .faultFormat
  let b ← winRead x t.win t.off t.rowBytes
  pure ((List.range (t.rowBytes / 8)).map (fun i => field b (8 * i) 8))

def ascending : List Nat → Bool
  | a :: b :: t => decide (a < b) && ascending (b :: t)
  | _ => true

/-- Count an op's bucket reads and keep its longest probe (R143). -/
def hpuCount (x : OpCtx) (reads longest : Nat) : M Unit :=
  onD (fun D => (D.count x.block HPU_BUCKET_READS reads).setReg x.block HPU_LAST_MAX_PROBE longest)

/-- TILE_HASH (R135). -/
def tileHashOp (x : OpCtx) : M OpResult := do
  gateOnly x
  guardS (opImm x.op.word == 0) .faultFormat
  let a ← parseTensor x.op.da true
  let out ← parseTensor x.op.dout true
  guardS (out.comp == 0) .faultFormat
  checkExtent x a rRead (a.size 1) (a.size 0)
  checkExtent x out rWrite (out.size 1) (out.size 0)
  let keys ← hpuKeys x a
  let h ← winRead x out.win out.off 64
  let lg := field h 32 1
  let size := 2 ^ lg
  guardS (4 ≤ lg && lg ≤ 20 && ascending keys && 2 * keys.length ≤ size
    && out.off + 64 + 16 * size ≤ (x.window out.win).size) .faultFormat
  let st := (List.range keys.length).foldl (fun (st : Tab (Nat × Nat) × Nat × Nat) i =>
    let k := keys.getD i 0
    let r := probeFree st.1 (homeBucket k (field h 24 8) lg) size size 0
    (tabPut r.1 (k, field h 16 4 + i) st.1, st.2.1 + r.2, max st.2.2 r.2)) ([], 0, 0)
  winWrite x out.win out.off (toLE 8 (keys.headD emptyKey) ++ toLE 8 (keys.getLast?.getD emptyKey))
  winWrite x out.win (out.off + 20) (toLE 4 keys.length)
  let _ ← (List.range size).mapM (fun j => winWrite x out.win (out.off + 64 + 16 * j)
    (match tabFind st.1 j with | some p => bucketBytes p.1 p.2 (field h 33 1) | none => emptyBucket))
  hpuCount x st.2.1 st.2.2
  pure {}

/-- Offsets of a fixed set of radius r, in index order (R136). -/
def fixedSet (r : Nat) : List (Int × Int × Int) :=
  let w := 2 * r + 1
  (List.range (w * w * w)).map (fun i =>
    (((i % w : Nat) : Int) - r, ((i / w % w : Nat) : Int) - r, ((i / (w * w) : Nat) : Int) - r))

/-- One coordinate of the neighbour (R137); none: no neighbour. -/
def neighbourCoord (mode : Nat) (X : Nat) (d : Int) : Option Int :=
  match mode with
  | 0 => some ((X : Int) + d)
  | 1 => some (2 * (X : Int) + d)
  | _ => if ((X : Int) - d) % 2 = 0 then some (Int.fdiv ((X : Int) - d) 2) else none

/-- The neighbour's key at the tile's level, if its coordinates are in range (R137). -/
def neighbourKey (mode level : Nat) (key : Nat) (d : Int × Int × Int) : Option Nat :=
  match neighbourCoord mode (unmorton key 0) d.1, neighbourCoord mode (unmorton key 1) d.2.1,
      neighbourCoord mode (unmorton key 2) d.2.2 with
  | some a, some b, some c =>
    let ok (v : Int) : Bool := 0 ≤ v && v < ((2 ^ (21 - level) : Nat) : Int)
    if ok a && ok b && ok c then some (morton a.toNat b.toNat c.toNat) else none
  | _, _, _ => none

/-- What NMAP has found so far. -/
structure MapAcc where
  /-- pairs and spills written, newest first -/
  pairs : List (Nat × Nat) := []
  spills : List (Nat × Nat × Nat) := []
  needP : Nat := 0
  needS : Nat := 0
  reads : Nat := 0
  longest : Nat := 0

/-- NMAP (R136-R138). -/
def nmapOp (x : OpCtx) : M OpResult := do
  gateOnly x
  let imm := opImm x.op.word
  let mode := bits imm 0 2
  guardS (imm < 8 && mode < 3) .faultFormat
  let a ← parseTensor x.op.da true
  let b ← parseTensor x.op.db true
  let out ← parseTensor x.op.dout true
  guardS (b.comp == 0 && out.comp == 0) .faultFormat
  checkExtent x a rRead (a.size 1) (a.size 0)
  checkExtent x b rRead (b.size 1) (b.size 0)
  checkExtent x out rWrite (out.size 1) (out.size 0)
  let keys ← hpuKeys x a
  let th ← winRead x b.win b.off 64
  let lo := field th 0 8
  let hi := field th 8 8
  let c := field th 24 8
  let lg := field th 32 1
  let level := field th 33 1
  guardS (4 ≤ lg && lg ≤ 20) .faultFormat
  let mh ← winRead x out.win out.off 64
  let set := field mh 1 1
  let outLevel := field mh 2 1
  let base := field mh 8 4
  let pcap := field mh 12 4
  let scap := field mh 16 4
  guardS (field mh 0 1 == 1 && set ≤ 2) .faultFormat
  let offs ← if set < 2 then pure (fixedSet (set + 1)) else (do
    let k := field mh 4 2
    guardS (1 ≤ k && k ≤ 128) .faultFormat
    let es ← winRead x out.win (out.off + 64) (16 * k)
    pure ((List.range k).map (fun i =>
      (sext 8 (field es (16 * i) 1), sext 8 (field es (16 * i + 1) 1), sext 8 (field es (16 * i + 2) 1)))))
  let K := offs.length
  guardS (match mode with | 0 => level == outLevel | 1 => level + 1 == outLevel | _ => level == outLevel + 1) .faultFormat
  guardS (level ≤ 20) .faultFormat
  let total := 64 + 16 * K + 8 * pcap + 16 * scap
  checkWin x out.win out.off total rWrite
  let table ← winRead x b.win (b.off + 64) (16 * 2 ^ lg)
  let bucket (j : Nat) : Nat × Nat := (field table (16 * j) 8, field table (16 * j + 8) 4)
  let one (oi : Nat) (d : Int × Int × Int) (st : MapAcc) (i : Nat) : MapAcc :=
    if bit imm 2 && mode == 0 && d == (0, 0, 0) then st
    else match neighbourKey mode level (keys.getD i 0) d with
      | none => st
      | some k =>
        if k < lo ∨ hi < k then
          { st with needS := st.needS + 1,
                    spills := if st.spills.length < scap then (k, base + i, oi) :: st.spills else st.spills }
        else
          let r := probe bucket k (homeBucket k c lg) (2 ^ lg) (2 ^ lg) 0
          let st := { st with reads := st.reads + r.2, longest := max st.longest r.2 }
          match r.1 with
          | none => st
          | some row =>
            { st with needP := st.needP + 1,
                      pairs := if st.pairs.length < pcap then (row, base + i) :: st.pairs else st.pairs }
  let run := (List.range K).foldl (fun (st : MapAcc × List Byte) oi =>
    let d := offs.getD oi (0, 0, 0)
    let acc := (List.range keys.length).foldl (one oi d) st.1
    let entry := toLE 1 (wrapN 8 d.1) ++ toLE 1 (wrapN 8 d.2.1) ++ toLE 1 (wrapN 8 d.2.2) ++ toLE 1 0
      ++ toLE 4 st.1.pairs.length ++ toLE 4 (acc.pairs.length - st.1.pairs.length) ++ toLE 4 0
    (acc, st.2 ++ entry)) ({}, [])
  let r := run.1
  let pairs := r.pairs.reverse
  let spills := r.spills.reverse
  if set < 2 then winWrite x out.win (out.off + 4) (toLE 2 K)
  winWrite x out.win (out.off + 20) (toLE 4 pairs.length ++ toLE 4 r.needP ++ toLE 4 r.needS)
  winWrite x out.win (out.off + 64) run.2
  winWrite x out.win (out.off + 64 + 16 * K) (pairs.flatMap (fun p => toLE 4 p.1 ++ toLE 4 p.2))
  winWrite x out.win (out.off + 64 + 16 * K + 8 * pcap)
    (spills.flatMap (fun p => toLE 8 p.1 ++ toLE 4 p.2.1 ++ toLE 1 p.2.2 ++ toLE 3 0))
  hpuCount x r.reads r.longest
  onD (fun D => ((D.count x.block HPU_PAIRS pairs.length).count x.block HPU_SPILLS spills.length).setReg x.block
    HPU_LAST_PAIRS_NEEDED (min r.needP (2 ^ 32 - 1)))
  if pcap < r.needP ∨ scap < r.needS then do
    onD (fun D => D.boundary x.cluster x.port)
    throw { status := .faultBounds, loc := out.off, cause := out.win, clean := true }
  else pure {}

/-- LOWER (R134). -/
def lowerOp (x : OpCtx) : M OpResult := do
  gateOnly x
  guardS (opImm x.op.word == 0) .faultFormat
  let a ← parseTensor x.op.da true
  let b ← parseTensor x.op.db true
  let out ← parseTensor x.op.dout true
  checkExtent x a rRead (a.size 1) (a.size 0)
  checkExtent x b rRead (b.size 1) (b.size 0)
  checkExtent x out rWrite (out.size 1) (out.size 0)
  let ks ← hpuKeys x a
  let qs ← hpuKeys x b
  guardS (out.comp == 0 && out.vtype == .u32 && out.rows == 1 && out.size 0 == qs.length) .faultFormat
  winWrite x out.win out.off (qs.flatMap (fun q => toLE 4 ((firstIdx (fun k => decide (q ≤ k)) ks 0).getD ks.length)))
  hpuCount x 0 0
  pure {}

/-- HPU_TILE_HASH. -/
def execHpuTileHash (a : At) (core : Nat) (s : State) : Out :=
  onDie a s (fun D => D.runOp core 6 0x01 tileHashOp)

/-- HPU_NMAP. -/
def execHpuNmap (a : At) (core : Nat) (s : State) : Out :=
  onDie a s (fun D => D.runOp core 6 0x02 nmapOp)

/-- HPU_LOWER. -/
def execHpuLower (a : At) (core : Nat) (s : State) : Out :=
  onDie a s (fun D => D.runOp core 6 0x03 lowerOp)

end Sys2Proof.Machine
end

