-- ==== Sys2Proof/Machine/Seq.lean ====
section
/-! DEFINITION. The tasks family (R184-R188), the start of engine ops with their tokens and seal gates (R193, R194,
R296-R298), and the ops of the sequencer (R196, R197). -/

namespace Sys2Proof.Machine

/-! ## Commands of the tasks family -/

/-- Is core i in the start steps of R187 with task t: at the head of its queue, waiting for its windows (log entry 33)? -/
def DieState.coreStarting (D : DieState) (t : Task) (i : Nat) : Bool :=
  (D.core i).task.isNone && (D.core i).launch.head? == some t.id && D.checkWindows t (i / 4) == .wait

/-- Where a core stands in a task: 0 not in it, 1 queued, 2 starting, 3 running, 4 ended (log entry 33). -/
def DieState.coreState (D : DieState) (t : Task) (i : Nat) : Nat :=
  match t.stages.find? (fun e => e.1 == i) with
  | none => 0
  | some (_, .queued) => if D.coreStarting t i then 2 else 1
  | some (_, .running) => 3
  | some (_, .ended) => 4

/-- TASK_STATUS. -/
def taskStatus (c : Cmd) : M (List Byte) := do
  let D ← get
  match D.taskOf (c.p 0 4) with
  | none => failWith .faultStaleGeneration
  | some t =>
    guardS (t.inst == c.inst) .refusedRole
    pure ((List.range 16).flatMap (fun i => toLE 1 (D.coreState t i)))

/-- TASK_QUERY_CORE. -/
def taskQueryCore (c : Cmd) : M (List Byte) := do
  let D ← get
  let g := c.p 0 4
  guardS (g / 16 == D.num) .faultBounds
  let i := g % 16
  guardS (D.clusterOwner (i / 4) == some c.inst) .refusedRole
  let k := D.core i
  pure (toLE 4 (k.task.getD 0) ++ toLE 4 k.launch.length ++ toLE 4 k.pc)

/-- TASK_LAUNCH: accepted, its reply comes when the task ends (R184-R188). -/
def execTaskLaunch (a : At) (id : Nat) (rivals : List Nat) (s : State) : Out :=
  onDie a s (fun D => D.runCmd 0x0200 id (fun c D => D.replyOpt c (do taskLaunch rivals c; pure none)))

/-- TASK_STATUS. -/
def execTaskStatus (a : At) (id : Nat) (s : State) : Out :=
  onDie a s (fun D => D.runCmd 0x0201 id (fun c D => D.replyM c (taskStatus c)))

/-- TASK_QUERY_CORE. -/
def execTaskQueryCore (a : At) (id : Nat) (s : State) : Out :=
  onDie a s (fun D => D.runCmd 0x0202 id (fun c D => D.replyM c (taskQueryCore c)))

/-! ## Seal gates (R296-R298) and dispatch (R190-R192) -/

/-- Slots of R199: the seal slot an op signals must be valid, and only then. -/
def slotOk (x : OpCtx) : Bool :=
  let s := field x.op.dout 42 1
  let named := !x.op.dout.isEmpty && s != 0xFF
  (!named || (s < 16 && bit (tdSlot x.task.desc s) 24)) && (!(opSealSignal x.op.word) || named)

/-- The seal gate of an op's program, if it has one (R284, R285): slot, target, timeout in µs. -/
def gateOf (x : OpCtx) : M (Option (Nat × Nat × Nat)) := do
  let prog ← readProgram x
  match (prog.getD []).find? (fun s => s.kind == 0x11) with
  | none => pure none
  | some s => pure (some (s.win, s.off, field s.raw 8 4))

/-- Is the seal of a gate at its target? Not under another generation, nor where the slot names no seal to wait on (R197,
R297). -/
def DieState.gateMet (D : DieState) (t : Task) (slot target : Nat) : Except Status Bool :=
  let ref := tdSlot t.desc slot
  let sl := D.sealOf (refNum ref)
  if !(bit ref 24) then .error .faultFormat
  else if !sl.alloc || sl.gen != refGen ref then .error .faultStaleGeneration
  else if sl.door.isSome then .error .faultFormat
  else .ok (decide (target ≤ sl.counter))

/-- Note the state of the gate of engine e's head. -/
def DieState.setGate (D : DieState) (i e gate : Nat) : DieState :=
  D.onEngine i e (fun g => { g with queue := g.queue.modifyHead (fun h => { h with gate := gate }) })

/-- The head of engine e waits for its gate's seal, until its timeout, which counts from when it reached the head (R297). -/
def DieState.holdGate (D : DieState) (i e : Nat) (t : Task) (op : OpEntry) (g : Nat × Nat × Nat) : DieState :=
  let dl := if g.2.2 = 0 then none else some (op.headSince + g.2.2 * 1000)
  let w : Wait := { who := .gate i e, num := refNum (tdSlot t.desc g.1), target := g.2.1, deadline := dl }
  DieState.setGate { D with cmd := { D.cmd with waits := D.cmd.waits ++ [w] } } i e 1

/-- An op has reached the head of engine e's queue: its gate is open, holds it, or faults its task; one that cannot be read, or
whose slot names no seal, is left to the start checks (R287, R297). -/
def DieState.headGate (D : DieState) (i e : Nat) : DieState :=
  match D.runningTask i, ((D.core i).engine e).queue.head? with
  | some t, some op =>
    if op.gate ≠ 0 then D
    else if opChain op.word = 0xFFFF then D.setGate i e 6
    else match runM (gateOf ({ core := i, eng := e, task := t, op := op } : OpCtx)) D with
      | (.error _, _) => D
      | (.ok none, D') => D'.setGate i e 6
      | (.ok (some g), D') =>
        let D' := D'.onEngine i e (fun x => { x with queue := x.queue.modifyHead (fun h => { h with gateAt := some g }) })
        match D'.gateMet t g.1 g.2.1 with
        | .error .faultStaleGeneration => D'.faultTask i e op .faultStaleGeneration 0 0 0
        | .error _ => D'.setGate i e 2
        | .ok true => (D'.countWait .ok).setGate i e 2
        | .ok false => D'.holdGate i e t op g
  | _, _ => D

/-- Dispatch the next op of core i (R190-R192, R300). -/
def DieState.dispatch (D : DieState) (i : Nat) : DieState :=
  match D.runningTask i with
  | none => D
  | some t =>
    let k := D.core i
    let D := D.work (coreBlock i 0)
    if k.ended || k.seq.isSome then D
    else if tdOpCount t.desc ≤ k.pc then
      D.faultTask i 0 { idx := k.pc, word := 0 } .faultBounds 0 0 0
    else
      let D := D.prefetch i
      match D.nextOp i t with
      | none => D
      | some (w, bad, off) =>
        let e := opEngine w
        let op : OpEntry := { idx := k.pc, word := w, headSince := D.now }
        if off then D.faultTask i 0 op .faultBounds 0 (opOffset t.desc k.pc) 0
        else if bad then
          (D.parityError (i / 4) (enginePort (i % 4) 0) (opOffset t.desc k.pc)).faultTask i 0 op
            .faultParityPersistent 3 (opOffset t.desc k.pc) 0
        else if !opWordOk t.desc w then D.faultTask i 0 op .faultFormat 0 0 0
        else if k.deadlocked w then D.deadlockFault t
        else if e = 0 then
          if !k.hasTokens (opWait w) then D
          else
            (D.onCore i (fun k => { (k.takeTokens (opWait w)) with seq := some op, pc := k.pc + 1 })).count (coreBlock i 0)
              SEQ_OPS_DISPATCHED
        else if 8 ≤ (k.engine e).queue.length then D
        else if opChainIn w && k.chained.isEmpty then D.faultTask i 0 op .faultFormat 0 0 0
        else
          let rest := if opChainIn w then k.chained.tail else k.chained
          if opChainOut w && 2 ≤ rest.length then D.faultTask i 0 op .faultFormat 0 0 0
          else
            let op := { op with
              da := k.descCopy (opDescA w), db := k.descCopy (opDescB w), dout := k.descCopy (opDescOut w),
              table := if opChain w = 0xFFFF then [] else k.descs,
              inBuf := if opChainIn w then k.chained.head? else none,
              outBuf := if opChainOut w then some k.nextBuf else none, ord := k.issued }
            let D := D.onCore i (fun k => { k with
              chained := if opChainOut w then rest ++ [k.nextBuf] else rest,
              nextBuf := if opChainOut w then 1 - k.nextBuf else k.nextBuf, pc := k.pc + 1, issued := k.issued + 1 })
            let D := if opChainOut w then D.onCore i (fun c => if k.nextBuf = 0 then { c with buf0 := { c.buf0 with producer := e } }
                else { c with buf1 := { c.buf1 with producer := e } }) else D
            let D := (D.onEngine i e (fun x => { x with queue := x.queue ++ [op] })).count (coreBlock i 0) SEQ_OPS_DISPATCHED
            if (k.engine e).queue.isEmpty then D.headGate i e else D

/-! ## Cores -/

/-- TASK_START. -/
def execTaskStart (a : At) (core : Nat) (s : State) : Out := onDie a s (fun D => D.startTask core)

/-- OP_DISPATCH. -/
def execOpDispatch (a : At) (core : Nat) (s : State) : Out := onDie a s (fun D => D.dispatch core)

/-- OP_COMPLETE. -/
def execOpComplete (a : At) (core engine : Nat) (s : State) : Out := onDie a s (fun D => D.opComplete core engine)

/-- OP_RERUN. -/
def execOpRerun (a : At) (core engine : Nat) (s : State) : Out := onDie a s (fun D => D.opRerun core engine)

/-- TASK_LIMIT_EXPIRE. -/
def execTaskLimitExpire (a : At) (task : Nat) (s : State) : Out := onDie a s (fun D => D.limitExpire task)

/-! ## Start of an engine op -/

/-- Is there room for an op in engine e's flight, the weight slots it needs first free (R219, R262)? -/
def Engine.room (g : Engine) (e : Nat) (op : OpEntry) : Bool :=
  let alone (w : Nat) : Bool := e == 2 && 0x20 ≤ opCode w
  g.run.length < inFlight e && (!(alone op.word) || g.run.isEmpty) && !(g.run.any (fun r => alone r.op.word))
  && g.slotsFree (slotUse e op).1

/-- May the head of engine e start for its tokens and place: free, tokens there, its gate open or none (R193)? -/
def Core.headReady (k : Core) (e : Nat) : Bool :=
  let g := k.engine e
  match g.queue.head? with
  | none => false
  | some op => g.room e op && k.hasTokens (opWait op.word) && op.gate != 1 && op.gate != 4 && op.gate != 5

/-- Would a lower engine code take the last token that engine e needs (R194)? seqMask: the wait mask of a SEQ op that
could start. -/
def Core.outbid (k : Core) (e seqMask : Nat) (mask : Nat) : Bool :=
  let rivals := (List.range e).filter (fun f => f != 0 && k.headReady f)
  let masks := (if seqMask ≠ 0 ∧ k.hasTokens seqMask = true then [seqMask] else [])
    ++ rivals.map (fun f => match (k.engine f).queue.head? with | some op => opWait op.word | none => 0)
  (List.range 8).any (fun i => bit mask i && k.tokens.getD i 0 ≤ (masks.filter (fun m => bit m i)).length
    && masks.any (fun m => bit m i))

/-- The head of engine e enters flight (R193), with the result of its start checks where they fail it; atDl: its gate opened
in the cycle of its timeout (R297). The next op reaches the head. -/
def DieState.enterFlight (D : DieState) (i e : Nat) (t : Task) (op : OpEntry) (res : Option OpResult) (atDl : Bool) : DieState :=
  let D := (D.work (coreBlock i e)).onCore i (fun k => k.takeTokens (opWait op.word))
  let D := if atDl then D.orFlags t.id 4 else D
  (D.onEngine i e (fun g => { g with
    queue := match g.queue.tail with
      | h :: t => { h with headSince := D.now } :: t
      | [] => []
    run := g.run ++ [{ op := op, result := res, atDl := atDl, lanes := g.lanes, slot0 := g.nextSlot,
                       slots := g.takenSlots (slotUse e op) }]
    nextSlot := (g.nextSlot + (slotUse e op).2.2) % 4 })).headGate i e

/-- The next op's word, if it is a SEQ op that waits for nothing but tokens. -/
def DieState.seqMask (D : DieState) (i : Nat) (t : Task) : Nat :=
  if (D.core i).ended || (D.core i).seq.isSome then 0
  else match D.nextOp i t with
    | some (w, false, false) => if opEngine w = 0 then opWait w else 0
    | _ => 0

/-- The start checks' word on an op's seal slot (R199). -/
def slotResult (x : OpCtx) : Option OpResult := if slotOk x then none else some { status := .faultFormat }

/-- Start the head of engine e of core i, its tokens there and its gate open or none, if no lower engine takes the token
(R193, R194, R199). -/
def DieState.tokensStart (D : DieState) (i e : Nat) (t : Task) (op : OpEntry) : DieState :=
  if (D.core i).outbid e (D.seqMask i t) (opWait op.word) then D
  else D.enterFlight i e t op (slotResult { core := i, eng := e, task := t, op := op }) (op.gate == 3)

/-- Start the head of engine e of core i, if it can start (R193, R194, R219, R262, R296, R297). -/
def DieState.engineStart (D : DieState) (i e : Nat) : DieState :=
  let D := D.pastDeadlines.headGate i e
  match D.runningTask i, ((D.core i).engine e).queue.head? with
  | some t, some op =>
    let k := D.core i
    if op.gate = 4 then (D.count32 (coreBlock i 4) VU_GATE_TIMEOUTS).faultTask i e op .faultTimeout 0 0 0
    else if op.gate = 5 then D.faultTask i e op .faultStaleGeneration 0 0 0
    else if op.gate = 1 || !((k.engine e).room e op) then D
    else if !k.hasTokens (opWait op.word) then
      if (D.deadlockOp t i).isSome then D.deadlockFault t else D
    else if op.gate = 0 then
      match runM (gateOf ({ core := i, eng := e, task := t, op := op } : OpCtx)) D with
      | (.error f, D') => D'.enterFlight i e t op (some f.result) false
      | (.ok _, _) => D
    else match op.gateAt with
      | none => D.tokensStart i e t op
      | some g =>
        match D.gateMet t g.1 g.2.1 with
        | .error .faultStaleGeneration => D.faultTask i e op .faultStaleGeneration 0 0 0
        | .error st => D.enterFlight i e t op (some { status := st }) false
        | .ok false => D.holdGate i e t op g
        | .ok true => D.tokensStart i e t op
  | _, _ => D

/-- ENGINE_OP_START. -/
def execEngineOpStart (a : At) (core engine : Nat) (s : State) : Out := onDie a s (fun D => D.engineStart core engine)

/-! ## SEQ ops (R196, R197) -/

/-- The SEQ op of core i has finished: its signal mask is applied, and the op after it is next. -/
def DieState.finishSeq (D : DieState) (i : Nat) (op : OpEntry) (next : Nat) : DieState :=
  let a := (D.core i).addTokens (opSignal op.word)
  let D := D.onCore i (fun _ => { a.1 with seq := none, sealWait := none, pc := next, opsDone := a.1.opsDone + 1 })
  if a.2 then D.faultTask i 0 op .faultOverrun 0 0 0 else D.maybeFinish i

/-- Carry out the SEQ op that core i holds, when it has the opcode. -/
def DieState.seqOp (D : DieState) (i code : Nat) (body : Task → OpEntry → DieState → DieState) : DieState :=
  match D.runningTask i, (D.core i).seq with
  | some t, some op => if opCode op.word = code then body t op D else D
  | _, _ => D

/-- A SEQ op that faults. -/
def DieState.seqFault (D : DieState) (i : Nat) (op : OpEntry) (st : Status) : DieState := D.faultTask i 0 op st 0 0 0

/-- SEQ_NOP. -/
def execSeqNop (a : At) (core : Nat) (s : State) : Out :=
  onDie a s (fun D => D.seqOp core 0x00 (fun _ op D => D.finishSeq core op (op.idx + 1)))

/-- SEQ_END: a chain buffer still pending is a format fault (R300). -/
def execSeqEnd (a : At) (core : Nat) (s : State) : Out :=
  onDie a s (fun D => D.seqOp core 0x01 (fun _ op D =>
    if (D.core core).chained.isEmpty then
      (D.onCore core (fun k => { k with ended := true })).finishSeq core op (op.idx + 1)
    else D.seqFault core op .faultFormat))

/-- LOOP_SET. -/
def execLoopSet (a : At) (core : Nat) (s : State) : Out :=
  onDie a s (fun D => D.seqOp core 0x02 (fun _ op D =>
    (D.onCore core (fun k => { k with loops := k.loops.set (bits (opDescA op.word) 0 2) (opImm op.word) })).finishSeq
      core op (op.idx + 1)))

/-- LOOP_BRANCH. -/
def execLoopBranch (a : At) (core : Nat) (s : State) : Out :=
  onDie a s (fun D => D.seqOp core 0x03 (fun t op D =>
    let r := bits (opDescA op.word) 0 2
    let L := (D.core core).loops.getD r 0
    let D := if L = 0 then D else D.onCore core (fun k => { k with loops := k.loops.set r (L - 1) })
    if L ≤ 1 then D.finishSeq core op (op.idx + 1)
    else
      let target := (op.idx : Int) + sext 32 (opImm op.word)
      if 0 ≤ target ∧ target < (tdOpCount t.desc : Int) then D.finishSeq core op target.toNat
      else D.seqFault core op .faultBounds))

/-- SEQ_SEAL_WAIT (R197, R427): registered once, finished when the seal unit ends it. -/
def execSeqSealWait (a : At) (core : Nat) (s : State) : Out :=
  onDie a s (fun D => D.seqOp core 0x04 (fun t op D =>
    let ref := tdSlot t.desc (bits (opDescA op.word) 0 4)
    match (D.core core).sealWait with
    | some 0 => D
    | some 2 => D.finishSeq core op (op.idx + 1)
    | some 3 => (D.orFlags t.id 4).finishSeq core op (op.idx + 1)
    | some 4 => D.seqFault core op .faultTimeout
    | some _ => D.seqFault core op .faultStaleGeneration
    | none =>
      let sl := D.sealOf (refNum ref)
      if !(bit ref 24) then D.seqFault core op .faultFormat
      else if !sl.alloc || sl.gen != refGen ref then D.seqFault core op .faultStaleGeneration
      else if sl.door.isSome then D.seqFault core op .faultFormat
      else if opImm op.word ≤ sl.counter then (D.countWait .ok).finishSeq core op (op.idx + 1)
      else
        let D := D.onCore core (fun k => { k with sealWait := some 0 })
        { D with cmd := { D.cmd with
          waits := D.cmd.waits ++ [{ who := .seq core, num := refNum ref, target := opImm op.word,
                                     deadline := deadlineOf D.now (opDescB op.word) }] } }))

/-- SEQ_SEAL_SIGNAL. -/
def execSeqSealSignal (a : At) (core : Nat) (s : State) : Out :=
  onDie a s (fun D => D.seqOp core 0x05 (fun t op D =>
    let slot := bits (opDescA op.word) 0 4
    if bit (tdSlot t.desc slot) 24 then
      (D.slotSignal t slot (opImm op.word) (.task t.id core 0 op.idx)).finishSeq core op (op.idx + 1)
    else D.seqFault core op .faultFormat))

/-- Word w of descriptor i of a core's private memory, and its change. -/
def Core.descWord (k : Core) (i w : Nat) : Nat := field (k.descs.getD i []) (4 * w) 4
def Core.patch (k : Core) (i w v : Nat) : Core :=
  { k with descs := k.descs.set i (putBytes (k.descs.getD i []) (4 * w) (toLE 4 v)) }

/-- A patch: word w of descriptor desc_a becomes f of the core (R196). -/
def DieState.patchOp (D : DieState) (core : Nat) (op : OpEntry) (f : Core → Nat) : DieState :=
  (D.onCore core (fun k => k.patch (opDescA op.word) (bits (opDescB op.word) 0 4) (f k % 2 ^ 32))).finishSeq core op
    (op.idx + 1)

/-- PATCH_SET. -/
def execPatchSet (a : At) (core : Nat) (s : State) : Out :=
  onDie a s (fun D => D.seqOp core 0x06 (fun _ op D => D.patchOp core op (fun _ => opImm op.word)))

/-- PATCH_ADD. -/
def execPatchAdd (a : At) (core : Nat) (s : State) : Out :=
  onDie a s (fun D => D.seqOp core 0x07 (fun _ op D => D.patchOp core op (fun k =>
    k.descWord (opDescA op.word) (bits (opDescB op.word) 0 4) + opImm op.word)))

/-- PATCH_LOOP. -/
def execPatchLoop (a : At) (core : Nat) (s : State) : Out :=
  onDie a s (fun D => D.seqOp core 0x08 (fun _ op D => D.patchOp core op (fun k =>
    k.descWord (opDescA op.word) (bits (opDescB op.word) 0 4)
      + k.loops.getD (bits (opDescB op.word) 4 2) 0 * opImm op.word)))

/-- RESEED: once DTE, STE, MVP and VU are idle with empty queues. -/
def execReseed (a : At) (core : Nat) (s : State) : Out :=
  onDie a s (fun D => D.seqOp core 0x09 (fun _ op D =>
    if [1, 2, 3, 4].all (fun e => ((D.core core).engine e).idle) then
      (D.onCore core (fun k => k.seedAll (opImm op.word))).finishSeq core op (op.idx + 1)
    else D))

/-- SEQ_DRAIN: once the named engines are idle with empty queues. -/
def execSeqDrain (a : At) (core : Nat) (s : State) : Out :=
  onDie a s (fun D => D.seqOp core 0x0A (fun _ op D =>
    let m := bits (opImm op.word) 1 7
    if (List.range 7).all (fun j => !(m == 0 || bit m j) || ((D.core core).engine (j + 1)).idle) then
      D.finishSeq core op (op.idx + 1)
    else D))

end Sys2Proof.Machine
end

