-- ==== Sys2Proof/Machine/Clocks.lean ====
section
/-! DEFINITION. Island groups and their operating points (R582, R583, R586-R590), reference clocks (R598),
temperatures and their caps (R597), rails (R596). -/

namespace Sys2Proof.Machine

/-! ## Operating points -/

/-- Points of an island group (R582, R583): groups 0-3 the clusters, 4 stipple, 5 forager, 6 spine, 7 seal unit. -/
def groupPoints (g : Nat) : Nat := if g < 4 then 4 else if g < 6 then 3 else 2

/-- Islands of a group. -/
def groupIslands (g : Nat) : List Nat :=
  if g < 4 then [3 + 4 * g, 4 + 4 * g, 5 + 4 * g, 6 + 4 * g, 19 + g]
  else if g = 4 then [24] else if g = 5 then [26] else if g = 6 then [23] else [38]

/-- The cap on cluster groups (R597): 3 none, 2 OP2, 0 OP0. -/
def DieState.cap (D : DieState) : Nat := if D.pwr.die.critical then 0 else if D.pwr.die.warm then 2 else 3

def DieState.setPoint (D : DieState) (g : Nat) : Nat := D.clk.sets.getD g 0
def DieState.runPoint (D : DieState) (g : Nat) : Nat := D.clk.points.getD g 0

/-- The point a group should run at: the one set last, held by the cap (R597). -/
def DieState.wantPoint (D : DieState) (g : Nat) : Nat :=
  if g < 4 then min (D.setPoint g) D.cap else D.setPoint g

/-- Does the group run at a point, off the bridge clock? -/
def DieState.runsAt (D : DieState) (g p : Nat) : Bool :=
  D.runPoint g == p && (groupIslands g).all (fun i => !(D.clk.bridge.contains i))

def DieState.onClk (D : DieState) (f : ClkState → ClkState) : DieState := { D with clk := f D.clk }

/-- End a SET_OP with the time its group spent on the bridge clock (R590). -/
def DieState.replyHold (D : DieState) (cmd : Option Nat) (st : Status) (hold : Nat) : DieState :=
  match cmd with
  | some id => D.replyId id st 0 (if st.isOk then toLE 8 hold else [])
  | none => D

/-- Put a group on the bridge clock (R586). -/
def DieState.toBridge (D : DieState) (g : Nat) : DieState :=
  D.onClk (fun k => { k with bridge := k.bridge.filter (fun i => !((groupIslands g).contains i)) ++ groupIslands g })

/-- Start a change of a group to a point: raising steps the voltage first, lowering goes to the bridge clock at once;
a group without a regulator goes to the bridge clock at once (R586). A group that runs at the point is done (R589). -/
def DieState.startChange (D : DieState) (g p : Nat) (cmd : Option Nat) : DieState :=
  if D.runsAt g p then D.replyHold cmd .ok 0
  else
    let raising := decide (D.runPoint g < p)
    let volt := decide (g < 4) && decide (D.clk.volts.getD g 0 < p)
    let c : OpChange := { group := g, point := p, raising := raising, stage := if volt then 0 else 1,
                          bridgeSince := D.now, cmd := cmd }
    let D := D.onClk (fun k => { k with changes := k.changes ++ [c] })
    if volt then D else D.toBridge g

/-- Ask for a change: it waits behind one of its group in progress (R589). -/
def DieState.requestChange (D : DieState) (g p : Nat) (cmd : Option Nat) : DieState :=
  if D.clk.changes.any (fun c => c.group == g) then
    D.onClk (fun k => { k with waiting := k.waiting ++ [(g, p, cmd)] })
  else D.startChange g p cmd

/-- A group's change has ended: the next request that waits for it starts (R589). -/
def DieState.nextChange (D : DieState) (g : Nat) : Nat → DieState
  | 0 => D
  | fuel + 1 =>
    if D.clk.changes.any (fun c => c.group == g) then D
    else match D.clk.waiting.find? (fun w => w.1 == g) with
      | none => if D.runPoint g = D.wantPoint g ∨ 4 ≤ g then D else D.startChange g (D.wantPoint g) none
      | some w =>
        let D := D.onClk (fun k => { k with waiting := k.waiting.erase w })
        (D.startChange g (if g < 4 then min w.2.1 D.cap else w.2.1) w.2.2).nextChange g fuel

/-- The change of a group in progress. -/
def DieState.changeOf (D : DieState) (g : Nat) : Option OpChange := D.clk.changes.find? (fun c => c.group == g)

/-- Remove a group's change, reply, and go on. -/
def DieState.endChange (D : DieState) (c : OpChange) (st : Status) : DieState :=
  let D := D.onClk (fun k => { k with changes := k.changes.filter (fun x => x.group != c.group) })
  let D := D.replyHold c.cmd st c.hold
  D.nextChange c.group (D.clk.waiting.length + 1)

def DieState.mapChange (D : DieState) (g : Nat) (f : OpChange → OpChange) : DieState :=
  D.onClk (fun k => { k with changes := k.changes.map (fun c => if c.group = g then f c else c) })

/-- SET_OP (R590). -/
def setOp (c : Cmd) : M (Option (List Byte)) := do
  let g := c.p 0 4
  let p := c.p 4 4
  okField (g < 8) 0
  okField (p < groupPoints g) 4
  onD (fun D => D.onClk (fun k => { k with sets := k.sets.set g p }))
  onD (fun D => (D.started c.id).requestChange g (D.wantPoint g) (some c.id))
  pure none

/-- The regulator's output has settled (R586). -/
def DieState.voltageStep (D : DieState) (g : Nat) : DieState :=
  match D.changeOf g with
  | none => D
  | some c =>
    if c.stage = 0 then
      let D := D.onClk (fun k => { k with volts := k.volts.set g c.point })
      (D.mapChange g (fun c => { c with stage := 1, bridgeSince := D.now })).toBridge g
    else if c.stage = 2 then
      (D.onClk (fun k => { k with volts := k.volts.set g c.point })).endChange c .ok
    else D

/-- The monitor has passed: the group leaves the bridge clock (R586, R587). -/
def DieState.freqDone (D : DieState) (g : Nat) : DieState :=
  match D.changeOf g with
  | none => D
  | some c =>
    if c.stage ≠ 1 then D
    else
      let hold := D.now - c.bridgeSince
      let D := D.onClk (fun k => { k with
        bridge := k.bridge.filter (fun i => !((groupIslands g).contains i)), points := k.points.set g c.point })
      let D := (groupIslands g).foldl (fun D i =>
        (D.count32 B_CLK CLK_ISL_CHANGES 1 i).setReg B_CLK CLK_LAST_HOLD_NS hold i) D
      let c := { c with hold := hold }
      if g < 4 ∧ c.point < D.clk.volts.getD g 0 then D.mapChange g (fun x => { x with stage := 2, hold := hold })
      else D.endChange c .ok

/-- The monitor has not passed within 3 µs: the group stays on the bridge clock and at the higher voltage (R587). -/
def DieState.freqTimeout (D : DieState) (g : Nat) : DieState :=
  match D.changeOf g with
  | none => D
  | some c =>
    if c.stage = 1 ∧ c.bridgeSince + 3000 ≤ D.now then
      let D := (D.cause B_CLK 2).event
        { cls := 2, code := 0x03, island := (groupIslands g).headD 0, ident := g,
          status := Status.faultInternal.code }
      let D := D.onClk (fun k => { k with changes := k.changes.filter (fun x => x.group != g) })
      let D := D.replyHold c.cmd .faultInternal 0
      match D.clk.waiting.find? (fun w => w.1 == g) with
      | some _ => D.nextChange g (D.clk.waiting.length + 1)
      | none => D
    else D

/-- A running island measured out of tolerance (R588). Islands of a group in a change are not judged. -/
def DieState.monitorFault (D : DieState) (i : Nat) : DieState :=
  if 39 < i ∨ D.clk.changes.any (fun c => (groupIslands c.group).contains i) = true then D
  else
    let D := D.onClk (fun k => { k with bridge := if k.bridge.contains i then k.bridge else k.bridge ++ [i] })
    let D := (D.count32 B_CLK CLK_ISL_MON_FAULTS 1 i).cause B_CLK 1
    (D.event { cls := 2, code := 0x02, island := i, ident := i }).clockSeen.doubt 7

/-- A cap has changed: every cluster group goes to the point it should run at (R597). -/
def DieState.applyCap (D : DieState) : DieState :=
  (List.range 4).foldl (fun D g =>
    if D.runPoint g = D.wantPoint g then D else D.requestChange g (D.wantPoint g) none) D

/-! ## References (R598) -/

/-- A 100 MHz input is lost: 0 A, 1 B. -/
def DieState.refLoss (D : DieState) (which : Nat) : DieState :=
  let was := if which = 0 then D.clk.refA else D.clk.refB
  if !was || decide (1 < which) then D
  else
    let D := D.onClk (fun k => if which = 0 then { k with refA := false } else { k with refB := false })
    let D := (D.cause B_CLK 0).event { cls := 2, code := 0x01, ident := which }
    if D.clk.refA || D.clk.refB then D.onClk (fun k => { k with selB := !k.refA })
    else (D.onClk (fun k => { k with osc := true })).clockSeen.doubt 7

/-- A 100 MHz input, or the Ethernet reference (2), is present again. -/
def DieState.refReturn (D : DieState) (which : Nat) : DieState :=
  let was := if which = 0 then D.clk.refA else D.clk.refB
  if which = 2 then D.onClk (fun k => { k with refEth := true })
  else if was || decide (2 < which) then D
  else
    let D := D.onClk (fun k => if which = 0 then { k with refA := true } else { k with refB := true })
    if D.clk.osc then (D.onClk (fun k => { k with osc := false, selB := decide (which ≠ 0) })).clockSeen else D

/-- The difference of the oscillator from the reference is measured: above 1 % it is doubt 7 (R526). -/
def DieState.oscMeasure (D : DieState) (ppm : Int) : DieState :=
  let was := decide (10000 < D.clk.oscPpm.natAbs)
  let bad := decide (10000 < ppm.natAbs)
  let D := D.onClk (fun k => { k with oscPpm := ppm })
  if bad == was then D else if bad then D.clockSeen.doubt 7 else D.clockSeen

/-! ## Temperatures (R597) -/

/-- The next state of a monitored temperature: a condition is entered above its threshold, or without a valid
reading for 3 ms, and ends after 100 ms at 3 degrees below. -/
def TempState.sample (t : TempState) (now : Nat) (v : Option Nat) (warn crit : Nat) : TempState :=
  let last := if v.isSome then now else t.lastValid
  let silent := v.isNone && decide (last + 3000000 ≤ now)
  let above (th : Nat) : Bool := match v with | some x => decide (th < x) | none => silent
  let below (th : Nat) : Bool := match v with | some x => decide (x + 3 ≤ th) | none => false
  let since (th : Nat) (old : Option Nat) : Option Nat := if below th then some (old.getD now) else none
  let ends (s : Option Nat) : Bool := match s with | some x => decide (x + 100000000 ≤ now) | none => false
  let wb := since warn t.warmBelow
  let cb := since crit t.critBelow
  { value := if silent then none else v.orElse (fun _ => t.value), lastValid := last,
    warm := above warn || (t.warm && !(ends wb)), critical := above crit || (t.critical && !(ends cb)),
    warmBelow := wb, critBelow := cb }

/-- Thresholds of the die: warn, critical, optical warn, optical critical. -/
def DieState.tempThresh (D : DieState) : Nat × Nat × Nat × Nat :=
  let r := D.reg B_PWR PWR_TEMP_THRESH
  (bits r 0 8, bits r 8 8, bits r 16 8, bits r 24 8)

/-- What a condition's entry records: the event and the cause of PWR; a critical one is doubt 8 (R526) and an in-band
interrupt of the I3C target (R575). -/
def DieState.tempEvents (D : DieState) (old new : TempState) (where_ : Nat) : DieState :=
  let D := if new.warm && !old.warm then
      (D.cause B_PWR 0).event { cls := 2, code := 0x05, ident := where_, count := new.value.getD 0 } else D
  if new.critical && !old.critical then
    let D := ((D.cause B_PWR 2).event { cls := 2, code := 0x06, ident := where_, count := new.value.getD 0 }).doubt 8
    if D.num = 0 then D.out .ibi else D
  else D

/-! ## Rails (R596, R637) -/

/-- Nominal of a rail in mV: 0-15 the table of R637, 16 + c the point of cluster group c (R583). -/
def DieState.nominal (D : DieState) (i : Nat) : Nat :=
  if i < 16 then
    [950, 750, 750, 900, 750, 800, 1200, 750, 1100, 750, 1800, 900, 3300, 1800, 3300, 0].getD i 0
  else [620, 700, 780, 850].getD (D.clk.volts.getD (i - 16) 0) 700

/-- Is a reading within n parts in a thousand of its nominal? -/
def withinMille (mv nom n : Nat) : Bool := decide (nom * (1000 - n) ≤ mv * 1000) && decide (mv * 1000 ≤ nom * (1000 + n))

/-- Judge one reading (R596): the rail, whether it enters warning, whether it is a fault now. -/
def Rail.sample (r : Rail) (now nom mv ma : Nat) (judged : Bool) : Rail × Bool × Bool :=
  if !judged then ({ r with mv := mv, ma := ma, out := false }, false, false)
  else
    let out := !withinMille mv nom 50
    let warnNow := !withinMille mv nom 30 && !out
    let calm := if withinMille mv nom 25 then some (r.calm.getD now) else none
    let ends := match calm with | some t => decide (t + 10000000 ≤ now) | none => false
    let fault := out && r.out
    ({ mv := mv, ma := ma, warning := warnNow || (r.warning && !ends), calm := calm, out := out,
       fault := r.fault || fault }, warnNow && !r.warning, fault)

/-- Is the reading of a rail not judged: a regulator output during a voltage step (R596), or while its cluster group has no
supply (R592; DEDUCED, log entry 184)? -/
def DieState.railIdle (D : DieState) (i : Nat) : Bool :=
  decide (16 ≤ i)
  && (D.clk.changes.any (fun c => c.group == i - 16 && c.stage != 1)
    || !(D.cluster (i - 16)).powered || D.pwr.changes.any (fun p => p.unit == i - 16))

/-- Sample one rail of the list: index, mV, mA. -/
def DieState.sampleRail (D : DieState) (x : Nat × Nat × Nat) : DieState × Bool :=
  let i := x.1
  if i = 15 ∨ 20 ≤ i then (D, false)
  else
    let r := (tabGet {} D.pwr.rails i).sample D.now (D.nominal i) x.2.1 x.2.2 (!D.railIdle i)
    let D := { D with pwr := { D.pwr with rails := tabSet {} i r.1 D.pwr.rails } }
    let D := if r.2.1 then
        (D.cause B_PWR 1).event { cls := 2, code := 0x04, ident := i, loc := x.2.1 } else D
    (D, r.2.2)

/-! ## Rows -/

/-- SET_OP. -/
def execSetOp (a : At) (id : Nat) (s : State) : Out :=
  onDie a s (fun D => D.runCmd 0x0803 id (fun c D => D.replyOpt c (setOp c)))

/-- VOLTAGE_STEP_COMPLETE. -/
def execVoltageStepComplete (a : At) (group : Nat) (s : State) : Out := onDie a s (fun D => D.voltageStep group)

/-- FREQ_CHANGE_DONE. -/
def execFreqChangeDone (a : At) (group : Nat) (s : State) : Out := onDie a s (fun D => D.freqDone group)

/-- FREQ_CHANGE_TIMEOUT. -/
def execFreqChangeTimeout (a : At) (group : Nat) (s : State) : Out := onDie a s (fun D => D.freqTimeout group)

/-- FREQ_MONITOR_FAULT. -/
def execFreqMonitorFault (a : At) (island : Nat) (s : State) : Out := onDie a s (fun D => D.monitorFault island)

/-- The inputs of a die in reset are only noted. -/
def DieState.pinRef (D : DieState) (input : Nat) (on : Bool) : DieState :=
  D.onClk (fun k => { k with refA := if input = 0 then on else k.refA, refB := if input = 1 then on else k.refB
                             refEth := if input = 2 then on else k.refEth })

/-- REFCLK_LOSS: input 0 is A, 1 is B. -/
def execRefclkLoss (a : At) (input : Nat) (s : State) : Out :=
  .next (s.atDie a (fun D => if D.boot.held then D.pinRef (if input < 2 then input else 3) false else D.refLoss input))

/-- REFERENCE_INPUT_RETURN. -/
def execReferenceInputReturn (a : At) (input : Nat) (s : State) : Out :=
  .next (s.atDie a (fun D => if D.boot.held then D.pinRef input true else D.refReturn input))

end Sys2Proof.Machine
end

