-- ==== Sys2Proof/Machine/Dma.lean ====
section
/-! DEFINITION. The core DMA (R154, R169-R173): its ops over windows of the three kinds. -/

namespace Sys2Proof.Machine

/-! ## Windows of every kind -/

/-- An answer already there for a remote read. -/
def DieState.answered (D : DieState) (core a : Nat) : Option (Nat × List Byte) :=
  match (((D.core core).engine 7).run).head? with
  | some r => (r.answers.find? (fun x => x.1 == a)).map (fun x => x.2)
  | none => none

/-- A global address of this die: stacked memory under its regions; a store of the task's own instance through the
spine, another one through a remote window (R159, R444). -/
def nearRead (x : OpCtx) (a n : Nat) : M (List Byte) := localRead x.dmaCtx a n
def nearWrite (x : OpCtx) (a : Nat) (bs : List Byte) (mark : Bool) : M Unit := localWrite x.dmaCtx a bs mark

/-- A write refused at a destination of kind 2 is counted (R172, R178). -/
def countRefused (x : OpCtx) (m : M Unit) : M Unit :=
  tryCatch m (fun f => do
    if f.need.isNone && f.status == .faultBounds then onD (fun D => D.count32 x.block DMA_REMOTE_REFUSED)
    throw f)

/-- Read at a global address: here, or from the answer of a READ, which is asked for when it is not there. -/
def globalRead (x : OpCtx) (g n : Nat) : M (List Byte) := do
  let D ← get
  if gReserved g ≠ 0 then throw { status := .faultBounds, loc := g }
  else if gNode g = D.fab.node ∧ gDie g = D.num then nearRead x (gLocal g) n
  else match D.answered x.core g with
    | none => throw { status := .faultTimeout, need := some (g, n) }
    | some (st, bs) =>
      if st = 0 then pure (padTo n bs)
      else throw { status := (Status.ofCode st).getD .faultTimeout, loc := g }

/-- A request of the DMA is outstanding. -/
def DieState.moreRemote (D : DieState) (core : Nat) : DieState :=
  D.onEngine core 7 (fun e => { e with run := match e.run with
    | r :: rs => { r with remote := r.remote + 1 } :: rs
    | [] => [] })

/-- Write at a global address: here, or with a WRITE whose answer the op waits for (R172). -/
def globalWrite (x : OpCtx) (g : Nat) (bs : List Byte) (mark : Bool) : M Unit := do
  let D ← get
  if gReserved g ≠ 0 then throw { status := .faultBounds, loc := g }
  else if gNode g = D.fab.node ∧ gDie g = D.num then countRefused x (nearWrite x (gLocal g) bs mark)
  else match D.request { kind := pkWrite, dstNode := gNode g, dstDie := gDie g, inst := x.task.inst, addr := g,
                         length := bs.length, signal := mark, body := bs } (.dmaWrite x.core) with
    | .ok D => onD (fun _ => D.moreRemote x.core)
    | .error st => throw { status := st, loc := g }

/-- Read n bytes at an offset of a window of any kind. -/
def dmaRead (x : OpCtx) (w off n : Nat) : M (List Byte) := do
  checkWin x w off n rRead
  let e := x.window w
  let b ← if e.kind = 0 then atWin w off (storeRead x.cluster x.port (e.base + off) n)
    else if e.kind = 1 then stackRead x.dmaCtx (e.base + off) n
    else do
      let parts ← (packetPieces (e.base + off) n).mapM (fun p => globalRead x p.1 p.2)
      pure parts.flatten
  onD (fun D => D.count x.block DMA_BYTES_READ n)
  pure b

/-- Write at an offset of a window of any kind; mark: the op's last write, which signals the window's seal (R163,
R481). -/
def dmaWrite (x : OpCtx) (w off : Nat) (bs : List Byte) (mark : Bool) : M Unit := do
  checkWin x w off bs.length rWrite
  let e := x.window w
  if e.kind = 0 then atWin w off (storeWrite x.cluster x.port (e.base + off) bs)
  else if e.kind = 1 then stackWrite x.dmaCtx (e.base + off) bs
  else
    let ps := packetPieces (e.base + off) bs.length
    (List.range ps.length).forM (fun k =>
      let p := ps.getD k (0, 0)
      globalWrite x p.1 ((bs.drop (p.1 - (e.base + off))).take p.2) (mark && k + 1 == ps.length))
  onD (fun D => D.count x.block DMA_BYTES_WRITTEN bs.length)

/-! ## Ops -/

/-- Does the op mark its last remote write (R163)? -/
def dmaMarks (x : OpCtx) : Bool := opSealSignal x.op.word

/-- Write the rows of a destination in order. -/
def dmaRows (x : OpCtx) (out : Tensor) (n : Nat) (row : Nat → M (List Byte)) : M Unit :=
  (List.range n).forM (fun r => do
    let b ← row r
    dmaWrite x out.win (out.rowOff r) b (dmaMarks x && r + 1 == n))

/-- A source and a destination of one shape: the sizes in every dimension and the row bytes. -/
def dmaSameShape (a b : Tensor) : Bool := a.sizes == b.sizes && a.rowBytes == b.rowBytes && a.comp == b.comp

/-- COPY (R169). A zero-run tensor is copied as its bytes, its map area with it. -/
def dmaCopy (x : OpCtx) : M OpResult := do
  gateOnly x
  let a ← parseTensor x.op.da true
  let out ← parseTensor x.op.dout true
  guardS (opImm x.op.word == 0) .faultFormat
  guardS (dmaSameShape a out) .faultFormat
  checkExtent x a rRead (a.size 1) (a.size 0)
  checkExtent x out rWrite (out.size 1) (out.size 0)
  if a.auxBytes ≠ 0 then do
    let m ← dmaRead x a.auxWin a.auxOff a.auxBytes
    dmaWrite x out.auxWin out.auxOff m false
  dmaRows x out a.rows (fun r => dmaRead x a.win (a.rowOff r) a.rowBytes)
  pure {}

/-- The index list of a gather or scatter: U32 elements, all rows of it in order. -/
def dmaIndices (x : OpCtx) (t : Tensor) : M (List Nat) := do
  let rows ← (List.range t.rows).mapM (fun r => do
    let b ← dmaRead x t.win (t.rowOff r) t.rowBytes
    pure ((List.range (t.size 0)).map (fun j => field b (4 * j) 4)))
  pure rows.flatten

/-- Common checks of GATHER and SCATTER (R170): rows of a multiple of 4 bytes, alike, and a U32 list. -/
def dmaListOk (a b out : Tensor) : Bool :=
  b.vtype == .u32 && b.comp == 0 && a.comp == 0 && out.comp == 0 && a.rowBytes == out.rowBytes && a.rowBytes % 4 == 0

/-- GATHER (R170): one destination row per index. -/
def dmaGather (x : OpCtx) : M OpResult := do
  gateOnly x
  let a ← parseTensor x.op.da true
  let b ← parseTensor x.op.db true
  let out ← parseTensor x.op.dout true
  guardS (opImm x.op.word == 0) .faultFormat
  guardS (dmaListOk a b out && out.rows ≤ b.rows * b.size 0) .faultFormat
  checkExtent x a rRead (a.size 1) (a.size 0)
  checkExtent x b rRead (b.size 1) (b.size 0)
  checkExtent x out rWrite (out.size 1) (out.size 0)
  let idx ← dmaIndices x b
  dmaRows x out out.rows (fun r => do
    let k := idx.getD r 0
    if k = 0xFFFFFFFF then do
      onD (fun D => D.count x.block DMA_ZERO_ROWS)
      pure (List.replicate a.rowBytes 0)
    else if a.rows ≤ k then do
      onD (fun D => D.boundary x.cluster x.port)
      throw { status := .faultBounds, loc := a.off + k * a.strides.getD 0 0, cause := a.win, kept := List.range r }
    else dmaRead x a.win (a.rowOff k) a.rowBytes)
  pure {}

/-- The sum of two rows of I32 elements, modulo 2^32 (R170). -/
def addRows (a b : List Byte) : List Byte :=
  (List.range (a.length / 4)).flatMap (fun j => toLE 4 (field a (4 * j) 4 + field b (4 * j) 4))

/-- SCATTER (R170). -/
def dmaScatter (x : OpCtx) : M OpResult := do
  gateOnly x
  let a ← parseTensor x.op.da true
  let b ← parseTensor x.op.db true
  let out ← parseTensor x.op.dout true
  let add := bit (opImm x.op.word) 0
  guardS (opImm x.op.word < 2) .faultFormat
  guardS (dmaListOk a b out && a.rows ≤ b.rows * b.size 0) .faultFormat
  guardS (!add || ((x.window out.win).kind == 0 && out.vtype == .i32 && a.vtype == .i32)) .faultFormat
  checkExtent x a rRead (a.size 1) (a.size 0)
  checkExtent x b rRead (b.size 1) (b.size 0)
  checkExtent x out rWrite (out.size 1) (out.size 0)
  let idx ← dmaIndices x b
  (List.range a.rows).forM (fun r => do
    let k := idx.getD r 0
    if k = 0xFFFFFFFF then pure ()
    else if out.rows ≤ k then do
      onD (fun D => D.boundary x.cluster x.port)
      throw { status := .faultBounds, loc := out.off + k * out.strides.getD 0 0, cause := out.win, kept := idx.take r }
    else do
      let v ← dmaRead x a.win (a.rowOff r) a.rowBytes
      if add then do
        let old ← atWin out.win (out.rowOff k)
          (storeRead x.cluster x.port ((x.window out.win).base + out.rowOff k) out.rowBytes)
        dmaWrite x out.win (out.rowOff k) (addRows v old) (dmaMarks x && r + 1 == a.rows)
      else dmaWrite x out.win (out.rowOff k) v (dmaMarks x && r + 1 == a.rows))
  pure {}

/-- Bits of an element of TRANSPOSE (R171). -/
def transBits (imm : Nat) : Nat := match imm with | 0 => 4 | 1 => 8 | 2 => 16 | _ => 32

/-- Element j of a row of w-bit elements. -/
def bitsAt (w : Nat) (row : List Byte) (j : Nat) : Nat :=
  if w = 4 then (row.getD (j / 2) 0).toNat / 16 ^ (j % 2) % 16 else field row (j * (w / 8)) (w / 8)

/-- A row of w-bit elements. -/
def bitsRow (w : Nat) (xs : List Nat) : List Byte :=
  if w = 4 then packNibbles xs else xs.flatMap (fun v => toLE (w / 8) v)

/-- TRANSPOSE (R171): destination element (j, r) is source element (r, j); a destination row of 64 blocks is written
whole, its block edges included. -/
def dmaTranspose (x : OpCtx) : M OpResult := do
  gateOnly x
  let a ← parseTensor x.op.da true
  let out ← parseTensor x.op.dout true
  let w := transBits (opImm x.op.word)
  guardS (opImm x.op.word < 4) .faultFormat
  guardS (a.comp == 0 && out.comp == 0 && a.vtype.width == w && out.vtype.width == w) .faultFormat
  guardS (a.size 0 == out.size 1 && a.size 1 == out.size 0 && a.size 2 == out.size 2 && a.size 3 == out.size 3) .faultFormat
  checkExtent x a rRead (a.size 1) (a.size 0)
  checkExtent x out rWrite (out.size 1) (out.size 0)
  let src ← (List.range a.rows).mapM (fun r => dmaRead x a.win (a.rowOff r) a.rowBytes)
  dmaRows x out out.rows (fun r =>
    let plane := r / out.size 1
    let j := r % out.size 1
    pure (bitsRow w ((List.range (out.size 0)).map (fun k => bitsAt w (src.getD (plane * a.size 1 + k) []) j))))
  pure {}

/-- FILL (R169): the pattern repeats over each destination row. -/
def dmaFill (x : OpCtx) : M OpResult := do
  gateOnly x
  let out ← parseTensor x.op.dout true
  guardS (out.comp == 0) .faultFormat
  checkExtent x out rWrite (out.size 1) (out.size 0)
  let pat := toLE 4 (opImm x.op.word)
  dmaRows x out out.rows (fun _ => pure ((List.range out.rowBytes).map (fun j => pat.getD (j % 4) 0)))
  pure {}

/-! ## Running an op -/

/-- Send the READ that the op waits for. -/
def DieState.askRemote (D : DieState) (x : OpCtx) (g n : Nat) : DieState :=
  let put (D : DieState) (f : Running → Running) : DieState :=
    D.onEngine x.core 7 (fun e => { e with run := match e.run with | r :: rs => f r :: rs | [] => [] })
  match D.request { kind := pkRead, dstNode := gNode g, dstDie := gDie g, inst := x.task.inst, addr := g, length := n }
      (.dmaRead x.core g) with
  | .ok D => put D (fun r => { r with asked := some g })
  | .error st => put D (fun r => { r with answers := r.answers ++ [(g, st.code, [])] })

/-- Carry out a DMA op. When it needs a remote read that has not been answered, the READ is sent and the op leaves no
other trace; its row runs it again once the answer is there. -/
def DieState.runDma (D : DieState) (i code : Nat) (body : OpCtx → M OpResult) : DieState :=
  match D.runningTask i, D.opToRun i 7 with
  | some t, some op =>
    let x : OpCtx := { core := i, eng := 7, task := t, op := op }
    let waits := (((D.core i).engine 7).run.any (fun r => r.asked.isSome))
    if opCode op.word ≠ code ∨ waits = true then D
    else
      match runM (body x) D with
      | (.ok r, D') => D'.onEngine i 7 (fun g => { g with run := setResult r g.run })
      | (.error f, D') =>
        match f.need with
        | some (g, n) => D.askRemote x g n
        | none => D'.onEngine i 7 (fun g => { g with run := setResult f.result g.run })
  | _, _ => D

/-- The answer to a READ of a core's DMA has come. -/
def DieState.dmaAnswer (D : DieState) (core g status : Nat) (bs : List Byte) : DieState :=
  D.onEngine core 7 (fun e => { e with run := e.run.map (fun r =>
    if r.asked = some g then { r with asked := none, answers := r.answers ++ [(g, status, bs)] } else r) })

/-- The answer to a WRITE of a core's DMA has come (R172). -/
def DieState.dmaAck (D : DieState) (core status : Nat) : DieState :=
  let D := if status = Status.faultBounds.code then D.count32 (coreBlock core 7) DMA_REMOTE_REFUSED else D
  D.onEngine core 7 (fun e => { e with run := e.run.map (fun r =>
    if r.remote = 0 then r
    else { r with remote := r.remote - 1
                  remoteBad := if status = 0 ∨ r.remoteBad.isSome = true then r.remoteBad
                    else some ((Status.ofCode status).getD .faultTimeout) }) })

/-- DMA_COPY. -/
def execDmaCopy (a : At) (core : Nat) (s : State) : Out := onDie a s (fun D => D.runDma core 0x01 dmaCopy)
/-- DMA_GATHER. -/
def execDmaGather (a : At) (core : Nat) (s : State) : Out := onDie a s (fun D => D.runDma core 0x02 dmaGather)
/-- DMA_SCATTER. -/
def execDmaScatter (a : At) (core : Nat) (s : State) : Out := onDie a s (fun D => D.runDma core 0x03 dmaScatter)
/-- DMA_TRANSPOSE. -/
def execDmaTranspose (a : At) (core : Nat) (s : State) : Out := onDie a s (fun D => D.runDma core 0x04 dmaTranspose)
/-- DMA_FILL. -/
def execDmaFill (a : At) (core : Nat) (s : State) : Out := onDie a s (fun D => D.runDma core 0x05 dmaFill)

end Sys2Proof.Machine
end

