-- ==== Sys2Proof/Machine/StoreRows.lean ====
section
/-! DEFINITION. The cluster store's own rows (R148, R150, R157, R159-R163, R167, R650), and the power commands
(R590-R593). -/

namespace Sys2Proof.Machine

/-! ## Segments (R167) -/

/-- Does a running task's kind-0 window or an open remote window cover part of segment g of cluster c? -/
def DieState.segInUse (D : DieState) (c g : Nat) : Bool :=
  (D.cluster c).rwinCovers g ||
  (D.runningWindows c 0).any (fun w => overlap w.base w.size (g * 0x80000) 0x80000)

/-- Release every buffered entry of a segment (R594). -/
def DieState.flushSegment (D : DieState) (c g : Nat) : DieState :=
  (D.cluster c).bufs.foldl (fun D pb =>
    let mine (e : CbEntry) : Bool := e.line * 64 / 0x80000 == g
    let D := (pb.2.filter mine).foldl (fun D e => D.releaseEntry c pb.1 e .boundary) D
    D.onCluster c (fun C => C.setBuf pb.1 ((C.buf pb.1).filter (fun e => !(mine e))))) D

/-- Release every buffered entry of a cluster. -/
def DieState.flushCluster (D : DieState) (c : Nat) : DieState :=
  (D.cluster c).bufs.foldl (fun D pb => D.boundary c pb.1) D

/-- One bit of a write of CST_SEG_ON. -/
def DieState.segBit (D : DieState) (c g : Nat) (on : Bool) : DieState :=
  let cur := bit (D.reg64 (B_CST c) CST_SEG_ON) g
  if cur == on then D
  else if on then
    (D.setReg64 (B_CST c) CST_SEG_ON (D.reg64 (B_CST c) CST_SEG_ON + 2 ^ g)).onCluster c (fun C =>
      { C with segRising := C.segRising ++ [(g, D.now)] })
  else if D.segInUse c g then
    (D.cause (B_CST c) 5).event
      { cls := 4, code := 0x04, island := 19 + c, inst := D.clusterOwner c, loc := g * 0x80000, ident := g }
  else
    ((D.flushSegment c g).setReg64 (B_CST c) CST_SEG_ON (D.reg64 (B_CST c) CST_SEG_ON - 2 ^ g)).onCluster c (fun C =>
      { C with segReady := C.segReady - (if bit C.segReady g then 2 ^ g else 0),
               segRising := C.segRising.filter (fun x => x.1 != g) })

/-- A write of CST_SEG_ON (R167): bits that rise power segments up, bits that fall power them down unless in use. -/
def DieState.writeSegOn (D : DieState) (c v : Nat) : DieState :=
  (List.range 64).foldl (fun D g => D.segBit c g (bit v g)) D

/-- A segment becomes ready, its contents and parity undefined: a new era of free bytes. -/
def Cluster.segUp (C : Cluster) (g era : Nat) : Cluster :=
  let out (k : Nat) : Bool := k / 0x80000 != g
  { C with segRising := C.segRising.filter (fun x => x.1 != g),
           segReady := if bit C.segReady g then C.segReady else C.segReady + 2 ^ g,
           era := tabSet 0 g era C.era,
           bytes := C.bytes.filter (fun e => out e.1), bad := C.bad.filter (fun e => out e.1) }

/-- POWER_SEGMENTS whose segments now match are answered (R590). -/
def DieState.settleSegs (D : DieState) (c : Nat) : DieState :=
  let done (x : Nat × Nat × Nat × Nat) : Bool := x.1 == c && (D.cluster c).segReady == orN x.2.1 x.2.2.1
  let r := D.pwr.segs.partition done
  r.1.foldl (fun D x => D.replyId x.2.2.2 .ok 0 (toLE 8 x.2.2.1))
    { D with pwr := { D.pwr with segs := r.2 } }

/-- SEGMENT_READY. -/
def DieState.segmentReady (D : DieState) (c g : Nat) : DieState :=
  if (D.cluster c).segRising.any (fun x => x.1 == g) then
    ((D.onCluster c (fun C => C.segUp g (4 * D.fresh + D.num + 1))).tick).settleSegs c
  else D

/-! ## Fills and scrubs (R148, R156, R157) -/

/-- The fill engine zeroes the ready segments' part of a range (R168). -/
def DieState.fillReady (D : DieState) (c lo len : Nat) : DieState :=
  (List.range 64).foldl (fun D g =>
    let a := max lo (g * 0x80000)
    let b := min (lo + len) ((g + 1) * 0x80000)
    if a < b ∧ bit (D.cluster c).segReady g = true then D.fill c a (b - a) else D) D

/-- The fill engine writes the first n bytes of its head range; an emptied scrub queue is reported (R157, R177). -/
def DieState.fillHead (D : DieState) (c n : Nat) : DieState :=
  match (D.cluster c).fills with
  | [] => D
  | f :: rest =>
    let k := min n f.len
    let left : List FillJob := if k = f.len then rest else { f with lo := f.lo + k, len := f.len - k } :: rest
    let D := (D.fillReady c f.lo k).onCluster c (fun C => { C with fills := left })
    if left.isEmpty then D.cause (B_CST c) 4 else D

/-! ## Remote windows (R160-R162, R650) -/

/-- The named cluster of a remote-window command, of the requester's own. -/
def rwinCluster (c : Cmd) : M Nat := do
  let D ← get
  okField (c.p 0 1 < 4) 0
  okField (c.p 1 3 == 0) 1
  guardS (D.clusterOwner (c.p 0 1) == some c.inst) .refusedRole
  pure (c.p 0 1)

/-- RWIN_OPEN. -/
def rwinOpen (rivals : List Nat) (c : Cmd) : M (List Byte) := do
  let k ← rwinCluster c
  let base := c.p 4 4
  let size := c.p 8 4
  okField (base % 64 == 0) 4
  okField (size % 64 == 0 && 64 ≤ size) 8
  okField (bits (c.p 12 2) 12 3 == 0) 12
  okField (c.p 14 1 < 16) 14
  okField (c.p 16 1 < 4) 16
  okField (c.p 17 1 < 2) 17
  okField (c.p 18 2 == 0) 18
  okField (c.p 17 1 == 0 || refOk (c.p 20 4)) 20
  guardS (base + size ≤ 2 ^ 25) .faultBounds
  let D ← get
  let free := (List.range 64).filter (fun s => !((D.cluster k).rwin s).isOpen)
  claim 12 (200 + k) free.length c.queue rivals
  match free.head? with
  | none => failWith .refusedFull 12
  | some s => do
    let g := (((D.cluster k).rwin s).gen + 1) % 256
    let w : Rwin := { isOpen := true, base := base, size := size, node := c.p 12 2, dies := c.p 14 1, insts := c.p 15 1,
                      rights := c.p 16 1, flags := c.p 17 1, sealRef := c.p 20 4, gen := g }
    onD (fun D => D.onCluster k (fun C => { C with rwins := tabSet {} s w C.rwins }))
    pure ([BitVec.ofNat 8 s, 0, 0, 0, BitVec.ofNat 8 g])

/-- RWIN_CLOSE: accesses checked before it have landed, for each is one step. -/
def rwinClose (c : Cmd) : M (List Byte) := do
  let k ← rwinCluster c
  okField (c.p 6 2 == 0) 6
  let D ← get
  let w := (D.cluster k).rwin (c.p 4 1)
  guardS (c.p 4 1 < 64 && w.isOpen && w.gen == c.p 5 1) .faultStaleGeneration
  onD (fun D => D.onCluster k (fun C => { C with rwins := tabSet {} (c.p 4 1) { w with isOpen := false } C.rwins }))
  pure []

/-- RWIN_LIST. -/
def rwinList (c : Cmd) : M (List Byte) := do
  let k ← rwinCluster c
  let D ← get
  pure (toLE 8 (((List.range 64).filter (fun s => ((D.cluster k).rwin s).isOpen)).map (fun s => 2 ^ s)).sum)

/-! ## Remote arrivals (R159) -/

/-- An access that arrives at a cluster store: one of the die, through its spine, or one of another die or package
through a remote window. -/
def arrive (c : Nat) (src : Source) (r : Req) (off n : Nat) (data : Option (List Byte)) (mark : Bool) : M (List Byte) := do
  let D ← get
  let near := src.node == D.fab.node && src.die == D.num
  match data with
  | some bs => do
    if near then spineWrite c src.inst r off bs mark else remoteWrite c 33 src r off bs mark
    pure []
  | none => if near then spineRead c src.inst r off n else remoteRead c 33 src r off n

/-- REMOTE_ACCESS_ARRIVE with its answer. -/
def DieState.remoteArrive (D : DieState) (c : Nat) (src : Source) (r : Req) (off n : Nat) (data : Option (List Byte))
    (mark : Bool) : DieState :=
  match runM (arrive c src r off n data mark) D with
  | (.ok b, D) => D.out (.storeReply r.id 0 b)
  | (.error f, D) => D.out (.storeReply r.id f.status.code [])

/-! ## Coalescing timeouts (R150) -/

/-- The running frequency of a cluster group in MHz (R583), 400 on the bridge clock. -/
def DieState.clusterMHz (D : DieState) (c : Nat) : Nat :=
  if D.clk.bridge.contains (19 + c) then 400 else [600, 950, 1250, 1400].getD (D.runPoint c) 950

/-- Entries whose first byte is 32 cycles old are released. -/
def DieState.expireEntries (D : DieState) (c : Nat) : DieState :=
  let old (e : CbEntry) : Bool := 32 * 1000 ≤ (D.now - e.first) * D.clusterMHz c
  (D.cluster c).bufs.foldl (fun D pb =>
    let D := (pb.2.filter old).foldl (fun D e => D.releaseEntry c pb.1 e .timeout) D
    D.onCluster c (fun C => C.setBuf pb.1 ((C.buf pb.1).filter (fun e => !(old e))))) D

/-! ## Power commands (R590-R593) -/

/-- Is a task running on or queued for one of the cores? -/
def DieState.coresBusy (D : DieState) (cores : List Nat) : Bool :=
  cores.any (fun i => (D.core i).task.isSome || !((D.core i).launch.isEmpty))

/-- Cores of a power unit: 0-3 a cluster, 4 + i core i. -/
def unitCores (u : Nat) : List Nat := if u < 4 then [4 * u, 4 * u + 1, 4 * u + 2, 4 * u + 3] else [u - 4]
def unitCluster (u : Nat) : Nat := if u < 4 then u else (u - 4) / 4

/-- Is the unit powered, its power-down not begun? -/
def DieState.unitOn (D : DieState) (u : Nat) : Bool :=
  if u < 4 then (D.cluster u).powered else (D.core (u - 4)).powered

/-- Is a power change of the unit's cluster in progress? The commands of a cluster are handled one at a time (R591). -/
def DieState.powerBusy (D : DieState) (u : Nat) : Bool :=
  D.pwr.changes.any (fun p => unitCluster p.unit == unitCluster u)

/-- Close the gate of a unit: from now on packets bounce (R592). -/
def DieState.closeGate (D : DieState) (u : Nat) : DieState :=
  if u < 4 then (D.flushCluster u).onCluster u (fun C => { C with powered := false })
  else ((List.range 8).foldl (fun D e => D.boundary (unitCluster u) (enginePort ((u - 4) % 4) e)) D).onCore (u - 4)
    (fun k => { k with powered := false })

/-- A power command on a unit (R591, R592): it waits for the change of its cluster that is in progress. -/
def powerUnit (c : Cmd) (u : Nat) (on : Bool) : M (Option (List Byte)) := do
  let D ← get
  let change (on : Bool) (D : DieState) : DieState := { D.started c.id with pwr := { D.pwr with
    changes := D.pwr.changes ++ [{ unit := u, on := on, start := D.now, cmd := c.id }] } }
  guardS (D.clusterOwner (unitCluster u) == some c.inst) .refusedRole
  if D.powerBusy u then do
    onD (fun D => { D.started c.id with pwr := { D.pwr with waiting := D.pwr.waiting ++ [(u, c.id)] } })
    pure none
  else if on then
    if D.unitOn u then pure (some [])
    else do
      onD (change true)
      pure none
  else if 4 ≤ u ∧ (D.cluster (unitCluster u)).powered = false then pure (some [])
  else if D.unitOn u = false then pure (some [])
  else do
    guardS (!D.coresBusy (unitCores u)) .faultStaleGeneration
    guardS (4 ≤ u || !((D.cluster u).rwins.any (fun e => e.2.isOpen))) .faultStaleGeneration
    guardS (D.clusterOwner (unitCluster u) != some 0 || D.saf.service.isSome) .refusedServiceMode
    onD (fun D => change false (D.closeGate u))
    pure none

/-- POWER_SEGMENTS (R590): CST_SEG_ON takes the mask; the reply comes when CST_SEG_READY matches. -/
def powerSegments (c : Cmd) : M (Option (List Byte)) := do
  let D ← get
  okField (c.p 0 4 < 4) 0
  let k := c.p 0 4
  guardS (D.clusterOwner k == some c.inst) .refusedRole
  guardS ((D.cluster k).powered) .refusedDomainOff
  let want := c.p 4 8
  onD (fun D => D.writeSegOn k want)
  let D ← get
  let refused := andNot (D.reg64 (B_CST k) CST_SEG_ON) want
  if (D.cluster k).segReady = orN want refused then pure (some (toLE 8 refused))
  else do
    onD (fun D => { D.started c.id with pwr := { D.pwr with segs := D.pwr.segs ++ [(k, want, refused, c.id)] } })
    pure none

/-- A cluster that has powered up: its store zero with good parity, every segment ready; its cores idle (R593). -/
def DieState.clusterUp (D : DieState) (c : Nat) : DieState :=
  let D := D.onCluster c (fun C => { retired := C.retired, rwins := C.rwins,
                                     segReady := 2 ^ 64 - 1, powered := true })
  let D := D.setReg64 (B_CST c) CST_SEG_ON (2 ^ 64 - 1)
  (unitCores c).foldl (fun D i => D.onCore i (fun _ => { powered := true })) D

/-- A change of a cluster's is complete: its power commands that wait are handled, in order of acceptance, up to the next one
that starts a change (R591, R592). -/
def DieState.powerNext (D : DieState) (u : Nat) : DieState :=
  let mine (w : Nat × Nat) : Bool := unitCluster w.1 == unitCluster u
  (D.pwr.waiting.filter mine).foldl (fun (D : DieState) w =>
    match D.cmdOf w.2 with
    | some c => D.replyOpt c (powerUnit c w.1 (c.p 4 4 == 1))
    | none => D) { D with pwr := { D.pwr with waiting := D.pwr.waiting.filter (fun w => !mine w) } }

def DieState.powerChange (D : DieState) (u : Nat) (on : Bool) : Option PwrChange :=
  D.pwr.changes.find? (fun p => p.unit == u && p.on == on)

/-- 5 µs into a power-down: a packet still on its way into the domain goes back to its sender (R592). -/
def DieState.drainExpire (D : DieState) (u : Nat) : DieState :=
  match D.powerChange u false with
  | none => D
  | some p =>
    if p.drained ∨ D.now < p.start + 5000 then D
    else
      let hit (q : Packet) : Bool := decide (u < 4) && (q.kind == pkWrite || q.kind == pkRead) &&
        (match place (gLocal q.addr) with | .store c _ => c == u | _ => false)
      let r := D.fab.inbox.partition hit
      let D := { D with fab := { D.fab with inbox := r.2 } }
      let D := r.1.foldl (fun D q =>
        (D.count B_GLB GLB_DOMAIN_BOUNCED).answer q pkError Status.refusedDomainOff.code []) D
      { D with pwr := { D.pwr with
          changes := D.pwr.changes.map (fun x => if x = p then { x with drained := true } else x) } }

/-- A power-down is complete: the supply is gone, and with it the contents (R592). -/
def DieState.downComplete (D : DieState) (u : Nat) : DieState :=
  match D.powerChange u false with
  | none => D
  | some p =>
    let D := { D with pwr := { D.pwr with changes := D.pwr.changes.erase p } }
    let D := if u < 4 then
        let D := D.onCluster u (fun C => { retired := C.retired, rwins := C.rwins, powered := false })
        (unitCores u).foldl (fun D i => D.onCore i (fun _ => { powered := false })) D
      else D.onCore (u - 4) (fun _ => { powered := false })
    ((D.cause B_PWR 3).replyId p.cmd .ok).powerNext u

/-- A power-up is complete (R593). -/
def DieState.upComplete (D : DieState) (u : Nat) : DieState :=
  match D.powerChange u true with
  | none => D
  | some p =>
    let D := { D with pwr := { D.pwr with changes := D.pwr.changes.erase p } }
    let D := if u < 4 then D.clusterUp u else D.onCore (u - 4) (fun _ => { powered := true })
    ((D.cause B_PWR 3).replyId p.cmd .ok).powerNext u

/-- PWR_DOMAIN: clusters and cores that are powered; one on its way down still is. -/
def DieState.pwrDomain (D : DieState) : Nat :=
  ((List.range 20).map (fun u =>
    b2n (D.unitOn u || (D.powerChange u false).isSome) * 2 ^ u)).sum

/-- PWR_OP: the set points. -/
def DieState.pwrOp (D : DieState) : Nat :=
  let p (g : Nat) : Nat := D.setPoint g
  p 0 + p 1 * 2 ^ 2 + p 2 * 2 ^ 4 + p 3 * 2 ^ 6 + p 4 * 2 ^ 8 + p 5 * 2 ^ 10 + p 6 * 2 ^ 12 + p 7 * 2 ^ 13

/-- POWER_STATUS. -/
def powerStatus : M (List Byte) := do
  let D ← get
  pure (toLE 4 D.pwrDomain ++ toLE 4 D.pwrOp ++ toLE 4 D.cap)

/-- POWER_CLUSTER: parameters cluster and on, 4 bytes each (log entry 34). -/
def powerCluster (c : Cmd) : M (Option (List Byte)) := do
  okField (c.p 0 4 < 4) 0
  okField (c.p 4 4 < 2) 4
  powerUnit c (c.p 0 4) (c.p 4 4 == 1)

/-- POWER_CORE: parameters global core number and on. -/
def powerCore (c : Cmd) : M (Option (List Byte)) := do
  let D ← get
  okField (c.p 0 4 / 16 == D.num) 0
  okField (c.p 4 4 < 2) 4
  powerUnit c (4 + c.p 0 4 % 16) (c.p 4 4 == 1)

/-! ## Rows -/

/-- CST_SEG_ON_WRITE: the committed 64-bit value. -/
def execCstSegOnWrite (a : At) (r : Req) (cluster value : Nat) (s : State) : Out :=
  onDie a s (fun D =>
    D.csrDo r (B_CST (cluster % 4)) CST_SEG_ON (fun D => D.writeSegOn (cluster % 4) (value % 2 ^ 64)))

/-- SEGMENT_READY. -/
def execSegmentReady (a : At) (cluster segment : Nat) (s : State) : Out :=
  onDie a s (fun D => D.segmentReady (cluster % 4) segment)

/-- CB_ENTRY_TIMEOUT. -/
def execCbEntryTimeout (a : At) (cluster : Nat) (s : State) : Out := onDie a s (fun D => D.expireEntries (cluster % 4))

/-- FILL_FORCED_GRANT: the waiting fill takes one aligned row of 4 KiB. -/
def execFillForcedGrant (a : At) (cluster : Nat) (s : State) : Out := onDie a s (fun D => D.fillHead (cluster % 4) 4096)

/-- SCRUB_RANGE_DONE: the rest of the head range. -/
def execScrubRangeDone (a : At) (cluster : Nat) (s : State) : Out :=
  onDie a s (fun D => D.fillHead (cluster % 4) (2 ^ 25))

/-- REMOTE_ACCESS_ARRIVE: a write with its bytes and signal bit, or a read of n bytes. -/
def execRemoteAccessArrive (a : At) (cluster : Nat) (srcNode srcDie : Nat) (r : Req) (off n : Nat)
    (data : Option (List Byte)) (mark : Bool) (s : State) : Out :=
  onDie a s (fun D => D.remoteArrive (cluster % 4) { node := srcNode, die := srcDie, inst := r.inst } r off n data mark)

/-- RWIN_OPEN. -/
def execRwinOpen (a : At) (id : Nat) (rivals : List Nat) (s : State) : Out :=
  onDie a s (fun D => D.runCmd 0x0110 id (fun c D => D.replyM c (rwinOpen rivals c)))

/-- RWIN_CLOSE. -/
def execRwinClose (a : At) (id : Nat) (s : State) : Out :=
  onDie a s (fun D => D.runCmd 0x0111 id (fun c D => D.replyM c (rwinClose c)))

/-- RWIN_LIST. -/
def execRwinList (a : At) (id : Nat) (s : State) : Out :=
  onDie a s (fun D => D.runCmd 0x0112 id (fun c D => D.replyM c (rwinList c)))

/-- POWER_CLUSTER. -/
def execPowerCluster (a : At) (id : Nat) (s : State) : Out :=
  onDie a s (fun D => D.runCmd 0x0800 id (fun c D => D.replyOpt c (powerCluster c)))

/-- POWER_SEGMENTS. -/
def execPowerSegments (a : At) (id : Nat) (s : State) : Out :=
  onDie a s (fun D => D.runCmd 0x0801 id (fun c D => D.replyOpt c (powerSegments c)))

/-- POWER_CORE. -/
def execPowerCore (a : At) (id : Nat) (s : State) : Out :=
  onDie a s (fun D => D.runCmd 0x0802 id (fun c D => D.replyOpt c (powerCore c)))

/-- POWER_STATUS. -/
def execPowerStatus (a : At) (id : Nat) (s : State) : Out :=
  onDie a s (fun D => D.runCmd 0x0804 id (fun c D => D.replyM c powerStatus))

/-- POWER_DOWN_DRAIN_EXPIRE: unit 0-3 a cluster, 4 + i core i. -/
def execPowerDownDrainExpire (a : At) (unit : Nat) (s : State) : Out := onDie a s (fun D => D.drainExpire unit)

/-- POWER_DOWN_COMPLETE. -/
def execPowerDownComplete (a : At) (unit : Nat) (s : State) : Out := onDie a s (fun D => D.downComplete unit)

/-- POWER_UP_COMPLETE. -/
def execPowerUpComplete (a : At) (unit : Nat) (s : State) : Out := onDie a s (fun D => D.upComplete unit)

end Sys2Proof.Machine
end

