-- ==== Sys2Proof/Machine/Pcie.lean ====
section
/-! DEFINITION. The PCIe endpoint and the board-management target (R555-R561, R575). -/

namespace Sys2Proof.Machine

/-! ## Apertures (R556, R557) -/

/-- Size of a function's BAR2, its base, the instance it carries and its requester ID. -/
def DieState.apertureSize (D : DieState) (fn : Nat) : Nat := if fn = 0 then 2 ^ D.pcie.bar2 else 2 ^ 32
def DieState.apertureBase (D : DieState) (fn : Nat) : Nat :=
  if fn = 0 then D.reg64 B_PCI PCI_BAR2_BASE else D.reg64 B_PCI PCI_VF_BAR2_BASE fn
def DieState.fnInst (D : DieState) (fn : Nat) : Nat := if fn = 0 then D.reg B_INS INS_PF_INST % 8 else fn - 1

/-- Does the base meet R557: aligned to the size, in a stacked-memory view? -/
def DieState.apertureOk (D : DieState) (fn : Nat) : Bool :=
  D.apertureBase fn % D.apertureSize fn == 0 && viewOf (D.apertureBase fn) != 3

/-- An aperture access under the function's instance, class 3. -/
def apertureAccess (fn off n : Nat) (data : Option (List Byte)) : M (List Byte) := do
  let D ← get
  let cx : Ctx := { inst := D.fnInst fn, req := 0x0A0 + fn, cls := 3 }
  let a := D.apertureBase fn + off
  if D.apertureOk fn = false ∨ D.apertureSize fn < off + n then do
    onD (fun D => D.unpopulated cx a)
    throw { status := .faultBounds, loc := a }
  else match data with
    | some bs => do
      stackWrite cx a bs
      pure []
    | none => stackRead cx a n

/-- PCIE_APERTURE_ACCESS: a read completes with its data, with Unsupported Request or with Completer Abort; a write
that fails is dropped and counted (R557). -/
def DieState.aperture (D : DieState) (fn off n : Nat) (data : Option (List Byte)) : DieState :=
  if !D.pcie.up || 8 < fn then D
  else
    let D := D.count B_PCI PCI_RX_TLPS
    match data, runM (apertureAccess fn off n data) D with
    | some _, (.ok _, D) => D
    | some _, (.error _, D) => (D.count B_PCI PCI_DROPPED_WRITES).cause B_PCI 2
    | none, (.ok b, D) => (D.count B_PCI PCI_TX_TLPS).out (.pcieData fn (some b))
    | none, (.error f, D) =>
      let D := D.count B_PCI PCI_TX_TLPS
      (if f.status = .faultUncorrectable then D.count B_PCI PCI_CA_SENT else D.count B_PCI PCI_UR_SENT).out
        (.pcieData fn none)

/-! ## Resets and the link (R559, R561) -/

/-- A function's configuration state at its reset: MSI-X disabled, no mask, nothing pending. -/
def DieState.resetFunction (D : DieState) (fn : Nat) : DieState :=
  { D with pcie := { D.pcie with
      msixOff := if D.pcie.msixOff.contains fn then D.pcie.msixOff else D.pcie.msixOff ++ [fn]
      masked := D.pcie.masked.filter (fun v => v / 2048 != fn)
      waiting := D.pcie.waiting.filter (fun v => v / 2048 != fn)
      vfs := if fn = 0 then 0 else D.pcie.vfs
      bar2 := if fn = 0 then 28 else D.pcie.bar2 } }

/-- The link is down: host reads fail from now on. -/
def DieState.linkDown (D : DieState) : DieState :=
  if D.pcie.up then
    (({ D with pcie := { D.pcie with up := false, link := 0 } }).cause B_PCI 0).event
      { cls := 11, code := 0x01, island := 31 }
  else D

/-- PERST# or hot reset: the endpoint and its functions reset. -/
def DieState.perst (D : DieState) : DieState :=
  let D := (List.range 9).foldl (fun D fn => D.resetFunction fn) D.linkDown
  { D with pcie := { D.pcie with perst := true, config := false, deasserted := none, flrs := [], ide := 0 } }

/-- The host's settings stand in configuration space: messages held pending leave where nothing holds them any longer (R558), and
a stream that failed a check is no longer secure (R560). -/
def DieState.hostConfig (D : DieState) (c : PcieConfig) : DieState :=
  let off := (List.range 9).filter (fun fn => !bit c.msix fn)
  let free (v : Nat) : Bool := !off.contains (v / 2048) && !c.masked.contains v
  let go := D.pcie.waiting.filter free
  let D := { D with pcie := { D.pcie with
    vfs := c.vfs % 512 / 2 * 2, bar2 := max 28 (min 36 c.bar2), msixOff := off, masked := c.masked, ide := c.ide % 16
    waiting := D.pcie.waiting.filter (fun v => !free v) } }
  let D := go.foldl (fun (D : DieState) v => D.out (.msix (v / 2048) (v % 2048))) D
  if c.ideFailed then D.cause B_PCI 3 else D

/-- The link comes up with the fields of PCI_LINK. -/
def DieState.linkUp (D : DieState) (link : Nat) : DieState :=
  if D.pcie.perst ∨ D.pcie.up = true then D
  else (({ D with pcie := { D.pcie with up := true, link := link % 2 ^ 15 } }).cause B_PCI 0).event
    { cls := 11, code := 0x01, island := 31, cause := 1 }

/-! ## Rows -/

/-- PCIE_APERTURE_ACCESS: function, offset, length, and the bytes of a write. -/
def execPcieApertureAccess (a : At) (fn off n : Nat) (data : Option (List Byte)) (s : State) : Out :=
  onDie a s (fun D => D.aperture fn off n data)

/-- PERST_ASSERT. The pin of a die in reset is only noted. -/
def execPerstAssert (a : At) (s : State) : Out :=
  .next (s.atDie a (fun D =>
    if D.boot.held then { D with pcie := { D.pcie with perst := true } } else D.perst))

/-- PERST_DEASSERT: the ROM serves configuration space from its time on (R561), on a die that is out of reset. -/
def execPerstDeassert (a : At) (s : State) : Out :=
  .next (s.atDie a (fun D =>
    if D.boot.held then { D with pcie := { D.pcie with perst := false } }
    else if D.pcie.perst then { D with pcie := { D.pcie with perst := false, config := true, deasserted := some D.now } }
    else D))

/-- PCIE_LINK_CHANGE: up with the negotiated link, or down. No row writes configuration space: what the host has set in it comes
with the link, also again while the link is up (log entry 134). -/
def execPcieLinkChange (a : At) (up : Bool) (link : Nat) (cfg : PcieConfig) (s : State) : Out :=
  onDie a s (fun D => if up then (if D.pcie.perst then D else (D.linkUp link).hostConfig cfg) else D.linkDown)

/-- PCIE_COMPLETION_TIMEOUT: the timed-out read of a host-memory queue is a failed read (R417, R555). -/
def execPcieCompletionTimeout (a : At) (q : Nat) (s : State) : Out :=
  onDie a s (fun D =>
    if (D.queue q).state == .active && !(D.queue q).stacked then D.queueError q .faultUncorrectable else D)

/-- ATS_INVALIDATION: it completes after the accesses that used the entries; each access here is one step (R560). -/
def execAtsInvalidation (a : At) (s : State) : Out :=
  onDie a s (fun D => D.count32 B_PCI PCI_ATC_INVALS)

end Sys2Proof.Machine
end

