-- ==== Sys2Proof/Machine/HbmRows.lean ====
section
/-! DEFINITION. The stacked-memory controllers' own rows: training, patrol scrubbing, temperatures (R383, R393-R397,
R400). -/

namespace Sys2Proof.Machine

/-- A stack's training and zeroing end (R397), in boot stage 3: every granule zero and clean, or a failure. -/
def DieState.trained (D : DieState) (n : Nat) (ok : Bool) : DieState :=
  if D.boot.stage ≠ 3 ∨ (D.mem.hbm n).ready = true ∨ (D.mem.hbm n).failed = true then D
  else if ok then
    let out (k : Nat) : Bool := k / 2 ^ 36 != n
    let D := { D with mem := { D.mem with
        bytes := D.mem.bytes.filter (fun e => out e.1)
        grans := D.mem.grans.filter (fun e => out (e.1 * 32)) } }
    D.onHbm n (fun h => { h with ready := true })
  else (D.onHbm n (fun h => { h with failed := true })).event { cls := 3, code := 0x06, island := 27 + n, ident := n }

/-- What the error registers keep of an uncorrectable or poisoned granule that the scrubber reads (R399, R404). -/
def DieState.scrubErr (D : DieState) (n off : Nat) (poisoned : Bool) : DieState :=
  (D.setReg64 (B_HBMn n) HBM_LAST_ERR_OFFSET (off / 32 * 32)).setReg (B_HBMn n) HBM_LAST_ERR_INFO
    (b2n poisoned * 8 + 16 + pseudoChannel off * 2 ^ 16)

/-- The scrubber's reading of one granule (R393). -/
def DieState.scrubGran (D : DieState) (n off : Nat) : DieState :=
  match D.granState n off with
  | .clean => D
  | .poisoned => D.scrubErr n off true
  | .correctable => (D.setGran n off {}).count (B_HBMn n) HBM_SCRUB_CORRECTED
  | .wrong w =>
    (D.miscorrect n off w).count (B_HBMn n) HBM_SCRUB_CORRECTED
  | .uncorrectable =>
    ((D.tick.poison n off).scrubErr n off false).event { cls := 3, code := 0x03, island := 27 + n, loc := off / 32 * 32 }

/-- One patrol read: a line, and the end of a pass (R393). -/
def DieState.patrol (D : DieState) (n : Nat) : DieState :=
  if bits (D.reg (B_HBMn n) HBM_SCRUB_PERIOD) 0 8 = 0 ∨ (D.mem.hbm n).ready = false then D
  else
    let l := (D.mem.hbm n).scrubPos
    let D := (D.scrubGran n (64 * l)).scrubGran n (64 * l + 32)
    if stackGiB * 2 ^ 24 ≤ l + 1 then
      ((D.onHbm n (fun h => { h with scrubPos := 0 })).count32 (B_HBMn n) HBM_SCRUB_PASSES).cause (B_HBMn n) 5
    else D.onHbm n (fun h => { h with scrubPos := l + 1 })

/-- A temperature reading of a stack (R394, R395). -/
def DieState.hbmTemp (D : DieState) (n : Nat) (v : Option Nat) : DieState :=
  let th := D.reg (B_HBMn n) HBM_TEMP_THRESH
  let old := (D.mem.hbm n).temp
  let new := old.sample D.now v (bits th 0 8) (bits th 8 8)
  let D := D.onHbm n (fun h => { h with temp := new })
  let D := if new.warm && !old.warm then
      (D.cause (B_HBMn n) 3).event { cls := 3, code := 0x04, island := 27 + n, ident := n, count := v.getD 0 } else D
  if new.critical && !old.critical then
    ((D.cause (B_HBMn n) 4).event { cls := 3, code := 0x05, island := 27 + n, ident := n, count := v.getD 0 }).doubt 8
  else D

/-- HBM_TRAINING_DONE: stack and outcome. -/
def execHbmTrainingDone (a : At) (stack : Nat) (ok : Bool) (s : State) : Out := onDie a s (fun D => D.trained (stack % 2) ok)

/-- HBM_REQUEST_AGED: the order among waiting requests. Every request of the model is served in its own step, in
order of acceptance, so there is none for it to overtake (log entry 41). -/
def execHbmRequestAged (a : At) (s : State) : Out := onDie a s id

/-- PATROL_SCRUB_READ. -/
def execPatrolScrubRead (a : At) (stack : Nat) (s : State) : Out := onDie a s (fun D => D.patrol (stack % 2))

/-- A write of a stack's HBM_CTRL (R400): its fields, clear_counters and scrub_restart, each action whose bit is set. -/
def DieState.hbmCtrl (D : DieState) (r : Req) (stack v : Nat) : DieState :=
  let b := B_HBMn stack
  D.csrDo r b HBM_CTRL (fun D =>
    let D := D.ctrlWrite r b v
    if bit v 2 then D.onHbm stack (fun h => { h with scrubPos := 0 }) else D)

/-- HBM_SCRUB_RESTART: a write of HBM_CTRL with scrub_restart. -/
def execHbmScrubRestart (a : At) (r : Req) (stack : Nat) (v : Word) (s : State) : Out :=
  onDie a s (fun D => D.hbmCtrl r (stack % 2) v.toNat)

/-- HBM_TEMP_SAMPLE: the highest valid reading, if any. -/
def execHbmTempSample (a : At) (stack : Nat) (reading : Option Nat) (s : State) : Out :=
  onDie a s (fun D => D.hbmTemp (stack % 2) reading)

end Sys2Proof.Machine
end

