-- ==== Sys2Proof/Machine/Evl.lean ====
section
/-! DEFINITION. The event log: its writer, flushes, copies and readers, and the diagnostics commands (R613-R632). -/

namespace Sys2Proof.Machine

/-! ## Records (R613) -/

/-- The 32 bytes of a record of a die. -/
def EvRec.bytes (r : EvRec) (die : Nat) : List Byte :=
  let e := r.ev
  toLE 8 e.time ++ toLE 4 r.seq ++ toLE 1 e.island
    ++ toLE 1 ((e.inst.getD 0) % 8 + b2n e.inst.isSome * 8 + die % 4 * 16 + b2n r.summary * 64 + b2n e.injection * 128)
    ++ toLE 1 (e.cls % 16 + e.sev % 4 * 16) ++ toLE 1 e.code
    ++ toLE 8 e.loc ++ toLE 4 e.ident ++ toLE 1 e.status ++ toLE 1 e.cause ++ toLE 2 (min e.count 65535)

/-- The oldest sequence held. -/
def LogState.oldest (l : LogState) : Nat := l.nextSeq - l.ring.length

/-- Append a record to the ring of 4,096 (R619, R620). -/
def DieState.putRecord (D : DieState) (e : Event) (summary : Bool) : DieState :=
  let l := D.log
  let full := decide (4096 ≤ l.ring.length)
  let lost := full && decide (l.flushedSeq ≤ l.oldest)
  let r : EvRec := { seq := l.nextSeq, summary := summary, ev := e }
  let D := { D with log := { l with
      ring := (if full then l.ring.tail else l.ring) ++ [r]
      nextSeq := l.nextSeq + 1
      flushedSeq := if lost then l.flushedSeq + 1 else l.flushedSeq
      lost := if lost then l.lost + 1 else l.lost
      critical := l.critical || e.sev == 3 } }
  let D := D.count B_EVL EVL_RECORDS
  let D := if lost then (D.count32 B_EVL EVL_OVERWRITTEN).cause B_EVL 4 else D
  if e.sev = 3 then D.cause B_EVL 2 else D

/-- The summary of coalesced events (R618). -/
def LogState.summaryEvent (l : LogState) (now : Nat) : Event :=
  let mask := (l.coalBy.map (fun e => if e.2 = 0 then 0 else 2 ^ e.1)).sum
  let best := l.coalBy.foldl (fun (m : Nat × Nat) e => if m.2 < e.2 then e else m) (0, 0)
  { time := now, island := 39, cls := 0, sev := 1, code := 0x01, loc := l.coalFirst.getD 0,
    ident := min l.coalCount (2 ^ 32 - 1), status := mask % 256, cause := mask / 256 % 256, count := best.1 }

/-- EVENT_WRITE: a summary first, else the head of the intake (R618). -/
def DieState.writeEvent (D : DieState) : DieState :=
  if D.log.isLost then D
  else if D.log.coalCount ≠ 0 then
    let e := { D.log.summaryEvent D.now with injection := !D.log.injections.isEmpty }
    let D := { D with log := { D.log with coalFirst := none, coalCount := 0, coalBy := [] } }
    D.putRecord e true
  else match D.log.intake with
    | [] => D
    | e :: rest => ({ D with log := { D.log with intake := rest } }).putRecord e false

/-! ## Flushing (R620) -/

/-- May die d reach the flash: die 0 is not lost and has not failed since the package last restarted, and the ring leads to
it (R28, R632)? -/
def DieState.flashReach (D : DieState) : Bool :=
  !D.auditLost && (D.num == 0 || (ringModule D.d2d.links D.num 0).isSome)

/-- Start a flush of everything written so far. -/
def DieState.startFlush (D : DieState) : DieState :=
  if D.log.flushing.isSome || !D.flashReach then D
  else { D with log := { D.log with flushing := some D.log.nextSeq, critical := false } }

/-- Is a flush due? -/
def DieState.flushDue (D : DieState) : Bool :=
  decide (D.log.lastFlush + bits (D.reg B_EVL EVL_FLUSH_PERIOD) 0 16 * 1000000 ≤ D.now)
  || decide (D.log.flushedSeq + 2048 ≤ D.log.nextSeq) || D.log.critical

/-- Append records to a die's flash ring of 32,768, a sector of 2,048 erased when it is full. -/
def ringAppend (ring new : List EvRec) : List EvRec :=
  new.foldl (fun l r => (if 32768 ≤ l.length then l.drop 2048 else l) ++ [r]) ring

def Flash.ringOf (f : Flash) (d : Nat) : List EvRec := match f.rings.find? (fun r => r.1 == d) with | some r => r.2 | none => []
def Flash.putRing (f : Flash) (d : Nat) (l : List EvRec) : Flash :=
  { f with rings := f.rings.filter (fun r => r.1 != d) ++ [(d, l)] }

/-- The records of a flush, a loss before them recorded first. -/
def DieState.flushRecords (D : DieState) (upTo : Nat) : List EvRec :=
  let new := D.log.ring.filter (fun r => D.log.flushedSeq ≤ r.seq && r.seq < upTo)
  if D.log.lost = 0 then new
  else { seq := D.log.flushedSeq, ev := { time := D.now, island := 39, cls := 0, sev := 1, code := 0x04, count := D.log.lost } } :: new

/-- The flash write of die d's flush ends. -/
def State.flushDone (s : State) (a : At) (ok : Bool) : State :=
  let D := (s.die a.die).at a.time
  match D.log.flushing with
  | none => s
  | some upTo =>
    if ok then
      let recs := D.flushRecords upTo
      let D' := { D with log := { D.log with flushing := none, flushedSeq := max upTo D.log.flushedSeq, lost := 0, lastFlush := D.now } }
      { (s.onDie a.die (fun _ => D')) with pkg := { s.pkg with
          flash := s.pkg.flash.putRing D.num (ringAppend (s.pkg.flash.ringOf D.num) recs) } }
    else
      s.onDie a.die (fun _ =>
        ({ D with log := { D.log with flushing := none, lastFlush := D.now } }).event
          { cls := 0, code := 0x05, island := 39 })

/-! ## Copies (R621, R622) -/

/-- A copy fails; with the other one the log is lost. -/
def DieState.failCopy (D : DieState) (copy : Nat) : DieState :=
  let was := if copy = 0 then D.log.fail0 else D.log.fail1
  if was || D.log.isLost then D
  else
    let D := { D with log := if copy = 0 then { D.log with fail0 := true } else { D.log with fail1 := true } }
    let D := D.cause B_EVL 3
    if D.log.isLost then
      let D := D.cause B_EVL 0
      let gone := D.log.intake
      let D := { D with log := { D.log with intake := [] } }
      gone.foldl (fun D e => D.coalesce e) D
    else D.event { cls := 0, code := 0x02, island := 39, ident := copy }

/-- An uncorrectable record of a copy: rewritten from the other, or the second time at its place the copy fails. -/
def DieState.copyError (D : DieState) (x : Nat × Nat) : DieState :=
  if (if x.1 = 0 then D.log.fail0 else D.log.fail1) then D
  else if D.log.rewritten.contains x then D.failCopy x.1
  else ({ D with log := { D.log with rewritten := D.log.rewritten ++ [x] } }).count32 B_EVL EVL_COPY_ERRORS

/-- A die that has just lost its log tells the flash ring (R622). -/
def State.logLostRecord (s : State) (before : Bool) (a : At) : State :=
  let D := s.die a.die
  if D.log.isLost && !before && D.flashReach then
    let r : EvRec := { seq := D.log.nextSeq, ev := { time := D.now, island := 39, cls := 0, sev := 3, code := 0x03 } }
    { s with pkg := { s.pkg with
        flash := s.pkg.flash.putRing D.num (ringAppend (s.pkg.flash.ringOf D.num) [r]) } }
  else s

/-- A change of a die's log, and the record of its loss. -/
def onLog (a : At) (s : State) (f : DieState → DieState) : Out :=
  if (s.die a.die).boot.held then .next s
  else .next ((s.atDie a f).logLostRecord (s.die a.die).log.isLost a)

/-! ## Reading (R624, R626) -/

/-- Is a record hidden from a reader of an instance without an installer or maker session? -/
def EvRec.hidden (r : EvRec) (inst : Nat) : Bool :=
  match r.ev.inst with
  | none => true
  | some i => i != inst || i == 0

/-- The records from a first sequence on. -/
def LogState.from (l : LogState) (first count : Nat) : List EvRec :=
  if l.isLost then []
  else
    let k := (first + 2 ^ 32 - l.oldest % 2 ^ 32) % 2 ^ 32
    (if k < 2 ^ 31 then l.ring.drop k else l.ring).take count

/-- EVENT_READ. -/
def eventRead (c : Cmd) : M (List Byte) := do
  let D ← get
  okField (1 ≤ c.p 4 2 && c.p 4 2 ≤ 4096) 4
  okField (c.p 6 2 == 0) 6
  let all := match D.queueSession (D.queue c.queue) with | some s => decide (1 ≤ s.role) | none => false
  let rs := D.log.from (c.p 0 4) (c.p 4 2)
  let bytes := rs.flatMap (fun r => if !all && r.hidden c.inst then List.replicate 32 0 else r.bytes D.num)
  if bytes.isEmpty then pure () else paramWrite c.id c.stacked c.ctx (c.p 8 8) bytes
  pure (toLE 4 rs.length ++ toLE 4 D.log.oldest ++ toLE 4 D.log.nextSeq)

/-- EVENT_MARK: at most 1,000 marks of an instance in a second. -/
def eventMark (c : Cmd) : M (List Byte) := do
  let D ← get
  let sec := D.now / 10 ^ 9
  let m := tabGet (0, 0) D.log.marks c.inst
  let n := if m.1 = sec then m.2 else 0
  guardS (n < 1000) .refusedQuota 15
  onD (fun D => { D with log := { D.log with marks := tabSet (0, 0) c.inst (sec, n + 1) D.log.marks } })
  onD (fun D => D.event { cls := 14, code := 0x01, island := 1, inst := some c.inst, loc := c.p 0 8, ident := c.p 8 4,
                          status := c.p 12 1, cause := c.p 13 1, count := c.p 14 2 })
  pure []

/-! ## Fault injection (R627-R630) -/

/-- Is the address of a memory injection populated, as its kind needs (R629)? -/
def injectPlaceOk (kind a : Nat) : Bool :=
  match place a with
  | .store _ _ => kind == 1
  | .stack _ _ _ => kind == 2 || kind == 3
  | _ => false

/-- The field checks of an injection descriptor (R627-R629). -/
def injectOk (d : List Byte) : Bool :=
  let k := field d 0 1
  let t := field d 1 1
  let p := field d 12 4
  1 ≤ k && k ≤ 9 && zeros d 2 2 && zeros d 24 8
  && 1 ≤ field d 16 4 && field d 16 4 ≤ 2 ^ 20 && 1 ≤ field d 20 4 && field d 20 4 ≤ 3600000
  && (if k ≤ 3 then injectPlaceOk k (field d 4 8) else true)
  && (if k = 1 then p == 0
      else if k = 2 then p < 64
      else if k = 3 then bits p 6 2 == 0 && bits p 14 18 == 0 && bits p 0 6 != bits p 8 6
      else if k = 4 then 1 ≤ p && p ≤ 11
      else if k = 5 then p ≤ 1
      else if k = 6 then t ≤ 1 && p ≤ 1
      else if k = 8 then t ≤ 1 && p == 0
      else if k = 9 then t ≤ 3 && p == 0
      else true)

/-- May a role inject this (R630)? -/
def DieState.injectRole (D : DieState) (role : Nat) (d : List Byte) : Bool :=
  role == 2 ||
  (role == 1 && decide (field d 0 1 ≤ 3) &&
    (match place (field d 4 8) with
     | .store c _ => D.clusterOwner c != some 0
     | .stack n off _ => !D.granI0 n off
     | _ => false))

/-- Invert a symbol of the granule as stored: twice restores it (R628). -/
def Gran.flip (g : Gran) (sym : Nat) : Gran :=
  { g with flips := if g.flips.contains sym then g.flips.erase sym else insertBy (fun (a b : Nat) => decide (a < b)) sym g.flips }

/-- The effect of an injection at its acceptance. -/
def DieState.applyInjection (D : DieState) (d : List Byte) : DieState :=
  let p := field d 12 4
  match field d 0 1, place (field d 4 8) with
  | 1, .store c off => D.onCluster c (fun C => C.flipParity off)
  | 2, .stack n off _ => D.setGran n off ((D.gran n off).flip (bits p 0 6))
  | 3, .stack n off _ => D.setGran n off (((D.gran n off).flip (bits p 0 6)).flip (bits p 8 6))
  | 4, _ => D.doubt p (field d 1 1)
  | 8, _ => D.failCopy (field d 1 1)
  | _, _ => D

/-- End the injection in a slot (R628, R630). -/
def DieState.endInjection (D : DieState) (slot : Nat) : DieState :=
  match tabFind D.log.injections slot with
  | none => D
  | some j =>
    let D := D.event { cls := 13, code := 0x02, island := 39, ident := j.id, cause := j.kind }
    let D := { D with log := { D.log with injections := tabDel slot D.log.injections } }
    if j.kind = 4 ∧ j.param = 7 then D.clockSeen else D

/-- Start an injection: its slot, its event and its effect; a memory fault that is its only one ends it. rivals claim a slot in the
same cycle (R423). -/
def startInjection (d : List Byte) (queue : Nat) (rivals : List Nat) : M (List Byte) := do
  let D ← get
  claim 13 208 ((List.range 4).filter (fun s => (tabFind D.log.injections s).isNone)).length queue rivals
  match (List.range 4).find? (fun s => (tabFind D.log.injections s).isNone) with
  | none => failWith .refusedFull 13
  | some slot => do
    let id := D.log.nextInj
    let j : Injection := { id := id, kind := field d 0 1, target := field d 1 1, param := field d 12 4,
                           left := field d 16 4 - (if field d 0 1 ≤ 3 then 1 else 0),
                           stop := D.now + field d 20 4 * 1000000 }
    onD (fun D => { D with log := { D.log with injections := tabPut slot j D.log.injections, nextInj := id + 1 } })
    onD (fun D => (D.event { cls := 13, code := 0x01, island := 39, ident := id, cause := j.kind }).applyInjection d)
    if j.left = 0 then onD (fun D => D.endInjection slot)
    pure (toLE 4 id)

/-- FAULT_INJECT. -/
def faultInject (c : Cmd) (rivals : List Nat) : M (List Byte) := do
  let D ← get
  let d := padTo 32 c.params
  okField (injectOk d) 0
  guardS (D.injectRole c.role d) .refusedRole
  startInjection d c.queue rivals

/-- FAULT_INJECT_STOP. -/
def faultInjectStop (c : Cmd) : M (List Byte) := do
  let D ← get
  match D.log.injections.find? (fun e => e.2.id == c.p 0 4) with
  | none => failWith .faultStaleGeneration
  | some e => do
    onD (fun D => D.endInjection e.1)
    pure []

/-- One fault of the first injection that p picks has been used: its count falls, and it ends at 0. -/
def DieState.useInjection (D : DieState) (p : Injection → Bool) : DieState :=
  match D.log.injections.find? (fun e => p e.2) with
  | none => D
  | some e =>
    if e.2.left ≤ 1 then D.endInjection e.1
    else { D with log := { D.log with injections := tabPut e.1 { e.2 with left := e.2.left - 1 } D.log.injections } }

/-- Injections whose duration or count is over. -/
def DieState.expireInjections (D : DieState) : DieState :=
  (D.log.injections.filter (fun e => e.2.stop ≤ D.now || e.2.left == 0)).foldl (fun D e => D.endInjection e.1) D

/-! ## Rows -/

/-- A record is written, and the copies that do not acknowledge it fail (R621). Where none is left the write is not completed:
its event counts as coalesced with the rest of the intake (R622). -/
def DieState.writeCopies (D : DieState) (nack : List Nat) : DieState :=
  let none_ := (D.log.fail0 || nack.contains 0) && (D.log.fail1 || nack.contains 1)
  (nack.filter (· < 2)).foldl (fun (D : DieState) c => D.failCopy c) (if none_ then D else D.writeEvent)

/-- EVENT_WRITE: nack names the copies that do not acknowledge the write. -/
def execEventWrite (a : At) (nack : List Nat) (s : State) : Out := onLog a s (fun D => D.writeCopies nack)

/-- EVL_FLUSH_START. -/
def execEvlFlushStart (a : At) (s : State) : Out := onDie a s (fun D => if D.flushDue then D.startFlush else D)

/-- A write of EVL_CTRL (R631): its fields, clear_counters and flush_now, each action whose bit is set. -/
def DieState.evlCtrl (D : DieState) (r : Req) (v : Nat) : DieState :=
  D.csrDo r B_EVL EVL_CTRL (fun D =>
    let D := D.ctrlWrite r B_EVL v
    if bit v 2 then D.startFlush else D)

/-- EVL_FLUSH_NOW: a write of EVL_CTRL with flush_now. -/
def execEvlFlushNow (a : At) (r : Req) (v : Word) (s : State) : Out := onDie a s (fun D => D.evlCtrl r v.toNat)

/-- EVL_FLUSH_COMPLETE. -/
def execEvlFlushComplete (a : At) (ok : Bool) (s : State) : Out :=
  if (s.die a.die).boot.held then .next s else .next (s.flushDone a ok)

/-- EVL_COPY_SCRUB: the uncorrectable places found, as copy and ring slot. -/
def execEvlCopyScrub (a : At) (errors : List (Nat × Nat)) (s : State) : Out :=
  onLog a s (fun D =>
    errors.foldl (fun D e => D.copyError e) { D with log := { D.log with lastScrub := D.now } })

/-- EVENT_READ. -/
def execEventRead (a : At) (id : Nat) (s : State) : Out :=
  onDie a s (fun D => D.runCmd 0x0702 id (fun c D => D.replyM c (eventRead c)))

/-- EVENT_MARK. -/
def execEventMark (a : At) (id : Nat) (s : State) : Out :=
  onDie a s (fun D => D.runCmd 0x0703 id (fun c D => D.replyM c (eventMark c)))

/-- FAULT_INJECT. -/
def execFaultInject (a : At) (id : Nat) (rivals : List Nat) (s : State) : Out :=
  onLog a s (fun D => D.runCmd 0x0700 id (fun c D => D.replyM c (faultInject c rivals)))

/-- FAULT_INJECT_STOP. -/
def execFaultInjectStop (a : At) (id : Nat) (s : State) : Out :=
  onDie a s (fun D => D.runCmd 0x0701 id (fun c D => D.replyM c (faultInjectStop c)))

end Sys2Proof.Machine
end

