-- ==== Sys2Proof/Machine/Roles.lean ====
section
/-! DEFINITION. Roles: nonces, authentication, sessions, the lock registers, the audit log and the maker commands
(R453-R464), and the changes of the boot flash (R573, R574). -/

namespace Sys2Proof.Machine

/-! ## The boot flash (R573) -/

/-- One change of the flash. -/
def Flash.apply (f : Flash) : FlashOp → Flash
  | .image slot bytes => if slot = 0 then { f with image0 := bytes } else { f with image1 := bytes }
  | .slot n => { f with slot := n }
  | .repair kind die target remove =>
    let rest := f.repairs.filter (fun r => r != (kind, die, target))
    { f with repairs := if remove then rest else rest ++ [(kind, die, target)] }
  | .anchor slot bytes => { f with anchors := tabSet [] slot bytes f.anchors }
  | .instances die bytes => { f with instances := tabSet [] die bytes f.instances }
  | .staged p => { f with staged := p }
  | .plate p => { f with plate := p }

/-- Can the die reach the flash of die 0, which is not lost (R28)? -/
def DieState.reachesFlash (D : DieState) : Bool := D.flashReach

/-- Make the changes that a die has sent. -/
def State.settleDie (s : State) (d : Die) : State :=
  let D := s.die d
  if D.boot.held || !D.reachesFlash then s
  else
    { (s.onDie d (fun D => { D with toFlash := [] })) with
      pkg := { s.pkg with flash := D.toFlash.foldl Flash.apply s.pkg.flash } }

/-- Make the changes that all dies have sent. -/
def State.settleFlash (s : State) : State := (((s.settleDie 0).settleDie 1).settleDie 2).settleDie 3

/-- A command of one die whose flash changes are made before it ends. -/
def onFlash (a : At) (s : State) (f : DieState → DieState) : Out :=
  if (s.die a.die).boot.held then .next s else .next (s.atDie a f).settleFlash

/-! ## The audit log (R461-R464) -/

/-- The 128 bytes of a record (R462, R463). -/
def AuditRec.bytes (r : AuditRec) : List Byte :=
  let head := toLE 8 r.seq ++ toLE 8 r.time ++ toLE 1 r.kind ++ toLE 1 r.die ++ toLE 1 r.inst ++ toLE 1 r.role
    ++ toLE 2 r.req ++ toLE 2 r.op
  if r.kind = 7 then head ++ padTo 96 r.chain ++ toLE 8 0
  else head ++ toLE 1 r.status ++ toLE 3 0 ++ toLE 4 r.serial ++ padTo 32 r.digest ++ padTo 48 r.chain ++ toLE 16 0

/-- Bytes of the newest record; none: 128 zero bytes. -/
def Flash.auditPrev (f : Flash) : List Byte :=
  match f.audit.getLast? with | some r => r.bytes | none => List.replicate 128 0

/-- Free records of the area of 65,536 (R461). -/
def Flash.auditFree (f : Flash) : Nat := 65536 - f.audit.length

/-- Does the log accept a record of a kind (R464)? -/
def Flash.auditTakes (f : Flash) (kind : Nat) : Bool :=
  f.auditFree != 0 && (512 ≤ f.auditFree || kind == 1 || kind == 2 || kind == 3 || kind == 6)

/-- Append a record, chained to the one before. -/
def Flash.auditPut (f : Flash) (r : AuditRec) : Flash :=
  let chain := if r.kind = 7 then Config.packageSign f.auditPrev else Config.sha384 f.auditPrev
  { f with audit := f.audit ++ [{ r with seq := f.auditSeq, chain := chain }], auditSeq := f.auditSeq + 1 }

/-- A checkpoint (R463), where the area has room for one. -/
def Flash.checkpoint (f : Flash) (time : Nat) : Flash :=
  if f.auditFree = 0 then f else f.auditPut { time := time, kind := 7 }

/-- Append a record, and a checkpoint after every 256th (R463). -/
def Flash.auditAdd (f : Flash) (r : AuditRec) : Flash :=
  let f := f.auditPut r
  if f.auditSeq % 256 = 0 then f.checkpoint r.time else f

/-- Erase the whole sectors of 512 records that are all older than n, but never that of the newest checkpoint (R464). -/
def Flash.auditTrim (f : Flash) (n : Nat) : Flash :=
  let last := (f.audit.filter (fun r => r.kind == 7)).foldl (fun m r => max m (r.seq / 512 + 1)) 0
  let gone (r : AuditRec) : Bool :=
    (r.seq / 512 + 1) * 512 ≤ n && (r.seq / 512 + 1) * 512 ≤ f.auditSeq && r.seq / 512 + 1 != last
  { f with audit := f.audit.filter (fun r => !(gone r)) }

/-- Time of the newest record. -/
def Flash.auditTime (f : Flash) : Nat := match f.audit.getLast? with | some r => r.time | none => 0

/-! ## Sessions (R454-R459) -/

/-- The time that certificates are judged by (R458), ns. -/
def DieState.certTime (D : DieState) (audit : Nat) : Nat := if D.ptp.locked then D.now else max D.now audit

/-- Audit record of a session. -/
def DieState.sessionRecord (D : DieState) (kind req inst role serial status : Nat) (cert : List Byte) : AuditRec :=
  { time := D.now, kind := kind, inst := inst, role := role, req := req, status := status, serial := serial,
    digest := if cert.isEmpty then [] else (Config.sha384 cert).take 32 }

/-- End the session of a slot (R459): its queue is unbound, the record and the event follow. -/
def DieState.endSession (D : DieState) (slot : Nat) : DieState :=
  match tabFind D.rol.sessions slot with
  | none => D
  | some x =>
    let D := { D with rol := { D.rol with sessions := tabDel slot D.rol.sessions } }
    let D := { D with cmd := { D.cmd with
        queues := tabMap (fun _ q => if q.bound = some slot then { q with bound := none } else q) D.cmd.queues } }
    let D := D.event { cls := 7, code := 0x03, ident := x.req }
    if D.auditLost then D else D.audit (D.sessionRecord 3 x.req 0 x.role x.serial 0 []) .none

/-- End every session that p picks. -/
def DieState.endSessions (D : DieState) (p : Session → Bool) : DieState :=
  (D.rol.sessions.filter (fun e => p e.2)).foldl (fun D e => D.endSession e.1) D

/-- SESSION_TIMEOUT: 15 minutes idle, 8 hours open, or not_after past (R459). -/
def DieState.sessionTimeouts (D : DieState) (audit : Nat) : DieState :=
  D.endSessions (fun x => decide (x.lastUse + 900000000000 ≤ D.now) || decide (x.opened + 28800000000000 ≤ D.now)
    || decide (x.notAfter < D.certTime audit))

/-- The slot for a new session. -/
def DieState.freeSession (D : DieState) : Option Nat :=
  (List.range 4).find? (fun i => (tabFind D.rol.sessions i).isNone)

/-- A session opens, its record durable (R458, R461). -/
def DieState.openSession (D : DieState) (x : Session) : DieState :=
  match D.freeSession with
  | none => { D with rol := { D.rol with status := tabSet 0 x.req 12 D.rol.status } }
  | some slot =>
    let D := { D with rol := { D.rol with
        sessions := tabPut slot { x with opened := D.now, lastUse := D.now } D.rol.sessions
        status := tabSet 0 x.req 2 D.rol.status } }
    let D := match x.queue with
      | some q => D.setQueue q { D.queue q with bound := some slot }
      | none => D
    (D.cause B_ROL 0).event { cls := 7, code := 0x03, ident := x.req }

/-! ## Nonces (R457) -/

/-- Bytes of the fresh nonce. -/
def DieState.newNonce (D : DieState) : List Byte :=
  (List.range 48).map (fun i => Config.nonceByte (48 * (4 * D.fresh + D.num) + i))

/-- A read of ROL_NONCE word 0: a fresh nonce for the requester, of up to 16. -/
def DieState.makeNonce (D : DieState) (req : Nat) : DieState :=
  let rest := D.rol.nonces.filter (fun n => n.req != req)
  let rest := if 16 ≤ rest.length then rest.tail else rest
  { D.tick with rol := { D.rol with nonces := rest ++ [{ req := req, bytes := D.newNonce, made := D.now }] } }

def DieState.nonceOf (D : DieState) (req : Nat) : Option Nonce :=
  D.rol.nonces.find? (fun n => n.req == req && decide (D.now < n.made + 10000000000))

def DieState.dropNonce (D : DieState) (req : Nat) : DieState :=
  { D with rol := { D.rol with nonces := D.rol.nonces.filter (fun n => n.req != req) } }

/-! ## Authentication (R456-R458) -/

/-- Is q a command queue without a seal doorbell? -/
def DieState.bindable (D : DieState) (q : Nat) : Bool :=
  q == 0xFFFF || (q < 4096 && (D.queue q).kind == 0 && ((D.queue q).state == .active || (D.queue q).state == .error)
    && (D.queue q).doorbell.isNone)

/-- Reserved bytes and fields of the block and its certificate. -/
def DieState.authFormat (D : DieState) (b : List Byte) : Bool :=
  field b 0 1 == 1 && (field b 1 1 == 1 || field b 1 1 == 2) && field b 3 1 == 0 && zeros b 28 4 && zeros b 224 32
  && (field b 352 1 == 1 || field b 352 1 == 2) && field b 352 1 ≤ field b 1 1 && field b 353 1 == 0
  && zeros b 356 156 && D.bindable (field b 354 2)

/-- The key of an anchor (R455); empty: none. -/
def anchorKey (f : Flash) (n : Nat) : List Byte :=
  if n = 0 then Config.makerKey else (tabGet [] f.anchors n).take 96

/-- The minimum serial of an anchor. -/
def anchorMin (f : Flash) (n : Nat) : Nat := field (tabGet [] f.anchors n) 96 4

/-- Is the anchor known, filled and fit for the role? -/
def anchorFits (f : Flash) (n role : Nat) : Bool :=
  n < 8 && !(anchorKey f n).isEmpty && (if role = 2 then n == 0 else n != 0)

/-- The 62-byte message of the response (R457). -/
def DieState.authMessage (D : DieState) (nonce : List Byte) (req role : Nat) : List Byte :=
  nonce ++ toLE 8 Config.packageSerial ++ toLE 2 D.fab.node ++ toLE 1 D.num ++ toLE 2 req ++ toLE 1 role

/-- The result of the checks of R458 on a block. -/
def DieState.authResult (D : DieState) (f : Flash) (req : Nat) (b : List Byte) : Nat :=
  let t := D.certTime f.auditTime
  let opening := D.rol.auditQ.filter (fun p => match p.act with | .sessionOpen _ => true | _ => false)
  if !D.authFormat b then 3
  else if !anchorFits f (field b 2 1) (field b 1 1) then 4
  else if !Config.ecdsaOk (anchorKey f (field b 2 1)) (b.take 128) ((b.drop 128).take 96) then 5
  else if t < field b 8 8 * 1000000000 ∨ field b 16 8 * 1000000000 < t then 6
  else if D.fab.node < field b 24 2 ∨ field b 26 2 < D.fab.node then 7
  else if field b 4 4 < anchorMin f (field b 2 1) then 8
  else match D.nonceOf req with
    | none => 9
    | some n =>
      if !Config.ecdsaOk ((b.drop 32).take 96) (D.authMessage n.bytes req (field b 352 1)) ((b.drop 256).take 96) then 10
      else if D.rol.lockouts.any (fun l => l.1 == req && D.now < l.2) then 11
      else if 4 ≤ D.rol.sessions.length + opening.length then 12
      else if D.auditLost || !f.auditTakes 1 then 13
      else 2

/-- A failed authentication (R458, R461). -/
def DieState.authFailed (D : DieState) (f : Flash) (req inst result : Nat) (b : List Byte) : DieState :=
  let D : DieState := { D with rol := { D.rol with
      status := tabSet 0 req result D.rol.status
      fails := (req, D.now) :: D.rol.fails.filter (fun (x : Nat × Nat) => decide (D.now < x.2 + 60000000000)) } }
  let D := (D.count32 B_ROL ROL_AUTH_FAILS).cause B_ROL 1
  let D := D.event { cls := 7, code := 0x04, inst := some inst, ident := req, cause := result }
  let n : Nat := (D.rol.fails.filter (fun x => x.1 == req)).length
  let D : DieState := if 3 ≤ n then
      ({ D with rol := { D.rol with
          lockouts := D.rol.lockouts.filter (fun (l : Nat × Nat) => l.1 != req) ++ [(req, D.now + 60000000000)] } }).cause B_ROL 2
    else D
  if D.auditLost || !f.auditTakes 2 then (D.count32 B_ROL ROL_UNRECORDED).cause B_ROL 4
  else D.audit (D.sessionRecord 2 req inst (field b 352 1) (field b 4 4) result (b.take 256)) .none

/-- SESSION_AUTH_DONE of a requester (R458). -/
def DieState.authDone (D : DieState) (f : Flash) (req : Nat) : DieState :=
  match D.rol.pend.find? (fun p => p.1 == req) with
  | none => D
  | some p =>
    let D := { D with rol := { D.rol with pend := D.rol.pend.filter (fun x => x.1 != req) } }
    let r := runM (stackRead (cpCtx p.2.1) p.2.2 512) D
    let b := match r.1 with | .ok b => b | .error _ => []
    let D := r.2
    let result := if b.isEmpty then 3 else D.authResult f req b
    let D := D.dropNonce req
    if result = 2 then
      let x : Session := { role := field b 352 1, req := req,
                           queue := if field b 354 2 = 0xFFFF then none else some (field b 354 2), anchor := field b 2 1,
                           serial := field b 4 4, opened := D.now, lastUse := D.now, notAfter := field b 16 8 * 1000000000 }
      D.audit (D.sessionRecord 1 req p.2.1 x.role x.serial 0 (b.take 256)) (.sessionOpen x)
    else D.authFailed f req p.2.1 result b

/-- A write of ROL_AUTH_CTRL: bit 0 opens, bit 1 ends the requester's own session. -/
def DieState.authCtrl (D : DieState) (r : Req) (v : Nat) : DieState :=
  let D := if bit v 1 then D.endSessions (fun x => x.req == r.id) else D
  if bit v 0 ∧ D.rol.pend.all (fun p => p.1 != r.id) = true then
    { D with rol := { D.rol with pend := D.rol.pend ++ [(r.id, r.inst, D.reg64 B_ROL ROL_AUTH_ADDR r.id)]
                                 status := tabSet 0 r.id 1 D.rol.status } }
  else D

/-! ## Locks (R15, R448, R468) -/

/-- The block's RWL image: its registers' words in offset order, other bits 0. -/
def DieState.rwlImage (D : DieState) (b : Nat) : List Byte :=
  match blockKind b with
  | none => []
  | some k => ((regMap k).filter (fun d => d.rwl != 0)).flatMap (fun d =>
      (List.range d.words).flatMap (fun i => toLE 4 (andN (D.reg b (d.off + 4 * i)) d.rwl)))

/-- An action that cannot be recorded is refused (R461). -/
def DieState.unrecorded (D : DieState) : DieState := (D.count32 B_ROL ROL_UNRECORDED).cause B_ROL 4

/-- A write of ROL_LOCK_CTRL. -/
def DieState.lockCtrl (D : DieState) (r : Req) (v : Nat) : DieState :=
  let b := D.sel r.id B_ROL ROL_LOCK_SEL
  let x : AuditRec := { time := D.now, inst := r.inst, role := D.roleOf r, req := r.id, op := b,
                        digest := (Config.sha384 (D.rwlImage b)).take 32 }
  let D := if bit v 0 && hasRwl b then
      (if D.auditLost then D.unrecorded else D.audit { x with kind := 4 } (.lockOpen b)) else D
  if bit v 1 && hasRwl b then
    (if D.auditLost then D.unrecorded else D.audit { x with kind := 5 } (.lockCommit b)) else D

/-! ## Records that become durable (R461) -/

/-- What a record was written for takes effect. -/
def DieState.auditAct (D : DieState) : AuditAct → DieState
  | .command id => D.mapCmd id (fun c => { c with phase := .ready, result := some (.ok, 0) })
  | .reply id =>
    match D.cmdOf id with
    | some c => match c.result with
      | some (st, reason) => D.reply c st reason
      | none => D
    | none => D
  | .sessionOpen x => D.openSession x
  | .none => D
  | .lockOpen b => { D with rol := { D.rol with lockOpen := if D.rol.lockOpen.contains b then D.rol.lockOpen else D.rol.lockOpen ++ [b] } }
  | .lockCommit b => { D with rol := { D.rol with lockOpen := D.rol.lockOpen.filter (· != b) } }
  | .trim _ => D

/-- What a record was meant for is refused: it cannot be written. -/
def DieState.auditDeny (D : DieState) (a : AuditAct) : DieState :=
  match a with
  | .command id | .reply id => D.unrecorded.replyId id .refusedDomainOff
  | .sessionOpen x =>
    let D := D.unrecorded
    { D with rol := { D.rol with status := tabSet 0 x.req 13 D.rol.status } }
  | .lockOpen _ | .lockCommit _ | .trim _ => D.unrecorded
  | .none => D

/-- The log has reached 7/8 of its area (R464): die 0 tells. -/
def State.auditHigh (s : State) (before : Nat) : State :=
  if before < 57344 ∧ 57344 ≤ s.pkg.flash.audit.length then
    s.onDie 0 (fun D => (D.cause B_ROL 3).event { cls := 7, code := 0x05, island := 2 })
  else s

/-- AUDIT_RECORD_DURABLE: the oldest record of a die. -/
def State.auditDurable (s : State) (d : Die) : State :=
  match (s.die d).rol.auditQ with
  | [] => s
  | p :: rest =>
    let s := s.onDie d (fun D => { D with rol := { D.rol with auditQ := rest } })
    if (s.die d).reachesFlash && s.pkg.flash.auditTakes p.record.kind then
      let n := s.pkg.flash.audit.length
      let f := s.pkg.flash.auditAdd { p.record with time := (s.die d).now }
      let f := match p.act with | .trim k => f.auditTrim k | _ => f
      let s := { s with pkg := { s.pkg with flash := f } }
      (s.onDie d (fun D => D.auditAct p.act)).auditHigh n
    else s.onDie d (fun D => D.auditDeny p.act)

/-! ## The maker commands (R460) -/

/-- FW_STAGE: address 8 bytes, length 4, slot 4. -/
def fwStage (c : Cmd) : M (List Byte) := do
  let D ← get
  let slot := c.p 12 4
  okField (1 ≤ c.p 8 4 && c.p 8 4 ≤ 2 ^ 23) 8
  okField (slot < 2 && slot != D.boot.slot) 12
  let b ← paramRead c.id c.stacked c.ctx (c.p 0 8) (c.p 8 4)
  guardS (Config.imageOk b) .faultFormat
  onD (fun D => { D with toFlash := D.toFlash ++ [FlashOp.image slot b] })
  pure []

/-- FW_ACTIVATE: slot 4 bytes. -/
def fwActivate (c : Cmd) : M (List Byte) := do
  okField (c.p 0 4 < 2) 0
  onD (fun D => { D with toFlash := D.toFlash ++ [FlashOp.slot (c.p 0 4)] })
  pure []

/-- REPAIR_EDIT: kind 4 bytes, die 4, target 8, edit 4 (0 add, 1 remove). -/
def repairEdit (c : Cmd) : M (List Byte) := do
  okField (c.p 0 4 < 2) 0
  okField (c.p 4 4 < 4) 4
  okField (c.p 0 4 == 1 || c.p 8 8 < 2 ^ 15) 8
  okField (c.p 16 4 < 2) 16
  onD (fun D => { D with toFlash := D.toFlash ++ [FlashOp.repair (c.p 0 4) (c.p 4 4) (c.p 8 8) (c.p 16 4 == 1)] })
  pure []

/-- The spare-lane map of a core's lane row (R232, R243): each spare lane may serve one logical lane, and no lane has two. -/
def fuseLanes (d core : Nat) : Nat :=
  let w := Config.fuseWord (Fin.ofNat 4 d) (128 * core)
  let both := bit w 6 && bits w 0 6 == bits w 8 6
  bits w 0 7 + fld (bits w 8 6) 8 6 + fld (b2n (bit w 14 && !both)) 14 1

/-- The physical lane that serves a logical lane (R232). -/
def physicalLane (d core lane : Nat) : Nat :=
  let w := fuseLanes d core
  if bit w 6 && bits w 0 6 == lane then 64 else if bit w 14 && bits w 8 6 == lane then 65 else lane

/-- The repair of a logical lane (R232, R244): the spare cell of the physical lane that serves it, and that lane. -/
def fuseCell (d core lane : Nat) : Nat :=
  let p := physicalLane d core lane
  bits (Config.fuseWord (Fin.ofNat 4 d) (128 * core + 1 + p)) 0 6 + fld p 8 7

/-- What FUSE_DUMP writes: the lane row maps of the die's 16 cores, lanes then cells, and the repair records. -/
def fuseMaps (die : Nat) (f : Flash) : List Byte :=
  ((List.range 16).flatMap (fun g => toLE 4 (fuseLanes die g) ++ (List.range 64).flatMap (fun l => toLE 4 (fuseCell die g l))))
    ++ f.repairs.flatMap (fun r => toLE 4 r.1 ++ toLE 4 r.2.1 ++ toLE 8 r.2.2)

/-- FUSE_DUMP: address 8 bytes. -/
def fuseDump (f : Flash) (c : Cmd) : M (List Byte) := do
  let D ← get
  paramWrite c.id c.stacked c.ctx (c.p 0 8) (fuseMaps D.num f)
  pure []

/-- SAFETY_INJECT: an injection descriptor, under the maker role. -/
def safetyInject (c : Cmd) (rivals : List Nat) : M (List Byte) := do
  okField (injectOk (padTo 32 c.params)) 0
  startInjection (padTo 32 c.params) c.queue rivals

/-- RFA_CAPTURE: address 8 bytes, length 4. The records of the log come first; the layout of the rest is free. -/
def rfaCapture (c : Cmd) : M (List Byte) := do
  let D ← get
  let log := D.log.ring.flatMap (fun r => r.bytes D.num)
  let n := c.p 8 4
  let free := (List.range (n - log.length)).map (fun i => Config.freeByte (4 * (D.fresh + i) + D.num))
  onD (fun D => { D with fresh := D.fresh + (n - log.length) })
  paramWrite c.id c.stacked c.ctx (c.p 0 8) (log.take n ++ free)
  pure []

/-- ANCHOR_SET: anchor 4 bytes, key 96, minimum serial 4; the anchor alone clears it. -/
def anchorSet (c : Cmd) : M (List Byte) := do
  okField (1 ≤ c.p 0 4 && c.p 0 4 < 8) 0
  let bytes := if c.params.length ≤ 4 then [] else padTo 100 (c.params.drop 4)
  onD (fun D => { D with toFlash := D.toFlash ++ [FlashOp.anchor (c.p 0 4) bytes] })
  pure []

/-- Sessions of certificates that the anchors' minimum serials revoke end (R460). -/
def State.endRevoked (s : State) : State :=
  { s with dies := quadMap (fun D => D.endSessions (fun x => x.serial < anchorMin s.pkg.flash x.anchor)) s.dies }

/-! ## Rows -/

/-- The value of the first word of the requester's nonce. -/
def DieState.nonceWord (D : DieState) (req i : Nat) : Nat :=
  match D.nonceOf req with | some n => field n.bytes (4 * i) 4 | none => 0

/-- ROL_NONCE_READ: a read of word 0. -/
def execRolNonceRead (a : At) (r : Req) (s : State) : Out :=
  onDie a s (fun D =>
    if !D.barOpen r B_ROL then D.out (.csrData r.id 0xFFFFFFFF)
    else if D.csrAdmits D.saf.service.isSome r B_ROL ROL_NONCE false false then
      let D := D.makeNonce r.id
      D.out (.csrData r.id (D.nonceWord r.id 0))
    else (D.refuseCsr r B_ROL ROL_NONCE false).out (.csrData r.id 0))

/-- ROL_AUTH_OPEN: a write of ROL_AUTH_CTRL with bit 0 set. -/
def execRolAuthOpen (a : At) (r : Req) (v : Word) (s : State) : Out :=
  onDie a s (fun D => if bit v.toNat 0 then D.csrDo r B_ROL ROL_AUTH_CTRL (fun D => D.authCtrl r v.toNat) else D)

/-- ROL_AUTH_END: a write of ROL_AUTH_CTRL with bit 1 set. -/
def execRolAuthEnd (a : At) (r : Req) (v : Word) (s : State) : Out :=
  onDie a s (fun D => if bit v.toNat 1 then D.csrDo r B_ROL ROL_AUTH_CTRL (fun D => D.authCtrl r v.toNat) else D)

/-- SESSION_AUTH_DONE. -/
def execSessionAuthDone (a : At) (req : Nat) (s : State) : Out :=
  onDie a s (fun D => D.authDone s.pkg.flash req)

/-- SESSION_TIMEOUT. -/
def execSessionTimeout (a : At) (s : State) : Out := onDie a s (fun D => D.sessionTimeouts s.pkg.flash.auditTime)

/-- NONCE_EXPIRE: 10 s. -/
def execNonceExpire (a : At) (s : State) : Out :=
  onDie a s (fun D => { D with rol := { D.rol with
    nonces := D.rol.nonces.filter (fun n => decide (D.now < n.made + 10000000000)) } })

/-- LOCKOUT_EXPIRE. -/
def execLockoutExpire (a : At) (s : State) : Out :=
  onDie a s (fun D => { D with rol := { D.rol with lockouts := D.rol.lockouts.filter (fun (l : Nat × Nat) => decide (D.now < l.2)) } })

/-- ROL_LOCK_OPEN: a write of ROL_LOCK_CTRL with bit 0 set. -/
def execRolLockOpen (a : At) (r : Req) (v : Word) (s : State) : Out :=
  onDie a s (fun D => if bit v.toNat 0 then D.csrDo r B_ROL ROL_LOCK_CTRL (fun D => D.lockCtrl r v.toNat) else D)

/-- ROL_LOCK_COMMIT: a write of ROL_LOCK_CTRL with bit 1 set. -/
def execRolLockCommit (a : At) (r : Req) (v : Word) (s : State) : Out :=
  onDie a s (fun D => if bit v.toNat 1 then D.csrDo r B_ROL ROL_LOCK_CTRL (fun D => D.lockCtrl r v.toNat) else D)

/-- AUDIT_TRIM: a write of ROL_AUDIT_CTRL with bit 0 set. -/
def execAuditTrim (a : At) (r : Req) (v : Word) (s : State) : Out :=
  onDie a s (fun D =>
    if bit v.toNat 0 then
      D.csrDo r B_ROL ROL_AUDIT_CTRL (fun D =>
        if D.auditLost then D.unrecorded
        else D.audit { time := D.now, kind := 6, inst := r.inst, role := D.roleOf r, req := r.id }
          (.trim (D.reg64 B_ROL ROL_AUDIT_TRIM)))
    else D)

/-- AUDIT_RECORD_DURABLE. -/
def execAuditRecordDurable (a : At) (s : State) : Out :=
  if (s.die a.die).boot.held then .next s else .next ((s.atDie a id).auditDurable a.die)

/-- FW_STAGE. -/
def execFwStage (a : At) (id : Nat) (s : State) : Out :=
  onFlash a s (fun D => D.runCmd 0x0F00 id (fun c D => D.replyM c (fwStage c)))

/-- FW_ACTIVATE. -/
def execFwActivate (a : At) (id : Nat) (s : State) : Out :=
  onFlash a s (fun D => D.runCmd 0x0F01 id (fun c D => D.replyM c (fwActivate c)))

/-- REPAIR_EDIT. -/
def execRepairEdit (a : At) (id : Nat) (s : State) : Out :=
  onFlash a s (fun D => D.runCmd 0x0F02 id (fun c D => D.replyM c (repairEdit c)))

/-- FUSE_DUMP. -/
def execFuseDump (a : At) (id : Nat) (s : State) : Out :=
  onDie a s (fun D => D.runCmd 0x0F03 id (fun c D => D.replyM c (fuseDump s.pkg.flash c)))

/-- SAFETY_INJECT. -/
def execSafetyInject (a : At) (id : Nat) (rivals : List Nat) (s : State) : Out :=
  onLog a s (fun D => D.runCmd 0x0F04 id (fun c D => D.replyM c (safetyInject c rivals)))

/-- RFA_CAPTURE. -/
def execRfaCapture (a : At) (id : Nat) (s : State) : Out :=
  onDie a s (fun D => D.runCmd 0x0F05 id (fun c D => D.replyM c (rfaCapture c)))

/-- ANCHOR_SET. -/
def execAnchorSet (a : At) (id : Nat) (s : State) : Out :=
  if (s.die a.die).boot.held then .next s
  else .next ((s.atDie a (fun D => D.runCmd 0x0F06 id (fun c D => D.replyM c (anchorSet c)))).settleFlash.endRevoked)

end Sys2Proof.Machine
end

