-- ==== Sys2Proof/Machine/Stipple.lean ====
section
/-! DEFINITION. The stipple unit: tables (R71-R81), geometry (R80-R88), filters (R85), time (R89-R92), presence (R93),
stamping (R94-R96), intake (R97-R100) and replay (R101, R102). -/

namespace Sys2Proof.Machine

/-! ## Tables (R71) -/

/-- Entries and entry size of a table. -/
def stpEntries (t : Nat) : Nat := [256, 64, 8192, 256, 32].getD t 0
def stpSize (t : Nat) : Nat := [64, 256, 8, 80, 160].getD t 0

/-- n bytes of an entry from offset o. -/
def stpBytes (tab : Tab Byte) (t e o n : Nat) : List Byte := memRead tab (t * 2 ^ 20 + e * stpSize t + o) n

/-- A whole entry. -/
def stpEntry (tab : Tab Byte) (t e : Nat) : List Byte := stpBytes tab t e 0 (stpSize t)

/-- Stream entry fields (R74). -/
def seFlags (e : List Byte) : Nat := field e 19 1
def seEnabled (e : List Byte) : Bool := bit (seFlags e) 0
def seSafety (e : List Byte) : Bool := bit (seFlags e) 1
def seMobile (e : List Byte) : Bool := bit (seFlags e) 2
def seFoe (e : List Byte) : Bool := bit (seFlags e) 3
def seComb (e : List Byte) : Bool := bit (seFlags e) 4
def seMask (e : List Byte) : Nat := field e 18 1
def seLayout (e : List Byte) : Nat := field e 20 1
def seTarget (e : List Byte) : Nat := field e 21 1
def seTimeout (e : List Byte) : Nat := field e 36 4

/-- Signed little-endian field. -/
def ifield (l : List Byte) (o n : Nat) : Int := sext (8 * n) (field l o n)

/-! ## Layouts (R76-R78) -/

/-- The field entries of a layout descriptor. -/
def layoutFields (L : List Byte) : List (List Byte) :=
  (List.range (min 28 (field L 3 1))).map (fun i => (L.drop (32 + 8 * i)).take 8)

def feRole (f : List Byte) : Nat := field f 2 1
def feWidth (f : List Byte) : Nat := [1, 2, 3, 4, 8].getD (bits (field f 3 1) 0 3) 0
def feScope (f : List Byte) : Nat := bits (field f 3 1) 5 2

/-- Scopes a role may have, as a mask of packet 1, block 2, point 4 (R78). -/
def roleScopes (r : Nat) : Nat :=
  if r = 0x0A then 3
  else if r = 0x0E ∨ r = 0x14 then 2
  else if r = 0x0F ∨ r = 0x10 ∨ r = 0x11 ∨ r = 0x13 then 1
  else if r = 0x12 then 6
  else if 1 ≤ r ∧ r ≤ 0x0D then 4
  else 0

/-- Is a field entry valid (R76-R78)? -/
def fieldOk (L f : List Byte) : Bool :=
  let w := feWidth f
  let r := feRole f
  let lim := if feScope f = 0 then field L 14 2 else if feScope f = 1 then field L 6 2 else field L 10 2
  w != 0 && feScope f != 3 && !(bit (field f 3 1) 7) && field f 6 1 ≤ 47 && field f 7 1 == 0
  && bit (roleScopes r) (feScope f) && field f 0 2 + w ≤ lim && (w != 8 || r == 0x0F || r == 0x11)
  && (!(r == 0x04 || r == 0x09 || r == 0x0A) || field f 4 2 == 0)

/-- Is a role present? -/
def hasRole (L : List Byte) (r : Nat) : Bool := (layoutFields L).any (fun f => feRole f == r)

/-- Validation of a layout descriptor (R77). -/
def layoutOk (L : List Byte) : Bool :=
  let fs := layoutFields L
  let mode := field L 2 1
  let src := field L 16 1
  field L 0 2 == 1 && mode ≤ 2 && 1 ≤ field L 3 1 && field L 3 1 ≤ 28
  && 1 ≤ field L 6 2 && field L 6 2 ≤ 9000 && field L 8 2 ≤ 256 && 1 ≤ field L 10 2 && field L 10 2 ≤ 9000
  && 1 ≤ field L 12 2 && field L 12 2 ≤ 4096 && src ≤ 3 && field L 17 1 == 0 && zeros L 28 4
  && (mode != 2 || (1 ≤ field L 26 2 && field L 26 2 ≤ 8192))
  && fs.all (fieldOk L)
  && fs.all (fun f => (fs.filter (fun g => feRole g == feRole f)).length == 1)
  && field L 24 2 + field L 12 2 * field L 10 2 ≤ field L 6 2
  && (field L 8 2 == 0 || field L 8 2 * field L 12 2 ≤ 4096)
  && (if mode = 0 then hasRole L 0x01 && (hasRole L 0x02 || hasRole L 0x14) && (hasRole L 0x03 || hasRole L 0x04)
      else if mode = 1 then hasRole L 0x05 && hasRole L 0x06 && hasRole L 0x07
      else hasRole L 0x08)
  && (if src = 1 then hasRole L 0x0F && hasRole L 0x10 else src = 0 || hasRole L 0x11)

/-- The converted value of a field at a base (R78). -/
def fieldValue (payload : List Byte) (base : Nat) (f : List Byte) : Int :=
  let w := feWidth f
  let bs := (payload.drop (base + field f 0 2)).take w
  let u := if bit (field f 3 1) 4 then beNat bs else leNat bs
  let raw : Int := if bit (field f 3 1) 3 then sext (8 * w) u else u
  let v := if field f 4 2 = 0 then raw else rndShift (raw * (field f 4 2 : Nat)) (field f 6 1 : Nat) .rne 0
  match feRole f with
  | 0x02 | 0x03 | 0x14 => v % 65536
  | 0x0B => max 0 (min v 65535)
  | 0x0C => max 0 (min v 15)
  | _ => v

/-- The value of a role at a block and a point; none: absent. -/
def roleValue (L payload : List Byte) (bo po r : Nat) : Option Int :=
  match (layoutFields L).find? (fun f => feRole f == r) with
  | none => none
  | some f => some (fieldValue payload (if feScope f = 0 then 0 else if feScope f = 1 then bo else po) f)

/-- Blocks of a payload (R79). -/
def blockCount (L : List Byte) (len : Nat) : Nat :=
  if field L 8 2 ≠ 0 then field L 8 2
  else min (min ((len - field L 4 2) / max 1 (field L 6 2)) 256) (4096 / max 1 (field L 12 2))

/-- Is a payload malformed (R79, R97)? -/
def payloadBad (L : List Byte) (len : Nat) : Bool :=
  9000 < len || len < field L 14 2 || (field L 8 2 != 0 && len < field L 4 2 + field L 8 2 * field L 6 2)

/-- The packet time (R89). -/
def packetTime (L entry payload : List Byte) (ingress : Int) : Int :=
  let v (r : Nat) : Int := (roleValue L payload 0 0 r).getD 0
  match field L 16 1 with
  | 0 => ingress - ifield entry 32 4
  | 1 => v 0x0F * 1000000000 + v 0x10
  | 2 => v 0x11
  | _ => v 0x11 * 1000

/-! ## Sine and cosine (R80) -/

/-- 2 pi in units of 2^-100. -/
def twoPi : Nat := 7964883625991394727376702227904

/-- The sum of the sine series from a term on: x = angle^2, all in units of 2^-100. -/
def sinSeries (x : Nat) : Nat → Nat → Nat → Int
  | 0, _, _ => 0
  | fuel + 1, n, term => (term : Int) - sinSeries x fuel (n + 1) (term * x / 2 ^ 100 / ((2 * n) * (2 * n + 1)))

/-- Q[k]: the integer nearest to 2^30 sin(2 pi k / 65536), k = 0 ... 16384. -/
def sineQ (k : Nat) : Int :=
  let a := k * twoPi / 65536
  (sinSeries (a * a / 2 ^ 100) 17 1 a * 2 ^ 30 + 2 ^ 99) / 2 ^ 100

def sineCode (a : Int) : Int :=
  let a := (a % 65536).toNat
  if a ≤ 16384 then sineQ a
  else if a ≤ 32768 then sineQ (32768 - a)
  else if a ≤ 49152 then -(sineQ (a - 32768))
  else -(sineQ (65536 - a))

def cosineCode (a : Int) : Int := sineCode (a + 16384)

/-- STP_TRIG_CRC (R80). -/
def trigCrc : Nat := crc32c ((List.range 16385).flatMap (fun k => toLE 4 (wrapN 32 (sineQ k))))

/-! ## Points -/

/-- A point in su. -/
structure Pt where
  x : Int
  y : Int
  z : Int
deriving DecidableEq, Repr

/-- What a packet brings to its points. -/
structure PktCtx where
  stream : Nat
  layout : List Byte
  entry : List Byte
  xform : List Byte
  filter : List Byte
  /-- beam entry number b of the stream -/
  beam : Nat → List Byte
  payload : List Byte
  time : Int
  arrival : Nat
  /-- start of its frame -/
  start : Int
  replay : Bool

/-- The range that CART and DEPTH points are filtered by. -/
def maxAbs (p : Pt) : Int := max (max p.x.natAbs p.y.natAbs) p.z.natAbs

/-- Geometry of a point (R81-R84): the sensor-frame point and its range, or a reason code of R103. DESIGN CHOICE (log entry
174): the spec does not say what a sensor-frame coordinate outside I32 becomes before the transform; it stays exact here, and
R68's test is made on the site-frame point alone. -/
def sensorPoint (x : PktCtx) (val : Nat → Option Int) (idx pidx : Nat) : Except Nat (Pt × Int) :=
  let v (r : Nat) : Int := (val r).getD 0
  match field x.layout 2 1 with
  | 0 =>
    let b := v 0x04
    if b < 0 ∨ (field x.entry 24 2 : Int) ≤ b then .error 2
    else
      let e := x.beam b.toNat
      let r := rnd (v 0x01 * (field e 6 2 : Nat)) 15 .rne 0 + ifield e 4 2
      let az := (v 0x02 + v 0x14 + ifield e 2 2) % 65536
      let el := (v 0x03 + ifield e 0 2) % 65536
      if r ≤ 0 then .error 3
      else
        let h := rnd (r * cosineCode el) 30 .rne 0
        .ok ({ x := rnd (h * cosineCode az) 30 .rne 0, y := rnd (h * sineCode az) 30 .rne 0,
               z := rnd (r * sineCode el) 30 .rne 0 }, r)
  | 1 =>
    let p : Pt := { x := v 0x05, y := v 0x06, z := v 0x07 }
    if p = { x := 0, y := 0, z := 0 } then .error 3 else .ok (p, maxAbs p)
  | _ =>
    let d := v 0x08
    if d ≤ 0 then .error 3
    else
      let u : Int := (val 0x09).getD idx
      let w : Int := (val 0x0A).getD ((pidx / max 1 (field x.layout 26 2) : Nat) : Int)
      let du := u * 256 - ifield x.entry 48 4
      let dv := w * 256 - ifield x.entry 52 4
      let p : Pt := { x := d, y := rnd (-(du * d * (field x.entry 56 4 : Nat))) 40 .rne 0,
                      z := rnd (-(dv * d * (field x.entry 60 4 : Nat))) 40 .rne 0 }
      .ok (p, maxAbs p)

/-- Is a point inside self-mask box k of a filter set (R85)? -/
def inBox (f : List Byte) (k : Nat) (p : Pt) : Bool :=
  let b (i : Nat) : Int := ifield f (16 + 24 * k + 4 * i) 4
  b 0 ≤ p.x && p.x ≤ b 1 && b 2 ≤ p.y && p.y ≤ b 3 && b 4 ≤ p.z && p.z ≤ b 5

def fits32 (v : Int) : Bool := -2147483648 ≤ v && v ≤ 2147483647

/-- The site-frame point (R68). -/
def sitePoint (t : List Byte) (p : Pt) : Pt :=
  let r (i j : Nat) : Int := ifield t (4 * (3 * i + j)) 4
  let tr (i : Nat) : Int := ifield t (36 + 4 * i) 4
  { x := transformRow (r 0 0) (r 0 1) (r 0 2) (tr 0) p.x p.y p.z
    y := transformRow (r 1 0) (r 1 1) (r 1 2) (tr 1) p.x p.y p.z
    z := transformRow (r 2 0) (r 2 1) (r 2 2) (tr 2) p.x p.y p.z }

def ptFits (p : Pt) : Bool := fits32 p.x && fits32 p.y && fits32 p.z

/-- Deskew of a mobile sensor's point (R88). -/
def deskew (t : List Byte) (p : Pt) (dt : Int) : Pt :=
  let vel (i : Nat) : Int := ifield t (56 + 4 * i) 4
  let tr (i : Nat) : Int := ifield t (36 + 4 * i) 4
  let th := ifield t 68 4 * dt
  { x := p.x + rnd (vel 0 * dt) 30 .rne 0 - rnd (th * (p.y - tr 1)) 40 .rne 0
    y := p.y + rnd (vel 1 * dt) 30 .rne 0 + rnd (th * (p.x - tr 0)) 40 .rne 0
    z := p.z + rnd (vel 2 * dt) 30 .rne 0 }

/-- The 24-byte record (R94). -/
def pointRecord (p : Pt) (t : Int) (inten ret beam : Int) (stream : Nat) (mobile safety : Bool) : List Byte :=
  toLE 4 (wrapN 32 p.x) ++ toLE 4 (wrapN 32 p.y) ++ toLE 4 (wrapN 32 p.z) ++ toLE 4 (wrapN 32 t)
    ++ toLE 2 inten.toNat ++ toLE 1 stream ++ toLE 1 (ret.toNat + b2n mobile * 16 + b2n safety * 32)
    ++ toLE 2 (wrapN 16 beam) ++ [0, 0]

/-- A point through every stage: its record, or the reason code of R103 that discards it. The order of the checks is
that of the stages, with the flag and the time first (log entry 43). -/
def stampPoint (x : PktCtx) (b i : Nat) : Except Nat (List Byte) :=
  let L := x.layout
  let bo := field L 4 2 + b * field L 6 2
  let po := bo + field L 24 2 + i * field L 10 2
  let val (r : Nat) : Option Int := roleValue L x.payload bo po r
  let v (r : Nat) : Int := (val r).getD 0
  let tp := x.time + (b * field L 20 4 + i * field L 18 2 : Nat) + v 0x0E + v 0x0D
  let f := x.filter
  if val 0x12 = some 0 then .error 13
  else if !x.replay && decide ((x.arrival : Int) + 1000000 < tp) then .error 10
  else if !x.replay && decide (tp < (x.arrival : Int) - (field x.entry 40 4 * 1000 : Nat)) then .error 9
  else match sensorPoint x val i (b * field L 12 2 + i) with
    | .error c => .error c
    | .ok (p, r) =>
      if r < (field f 0 4 : Nat) ∨ (field f 4 4 ≠ 0 ∧ ((field f 4 4 : Nat) : Int) < r) then .error 4
      else if v 0x0B < (field f 8 2 : Nat) then .error 5
      else if (List.range (min 4 (field f 10 1))).any (fun k => inBox f k p) then .error 6
      else
        let q := sitePoint x.xform p
        let dt := tp - ifield x.xform 48 8
        if !ptFits q then .error 7
        else if seMobile x.entry && decide (100000000 < dt.natAbs) then .error 8
        else
          let q := if seMobile x.entry then deskew x.xform q dt else q
          if !ptFits q then .error 7
          else if bit (field f 136 1) 0 && !(decide (ifield f 112 4 ≤ q.z) && decide (q.z ≤ ifield f 116 4)) then .error 11
          else if bit (field f 136 1) 1 && !(decide (ifield f 120 4 ≤ q.x) && decide (q.x ≤ ifield f 124 4)
              && decide (ifield f 128 4 ≤ q.y) && decide (q.y ≤ ifield f 132 4)) then .error 12
          else if tp - x.start < -2147483648 then .error 9
          else if 2147483647 < tp - x.start then .error 10
          else .ok (pointRecord q (tp - x.start) (v 0x0B) (v 0x0C) (v 0x04) x.stream (seMobile x.entry) (seSafety x.entry))

/-! ## Accounting (R103, R109) -/

/-- Offset in STP_STREAM_STAT of the stream total of a reason code; packet: the unit counted is a packet. -/
def reasonField (code : Nat) (packet : Bool) : Option Nat :=
  match code with
  | 1 => some 8
  | 2 => some (if packet then 8 else 6)
  | 3 | 4 | 5 | 6 | 11 | 12 | 13 => some 4
  | 7 | 8 | 9 | 10 => some 6
  | 14 => some 10
  | _ => none

/-- The cause bit of a reason code (R107). -/
def reasonBit (code : Nat) : Option Nat :=
  match code with | 1 => some 2 | 2 => some 3 | 8 => some 5 | 14 => some 4 | 15 => some 7 | _ => none

/-- Count n drops under one reason (R103). -/
def DieState.stpDrop (D : DieState) (stream code : Nat) (packet : Bool) (n : Nat := 1) : DieState :=
  let D := D.count B_STP (STP_DROP + 8 * code) n
  let D := match reasonField code packet with
    | some w => D.count B_STP (STP_STREAM_STAT + 4 * w) n stream
    | none => D
  let D := if code = 15 then D.count32 B_STP STP_STREAM_WORDS n stream else D
  match reasonBit code with | some b => D.cause B_STP b | none => D

/-- A packet of no known stream, on a port (4: host-fed). -/
def DieState.stpUnknown (D : DieState) (port : Nat) : DieState :=
  (D.count B_STP (STP_PORT_UNKNOWN + 8 * port)).count B_STP STP_DROP

def DieState.onStream (D : DieState) (i : Nat) (f : StreamState → StreamState) : DieState :=
  { D with stp := { D.stp with streams := tabMod {} i f D.stp.streams } }

def DieState.streamOf (D : DieState) (i : Nat) : StreamState := tabGet {} D.stp.streams i

/-- Is an enabled stream absent? -/
def DieState.streamAbsent (D : DieState) (i : Nat) : Bool := (D.streamOf i).absent

/-! ## Markers (R92) -/

/-- Close the slice's judgement of one stream (R93, R109). -/
def DieState.closeStreamSlice (D : DieState) (i : Nat) : DieState :=
  let e := stpEntry D.stp.active 0 i
  let x := D.streamOf i
  let minPts := field e 44 4
  let thin := seEnabled e && minPts != 0 && x.present && x.slicePts < minPts
  let D := D.setReg B_STP (STP_STREAM_WORDS + 4) (min x.slicePts (2 ^ 32 - 1)) i
  let D := D.setReg B_STP (STP_STREAM_WORDS + 8) (min (x.sliceDelay / 1000) (2 ^ 32 - 1)) i
  let D := D.onStream i (fun x => { x with thin := thin, slicePts := 0, sliceDelay := 0 })
  if thin then
    D.event { cls := 8, code := 0x03, island := 24, inst := some 0, ident := i, count := min x.slicePts 65535 }
  else D

/-- Streams that the table enables. -/
def enabledStreams (tab : Tab Byte) : List Nat := (List.range 256).filter (fun i => seEnabled (stpEntry tab 0 i))

/-- A marker that has reached the end of the intake goes to its consumers. A slice of a replay that is over is no slice of the
fall-back occupancy engine (R102). -/
def DieState.emitMarker (D : DieState) : IntakeItem → DieState
  | .pkt _ => D
  | .slice e =>
    let D := (enabledStreams D.stp.active).foldl (fun D i => D.closeStreamSlice i) D
    if e.replay && !D.stp.replay then D else { D with foe := { D.foe with queue := D.foe.queue ++ [.slice e] } }
  | .frame o =>
    { D with comb := { D.comb with queue := D.comb.queue ++ [.frame o] }
             stp := { D.stp with replayStart := none } }
  | .zones => { D with foe := { D.foe with queue := D.foe.queue ++ [.zones] } }
  | .combEnd t => { D with comb := { D.comb with queue := D.comb.queue ++ [.finish t] } }

/-- Markers at the head of the intake leave it: every packet before them has been parsed. -/
def DieState.emitMarkers (D : DieState) : Nat → DieState
  | 0 => D
  | fuel + 1 =>
    match D.stp.intake with
    | .pkt _ :: _ => D
    | [] => D
    | m :: rest => ({ D with stp := { D.stp with intake := rest } }.emitMarker m).emitMarkers fuel

/-- Put a marker behind the packets that have arrived. -/
def DieState.mark (D : DieState) (m : IntakeItem) : DieState :=
  let D := { D with stp := { D.stp with intake := D.stp.intake ++ [m] } }
  D.emitMarkers D.stp.intake.length

/-! ## Frames and slices (R36, R37) -/

/-- Frame and slice length of the plate in force, ns. -/
def DieState.frameNs (D : DieState) : Nat := match D.fab.plate with | some p => max 1 (p.frameMs * 1000000) | none => 100000000
def DieState.sliceNs (D : DieState) : Nat := match D.fab.plate with | some p => max 1 (p.sliceMs * 1000000) | none => 5000000

/-- Index of the open slice in its frame. -/
def DieState.sliceIndex (D : DieState) : Nat :=
  if D.stp.replay then D.stp.replaySlice else (D.stp.sliceAt - D.stp.frameAt) / D.sliceNs

/-- Close the open slice at a time. -/
def DieState.closeSlice (D : DieState) (t : Nat) : DieState :=
  D.mark (.slice { time := t, frame := D.stp.frame, slice := D.sliceIndex, replay := D.stp.replay })

/-- The slice boundary that the time base has reached, if the open slice has ended. -/
def DieState.sliceDue (D : DieState) : Option Nat :=
  let t := D.now / D.sliceNs * D.sliceNs
  if D.boot.stage == 7 && !D.stp.replay && D.stp.sliceAt < t then some t else none

/-- SLICE_BOUNDARY of the stipple unit. -/
def DieState.sliceBoundary (D : DieState) : DieState :=
  match D.sliceDue with
  | none => D
  | some t =>
    let D := D.closeSlice t
    { D with stp := { D.stp with sliceAt := t } }

/-- The frame boundary that the time base has reached, if the open frame has ended. -/
def DieState.frameDue (D : DieState) : Option Nat :=
  let t := D.now / D.frameNs * D.frameNs
  if D.boot.stage == 7 && !D.stp.replay && D.stp.frameAt < t then some t else none

/-- The open frame closes and frame n opens, from time t; late: it opens after it has begun; cut: its combs carry the
partial-frame mark in any case. -/
def DieState.openFrame (D : DieState) (n t : Nat) (late : Bool) (cut : Bool := false) : DieState :=
  let D := D.mark (.frame { num := n, partFrame := late, cut := cut, replay := D.stp.replay })
  { D with stp := { D.stp with frame := n, frameAt := t } }

/-- The frame and slice that hold the present time open at once. cut: after a step of time or a replay, whose combs carry the
partial-frame mark (R599, R102). -/
def DieState.openPresent (D : DieState) (cut : Bool := true) : DieState :=
  let t := D.now / D.frameNs * D.frameNs
  let D := D.openFrame (D.now / D.frameNs) t (t != D.now) cut
  { D with stp := { D.stp with sliceAt := D.now / D.sliceNs * D.sliceNs } }

/-! ## Parsing -/

/-- Context of a packet. -/
def DieState.pktCtx (D : DieState) (p : IntakePkt) : PktCtx :=
  let tab := if p.old then D.stp.before else D.stp.active
  let e := stpEntry tab 0 p.stream
  let L := stpEntry tab 1 (seLayout e)
  let t := packetTime L e p.payload p.ingress
  { stream := p.stream, layout := L, entry := e, xform := stpEntry tab 3 (field e 26 1),
    filter := stpEntry tab 4 (field e 27 1), beam := fun b => stpEntry tab 2 (field e 22 2 + b),
    payload := p.payload, time := t, arrival := p.arrival,
    start := if p.replay then D.stp.replayStart.getD t else ((p.start : Nat) : Int),
    replay := p.replay }

/-- Records that wait in the comb builder's queue (R96). -/
def CombState.waiting (c : CombState) : Nat := (c.queue.filter (fun x => match x with | .point _ _ => true | _ => false)).length

/-- A record goes to its consumers (R95, R96). The point of a replay that is over counts in no fall-back plane (R102). A comb
copy that finds the queue full leaves its place there: the comb that it was for counts it when the builder comes to it (R117,
R124). -/
def DieState.deliver (D : DieState) (x : PktCtx) (bytes : List Byte) : DieState :=
  let D := D.count B_STP (STP_STREAM_STAT + 8) 1 x.stream
  let D := D.onStream x.stream (fun s => { s with slicePts := s.slicePts + 1 })
  let D := if seFoe x.entry && (!x.replay || D.stp.replay) then
      { D with foe := { D.foe with queue := D.foe.queue ++ [.point bytes] } } else D
  if seComb x.entry then
    let tg := seTarget x.entry % 8
    if 4096 ≤ D.comb.waiting then
      ({ D with comb := { D.comb with queue := D.comb.queue ++ [CombItem.dropped tg] } }).stpDrop x.stream 14 false
    else { D with comb := { D.comb with queue := D.comb.queue ++ [.point tg bytes] } }
  else D

/-- One point of a packet. -/
def DieState.parsePoint (D : DieState) (x : PktCtx) (b i : Nat) : DieState :=
  match stampPoint x b i with
  | .error c => D.stpDrop x.stream c false
  | .ok bytes => D.deliver x bytes

/-- A valid packet of a stream: presence, sequence and delay (R93, R109). -/
def DieState.notePacket (D : DieState) (x : PktCtx) : DieState :=
  let s := D.streamOf x.stream
  let D := D.count B_STP STP_STREAM_STAT 1 x.stream
  let D := if s.absent then
      (D.cause B_STP 1).event { cls := 8, code := 0x02, island := 24, inst := some 0, ident := x.stream }
    else D
  let seqf := (layoutFields x.layout).find? (fun f => feRole f == 0x13)
  let m := match seqf with | some f => 2 ^ (8 * feWidth f) | none => 1
  let now : Option Nat := match seqf with
    | some f => some ((fieldValue x.payload 0 f % ((m : Nat) : Int)).toNat)
    | none => none
  let gap := match now, s.seq with
    | some n, some l => (n + 2 * m - l - 1) % m
    | _, _ => 0
  let D := if gap = 0 then D else D.stpDrop x.stream 15 true gap
  D.onStream x.stream (fun s => { s with
    present := true, absent := false, lastSeen := D.now, seq := match now with | some n => some n | none => s.seq,
    sliceDelay := max s.sliceDelay ((x.arrival : Int) - x.time).toNat })

/-- A packet of the intake through the parser (R79, R89-R96). -/
def DieState.parsePacket (D : DieState) (p : IntakePkt) : DieState :=
  let x := D.pktCtx p
  if payloadBad x.layout p.payload.length then D.stpDrop p.stream 2 true
  else
    let D := if p.replay && D.stp.replayStart.isNone then
        { D with stp := { D.stp with replayStart := some x.time } } else D
    let D := D.notePacket x
    (List.range (blockCount x.layout p.payload.length)).foldl (fun D b =>
      (List.range (field x.layout 12 2)).foldl (fun D i => D.parsePoint x b i) D) D

/-- The packets before the first marker. -/
def openPackets : List IntakeItem → List IntakePkt
  | .pkt p :: t => p :: openPackets t
  | _ => []

/-- Remove the first occurrence of a packet. -/
def dropPacket (p : IntakePkt) : List IntakeItem → List IntakeItem
  | .pkt q :: t => if q = p then t else .pkt q :: dropPacket p t
  | m :: t => m :: dropPacket p t
  | [] => []

/-- The packet the parser takes next: of a safety stream first, then the oldest (R98). -/
def DieState.nextPacket (D : DieState) : Option IntakePkt :=
  let ps := openPackets D.stp.intake
  let safe (p : IntakePkt) : Bool := seSafety (stpEntry (if p.old then D.stp.before else D.stp.active) 0 p.stream)
  match ps.find? safe with
  | some p => some p
  | none => ps.head?

/-- STIPPLE_PACKET_PARSE. -/
def DieState.parseNext (D : DieState) : DieState :=
  match D.nextPacket with
  | none => D
  | some p =>
    let D := { D with stp := { D.stp with intake := dropPacket p D.stp.intake } }
    let D := D.parsePacket p
    D.emitMarkers D.stp.intake.length

/-! ## Intake (R75, R97, R98) -/

/-- Bytes that occupy a space of the intake. -/
def DieState.intakeUsed (D : DieState) (pool : Nat) : Nat :=
  D.stp.intake.foldl (fun n m => match m with | .pkt p => if p.pool = pool then n + p.payload.length else n | _ => n) 0

def intakeRoom (pool : Nat) : Nat := if pool < 4 then 0x20000 else 0x40000

/-- The space that takes a packet of n bytes: its own reservation, else the shared space (R97, R98). -/
def DieState.intakePool (D : DieState) (own : Option Nat) (n : Nat) : Option Nat :=
  match own with
  | some o =>
    if D.intakeUsed o + n ≤ intakeRoom o then some o
    else if D.intakeUsed 5 + n ≤ intakeRoom 5 then some 5 else none
  | none => if D.intakeUsed 5 + n ≤ intakeRoom 5 then some 5 else none

/-- The enabled stream of a table with a match key and port (R75). -/
def matchStream (tab : Tab Byte) (port : Nat) (src : List Byte) (udp : Nat) : Option Nat :=
  (List.range 256).find? (fun i =>
    let e := stpEntry tab 0 i
    seEnabled e && e.take 16 == src && field e 16 2 == udp && bit (seMask e) port)

/-- Did a frame of an ingest port come in before the boundary of the last plate switch (R72)? -/
def DieState.beforeSwitch (D : DieState) (ingress : Nat) : Bool :=
  match D.fab.switched with | some t => decide (ingress < t) | none => false

/-- A UDP datagram reaches the intake (R75, R98, R101, R105), under the tables of its ingress time (R72). -/
def DieState.intakeUdp (D : DieState) (port : Nat) (src : List Byte) (udp : Nat) (payload : List Byte) (ingress : Nat) :
    DieState :=
  let old := D.beforeSwitch ingress
  let tab := if old then D.stp.before else D.stp.active
  if D.stp.replay then D.stpUnknown port
  else match matchStream tab port src udp with
    | none => D.stpUnknown port
    | some i =>
      if !bit (D.reg B_STP STP_CTRL) 0 then D.stpDrop i 1 true
      else if 9000 < payload.length then D.stpDrop i 2 true
      else
        let own := if seSafety (stpEntry tab 0 i) then 4 else port
        match D.intakePool (some own) payload.length with
        | none => D.stpDrop i 1 true
        | some pool => { D with stp := { D.stp with intake := D.stp.intake ++
            [.pkt
              { stream := i, port := port, arrival := D.now, ingress := ingress
                start := D.now / D.frameNs * D.frameNs, payload := payload, pool := pool, old := old }] } }

/-! ## Host-fed packets (R99, R100) -/

/-- Owner of a stream's comb target, from the plate (R113). -/
def DieState.targetOwner (D : DieState) (t : Nat) : Nat :=
  match D.fab.plate with
  | some p => match p.combs.find? (fun c => c.1 == t) with | some c => field c.2 97 1 | none => 0
  | none => 0

/-- May a command of an instance feed a stream (R100)? -/
def DieState.mayFeed (D : DieState) (c : Cmd) (e : List Byte) : Bool :=
  let own := seComb e && D.targetOwner (seTarget e) == c.inst
  let session := match D.queueSession (D.queue c.queue) with | some s => decide (1 ≤ s.role) | none => false
  (own || (session && D.saf.service.isSome)) && (!seSafety e || D.stp.replay)

/-- What becomes of the next packet of a feed: none: it waits; true: it entered. -/
def feedPacket (c : Cmd) (f : HostFeed) : M (Option (Bool × Nat)) := do
  let h ← paramRead c.id c.stacked c.ctx f.addr 32
  let n := field h 2 2
  let D ← get
  let i := field h 0 2
  let e := stpEntry D.stp.active 0 i
  let next := (f.addr + 32 + n + 31) / 32 * 32
  if !zeros h 4 4 || !zeros h 16 16 || n = 0 || 9000 < n then do
    onD (fun D => if i < 256 ∧ seEnabled e = true then D.stpDrop i 2 true else (D.count B_STP (STP_DROP + 16)).cause B_STP 3)
    pure (some (false, next))
  else if 256 ≤ i || !seEnabled e || !bit (seMask e) 4 || !D.mayFeed c e then do
    onD (fun D => D.stpUnknown 4)
    pure (some (false, next))
  else if !bit (D.reg B_STP STP_CTRL) 0 then do
    onD (fun D => D.stpDrop i 1 true)
    pure (some (false, next))
  else match D.intakePool (if seSafety e then some 4 else none) n with
    | none => pure none
    | some pool => do
      let b ← paramRead c.id c.stacked c.ctx (f.addr + 32) n
      onD (fun D => { D with stp := { D.stp with intake := D.stp.intake ++
        [.pkt
              { stream := i, port := 4, inst := c.inst, arrival := D.now, ingress := ifield h 8 8
                start := D.now / D.frameNs * D.frameNs, payload := b, pool := pool, replay := D.stp.replay }] } })
      pure (some (true, next))

/-- A feed after its next packet: the command ends with its last one. -/
def DieState.feedCount (D : DieState) (c : Cmd) (f : HostFeed) (ok : Bool) (next : Nat) : DieState :=
  let f := { f with addr := next, left := f.left - 1, accepted := f.accepted + b2n ok, dropped := f.dropped + b2n (!ok) }
  if f.left = 0 then
    let D := { D with stp := { D.stp with feeds := D.stp.feeds.filter (fun g => g.cmd != c.id) } }
    let D := if bit f.sealRef 24 then D.jobSignal f.sealRef 1 else D
    D.reply c .ok 0 (toLE 4 f.accepted ++ toLE 4 f.dropped)
  else { D with stp := { D.stp with feeds := D.stp.feeds.map (fun g => if g.cmd = c.id then f else g) } }

/-- HOSTFEED_PACKET_ADMIT: the next packet of a command's feed. -/
def DieState.feedNext (D : DieState) (id : Nat) : DieState :=
  match D.stp.feeds.find? (fun f => f.cmd == id), D.cmdOf id with
  | some f, some c =>
    D.withParams c.id c.inst (feedPacket c f) (fun r D => match r with
      | .error e => ({ D with stp := { D.stp with feeds := D.stp.feeds.filter (fun g => g.cmd != c.id) } }).reply c e.status
      | .ok none => D
      | .ok (some (ok, next)) => D.feedCount c f ok next)
  | _, _ => D

/-- HOSTFEED_SUBMIT. -/
def hostfeed (c : Cmd) : M (Option (List Byte)) := do
  okField (1 ≤ c.p 8 4 && c.p 8 4 ≤ 65536) 8
  okField (!bit (c.p 12 4) 24 || refOk (c.p 12 4)) 12
  onD (fun D => { D.started c.id with stp := { D.stp with
    feeds := D.stp.feeds ++ [{ cmd := c.id, addr := c.p 0 8, left := c.p 8 4, sealRef := c.p 12 4 }] } })
  pure none

/-- STREAM_POSE. -/
def streamPose (c : Cmd) : M (Option (List Byte)) := do
  let D ← get
  let i := c.p 0 2
  let e := stpEntry D.stp.active 0 i
  okField (zeros c.params 2 6) 2
  okField (i < 256 && seEnabled e && seMobile e) 0
  let session := match D.queueSession (D.queue c.queue) with | some s => decide (1 ≤ s.role) | none => false
  guardS (if seComb e then D.targetOwner (seTarget e) == c.inst else session) .refusedRole
  onD (fun D => { D.started c.id with stp := { D.stp with
    poses := D.stp.poses ++ [(i, padTo 72 (c.params.drop 8), c.id)] } })
  pure none

/-- STIPPLE_POSE_TAKE: the oldest posted pose, between two packets (R87). -/
def DieState.takePose (D : DieState) : DieState :=
  match D.stp.poses with
  | [] => D
  | (i, b, id) :: rest =>
    let x := field (stpEntry D.stp.active 0 i) 26 1
    let D := { D with stp := { D.stp with poses := rest, active := memWrite D.stp.active (3 * 2 ^ 20 + x * 80) b } }
    D.replyId id .ok

/-! ## The table window (R108) -/

/-- Table, bank, entry and chunk of a selection; is it in the table? -/
def tblOk (sel : Nat) : Bool :=
  let t := bits sel 0 4
  t < 5 && bits sel 8 13 < stpEntries t && 64 * bits sel 24 2 < stpSize t

/-- Key of the selected chunk's first byte, and its length. -/
def tblChunk (sel : Nat) : Nat × Nat :=
  let t := bits sel 0 4
  (t * 2 ^ 20 + bits sel 8 13 * stpSize t + 64 * bits sel 24 2, min 64 (stpSize t - 64 * bits sel 24 2))

/-- A write of STP_TBL_CTRL. One that names the active bank has no effect and is recorded, whatever entry it names (R72). -/
def DieState.tblCtrl (D : DieState) (r : Req) (v : Nat) : DieState :=
  let sel := D.sel r.id B_STP STP_TBL_SEL
  let bank := bit sel 4
  let put (D : DieState) (e : Bool) : DieState := { D with stp := { D.stp with tblError := e } }
  let D := if bit v 0 then
      (if !tblOk sel then put D true
       else
         let k := tblChunk sel
         let b := padTo 64 (memRead (if bank then D.stp.staged else D.stp.active) k.1 k.2)
         put ((List.range 16).foldl (fun D i => D.setReg B_STP (STP_TBL_DATA + 4 * i) (field b (4 * i) 4)) D) false)
    else D
  if bit v 1 then
    if !bank then
      put (D.event { cls := 8, code := 0x05, island := 24, inst := some r.inst, loc := csrAddr B_STP STP_TBL_CTRL, ident := r.id }) true
    else if !tblOk sel then put D true
    else
      let k := tblChunk sel
      let b := (List.range 16).flatMap (fun i => toLE 4 (D.reg B_STP (STP_TBL_DATA + 4 * i)))
      put { D with stp := { D.stp with staged := memWrite D.stp.staged k.1 (b.take k.2) } } false
  else D

/-! ## Validation and the bank switch (R72, R73) -/

/-- Field ranges of an enabled stream entry (R73, R74). DESIGN CHOICE (log entry 44): the ranges and the reserved bytes of R74,
R85 and R87 that R73 does not list fail the plate as its list does. -/
def streamOk (tab : Tab Byte) (i : Nat) : Bool :=
  let e := stpEntry tab 0 i
  let f := stpEntry tab 4 (field e 27 1)
  let used (t n : Nat) : Bool := !(stpEntry tab t n).all (· == 0)
  !seEnabled e ||
  (layoutOk (stpEntry tab 1 (seLayout e)) && seLayout e < 64 && field e 22 2 + field e 24 2 ≤ 8192 && field e 24 2 ≤ 4096
   && used 3 (field e 26 1) && field e 27 1 < 32 && bits (seMask e) 5 3 == 0 && bits (seFlags e) 5 3 == 0
   && seTarget e < 8 && zeros e 28 4 && (seTimeout e == 0 || (100 ≤ seTimeout e && seTimeout e ≤ 1000000))
   && 1 ≤ field e 40 4 && field e 40 4 ≤ 1000000
   && field f 10 1 ≤ 4 && zeros f 11 5 && bits (field f 136 1) 2 6 == 0 && zeros f 137 23
   && zeros (stpEntry tab 3 (field e 26 1)) 72 8
   && (seMobile e || zeros (stpEntry tab 3 (field e 26 1)) 56 16)
   && (!seSafety e || (!seMobile e && seFoe e && seTimeout e != 0)))

/-- Does a table hold layout descriptor n: is a byte of it not 0? -/
def layoutHeld (tab : Tab Byte) (n : Nat) : Bool := tab.any (fun e => e.1 / 256 == 2 ^ 12 + n && e.2 != 0)

/-- The staged tables pass the checks of R73: the streams', and those of every layout descriptor they hold. -/
def stpTablesOk (tab : Tab Byte) : Bool :=
  let en := enabledStreams tab
  en.all (streamOk tab)
  && (List.range 64).all (fun n => !layoutHeld tab n || layoutOk (stpEntry tab 1 n))
  && en.all (fun i => en.all (fun j => i == j || (stpEntry tab 0 i).take 18 != (stpEntry tab 0 j).take 18))

/-- The staged banks become active in one step (R72): packets that have arrived keep the old tables; streams that
were not enabled before start their timeout now. -/
def DieState.stpSwitch (D : DieState) : DieState :=
  if !stpTablesOk D.stp.staged then D
  else
    let fresh := (enabledStreams D.stp.staged).filter (fun i => !seEnabled (stpEntry D.stp.active 0 i))
    let age (m : IntakeItem) : IntakeItem := match m with | .pkt p => .pkt { p with old := true } | x => x
    let D := { D with stp := { D.stp with active := D.stp.staged, staged := D.stp.active, before := D.stp.active,
                                          intake := D.stp.intake.map age } }
    let D := fresh.foldl (fun D i => D.onStream i (fun _ => { lastSeen := D.now })) D
    D.cause B_STP 6

/-! ## Replay (R101, R102) -/

/-- Replay mode begins. DESIGN CHOICE (log entry 175): the spec is silent on the PTP slice and frame that are open then; both
close at once, and the host's first frame opens. -/
def DieState.replayStart (D : DieState) (frame : Nat) : DieState :=
  let D := D.closeSlice D.now
  let D := { D with stp := { D.stp with replay := true, replaySlice := 0 } }
  D.openFrame frame D.now false

/-- The fall-back occupancy engine restarts at the end of a replay (R102, R518): no point and no slice of the replay counts. -/
def DieState.foeRestart (D : DieState) : DieState :=
  { D with foe := { D.foe with plane0 := [], plane1 := [], states := [], evaluating := none
                               queue := D.foe.queue.filter (· == .zones) } }

/-- Replay mode ends (R102). -/
def DieState.replayEnd (D : DieState) : DieState :=
  if !D.stp.replay then D
  else
    let D := { D with stp := { D.stp with replay := false, replaySlice := 0 } }
    let D := D.setReg B_STP STP_CTRL (putBits (D.reg B_STP STP_CTRL) 1 1 0)
    let D := (D.openPresent).foeRestart
    { D with saf := { D.saf with lastFrame := none } }

/-- A write of STP_CTRL: enable; the replay bit, honoured in service mode only; the replay actions. frame: the number
that the host gives the frame that opens. DESIGN CHOICE (log entry 175): the spec describes the end of a replay with service mode
alone; a write that clears the bit while service mode goes on ends the replay in the same way; and a frame_close without
slice_close leaves the open slice open, with its index back at 0. -/
def DieState.stpCtrl (D : DieState) (v frame : Nat) : DieState :=
  let old := D.reg B_STP STP_CTRL
  let D := D.setReg B_STP STP_CTRL (putBits old 0 1 (bits v 0 1))
  let D := if bit v 1 == bit old 1 then D
    else if D.saf.service.isNone then
      D.event { cls := 8, code := 0x06, island := 24, inst := some 0 }
    else if bit v 1 then (D.setReg B_STP STP_CTRL (putBits (D.reg B_STP STP_CTRL) 1 1 1)).replayStart frame
    else D.replayEnd
  let D := if bit v 3 && D.stp.replay then
      (let D := D.closeSlice D.now
       { D with stp := { D.stp with replaySlice := D.stp.replaySlice + 1 } }) else D
  if bit v 2 && D.stp.replay then
    let D := D.openFrame frame D.now false
    { D with stp := { D.stp with replaySlice := 0 } }
  else D

/-! ## Presence (R93) -/

/-- STREAM_TIMEOUT of a stream. -/
def DieState.streamTimeout (D : DieState) (i : Nat) : DieState :=
  let e := stpEntry D.stp.active 0 i
  let s := D.streamOf i
  if seEnabled e && seTimeout e != 0 && !s.absent && decide (s.lastSeen + seTimeout e * 1000 ≤ D.now) then
    let D := D.onStream i (fun s => { s with present := false, absent := true, thin := false })
    let D := (D.cause B_STP 0).event
      { cls := 8, code := 0x01, sev := if seSafety e then 2 else 1, island := 24, inst := some 0, ident := i }
    if seSafety e then D.doubt 6 else D
  else D

/-! ## Rows -/

/-- STIPPLE_PACKET_PARSE. -/
def execStipplePacketParse (a : At) (s : State) : Out := onDie a s (fun D => D.parseNext)

/-- STREAM_TIMEOUT. -/
def execStreamTimeout (a : At) (stream : Nat) (s : State) : Out := onDie a s (fun D => D.streamTimeout (stream % 256))

/-- STREAM_POSE. -/
def execStreamPose (a : At) (id : Nat) (s : State) : Out :=
  onDie a s (fun D => D.runCmd 0x0400 id (fun c D => D.replyOpt c (streamPose c)))

/-- STIPPLE_POSE_TAKE. -/
def execStipplePoseTake (a : At) (s : State) : Out := onDie a s (fun D => D.takePose)

/-- HOSTFEED_SUBMIT. -/
def execHostfeedSubmit (a : At) (id : Nat) (s : State) : Out :=
  onDie a s (fun D => D.runCmd 0x0401 id (fun c D => D.replyOpt c (hostfeed c)))

/-- HOSTFEED_PACKET_ADMIT. -/
def execHostfeedPacketAdmit (a : At) (id : Nat) (s : State) : Out := onDie a s (fun D => D.feedNext id)

/-- STP_TBL_READ: a write of STP_TBL_CTRL with bit 0 set. -/
def execStpTblRead (a : At) (r : Req) (v : Word) (s : State) : Out :=
  onDie a s (fun D => if bit v.toNat 0 then D.csrDo r B_STP STP_TBL_CTRL (fun D => D.tblCtrl r v.toNat) else D)

/-- STP_TBL_WRITE: a write of STP_TBL_CTRL with bit 1 set. -/
def execStpTblWrite (a : At) (r : Req) (v : Word) (s : State) : Out :=
  onDie a s (fun D => if bit v.toNat 1 then D.csrDo r B_STP STP_TBL_CTRL (fun D => D.tblCtrl r v.toNat) else D)

/-- STP_REPLAY_WRITE: a write of STP_CTRL that changes the replay bit; frame: the number of the first replay frame. -/
def execStpReplayWrite (a : At) (r : Req) (v : Word) (frame : Nat) (s : State) : Out :=
  onDie a s (fun D =>
    if bit v.toNat 1 == bit (D.reg B_STP STP_CTRL) 1 then D
    else D.csrDo r B_STP STP_CTRL (fun D => D.stpCtrl v.toNat frame))

/-- STP_FRAME_CLOSE: a write of STP_CTRL with bit 2 set; frame: the number of the frame that opens. -/
def execStpFrameClose (a : At) (r : Req) (v : Word) (frame : Nat) (s : State) : Out :=
  onDie a s (fun D => if bit v.toNat 2 then D.csrDo r B_STP STP_CTRL (fun D => D.stpCtrl v.toNat frame) else D)

/-- STP_SLICE_CLOSE: a write of STP_CTRL with bit 3 set. -/
def execStpSliceClose (a : At) (r : Req) (v : Word) (s : State) : Out :=
  onDie a s (fun D => if bit v.toNat 3 then D.csrDo r B_STP STP_CTRL (fun D => D.stpCtrl v.toNat D.stp.frame) else D)

/-- SLICE_BOUNDARY. -/
def execSliceBoundary (a : At) (s : State) : Out := onDie a s (fun D => D.sliceBoundary)

end Sys2Proof.Machine
end

