-- ==== Sys2Proof/Machine/Foe.lean ====
section
/-! DEFINITION. The fall-back occupancy engine (R512-R518): the safety block, the cells of a zone, points, slices. -/

namespace Sys2Proof.Machine

/-! ## The safety block (R512, R513) -/

def sbNetwork (b : List Byte) : Bool := bit (field b 4 1) 0
def sbShift (b : List Byte) : Nat := field b 5 1
def sbZones (b : List Byte) : Nat := field b 6 2
def sbX0 (b : List Byte) : Int := ifield b 8 4
def sbY0 (b : List Byte) : Int := ifield b 12 4
def sbW (b : List Byte) : Nat := field b 16 2
def sbH (b : List Byte) : Nat := field b 18 2

/-- Fields of a zone record (R513). -/
def znEnabled (z : List Byte) : Bool := bit (field z 0 1) 0
def znOn (z : List Byte) : Nat := field z 2 1
def znHold (z : List Byte) : Nat := field z 3 1
def znMin (z : List Byte) : Nat := field z 4 2
def znRequired (z : List Byte) : List Nat := ((List.range 4).map (fun i => field z (8 + i) 1)).filter (· != 0xFF)
def znPoly (z : List Byte) : List (Int × Int) :=
  (List.range (min 32 (field z 1 1))).map (fun i => (ifield z (32 + 8 * i) 4, ifield z (36 + 8 * i) 4))

/-! ## Geometry (R516), exact -/

/-- Twice the signed area of a, b, c. -/
def cross3 (a b c : Int × Int) : Int := (b.1 - a.1) * (c.2 - a.2) - (b.2 - a.2) * (c.1 - a.1)

/-- The edges of a polygon. -/
def polyEdges (p : List (Int × Int)) : List ((Int × Int) × (Int × Int)) := p.zip (p.drop 1 ++ p.take 1)

/-- Does the segment meet the closed square with lower corner lo and side n? -/
def edgeMeets (lo : Int × Int) (n : Int) (e : (Int × Int) × (Int × Int)) : Bool :=
  let cs := [lo, (lo.1 + n, lo.2), (lo.1, lo.2 + n), (lo.1 + n, lo.2 + n)]
  let s := cs.map (cross3 e.1 e.2)
  min e.1.1 e.2.1 ≤ lo.1 + n && lo.1 ≤ max e.1.1 e.2.1 && min e.1.2 e.2.2 ≤ lo.2 + n && lo.2 ≤ max e.1.2 e.2.2
  && !(s.all (fun v => decide (0 < v))) && !(s.all (fun v => decide (v < 0)))

/-- Is a point that lies on no edge inside the polygon? -/
def insidePoly (p : List (Int × Int)) (q : Int × Int) : Bool :=
  (polyEdges p).foldl (fun odd e =>
    if decide (q.2 < e.1.2) == decide (q.2 < e.2.2) then odd
    else
      let c := cross3 e.1 e.2 q
      if (if e.1.2 < e.2.2 then decide (0 < c) else decide (c < 0)) then !odd else odd) false

/-- Does the closed square meet the closed polygon? -/
def squareMeets (p : List (Int × Int)) (lo : Int × Int) (n : Int) : Bool :=
  (polyEdges p).any (edgeMeets lo n) || insidePoly p lo

/-- Does cell (i, j) belong to a zone? -/
def zoneHas (b z : List Byte) (i j : Nat) : Bool :=
  let n : Int := ((2 ^ sbShift b : Nat) : Int)
  squareMeets (znPoly z) (sbX0 b + (i : Int) * n, sbY0 b + (j : Int) * n) n

/-- Columns of row j that belong to a zone, among those its corners span. -/
def zoneRow (b z : List Byte) (j : Nat) : List Nat :=
  let xs := (znPoly z).map (fun v => v.1)
  let n : Int := ((2 ^ sbShift b : Nat) : Int)
  let lo := (Int.fdiv (xs.foldl min (xs.headD 0) - sbX0 b) n - 1).toNat
  let hi := (Int.fdiv (xs.foldl max (xs.headD 0) - sbX0 b) n + 1).toNat
  ((List.range (min (sbW b) (hi + 1) - lo)).map (lo + ·)).filter (fun i => zoneHas b z i j)

/-- The cells of a zone, as keys 4096 j + i. -/
def zoneCells (b z : List Byte) : List Nat :=
  (List.range (sbH b)).flatMap (fun j => (zoneRow b z j).map (fun i => 4096 * j + i))

/-- Row spans: runs of neighbouring columns. -/
def spansOf : List Nat → Nat
  | a :: b :: t => (if b = a + 1 then 0 else 1) + spansOf (b :: t)
  | [_] => 1
  | [] => 0

def zoneSpans (b z : List Byte) : Nat := ((List.range (sbH b)).map (fun j => spansOf (zoneRow b z j))).foldl (· + ·) 0

/-- Do two segments meet? -/
def segMeet (e f : (Int × Int) × (Int × Int)) : Bool :=
  let sgn (v : Int) : Int := if 0 < v then 1 else if v < 0 then -1 else 0
  let a := sgn (cross3 e.1 e.2 f.1)
  let b := sgn (cross3 e.1 e.2 f.2)
  let c := sgn (cross3 f.1 f.2 e.1)
  let d := sgn (cross3 f.1 f.2 e.2)
  a * b ≤ 0 && c * d ≤ 0
  && max (min e.1.1 e.2.1) (min f.1.1 f.2.1) ≤ min (max e.1.1 e.2.1) (max f.1.1 f.2.1)
  && max (min e.1.2 e.2.2) (min f.1.2 f.2.2) ≤ min (max e.1.2 e.2.2) (max f.1.2 f.2.2)

/-- Is a polygon simple: corners distinct, edges meeting only at the corners they share? -/
def polySimple (p : List (Int × Int)) : Bool :=
  let es := polyEdges p
  let n := es.length
  let nil : (Int × Int) × (Int × Int) := ((0, 0), (0, 0))
  3 ≤ n
  && (List.range n).all (fun i => (List.range n).all (fun j =>
    let e := es.getD i nil
    let f := es.getD j nil
    if j ≤ i then i != j || e.1 != e.2
    else if j = i + 1 ∨ (i = 0 ∧ j = n - 1) then
      -- neighbours: the far ends do not lie on the other edge
      let (g, h) := if j = i + 1 then (e, f) else (f, e)
      g.1 != h.2 && !(segMeet g (h.2, h.2)) && !(segMeet h (g.1, g.1))
    else !segMeet e f))

/-! ## Zones -/

/-- Enabled zones of the block in force. -/
def DieState.foeZones (D : DieState) : List (Nat × List Byte) :=
  D.foe.zones.filter (fun z => decide (z.1 < sbZones D.foe.block) && znEnabled z.2)

def DieState.zoneState (D : DieState) (z : Nat) : ZoneState := tabGet {} D.foe.states z

/-- One zone's evaluation (R517). -/
def evalZone (z : List Byte) (blind : Bool) (count : Nat) (x : ZoneState) : ZoneState :=
  let raw := blind || decide (znMin z ≤ count)
  let run := if raw then min (x.run + 1) 4 else 0
  let clear := if raw then 0 else min (x.clear + 1) 255
  let occ := if blind then true
    else if x.occupied && !raw && decide (znHold z < clear) then false
    else if !x.occupied && raw && decide (znOn z ≤ run) then true
    else x.occupied
  { count := min count 65535, occupied := occ, raw := raw, blind := blind, run := run, clear := clear }

/-- The plane that receives points. -/
def FoeState.openPlane (f : FoeState) : Tab Nat := if f.plane then f.plane1 else f.plane0

/-- A plate's block and zones come into force: changed zones restart (R518). -/
def DieState.foeInstall (D : DieState) : DieState :=
  match D.fab.plate with
  | none => D
  | some p =>
    let zs := (List.range 256).filterMap (fun i => (p.zones.find? (fun z => z.1 == i)).map (fun z => (i, z.2)))
    let same (i : Nat) : Bool :=
      (D.foe.zones.find? (fun z => z.1 == i)).map (fun z => z.2) == (zs.find? (fun z => z.1 == i)).map (fun z => z.2)
    { D with foe := { D.foe with block := p.safety, zones := zs
                                 states := D.foe.states.filter (fun e => same e.1) } }

/-- Markers that take no time, at the head of the queue, take effect. -/
def DieState.foeSettle (D : DieState) : Nat → DieState
  | 0 => D
  | fuel + 1 =>
    match D.foe.queue with
    | .zones :: rest => ({ D with foe := { D.foe with queue := rest } }.foeInstall).foeSettle fuel
    | _ => D

/-- FOE_POINT_RECORD (R515). -/
def DieState.foePoint (D : DieState) : DieState :=
  let D := D.foeSettle D.foe.queue.length
  match D.foe.queue with
  | .point r :: rest =>
    let b := D.foe.block
    let D := ({ D with foe := { D.foe with queue := rest } }).count B_FOE FOE_POINTS
    let i := shr (ifield r 0 4 - sbX0 b) (sbShift b)
    let j := shr (ifield r 4 4 - sbY0 b) (sbShift b)
    let z := ifield r 8 4
    if 0 ≤ i ∧ i < (sbW b : Int) ∧ 0 ≤ j ∧ j < (sbH b : Int) ∧ ifield b 20 4 ≤ z ∧ z ≤ ifield b 24 4 then
      let k := 4096 * j.toNat + i.toNat
      let add (p : Tab Nat) : Tab Nat := tabMod 0 k (fun n => min (n + 1) 15) p
      { D with foe := if D.foe.plane then { D.foe with plane1 := add D.foe.plane1 } else { D.foe with plane0 := add D.foe.plane0 } }
    else D.count B_FOE FOE_POINTS_OUTSIDE
  | _ => D

/-- FOE_SLICE_CLOSE (R517): the planes swap and every zone is evaluated. -/
def DieState.foeSlice (D : DieState) : DieState :=
  let D := D.foeSettle D.foe.queue.length
  match D.foe.queue, D.foe.evaluating with
  | .slice e :: rest, none =>
    let plane := D.foe.openPlane
    let b := D.foe.block
    let st := D.foeZones.foldl (fun (st : Tab ZoneState) z =>
      let blind := (znRequired z.2).any D.streamAbsent
      let n := ((zoneCells b z.2).map (tabGet 0 plane)).foldl (· + ·) 0
      tabMod {} z.1 (evalZone z.2 blind n) st) D.foe.states
    { D with foe := { D.foe with queue := rest, plane := !D.foe.plane, states := st, evaluating := some (e, D.now) } }
  | _, _ => D

/-- FOE_EVAL_DONE: the evaluated plane is cleared, and the slice goes to the safety island (R517, R524). -/
def DieState.foeDone (D : DieState) : DieState :=
  match D.foe.evaluating with
  | none => D
  | some (e, t) =>
    let D := { D with
      foe := (if D.foe.plane then { D.foe with plane0 := [], evaluating := none }
        else { D.foe with plane1 := [], evaluating := none } : FoeState)
      saf := { D.saf with due := some e } }
    let D := { D with foe := { D.foe with clearEnd := D.now + 32768 } }
    let ns := min (D.now - t) (2 ^ 32 - 1)
    let D := D.setReg B_FOE FOE_EVAL_LAST_NS ns
    let D := if D.counts B_FOE then D.setReg B_FOE FOE_EVAL_MAX_NS (max ns (D.reg B_FOE FOE_EVAL_MAX_NS)) else D
    D.count32 B_FOE FOE_SLICES

/-! ## Rows -/

/-- FOE_POINT_RECORD. -/
def execFoePointRecord (a : At) (s : State) : Out := onDie a s (fun D => D.foePoint)
/-- FOE_SLICE_CLOSE. -/
def execFoeSliceClose (a : At) (s : State) : Out := onDie a s (fun D => D.foeSlice)
/-- FOE_EVAL_DONE. -/
def execFoeEvalDone (a : At) (s : State) : Out := onDie a s (fun D => D.foeDone)

end Sys2Proof.Machine
end

