-- ==== Sys2Proof/Machine/Topo.lean ====
section
/-! DEFINITION. The topology of a plate: links and bundles (R485), routing tables (R486, R487), and the checks of
wiring, hops and latency that staging makes (R487, R488). -/

namespace Sys2Proof.Machine

/-- The link at a package port of a node; true: the node is its first end. -/
def plLink (P : Plate) (n p : Nat) : Option (PlateLink × Bool) :=
  match P.links.find? (fun l => l.nodeA == n && l.portA == p) with
  | some l => some (l, true)
  | none => (P.links.find? (fun l => l.nodeB == n && l.portB == p)).map (fun l => (l, false))

/-- Node and port at the far end. -/
def plFar (l : PlateLink × Bool) : Nat × Nat := if l.2 then (l.1.nodeB, l.1.portB) else (l.1.nodeA, l.1.portA)

/-- Is the link a dateline in the direction away from the near end? -/
def plDateline (l : PlateLink × Bool) : Bool := bit l.1.dateline (if l.2 then 0 else 1)

/-- Port mask of a bundle, and its ports in ascending order (R485). -/
def plMask (P : Plate) (n b : Nat) : Nat := (((P.bundles.find? (fun e => e.1 == n)).map (·.2)).getD []).getD b 0
def maskPorts (m : Nat) : List Nat := (List.range 8).filter (bit m)

/-- Neighbours of a node. -/
def plNbrs (P : Plate) (n : Nat) : List Nat :=
  ((List.range 8).filterMap (fun p => (plLink P n p).map (fun l => (plFar l).1))).eraseDups

/-- The neighbour a bundle leads to, and the bundle that leads to a neighbour. -/
def bundleNbr (P : Plate) (n b : Nat) : Option Nat :=
  (maskPorts (plMask P n b)).head?.bind (fun p => (plLink P n p).map (fun l => (plFar l).1))
def bundleTo (P : Plate) (n m : Nat) : Option Nat := (List.range 8).find? (fun b => bundleNbr P n b == some m)

/-- Does node n leave by a dateline when it goes to its neighbour m? -/
def leavesDateline (P : Plate) (n m : Nat) : Bool :=
  (List.range 8).any (fun p => match plLink P n p with
    | some l => (plFar l).1 == m && plDateline l
    | none => false)

/-- Can cur reach dst without going back to prev, in fuel steps? -/
def plReaches (P : Plate) : Nat → Nat → Nat → Nat → Bool
  | 0, _, _, _ => false
  | f + 1, prev, cur, dst => cur == dst || (plNbrs P cur).any (fun m => m != prev && plReaches P f cur m dst)

/-! ## Rings -/

def ringPos (l : List Nat) (n : Nat) : Nat := (firstIdx (· == n) l 0).getD 0
/-- The neighbour of n on a ring, upward or downward. -/
def ringNbr (l : List Nat) (n : Nat) (up : Bool) : Nat :=
  l.getD ((ringPos l n + (if up then 1 else l.length - 1)) % l.length) n
/-- Is the shortest way from n to m upward; at equal distance it is? -/
def ringUp (l : List Nat) (n m : Nat) : Bool :=
  decide ((ringPos l m + l.length - ringPos l n) % l.length ≤ (ringPos l n + l.length - ringPos l m) % l.length)
def ringStep (l : List Nat) (n m : Nat) : Nat := ringNbr l n (ringUp l n m)

/-- The local ring of a node, its gateway first. -/
def localRing (P : Plate) (n : Nat) : List Nat := (P.rings.tail.find? (fun l => l.contains n)).getD [n]

/-! ## Routing tables -/

/-- A route to a neighbour: bundle and floor. -/
def routeTo (P : Plate) (n m floor : Nat) : Option (Nat × Nat) := (bundleTo P n m).map (fun b => (b, floor))

/-- An entry of R486 from its normal, alternate and reroute parts. -/
def rtEntry (norm alt rr : Option (Nat × Nat)) : Nat :=
  let part (x : Option (Nat × Nat)) : Nat := match x with | some (b, f) => b + 8 + f * 16 | none => 0
  part norm + part alt * 2 ^ 8 + part rr * 2 ^ 16

/-- The entry for destination dst in a table of die d of node n: 0 and 1 the ingress ports, 2 local (R486, R487). -/
def plRoute (P : Plate) (n d table dst : Nat) : Nat :=
  let past (m base : Nat) : Nat := if leavesDateline P n m then base + 1 else base
  let from_ : Option Nat := if table < 2 then (plLink P n (2 * d + table)).map (fun l => (plFar l).1) else none
  if table ≥ 3 ∨ dst = n then 0
  else match P.topology with
    | .chain | .tree =>
      match (plNbrs P n).find? (fun m => plReaches P (P.nodes.length + 1) n m dst) with
      | some m => rtEntry (routeTo P n m 0) none none
      | none => 0
    | .ring =>
      let l := P.rings.headD []
      if !(l.contains n && l.contains dst) then 0
      else
        let up := ringUp l n dst
        let a := ringNbr l n up
        let b := ringNbr l n (!up)
        let back := match from_ with
          | none => none
          | some m => let o := if ringNbr l n true = m then ringNbr l n false else ringNbr l n true
                      routeTo P n o (past o 2)
        rtEntry (routeTo P n a (past a 0)) (routeTo P n b (past b 2)) back
    | .ringOfRings =>
      let top := P.rings.headD []
      let here := localRing P n
      let there := localRing P dst
      let gate := here.headD n
      if here.contains dst then
        let m := ringStep here n dst
        let entered := match from_ with | some k => !(here.contains k) | none => false
        rtEntry (routeTo P n m (if leavesDateline P n m then 5 else if entered then 4 else 0)) none none
      else if n ≠ gate then
        let m := ringStep here n gate
        rtEntry (routeTo P n m (past m 0)) none none
      else
        let m := ringStep top n (there.headD dst)
        rtEntry (routeTo P n m (past m 2)) none none
    | .custom => tabGet 0 P.custom (((n * 4 + d) * 4 + table) * 4096 + dst)

/-! ## Staging checks -/

/-- Steps round the package ring between two dies (R24). -/
def ringDist (a b : Nat) : Nat := min ((a + 4 - b) % 4) ((b + 4 - a) % 4)

/-- Follow a route; turn: the hop at which it takes its one reroute. Links crossed and latency in half ns; none: over
the hop limit. A route that is not given ends. Ports are chosen as R485 does when all are ACTIVE; both ends count the
longest way round their package ring. -/
def plWalk (P : Plate) (dst : Nat) (turn : Option Nat) : Nat → Nat → Nat → Nat → Bool → Nat → Nat → Option (Nat × Nat)
  | 0, _, _, _, _, _, _ => none
  | f + 1, n, d, table, rerouted, hops, lat =>
    if n = dst then some (hops, lat + 200)
    else
      let e := plRoute P n d table dst
      let k := if rerouted then 16 else if turn = some hops then 8 else 0
      let b := bits e k 3
      let ports := maskPorts (plMask P n b)
      if !bit e (k + 3) || ports.isEmpty then some (0, 0)
      else
        let p := ports.getD (dst % ports.length) 0
        match plLink P n p with
        | none => some (0, 0)
        | some l => plWalk P dst turn f (plFar l).1 ((plFar l).2 / 2) ((plFar l).2 % 2) (rerouted || turn == some hops) (hops + 1)
            (lat + 700 + l.1.length + 100 * ringDist d (p / 2))

/-- Is a route, with its reroutes, within the hop limit and the latency bound? -/
def routeOk (P : Plate) (src d dst : Nat) : Bool :=
  let ok (r : Option (Nat × Nat)) : Bool := match r with
    | some (h, lat) => decide (h ≤ P.hopLimit) && decide (lat ≤ P.bound * 2000)
    | none => false
  let walk (turn : Option Nat) := plWalk P dst turn (P.hopLimit + 1) src d 2 false 0 0
  let n := match walk none with | some (h, _) => h | none => 0
  ok (walk none) && (List.range n).all (fun k => ok (walk (some k)))

/-- Does a list close to a ring of links? -/
def isRing (P : Plate) (l : List Nat) : Bool :=
  2 ≤ l.length && l.length ≤ 43 && l.eraseDups.length == l.length
  && l.all (fun n => (plNbrs P n).contains (ringNbr l n true) && (plNbrs P n).contains (ringNbr l n false))

/-- Pairs of neighbours. -/
def plEdges (P : Plate) : List (Nat × Nat) :=
  (P.links.map (fun l => (min l.nodeA l.nodeB, max l.nodeA l.nodeB))).eraseDups

/-- Does the wiring form the named topology? -/
def wiringForms (P : Plate) : Bool :=
  let ns := P.nodes.map (·.2)
  let sameNodes (l : List Nat) : Bool := l.length == ns.length && ns.all l.contains
  let tree (root depth : Nat) : Bool :=
    (plEdges P).length + 1 == ns.length && ns.all (fun n => plReaches P (depth + 1) n n root)
  match P.topology with
  | .chain => ns.length ≤ 64 && tree (ns.headD 0) ns.length && ns.all (fun n => (plNbrs P n).length ≤ 2)
  | .tree => tree P.root 31 && ns.all (fun n => (plNbrs P n).length ≤ 8)
  | .ring => match P.rings with
    | [l] => isRing P l && sameNodes l && (plEdges P).length == (if l.length = 2 then 1 else l.length)
    | _ => false
  | .ringOfRings =>
    let top := P.rings.headD []
    P.rings.all (fun l => l.length == 1 || isRing P l) && isRing P top
    && sameNodes P.rings.tail.flatten && P.rings.tail.flatten.eraseDups.length == ns.length
    && P.rings.tail.all (fun l => top.contains (l.headD 4096)) && top.length == P.rings.tail.length
  | .custom => true

/-- The checks of the fabric section. -/
def fabricOk (P : Plate) : Bool :=
  let ns := P.nodes.map (·.2)
  let ends := P.links.flatMap (fun l => [(l.nodeA, l.portA), (l.nodeB, l.portB)])
  1 ≤ P.hopLimit && P.hopLimit ≤ 63 && 1 ≤ P.bound && P.bound ≤ 80
  && ns.all (· < 4096) && ns.eraseDups.length == ns.length && (P.nodes.map (·.1)).eraseDups.length == ns.length
  && ends.all (fun e => ns.contains e.1 && e.2 < 8) && ends.eraseDups.length == ends.length
  && P.links.all (fun l => l.nodeA != l.nodeB)
  && ns.all (fun n => (List.range 8).all (fun b => (maskPorts (plMask P n b)).all (fun p =>
      match plLink P n p with | some l => bundleNbr P n b == some (plFar l).1 | none => false)))
  && wiringForms P
  && ns.all (fun a => ns.all (fun b => (List.range 4).all (fun d => routeOk P a d b)))

end Sys2Proof.Machine
end

