-- ==== Sys2Proof/Machine/Comb.lean ====
section
/-! DEFINITION. The comb builder: targets and layout (R113-R119), building (R120-R125), buffers, close and publish
(R126-R132), coarser levels (R133) and trilinear bags (R140). -/

namespace Sys2Proof.Machine

/-! ## Targets and their layout -/

def CombTarget.buf (T : CombTarget) (k : Nat) : CombBuf :=
  match k with | 0 => T.buf0 | 1 => T.buf1 | 2 => T.buf2 | _ => T.buf3

def CombTarget.setBuf (T : CombTarget) (k : Nat) (b : CombBuf) : CombTarget :=
  match k with
  | 0 => { T with buf0 := b }
  | 1 => { T with buf1 := b }
  | 2 => { T with buf2 := b }
  | _ => { T with buf3 := b }

def DieState.combTarget (D : DieState) (t : Nat) : CombTarget := tabGet {} D.comb.targets t

def DieState.setTarget (D : DieState) (t : Nat) (T : CombTarget) : DieState :=
  { D with comb := { D.comb with targets := tabSet {} t T D.comb.targets } }

def DieState.combBuf (D : DieState) (t k : Nat) : CombBuf := (D.combTarget t).buf k

def DieState.onBuf (D : DieState) (t k : Nat) (f : CombBuf → CombBuf) : DieState :=
  D.setTarget t ((D.combTarget t).setBuf k (f (D.combBuf t k)))

/-- Descriptor of a target in the plate in force, 128 bytes; zeros where it has none. -/
def DieState.combPlate (D : DieState) (t : Nat) : List Byte :=
  match D.fab.plate with
  | some p => match p.combs.find? (fun c => c.1 == t) with | some c => padTo 128 c.2 | none => padTo 128 []
  | none => padTo 128 []

/-- The descriptor in force: the plate's, with the owner's bytes 64-107 except the plate's byte 97 (R113). -/
def DieState.combDesc (D : DieState) (t : Nat) : List Byte :=
  let p := D.combPlate t
  putBytes (putBytes p 64 (padTo 44 (D.combTarget t).owned)) 97 ((p.drop 97).take 1)

def DieState.combEnabled (D : DieState) (t : Nat) : Bool := bit (field (D.combPlate t) 48 1) 0

/-- Fields of a descriptor (R113). -/
def cdV (d : List Byte) : Nat := field d 0 1
def cdL (d : List Byte) : Nat := field d 1 1
def cdLg (d : List Byte) : Nat := field d 2 1
def cdVoxels (d : List Byte) : Nat := field d 4 4
def cdPoints (d : List Byte) : Nat := field d 8 4
def cdCorner (d : List Byte) (a : Nat) : Nat := field d (12 + 4 * a) 4
def cdMult (d : List Byte) : Nat := field d 24 8
def cdPlane (d : List Byte) : Bool := bit (field d 48 1) 1
def cdOwner (d : List Byte) : Nat := field d 97 1
/-- The channel bytes in use. -/
def cdChannels (d : List Byte) : List Nat := (List.range (min 16 (field d 3 1))).map (fun i => field d (32 + i) 1)

/-- Validation of a target's plate part (R113-R115). -/
def combDescOk (d : List Byte) : Bool :=
  4 ≤ cdV d && cdV d ≤ 14 && 6 ≤ cdL d && cdL d ≤ 16 && 10 ≤ cdLg d && cdLg d ≤ 25 && 2 * cdVoxels d ≤ 2 ^ cdLg d
  && field d 3 1 ≤ 16 && 1 ≤ cdVoxels d && cdVoxels d ≤ 2 ^ 24 && 1 ≤ cdPoints d && cdPoints d ≤ 2 ^ 27
  && (List.range 3).all (fun a => cdCorner d a % 2 ^ cdL d == 0 && cdCorner d a + 2 ^ cdL d ≤ 2 ^ 21)
  && cdMult d % 2 == 1 && bits (field d 48 1) 2 6 == 0 && zeros d 49 15
  && 1 ≤ cdOwner d && cdOwner d ≤ 7
  && (cdChannels d).all (fun c => c % 16 ≤ 11 && bits c 4 3 != 0 && !bit c 7)

/-- Bytes of a feature row (R119). -/
def rowBytesOf (cs : List Nat) : Nat :=
  let n := cs.foldl (fun n c => n + 8 * bits c 4 1 + 4 * bits c 5 1 + 4 * bits c 6 1) 8
  (n + 15) / 16 * 16

def align4K (n : Nat) : Nat := (n + 4095) / 4096 * 4096

/-- The layout for a row length, caps, buckets and point plane. -/
def combLayout (r voxels points buckets : Nat) (plane : Bool) : CombLayout :=
  let feat := align4K (64 + 8 * voxels)
  let bfeat := feat + align4K (r * voxels)
  let index := bfeat + align4K (r * voxels)
  let hash := index + align4K (4 * points)
  let sort := hash + 16 * buckets
  let pts := sort + align4K (524288 + 12 * voxels)
  { feat := feat, bfeat := bfeat, index := index, hash := hash, sort := sort, pts := pts
    size := pts + if plane then 24 * points else 0 }

def descLayout (d : List Byte) : CombLayout :=
  combLayout (rowBytesOf (cdChannels d)) (cdVoxels d) (cdPoints d) (2 ^ cdLg d) (cdPlane d)

/-- Memory context of the builder for an owner (R440, class 2). -/
def combCtx (inst : Nat) : Ctx := { inst := inst, req := 0x089, cls := 2 }

/-- Bytes of a comb buffer, as the builder reads and writes them. -/
def combRead (b : CombBuf) (off n : Nat) : M (List Byte) := stackRead (combCtx (cdOwner b.desc)) (b.base + off) n
def combWrite (b : CombBuf) (off : Nat) (bs : List Byte) : M Unit := stackWrite (combCtx (cdOwner b.desc)) (b.base + off) bs

/-- The entry of a point that is not pooled (R120). -/
def noRow : Nat := 2 ^ 32 - 1

/-! ## Building (R123) -/

/-- Coordinate a of a record, and its level-0 biased voxel coordinate (R110). -/
def recCoord (r : List Byte) (a : Nat) : Int := ifield r (4 * a) 4
def voxelCoord (v : Nat) (c : Int) : Int := shr c v + 1048576

/-- Value of a channel source for a record pooled at voxel edge 2^w (R115). -/
def channelValue (r : List Byte) (w s : Nat) : Int :=
  match s with
  | 0 | 1 | 2 => recCoord r s % ((2 ^ w : Nat) : Int)
  | 3 | 4 | 5 => recCoord r (s - 3)
  | 6 => ifield r 12 4
  | 7 => ((field r 16 2 : Nat) : Int)
  | 8 => ((bits (field r 19 1) 0 4 : Nat) : Int)
  | 9 => ((field r 20 2 : Nat) : Int)
  | 10 => ((field r 18 1 : Nat) : Int)
  | _ => ((bits (field r 19 1) 5 1 : Nat) : Int)

/-- The channels' bytes after pooling the values. first: the row held no point. -/
def poolChannels (first : Bool) : List (Nat × Int) → List Byte → List Byte
  | [], _ => []
  | (c, v) :: cs, b =>
    let n := 8 * bits c 4 1
    let m := n + 4 * bits c 5 1
    let k := m + 4 * bits c 6 1
    let sum := if bit c 4 then toLE 8 (wrapN 64 ((if first then 0 else ifield b 0 8) + v)) else []
    let hi := if bit c 5 then toLE 4 (wrapN 32 (if first then v else max v (ifield b n 4))) else []
    let lo := if bit c 6 then toLE 4 (wrapN 32 (if first then v else min v (ifield b m 4))) else []
    sum ++ hi ++ lo ++ poolChannels first cs (b.drop k)

/-- A row after pooling a record (R119, R123). -/
def poolRow (d r row : List Byte) : List Byte :=
  let n := field row 0 4
  let flag := orN (field row 4 4) (bits (field r 19 1) 5 1)
  padTo (rowBytesOf (cdChannels d)) (toLE 4 (n + 1) ++ toLE 4 flag
    ++ poolChannels (n == 0) ((cdChannels d).map (fun c => (c, channelValue r (cdV d) (c % 16)))) (row.drop 8))

/-- What a probe of the table in memory ends at: the row of the key, an empty bucket, or neither. -/
inductive Found where
  | row (r : Nat)
  | free (bucket : Nat)
  | full

/-- Probe the table at an address for a key (R121). -/
def memProbe (cx : Ctx) (base k h size : Nat) : Nat → Nat → M Found
  | 0, _ => pure .full
  | fuel + 1, j => do
    let b := (h + j) % size
    let e ← stackRead cx (base + 16 * b) 16
    if field e 0 8 = k then pure (.row (field e 8 4))
    else if field e 0 8 = emptyKey then pure (.free b)
    else memProbe cx base k h size fuel (j + 1)

/-- The row that a record is pooled into, the buffer after it; none: it is not pooled (R123). -/
def insertRow (t k : Nat) (r : List Byte) : M (Option Nat) := do
  let D ← get
  let b := D.combBuf t k
  let d := b.desc
  let lay := b.lay
  let X := voxelCoord (cdV d) (recCoord r 0)
  let Y := voxelCoord (cdV d) (recCoord r 1)
  let Z := voxelCoord (cdV d) (recCoord r 2)
  let inside (c : Int) (a : Nat) : Bool :=
    decide (((cdCorner d a : Nat) : Int) ≤ c) && decide (c < ((cdCorner d a + 2 ^ cdL d : Nat) : Int))
  if !(inside X 0 && inside Y 1 && inside Z 2) then do
    onD (fun D => D.onBuf t k (fun b => { b with region := b.region + 1 }))
    pure none
  else do
    let key := morton X.toNat Y.toNat Z.toNat
    let size := 2 ^ cdLg d
    let rb := rowBytesOf (cdChannels d)
    match ← memProbe (combCtx (cdOwner d)) (b.base + lay.hash) key (homeBucket key (cdMult d) (cdLg d)) size size 0 with
    | .row n => do
      let row ← combRead b (lay.bfeat + rb * n) rb
      combWrite b (lay.bfeat + rb * n) (poolRow d r row)
      pure (some n)
    | .free j =>
      if b.voxels = cdVoxels d then do
        onD (fun D => D.onBuf t k (fun b =>
          { b with status := orN b.status 2, ended := true, overflow := b.overflow + 1 }))
        pure none
      else do
        combWrite b (lay.hash + 16 * j) (bucketBytes key b.voxels 0)
        combWrite b (64 + 8 * b.voxels) (toLE 8 key)
        combWrite b (lay.bfeat + rb * b.voxels) (poolRow d r (padTo rb []))
        onD (fun D => D.onBuf t k (fun b => { b with voxels := b.voxels + 1 }))
        pure (some b.voxels)
    | .full => do
      onD (fun D => D.onBuf t k (fun b => { b with ended := true, overflow := b.overflow + 1 }))
      pure none

/-- One accepted record of target t at its building buffer k (R120, R122, R123; R390 for a failed read). -/
def DieState.combInsert (D : DieState) (t k : Nat) (r : List Byte) : DieState :=
  let b := D.combBuf t k
  let p := b.points
  let D := D.onBuf t k (fun b => { b with points := b.points + 1 })
  let capped := decide (cdPoints b.desc ≤ p)
  let lay := b.lay
  let (row, D) : Option Nat × DieState :=
    if b.ended || capped then
      (none, D.onBuf t k (fun b => { b with
        status := if capped then orN b.status 4 else b.status, ended := true, overflow := b.overflow + 1 }))
    else match runM (insertRow t k r) D with
      | (.ok row, D) => (row, D)
      | (.error _, D) => (none, D.onBuf t k (fun b => { b with
          status := orN b.status 2, ended := true, overflow := b.overflow + 1 }))
  if capped then D
  else
    let D := execM (combWrite b (lay.index + 4 * p) (toLE 4 (row.getD noRow))) D
    if cdPlane b.desc then execM (combWrite b (lay.pts + 24 * p) r) D else D

/-! ## Buffers (R126-R128) -/

/-- Open the lowest-numbered FREE buffer of a target, if there is one; without one the frame builds no comb (R126, R127).
DESIGN CHOICE (log entry 176): the spec does not say what a plate switch that changes the geometry does to a buffer that is
FREE then; the comb opens with the new geometry at the buffer's offsets (R116), and the buffer is neither cleared nor checked
again. -/
def DieState.openComb (D : DieState) (t : Nat) (o : FrameOpen) : DieState :=
  let T := D.combTarget t
  if T.building.isSome || T.dead || !D.combEnabled t then D
  else match (List.range 4).find? (fun k => (T.buf k).phase == .free) with
    | none => D.setTarget t { T with skipped := some (cdOwner (D.combPlate t)) }
    | some k =>
      let b := T.buf k
      let b : CombBuf :=
        { phase := .building, base := b.base, lay := b.lay, gen := (b.gen + 1) % 256, desc := D.combDesc t, frame := o.num
          partFrame := o.cut || (T.renewed && o.partFrame), replay := o.replay }
      D.setTarget t { T.setBuf k b with building := some k, renewed := false, skipped := none }

/-- The building comb of a target ends; its scatter is queued (R128). -/
def DieState.endComb (D : DieState) (t : Nat) : DieState :=
  match (D.combTarget t).building with
  | none => D
  | some k =>
    let D := D.onBuf t k (fun b => { b with phase := .sorting })
    let D := D.setTarget t { D.combTarget t with building := none }
    { D with comb := { D.comb with jobs := D.comb.jobs ++ [.scatter t k] } }

/-- What stands at the head of the builder's queue and takes no record's place: a drop joins the backlog of the comb it was for,
and a disabled target's comb ends (R117, R132). -/
def DieState.combSettle (D : DieState) : Nat → DieState
  | 0 => D
  | fuel + 1 =>
    match D.comb.queue with
    | .dropped t :: rest =>
      let D := { D with comb := { D.comb with queue := rest } }
      (match (D.combTarget t).building with
        | some k => D.onBuf t k (fun b => { b with backlog := b.backlog + 1 })
        | none => D).combSettle fuel
    | .finish t :: rest => ({ D with comb := { D.comb with queue := rest } }.endComb t).combSettle fuel
    | _ => D

/-- A record of target t at the builder: into its building comb, or missed (R123, R127). -/
def DieState.insertPoint (D : DieState) (t : Nat) (r : List Byte) : DieState :=
  match (D.combTarget t).building with
  | some k => D.combInsert t k r
  | none =>
    let T := D.combTarget t
    D.setTarget t { T with missed := T.missed + 1, missedFrame := T.missedFrame + 1 }

/-- COMB_INSERT_RECORD: the record at the head of the builder's queue. -/
def DieState.insertNext (D : DieState) : DieState :=
  let D := D.combSettle D.comb.queue.length
  match D.comb.queue with
  | .point t r :: rest => { D with comb := { D.comb with queue := rest } }.insertPoint t r
  | _ => D

/-- The owner that the comb-missed event of a closing frame names: of a target that built no comb for it, or that missed a
record of it (R127). -/
def DieState.missedOwner (D : DieState) (t : Nat) : Option Nat :=
  let T := D.combTarget t
  match T.skipped with
  | some o => some o
  | none => if T.missedFrame = 0 then none else some (cdOwner (D.combPlate t))

/-- The frame closes at target t (R127, R128). old: the frame. -/
def DieState.closeFrameAt (D : DieState) (old : Option FrameOpen) (t : Nat) : DieState :=
  let D := D.endComb t
  let D := match D.missedOwner t with
    | none => D
    | some o => D.event
      { cls := 8, code := 0x04, island := 24, inst := some o, ident := t
        loc := match old with | some f => f.num | none => 0
        count := min (D.combTarget t).missedFrame 65535 }
  D.setTarget t { D.combTarget t with missedFrame := 0, dead := false, skipped := none }

/-- COMB_FRAME_CLOSE_MARKER: the marker at the head of the queue closes the frame and opens the next (R127, R128). -/
def DieState.frameMarker (D : DieState) : DieState :=
  let D := D.combSettle D.comb.queue.length
  match D.comb.queue with
  | .frame o :: rest =>
    let old := D.comb.frame
    let D := { D with comb := { D.comb with queue := rest, frame := some o } }
    (List.range 8).foldl (fun (D : DieState) t => (D.closeFrameAt old t).openComb t o) D
  | _ => D

/-- The job at the head, if it is the one that p names. -/
def DieState.takeJob (D : DieState) (p : CombJob → Bool) : Option (CombJob × DieState) :=
  match D.comb.jobs with
  | j :: rest => if p j then some (j, { D with comb := { D.comb with jobs := rest } }) else none
  | [] => none

/-- Set every bucket to EMPTY and every partition counter to 0 (R126). -/
def clearBuffer (b : CombBuf) : M Unit := do
  let lay := b.lay
  let _ ← (List.range (2 ^ cdLg b.desc)).mapM (fun j => combWrite b (lay.hash + 16 * j) emptyBucket)
  let _ ← (List.range 65536).mapM (fun j => combWrite b (lay.sort + 8 * j) (toLE 8 0))
  pure ()

/-- COMB_CLEAR_DONE. A clear waits while its owner resets or has a region to be zeroed (R450, R452). -/
def DieState.clearDone (D : DieState) : DieState :=
  let held (t : Nat) : Bool :=
    D.gateClosed (cdOwner (D.combPlate t)) || D.ins.scrubs.any (fun s => s.inst == cdOwner (D.combPlate t))
  match D.takeJob (fun j => match j with | .clear t _ => !held t | _ => false) with
  | some (.clear t k, D) =>
    if (D.combBuf t k).phase ≠ .clearing then D
    else
      let b := D.combBuf t k
      let D := execM (clearBuffer { b with desc := D.combDesc t }) D
      let D := D.onBuf t k (fun b => { b with phase := .free })
      match D.comb.frame, (D.combTarget t).renewed with
      | some o, true => D.openComb t { o with partFrame := o.partFrame || decide (D.stp.frameAt < D.now) }
      | _, _ => D
  | _ => D

/-- Region-relative key, partition digit and in-partition key (R128). -/
def regionKey (l k : Nat) : Nat := k % 2 ^ (3 * l)
def partDigit (l k : Nat) : Nat := regionKey l k / 2 ^ (3 * l - 16)
def partKey (l k : Nat) : Nat := regionKey l k % 2 ^ (3 * l - 16)

/-- The partition scatter (R128): the digits in ascending order, build order within. -/
def scatterPairs (b : CombBuf) : M Unit := do
  let lay := b.lay
  let l := cdL b.desc
  let keys ← (List.range b.voxels).mapM (fun i => do
    let x ← combRead b (64 + 8 * i) 8
    pure (leNat x))
  let rows := sortBy (fun x y => decide (x.1 < y.1)) ((List.range b.voxels).map (fun i => (partDigit l (keys.getD i 0), i)))
  let _ ← (List.range 65536).mapM (fun d => combWrite b (lay.sort + 8 * d)
    (toLE 4 (rows.filter (fun r => decide (r.1 < d))).length ++ toLE 4 (rows.filter (fun r => r.1 == d)).length))
  let _ ← (List.range rows.length).mapM (fun i =>
    let row := (rows.getD i (0, 0)).2
    combWrite b (lay.sort + 524288 + 8 * i) (toLE 4 (partKey l (keys.getD row 0)) ++ toLE 4 row))
  pure ()

/-- Signal a target's seal, if it names one. -/
def DieState.combSeal (D : DieState) (ref : Nat) : DieState := if bit ref 24 then D.jobSignal ref 1 else D

/-- COMB_SCATTER_DONE. -/
def DieState.scatterDone (D : DieState) : DieState :=
  match D.takeJob (fun j => match j with | .scatter _ _ => true | _ => false) with
  | some (.scatter t k, D) =>
    if (D.combBuf t k).phase ≠ .sorting then D
    else
      let D := execM (scatterPairs (D.combBuf t k)) D
      let D := D.onBuf t k (fun b => { b with phase := .closed })
      D.combSeal (field (D.combBuf t k).desc 100 4)
  | _ => D

/-! ## Publish (R130) -/

/-- The pairs of a buffer: in-partition key and build row. -/
def readPairs (b : CombBuf) : M (List (Nat × Nat)) :=
  (List.range b.voxels).mapM (fun i => do
    let x ← combRead b (b.lay.sort + 524288 + 8 * i) 8
    pure (field x 0 4, field x 4 4))

/-- The partition table: start and count. -/
def readParts (b : CombBuf) : M (List (Nat × Nat)) :=
  (List.range 65536).mapM (fun d => do
    let x ← combRead b (b.lay.sort + 8 * d) 8
    pure (field x 0 4, field x 4 4))

/-- The digits of the build's keys, counted by the build itself. -/
def buildDigits (b : CombBuf) : M (List Nat) :=
  (List.range b.voxels).mapM (fun i => do
    let x ← combRead b (64 + 8 * i) 8
    pure (partDigit (cdL b.desc) (leNat x)))

/-- The digit of the pair at each position, from the counts. -/
def pairDigits (parts : List (Nat × Nat)) : List Nat :=
  (List.range parts.length).flatMap (fun d => List.replicate (parts.getD d (0, 0)).2 d)

/-- The three checks of R130. -/
def sortOk (pairs parts : List (Nat × Nat)) (digits : List Nat) : Bool :=
  let n := pairs.length
  let ds := pairDigits parts
  (List.range parts.length).all (fun d => (parts.getD d (0, 0)).2 == (digits.filter (· == d)).length)
  && ds.length == n
  && (List.range (n - 1)).all (fun i => ds.getD i 0 != ds.getD (i + 1) 0
      || decide ((pairs.getD i (0, 0)).1 < (pairs.getD (i + 1) (0, 0)).1))
  && (List.range n).all (fun r => (pairs.filter (fun p => p.2 == r)).length == 1)

/-- Renumber a checked comb (R130); the header last. -/
def publishComb (b : CombBuf) : M Unit := do
  let d := b.desc
  let lay := b.lay
  let l := cdL d
  let rb := rowBytesOf (cdChannels d)
  let pairs ← readPairs b
  let parts ← readParts b
  let ds := pairDigits parts
  let rank (row : Nat) : Nat := (firstIdx (fun p => p.2 == row) pairs 0).getD 0
  let feats ← pairs.mapM (fun p => combRead b (lay.bfeat + rb * p.2) rb)
  let top := morton (cdCorner d 0) (cdCorner d 1) (cdCorner d 2) / 2 ^ (3 * l)
  let buckets ← (List.range (2 ^ cdLg d)).mapM (fun j => combRead b (lay.hash + 16 * j) 16)
  let np := min b.points (cdPoints d)
  let idx ← (List.range np).mapM (fun p => do
    let x ← combRead b (lay.index + 4 * p) 4
    pure (leNat x))
  let _ ← (List.range pairs.length).mapM (fun i => do
    combWrite b (64 + 8 * i) (toLE 8 (top * 2 ^ (3 * l) + ds.getD i 0 * 2 ^ (3 * l - 16) + (pairs.getD i (0, 0)).1))
    combWrite b (lay.feat + rb * i) (feats.getD i []))
  let _ ← (List.range (2 ^ cdLg d)).mapM (fun j =>
    let e := buckets.getD j []
    if field e 0 8 = emptyKey then pure () else combWrite b (lay.hash + 16 * j + 8) (toLE 4 (rank (field e 8 4))))
  let _ ← (List.range np).mapM (fun p =>
    let r := idx.getD p noRow
    if r = noRow then pure () else combWrite b (lay.index + 4 * p) (toLE 4 (rank r)))
  let st := 1 + b.status + b2n (b.region != 0) * 8 + b2n (b.backlog != 0) * 16 + b2n b.partFrame * 32
    + b2n (cdPlane d) * 64 + b2n b.replay * 128
  combWrite b 0 ([1, 0] ++ toLE 1 (cdV d) ++ toLE 1 l ++ toLE 1 (cdLg d) ++ toLE 1 (field d 3 1) ++ toLE 2 st
    ++ toLE 8 b.frame ++ toLE 8 (cdMult d) ++ toLE 4 b.voxels ++ toLE 4 np
    ++ toLE 4 (min b.region noRow) ++ toLE 4 (min b.overflow noRow) ++ toLE 4 (min b.backlog noRow)
    ++ toLE 2 rb ++ [0, 0] ++ toLE 4 (lay.feat / 4096) ++ toLE 4 (lay.index / 4096) ++ toLE 4 (lay.hash / 4096)
    ++ toLE 4 (if cdPlane d then lay.pts / 4096 else 0))

/-- COMB_PUBLISH_DONE. -/
def DieState.publishDone (D : DieState) : DieState :=
  match D.takeJob (fun j => match j with | .publish _ _ _ => true | _ => false) with
  | some (.publish t k id, D) =>
    if (D.combBuf t k).phase ≠ .publishing then D
    else match runM (publishComb (D.combBuf t k)) D with
      | (.ok _, D) =>
        let D := D.onBuf t k (fun b => { b with phase := .published })
        (D.combSeal (field (D.combBuf t k).desc 104 4)).replyId id .ok
      | (.error f, D) => (D.onBuf t k (fun b => { b with phase := .closed })).replyId id f.status
  | _ => D

/-! ## The commands (R131, R132) -/

/-- The target a command names, whose owner it must come from. -/
def namedTarget (c : Cmd) : M Nat := do
  let D ← get
  let t := c.p 0 1
  okField (t < 8) 0
  guardS (cdOwner (D.combPlate t) != 0 && cdOwner (D.combPlate t) == c.inst) .refusedRole
  pure t

/-- The buffer a command names, in a state (R132). -/
def namedBuf (c : Cmd) (ph : CombPhase) : M (Nat × Nat) := do
  let t ← namedTarget c
  let D ← get
  let k := c.p 1 1
  guardS (k < 4 && (D.combBuf t k).phase == ph && (D.combBuf t k).gen == c.p 2 1) .faultStaleGeneration
  pure (t, k)

/-- Does every byte of [a, a + n) of a view lie in some of these regions? Each step ends a region. -/
def inOwn (rs : List Region) (view : Nat) : Nat → Nat → Nat → Bool
  | 0, _, n => n == 0
  | fuel + 1, a, n =>
    n == 0 || (match rs.find? (fun r => r.covers view a 1) with
      | some r => inOwn rs view fuel (r.base + r.size) (n - (r.base + r.size - a))
      | none => false)

/-- Does every byte of [a, a + n) lie in a stacked-memory region of the instance (R116)? -/
def DieState.inRegions (D : DieState) (inst a n : Nat) : Bool := stackRange a n && inOwn (insRegions D.ins.active inst) (viewOf a) 17 a n

/-- COMB_BUFFERS (R116, R126, R132): the offsets are derived here. A target's buffers are a pool of R422: a command that comes
with rivals in its cycle contends for them (R423; log entry 155). -/
def combBuffers (rivals : List Nat) (c : Cmd) : M (List Byte) := do
  let t ← namedTarget c
  let D ← get
  let o := padTo 44 (c.params.drop 4)
  let n := field o 32 1
  okField (zeros c.params 1 3) 1
  okField (2 ≤ n && n ≤ 4) 36
  okField ((List.range n).all (fun k => field o (8 * k) 8 % 4096 == 0)) 4
  okField (zeros o 34 2) 38
  okField (!bit (field o 36 4) 24 || refOk (field o 36 4)) 40
  okField (!bit (field o 40 4) 24 || refOk (field o 40 4)) 44
  let busy (k : Nat) : Bool :=
    let ph := (D.combBuf t k).phase
    ph == .building || ph == .sorting || ph == .publishing
  guardS (!((List.range 4).any busy)) .refusedFull 14
  let lay := descLayout (D.combPlate t)
  guardS ((List.range n).all (fun k => D.inRegions c.inst (field o (8 * k) 8) lay.size)) .faultBounds
  claim 14 (224 + 65536 * t) 1 c.queue rivals
  let T := D.combTarget t
  let make (k : Nat) : CombBuf :=
    if k < n then { phase := .clearing, base := field o (8 * k) 8, lay := lay, gen := (T.buf k).gen } else { gen := (T.buf k).gen }
  let keep (j : CombJob) : Bool := match j with | .clear u _ => u != t | _ => true
  onD (fun D => D.setTarget t { T with owned := o, buf0 := make 0, buf1 := make 1, buf2 := make 2, buf3 := make 3
                                       building := none, renewed := true })
  onD (fun D => D.setTarget t { D.combTarget t with
    buf0 := { (D.combBuf t 0) with desc := D.combDesc t }, buf1 := { (D.combBuf t 1) with desc := D.combDesc t }
    buf2 := { (D.combBuf t 2) with desc := D.combDesc t }, buf3 := { (D.combBuf t 3) with desc := D.combDesc t } })
  onD (fun D => { D with comb := { D.comb with
    jobs := D.comb.jobs.filter keep ++ (List.range n).map (fun k => CombJob.clear t k) } })
  pure []

/-- COMB_PUBLISH: the checks of R130, then the job. -/
def combPublish (c : Cmd) : M (Option (List Byte)) := do
  let (t, k) ← namedBuf c .closed
  let D ← get
  let b := D.combBuf t k
  let pairs ← readPairs b
  let parts ← readParts b
  let digits ← buildDigits b
  guardS (sortOk pairs parts digits) .faultMetadata
  onD (fun D => (D.started c.id).onBuf t k (fun b => { b with phase := .publishing }))
  onD (fun D => { D with comb := { D.comb with jobs := D.comb.jobs ++ [.publish t k c.id] } })
  pure none

/-- Does a lookup batch hold a reference on a buffer (R348)? -/
def DieState.combHeld (D : DieState) (t k : Nat) : Bool := D.fgr.batches.any (fun b => b.comb == some (t, k))

/-- Releases whose buffer no batch names any more clear it and reply (R348). -/
def DieState.settleReleases (D : DieState) : DieState :=
  (List.range 8).foldl (fun (D : DieState) t =>
    let (wait, go) := (D.combTarget t).releases.partition (fun r => D.combHeld t r.1)
    let D := if go.isEmpty then D else D.setTarget t { D.combTarget t with releases := wait }
    go.foldl (fun (D : DieState) r =>
      ({ D with comb := { D.comb with jobs := D.comb.jobs ++ [CombJob.clear t r.1] } }).replyId r.2 .ok) D) D

/-- COMB_RELEASE (R131, R348). DESIGN CHOICE (log entry 176): what a released buffer holds is undefined to its readers; here the
bytes stay as they are until the clear rewrites buckets and partition table, and later combs the rest. -/
def combRelease (c : Cmd) : M (Option (List Byte)) := do
  let (t, k) ← namedBuf c .published
  onD (fun D => (D.started c.id).onBuf t k (fun b => { b with phase := .clearing }))
  onD (fun D => D.setTarget t { D.combTarget t with releases := (D.combTarget t).releases ++ [(k, c.id)] })
  onD (fun D => D.settleReleases)
  pure none

/-- The code of a buffer state in COMB_STATUS: the order of R126. -/
def CombPhase.code : CombPhase → Nat
  | .none => 0 | .clearing => 1 | .free => 2 | .building => 3 | .sorting => 4 | .closed => 5 | .publishing => 6
  | .published => 7

/-- COMB_STATUS. -/
def combStatus (c : Cmd) : M (List Byte) := do
  let t ← namedTarget c
  let D ← get
  pure ((List.range 4).flatMap (fun k => toLE 1 (D.combBuf t k).phase.code ++ toLE 1 (D.combBuf t k).gen)
    ++ toLE 8 (min (D.combTarget t).missed (2 ^ 64 - 1)))

/-! ## Coarser levels (R133) -/

/-- What the header of a published comb says (R117). -/
structure CombHead where
  base : Nat
  level : Nat
  v : Nat
  region : Nat
  lg : Nat
  channels : Nat
  status : Nat
  frame : Nat
  mult : Nat
  voxels : Nat
  points : Nat
  rowBytes : Nat
  feat : Nat
  index : Nat
  hash : Nat
  pts : Nat

/-- Read a comb's header at an address. -/
def readHead (cx : Ctx) (a : Nat) : M CombHead := do
  let h ← stackRead cx a 64
  guardS (field h 0 1 == 1 && bit (field h 6 2) 0) .faultFormat
  pure { base := a, level := field h 1 1, v := field h 2 1, region := field h 3 1, lg := field h 4 1
         channels := field h 5 1, status := field h 6 2, frame := field h 8 8, mult := field h 16 8
         voxels := field h 24 4, points := field h 28 4, rowBytes := field h 44 2, feat := field h 48 4 * 4096
         index := field h 52 4 * 4096, hash := field h 56 4 * 4096, pts := field h 60 4 * 4096 }

/-- Buckets of a parent: the smallest power of two that is at least 2n and 2^10; its logarithm. -/
def parentLg (n : Nat) : Nat := ((List.range 32).find? (fun g => 10 ≤ g && 2 * n ≤ 2 ^ g)).getD 31

/-- The channels of a parent row, from those gathered so far and a child's (R133). cnt: the child's count; bitOf: its
coordinate bit on an axis. -/
def mergeChannels (first : Bool) (w cnt : Nat) (bitOf : Nat → Nat) : List Nat → List Byte → List Byte → List Byte
  | [], _, _ => []
  | c :: cs, acc, b =>
    let off : Int := if c % 16 ≤ 2 then ((bitOf (c % 16) * 2 ^ w : Nat) : Int) else 0
    let n := 8 * bits c 4 1
    let m := n + 4 * bits c 5 1
    let k := m + 4 * bits c 6 1
    let s := if bit c 4 then toLE 8 (wrapN 64 ((if first then 0 else ifield acc 0 8) + ifield b 0 8 + (cnt : Int) * off)) else []
    let hi := ifield b n 4 + off
    let lo := ifield b m 4 + off
    let h := if bit c 5 then toLE 4 (wrapN 32 (if first then hi else max hi (ifield acc n 4))) else []
    let l := if bit c 6 then toLE 4 (wrapN 32 (if first then lo else min lo (ifield acc m 4))) else []
    s ++ h ++ l ++ mergeChannels first w cnt bitOf cs (acc.drop k) (b.drop k)

/-- A parent row with a child's row added (R133). acc: the row so far; empty: none yet. -/
def mergeRow (cs : List Nat) (rb w key : Nat) (acc row : List Byte) : List Byte :=
  let first := acc.isEmpty
  padTo rb (toLE 4 ((if first then 0 else field acc 0 4) + field row 0 4)
    ++ toLE 4 (orN (if first then 0 else field acc 4 4) (field row 4 4))
    ++ mergeChannels first w (field row 0 4) (fun a => bits key a 1) cs (acc.drop 8) (row.drop 8))

/-- Parents of sorted child keys: per child its parent's row; and the parents' keys. -/
def parentRows : List Nat → List Nat → List Nat × List Nat
  | [], ps => ([], ps.reverse)
  | k :: ks, p :: ps =>
    if k / 8 = p then (let r := parentRows ks (p :: ps); (ps.length :: r.1, r.2))
    else (let r := parentRows ks (k / 8 :: p :: ps); ((ps.length + 1) :: r.1, r.2))
  | k :: ks, [] => let r := parentRows ks [k / 8]; (0 :: r.1, r.2)

/-- COMB_DOWNSAMPLE's job (R133). cs: the comb's channels. DESIGN CHOICE (log entry 176): the order in which the parents enter
the table, which decides the buckets of keys that collide, is that of their rows. -/
def downsample (cx : Ctx) (cs : List Nat) (src dst size : Nat) : M Unit := do
  let h ← readHead cx src
  guardS (h.v + h.level + 1 ≤ 14) .faultFormat
  let n := h.voxels
  let lg := parentLg n
  let lay := combLayout h.rowBytes n n (2 ^ lg) false
  guardS (lay.size ≤ size) .faultBounds
  checkStack cx dst (max 1 lay.size) true
  let keys ← (List.range n).mapM (fun i => do
    let x ← stackRead cx (src + 64 + 8 * i) 8
    pure (leNat x))
  let rows ← (List.range n).mapM (fun i => stackRead cx (src + h.feat + h.rowBytes * i) h.rowBytes)
  let pr := parentRows keys []
  let feat (p : Nat) : List Byte :=
    (List.range n).foldl (fun acc i => if pr.1.getD i 0 = p then
      mergeRow cs h.rowBytes (h.v + h.level) (keys.getD i 0) acc (rows.getD i []) else acc) []
  let table := (List.range pr.2.length).foldl (fun (st : Tab (Nat × Nat)) i =>
    let k := pr.2.getD i 0
    tabPut (probeFree st (homeBucket k h.mult lg) (2 ^ lg) (2 ^ lg) 0).1 (k, i) st) []
  let _ ← (List.range pr.2.length).mapM (fun p => do
    stackWrite cx (dst + 64 + 8 * p) (toLE 8 (pr.2.getD p 0))
    stackWrite cx (dst + lay.feat + h.rowBytes * p) (feat p))
  let _ ← (List.range n).mapM (fun i => stackWrite cx (dst + lay.index + 4 * i) (toLE 4 (pr.1.getD i 0)))
  let _ ← (List.range (2 ^ lg)).mapM (fun j => stackWrite cx (dst + lay.hash + 16 * j)
    (match tabFind table j with | some e => bucketBytes e.1 e.2 (h.level + 1) | none => emptyBucket))
  stackWrite cx dst ([1] ++ toLE 1 (h.level + 1) ++ toLE 1 h.v ++ toLE 1 (h.region - 1) ++ toLE 1 lg
    ++ toLE 1 h.channels ++ toLE 2 (1 + andN h.status 0xA0) ++ toLE 8 h.frame ++ toLE 8 h.mult ++ toLE 4 pr.2.length
    ++ toLE 4 n ++ toLE 12 0 ++ toLE 2 h.rowBytes ++ [0, 0] ++ toLE 4 (lay.feat / 4096) ++ toLE 4 (lay.index / 4096)
    ++ toLE 4 (lay.hash / 4096) ++ toLE 4 0)

/-! ## Trilinear bags (R140, R141) -/

/-- Lower lattice voxel and fraction of a coordinate. -/
def triCoord (w : Nat) (c : Int) : Int × Int :=
  let u := c - ((2 ^ (w - 1) : Nat) : Int)
  let g := shr u w
  (g, (u - shl g w) * ((2 ^ (15 - w) : Nat) : Int))

/-- The 80-byte bag of a point at edge 2^w and level l. -/
def triBag (w l : Nat) (r : List Byte) : List Byte :=
  let p (a : Nat) : Int × Int := triCoord w (recCoord r a)
  let at2 (a n : Nat) : Nat := n / 2 ^ a % 2
  let coord (a n : Nat) : Int := (p a).1 + (at2 a n : Nat) + ((2 ^ (20 - l) : Nat) : Int)
  let ok (v : Int) : Bool := 0 ≤ v && v < ((2 ^ (21 - l) : Nat) : Int)
  let wt (a n : Nat) : Int := if at2 a n = 1 then (p a).2 else 32768 - (p a).2
  (List.range 8).flatMap (fun n => toLE 8
      (if ok (coord 0 n) && ok (coord 1 n) && ok (coord 2 n) then
        morton (coord 0 n).toNat (coord 1 n).toNat (coord 2 n).toNat else emptyKey))
  ++ (List.range 8).flatMap (fun n => toLE 2
      (toBits (satT (rnd (wt 0 n * wt 1 n * wt 2 n) 30 .rne 0) .i16) .i16))

/-- COMB_TRILINEAR's job. -/
def trilinear (c : Cmd) (b : CombBuf) (level first count : Nat) : M Unit := do
  let lay := b.lay
  let _ ← (List.range count).mapM (fun i => do
    let r ← combRead b (lay.pts + 24 * (first + i)) 24
    paramWrite c.id c.stacked { c.ctx with req := 0x089, cls := 2 } (c.p 12 8 + 80 * i)
      (triBag (cdV b.desc + level) level r))
  pure ()

/-- COMB_DOWNSAMPLE and COMB_TRILINEAR at acceptance (R131, R133, R140): their checks; the job is queued. -/
def combJob (sealAt : Nat) (check : CombBuf → M Unit) (c : Cmd) : M (Option (List Byte)) := do
  let (t, k) ← namedBuf c .published
  let D ← get
  okField (!bit (c.p sealAt 4) 24 || refOk (c.p sealAt 4)) sealAt
  check (D.combBuf t k)
  onD (fun D => { D.started c.id with comb := { D.comb with jobs := D.comb.jobs ++ [.build t c.id] } })
  pure none

def downCheck (c : Cmd) (b : CombBuf) : M Unit := do
  okField (zeros c.params 3 1) 3
  guardS (c.p 4 8 != 0 || cdV b.desc + 1 ≤ 14) .faultFormat

/-- DESIGN CHOICE (log entry 176): the spec gives no status for a comb without a point plane, which ends with FAULT_FORMAT here,
nor for points the comb does not hold, which end with FAULT_BOUNDS. -/
def triCheck (c : Cmd) (b : CombBuf) : M Unit := do
  guardS (cdPlane b.desc && cdV b.desc + c.p 3 1 ≤ 14) .faultFormat
  guardS (c.p 4 4 + c.p 8 4 ≤ min b.points (cdPoints b.desc)) .faultBounds

/-- COMB_JOB_COMPLETE. -/
def DieState.combJobDone (D : DieState) : DieState :=
  match D.takeJob (fun j => match j with | .build _ _ => true | _ => false) with
  | some (.build t id, D) =>
    match D.cmdOf id with
    | none => D
    | some c =>
      let b := D.combBuf t (c.p 1 1)
      let down := decide (c.op = 0x0423)
      let body : M Unit :=
        if down then downsample (combCtx c.inst) (cdChannels b.desc) (if c.p 4 8 = 0 then b.base else c.p 4 8) (c.p 12 8) (c.p 20 8)
        else trilinear c b (c.p 3 1) (c.p 4 4) (c.p 8 4)
      match runM body D with
      | (.ok _, D) =>
        let ref := c.p (if down then 28 else 20) 4
        if D.acked id then (D.combSeal ref).reply c .ok else D.finalReply id .ok [] ref
      | (.error f, D) => D.reply c f.status
  | _ => D

/-! ## Plate switch and instance reset -/

/-- The switch disables or enables targets (R117, R132): the comb of a disabled one ends behind the packets that arrived before.
old: the descriptors before. -/
def DieState.combSwitch (D : DieState) (old : Nat → List Byte) : DieState :=
  (List.range 8).foldl (fun (D : DieState) t =>
    let was := bit (field (old t) 48 1) 0
    let D := if was && !D.combEnabled t then D.mark (.combEnd t) else D
    if !was && D.combEnabled t then D.setTarget t { D.combTarget t with renewed := true } else D) D

/-- The owner of targets is reset (R132): jobs and combs are abandoned, every buffer clears. -/
def DieState.combReset (D : DieState) (inst : Nat) : DieState :=
  let mine (t : Nat) : Bool := cdOwner (D.combPlate t) == inst
  let keep (j : CombJob) : Bool :=
    match j with | .clear t _ => !mine t | .scatter t _ => !mine t | .publish t _ _ => !mine t | .build t _ => !mine t
  let D := { D with comb := { D.comb with jobs := D.comb.jobs.filter keep } }
  ((List.range 8).filter mine).foldl (fun (D : DieState) t =>
    let T := D.combTarget t
    let wipe (b : CombBuf) : CombBuf := if b.phase = .none then b else { b with phase := .clearing }
    let D := D.setTarget t { T with
      dead := D.comb.frame.isSome, building := none, releases := [], skipped := if T.building.isSome then some inst else T.skipped
      buf0 := wipe T.buf0, buf1 := wipe T.buf1, buf2 := wipe T.buf2, buf3 := wipe T.buf3 }
    { D with comb := { D.comb with jobs := D.comb.jobs
        ++ ((List.range 4).filter (fun k => (T.buf k).phase != .none)).map (fun k => CombJob.clear t k) } }) D

/-! ## Rows -/

/-- COMB_INSERT_RECORD. -/
def execCombInsertRecord (a : At) (s : State) : Out := onDie a s (fun D => D.insertNext)
/-- COMB_FRAME_CLOSE_MARKER. -/
def execCombFrameCloseMarker (a : At) (s : State) : Out := onDie a s (fun D => D.frameMarker)
/-- COMB_SCATTER_DONE. -/
def execCombScatterDone (a : At) (s : State) : Out := onDie a s (fun D => D.scatterDone)
/-- COMB_CLEAR_DONE. -/
def execCombClearDone (a : At) (s : State) : Out := onDie a s (fun D => D.clearDone)
/-- COMB_BUFFERS. -/
def execCombBuffers (a : At) (id : Nat) (rivals : List Nat) (s : State) : Out :=
  onDie a s (fun D => D.runCmd 0x0420 id (fun c D => D.replyM c (combBuffers rivals c)))
/-- COMB_PUBLISH. -/
def execCombPublish (a : At) (id : Nat) (s : State) : Out :=
  onDie a s (fun D => D.runCmd 0x0421 id (fun c D => D.replyOpt c (combPublish c)))
/-- COMB_PUBLISH_DONE. -/
def execCombPublishDone (a : At) (s : State) : Out := onDie a s (fun D => D.publishDone)
/-- COMB_RELEASE. -/
def execCombRelease (a : At) (id : Nat) (s : State) : Out :=
  onDie a s (fun D => D.runCmd 0x0422 id (fun c D => D.replyOpt c (combRelease c)))
/-- COMB_DOWNSAMPLE. -/
def execCombDownsample (a : At) (id : Nat) (s : State) : Out :=
  onDie a s (fun D => D.runCmd 0x0423 id (fun c D => D.replyOpt c (combJob 28 (downCheck c) c)))
/-- COMB_TRILINEAR. -/
def execCombTrilinear (a : At) (id : Nat) (s : State) : Out :=
  onDie a s (fun D => D.runCmd 0x0424 id (fun c D => D.replyOpt c (combJob 20 (triCheck c) c)))
/-- COMB_STATUS. -/
def execCombStatus (a : At) (id : Nat) (s : State) : Out :=
  onDie a s (fun D => D.runCmd 0x0425 id (fun c D => D.replyM c (combStatus c)))
/-- COMB_JOB_COMPLETE. -/
def execCombJobComplete (a : At) (s : State) : Out := onDie a s (fun D => D.combJobDone)

end Sys2Proof.Machine
end

