-- ==== Sys2Proof/Machine/Serve.lean ====
section
/-! DEFINITION. Packets delivered to a die, before they are served: the plate check of requests (R499), the completion
record (R495), and responses (R444, R494). -/

namespace Sys2Proof.Machine

/-- Take the oldest delivered packet of a kind that p admits. -/
def DieState.takePkt (D : DieState) (p : Nat → Bool) : Option (Packet × DieState) :=
  match D.fab.inbox.find? (fun k => p k.kind) with
  | some k => some (k, { D with fab := { D.fab with inbox := D.fab.inbox.erase k } })
  | none => none

/-- Is a request's epoch tag one that the die accepts now (R499)? -/
def DieState.epochOk (D : DieState) (p : Packet) : Bool :=
  p.epoch == D.epochTag
  || (match D.fab.staged, D.fab.switchAt with
      | some s, some t => p.epoch == s.epoch % 65536 && decide (t ≤ D.now + 1000000) && decide (D.now ≤ t)
      | _, _ => false)
  || (match D.fab.switched with
      | some t => p.epoch == D.fab.prevEpoch % 65536 && decide (D.now ≤ t + 1000000)
      | none => false)

/-- The record of a request that has been served before (R495). -/
def DieState.servedOf (D : DieState) (p : Packet) : Option Served :=
  D.fab.served.find? (fun e => e.node == p.srcNode && e.die == p.srcDie && e.tag == p.tag && e.gen == p.tagGen)

/-- Entries of the record that have reached 400 µs leave it. -/
def DieState.ageServed (D : DieState) : DieState :=
  { D with fab := { D.fab with served := D.fab.served.filter (fun e => decide (D.now < e.time + 400000)) } }

/-- Is the record full of young entries, so that no request is taken? -/
def DieState.recordFull (D : DieState) : Bool := 262144 ≤ D.fab.served.length

/-- Note a served request. -/
def DieState.noteServed (D : DieState) (p : Packet) (status : Nat) : DieState :=
  let rest := D.fab.served.filter (fun e =>
    !(e.node == p.srcNode && e.die == p.srcDie && e.tag == p.tag && e.gen == p.tagGen))
  { D with fab := { D.fab with served := rest ++
    [{ node := p.srcNode, die := p.srcDie, tag := p.tag, gen := p.tagGen, status := status, time := D.now }] } }

/-- An ERROR answer. -/
def DieState.answerError (D : DieState) (p : Packet) (st : Nat) : DieState := D.answer p pkError st []

/-- Serve the oldest request of a kind: refused by its epoch, answered from the record (again: a kind that is served
again instead), or served. serve answers the status it ended with. -/
def DieState.serveRequest (D : DieState) (kind : Nat) (again : Bool) (serve : Packet → DieState → Nat × DieState) : DieState :=
  let D := if D.recordFull then D.ageServed else D
  if D.recordFull then D
  else match D.takePkt (· == kind) with
    | none => D
    | some (p, D) =>
      if !D.epochOk p then (D.count B_FAB FAB_QUAR_REFUSED).answerError p Status.refusedPlate.code
      else match D.servedOf p with
        | some e =>
          let D := D.count B_FAB FAB_DUP_DROPPED
          if again then (serve p D).2
          else if e.status = 0 then D.answer p pkWriteAck 0 []
          else D.answerError p e.status
        | none =>
          let r := serve p D
          r.2.noteServed p r.1

/-- The outstanding tag that a response ends, or why it is dropped (R444, R494). -/
def DieState.takeTag (D : DieState) (p : Packet) : Option TagEntry × DieState :=
  match D.tagOf p with
  | none => (none, D.count B_FAB FAB_LATE_REPLIES)
  | some e =>
    if p.instGen ≠ D.gen p.inst then (none, (D.dropTag e).count B_INS INS_LATE_DISCARDS)
    else (some e, D.dropTag e)

end Sys2Proof.Machine
end

