-- ==== Sys2Proof/Machine/Forager.lean ====
section
/-! DEFINITION. The forager: tables (R335-R341), indices (R342-R344), bags (R345-R352), sharding (R353-R356), hot rows
and prefetch (R357-R359), versions (R360-R364), commands (R369-R371). Refinement updates stand in Update.lean. -/

namespace Sys2Proof.Machine

/-! ## Descriptors (R336, R337) -/

def tbFormat (d : List Byte) : Nat := field d 2 1
def tbHashed (d : List Byte) : Bool := field d 3 1 == 1
def tbD (d : List Byte) : Nat := field d 4 2
def tbShift (d : List Byte) : Nat := field d 6 1
def tbOwner (d : List Byte) : Nat := field d 7 1
def tbRows (d : List Byte) : Nat := field d 8 8
def tbMult (d : List Byte) : Nat := field d 16 8
def tbG (d : List Byte) : Nat := field d 24 1
def tbRepl (d : List Byte) : Nat := field d 25 1
def tbGb (d : List Byte) : Nat := field d 26 1
def tbHot (d : List Byte) : Nat := field d 28 4
def tbDrainMs (d : List Byte) : Nat := field d 32 4
def tbEntries (d : List Byte) : Nat := field d 36 4
def tbServing (d : List Byte) : Nat := field d 48 2
def tbVersion (d : List Byte) : Nat := field d 64 4

/-- Bytes of a row's codes, and the row stride (R339). -/
def tbCodeBytes (d : List Byte) : Nat := if tbFormat d = 0 then tbD d else tbD d / 2
def tbStride (d : List Byte) : Nat :=
  ([16, 32, 64, 128, 256, 512].find? (fun n => 4 + tbCodeBytes d ≤ n)).getD 512

/-- Smallest e with n ≤ 2^e. -/
def log2Up (n : Nat) : Nat := ((List.range 65).find? (fun e => n ≤ 2 ^ e)).getD 64

/-- Replica r of a granule, as die code node * 4 + die and local slot, if its entry is valid (R337). -/
def tbReplica (shards : List Byte) (g r : Nat) : Option (Nat × Nat) :=
  let w := field shards (8 * g + 4 * r) 2
  if bit w 15 then some (w % 4096 * 4 + bits w 12 2, field shards (8 * g + 4 * r + 2) 2) else none

/-- The valid replicas of a granule, replica 0 first. -/
def tbReplicas (shards : List Byte) (g : Nat) : List (Nat × Nat) := [0, 1].filterMap (tbReplica shards g)

/-- The dies that serve a table (R337). -/
def tbServers (d serving : List Byte) : List Nat := (List.range (tbServing d)).map (fun i => field serving (2 * i) 2)

/-- Checks of a staged table descriptor on a die that its serving list names (R338), all but the version's. -/
def tableOk (d shards serving : List Byte) : Bool :=
  let ss := tbServers d serving
  let n := tbEntries d
  let reps := (List.range n).map (tbReplicas shards)
  let all := reps.flatten
  field d 0 2 < 1024 && tbFormat d ≤ 1 && field d 3 1 ≤ 1 && 4 ≤ tbD d && tbD d ≤ 256
  && (tbFormat d == 0 || tbD d % 2 == 0) && tbShift d ≤ 15 && 1 ≤ tbOwner d && tbOwner d ≤ 7
  && 6 ≤ tbG d && tbG d ≤ 26 && (tbRepl d == 1 || tbRepl d == 2)
  && (if tbHashed d then tbMult d % 2 == 1 && tbG d + 1 ≤ tbGb d && tbGb d ≤ 27 && tbRows d == 2 ^ tbG d * n
        && n == 2 ^ log2Up n
      else tbMult d == 0 && tbGb d == 0 && 1 ≤ tbRows d && tbRows d ≤ 2 ^ 32 && n == ceilDiv (tbRows d) (2 ^ tbG d))
  && field d 27 1 ≤ 1 && tbHot d ≤ 65536 && (bit (field d 27 1) 0 || tbHot d == 0)
  && 1 ≤ tbDrainMs d && tbDrainMs d ≤ 10000 && 1 ≤ n && n ≤ 65536 && field d 40 8 % 64 == 0
  && 1 ≤ tbServing d && tbServing d ≤ 1024 && zeros d 50 6 && field d 56 8 % 64 == 0 && tbVersion d != 0 && zeros d 68 60
  && (List.range n).all (fun g => (tbReplica shards g 0).isSome && (tbReplica shards g 1).isSome == (tbRepl d == 2))
  && reps.all (fun r => (r.map (·.1)).eraseDups.length == r.length)
  && all.all (fun r => (all.filter (fun q => q == r)).length == 1 && ss.contains r.1)
  && (List.range (ss.length - 1)).all (fun i => ss.getD i 0 < ss.getD (i + 1) 0)

/-! ## Tables and slots -/

/-- This die's code: node * 4 + die. -/
def DieState.me (D : DieState) : Nat := D.fab.node * 4 + D.num

/-- What a plate says of a table: descriptor, shard map, serving list. -/
def plateTable (p : Option Plate) (t : Nat) : Option (List Byte × List Byte × List Byte) :=
  match p with
  | none => none
  | some p => match p.tables.find? (fun e => e.1 == t) with
    | none => none
    | some e => some (padTo 128 e.2, ((p.shards.find? (fun x => x.1 == t)).map (·.2)).getD [],
        ((p.serving.find? (fun x => x.1 == t)).map (·.2)).getD [])

def DieState.tableOf (D : DieState) (t : Nat) : Option (List Byte × List Byte × List Byte) := plateTable D.fab.plate t

/-- Does this die serve the table? -/
def DieState.serves (D : DieState) (t : Nat) : Bool :=
  match D.tableOf t with | some (d, _, sv) => (tbServers d sv).contains D.me | none => false

def DieState.slots (D : DieState) (t : Nat) : TabSlots := tabGet {} D.fgr.tables t
def TabSlots.get (x : TabSlots) (b : Bool) : TabSlot := if b then x.b else x.a
def DieState.slotOf (D : DieState) (t : Nat) (b : Bool) : TabSlot := (D.slots t).get b

def DieState.onFgr (D : DieState) (f : FgrState → FgrState) : DieState := { D with fgr := f D.fgr }

def DieState.setSlot (D : DieState) (t : Nat) (b : Bool) (x : TabSlot) : DieState :=
  D.onFgr (fun f => { f with tables := tabMod {} t (fun (s : TabSlots) => if b then { s with b := x } else { s with a := x }) f.tables })

/-- The slot in a state that p admits; A first. -/
def DieState.findSlot (D : DieState) (t : Nat) (p : TabSlot → Bool) : Option Bool :=
  if p (D.slotOf t false) then some false else if p (D.slotOf t true) then some true else none

/-- The ACTIVE slot of a table. -/
def DieState.activeSlot (D : DieState) (t : Nat) : Option Bool := D.findSlot t (fun s => s.state == 3)

/-- In-flight count of a slot (R362). -/
def DieState.inflight (D : DieState) (t : Nat) (b : Bool) : Nat :=
  (D.fgr.batches.filter (fun x => x.table == some (t, b))).length
  + (D.fgr.updates.filter (fun x => x.table == t && x.slotB == b)).length
  + (D.fgr.works.filter (fun x => x.table == t && x.slotB == b && x.src != D.num)).length

/-- A slot becomes EMPTY; its release seal is signalled. -/
def DieState.freeSlot (D : DieState) (t : Nat) (b : Bool) : DieState :=
  let x := D.slotOf t b
  let D := D.onFgr (fun f => { f with prefetch := f.prefetch.filter (fun p => !(p.table == t && p.slotB == b)) })
  let D := (D.setSlot t b {}).cause B_FGR 0
  if bit x.release 24 then D.signalRef x.release 1 .job else D

/-- A DRAINING slot whose work is done sends its notices, and empties when it holds all (R362). -/
def DieState.settleSlot (D : DieState) (t : Nat) (b : Bool) : DieState :=
  let x := D.slotOf t b
  if x.state ≠ 4 ∨ D.inflight t b ≠ 0 then D
  else
    let dies := tbServers x.desc x.serving
    let D := if x.sent then D else
      (dies.filter (· != D.me)).foldl (fun (D : DieState) k => D.post
        { kind := pkDrain, vc := 3, dstNode := k / 4, dstDie := k % 4, srcNode := D.fab.node, srcDie := D.num
          inst := tbOwner x.desc, instGen := D.gen (tbOwner x.desc), epoch := D.epochTag, length := 16
          body := toLE 4 t ++ toLE 4 x.version ++ toLE 8 0 })
        (D.setSlot t b { x with sent := true, notices := x.notices ++ [D.me] })
    let x := D.slotOf t b
    if dies.all x.notices.contains then D.freeSlot t b else D

/-- The plate in force binds versions to slots (R360, R361): a slot with the version named becomes ACTIVE, another
ACTIVE slot drains. -/
def DieState.bindTables (D : DieState) : DieState :=
  (D.fgr.tables.map (·.1)).foldl (fun (D : DieState) t =>
    let want := match D.tableOf t with
      | some x => if D.serves t then some x else none
      | none => none
    [false, true].foldl (fun (D : DieState) b =>
      let x := D.slotOf t b
      let named := match want with | some w => tbVersion w.1 == x.version | none => false
      if (x.state = 2 ∨ x.state = 3) ∧ named = true then
        match want with
        | some w => D.setSlot t b { x with state := 3, desc := w.1, shards := w.2.1, serving := w.2.2 }
        | none => D
      else if x.state = 3 then (D.setSlot t b { x with state := 4, switched := D.now }).settleSlot t b
      else D) D) D

/-! ## Memory (R341) -/

/-- Memory context of the lookup and pool path (0x08C) for an owner. -/
def fgrCtx (inst : Nat) : Ctx := { inst := inst, req := 0x08C, cls := 0 }

/-- Address of a row in a slot: granule slot i, row r. -/
def rowAddr (x : TabSlot) (i r : Nat) : Nat := x.base + 4096 + (i * 2 ^ tbG x.desc + r) * tbStride x.desc

/-- Address of bucket j of granule slot i. -/
def bucketAddr (x : TabSlot) (i j : Nat) : Nat :=
  x.base + align4K (4096 + x.granules * 2 ^ tbG x.desc * tbStride x.desc) + (i * 2 ^ tbGb x.desc + j) * 16

/-- Bytes of a slot's region. -/
def slotSize (x : TabSlot) : Nat :=
  let rows := 4096 + x.granules * 2 ^ tbG x.desc * tbStride x.desc
  if tbHashed x.desc then align4K rows + x.granules * 2 ^ tbGb x.desc * 16 else rows

/-- The staging buffer (R29): base and size. -/
def stagingBase : Nat := 0x0100_2000_0000
def stagingSize : Nat := 0x0100_0000

/-- Bytes of the staging buffer that hot areas use: rows and index (R357, R358). -/
def TabSlot.hotSize (x : TabSlot) : Nat := x.hotKeys.length * (tbStride x.desc + 32)

/-- The slots that hold a version. -/
def DieState.allSlots (D : DieState) : List TabSlot :=
  (D.fgr.tables.flatMap (fun e => [e.2.a, e.2.b])).filter (fun x => x.state != 0)

def DieState.hotUsed (D : DieState) : Nat :=
  ((D.allSlots.filter (·.hotStaging)).map (fun x => x.hotSize)).foldl (· + ·) 0

/-- A row of a slot is fetched from stacked memory; fetches count by 64 bytes (R372, R373). -/
def rowFetch (x : TabSlot) (a : Nat) : M (List Byte) := do
  onD (fun D => D.count B_FGR FGR_ROW_FETCHES (max 1 (tbStride x.desc / 64)))
  stackRead (fgrCtx (tbOwner x.desc)) a (tbStride x.desc)

/-- Bytes of hot row i of a slot. -/
def hotRead (x : TabSlot) (i : Nat) : M (List Byte) := do
  let D ← get
  let n := tbStride x.desc
  if x.hotStaging then pure (memRead D.fgr.staging (x.hotAt + i * n) n) else rowFetch x (x.hotAt + i * n)

/-- Write bytes at an offset of a slot's hot area. -/
def hotPut (x : TabSlot) (off : Nat) (bs : List Byte) : M Unit :=
  if x.hotStaging then onD (fun D => D.onFgr (fun f => { f with staging := memWrite f.staging (x.hotAt + off) bs }))
  else stackWrite (fgrCtx (tbOwner x.desc)) (x.hotAt + off) bs

/-- Write hot row i of a slot. -/
def hotWrite (x : TabSlot) (i : Nat) (bs : List Byte) : M Unit := hotPut x (i * tbStride x.desc) bs

/-- The hot index (R357): 2 buckets for each listed key, which leads to its place in the list; the first place of a key that is
listed twice. The home bucket takes the top of the product of R121, for a number of buckets that need be no power of two
(log entry 97). -/
def hotTable (x : TabSlot) : Tab (Nat × Nat) :=
  let n := 2 * x.hotKeys.length
  (List.range x.hotKeys.length).foldl (fun (st : Tab (Nat × Nat)) i =>
    let k := x.hotKeys.getD i 0
    if firstIdx (fun h => h == k) x.hotKeys 0 = some i then
      tabPut (probeFree st (k * tbMult x.desc % 2 ^ 64 * n / 2 ^ 64) n n 0).1 (k, i) st
    else st) []

/-- The hot index follows the rows in the hot area. -/
def hotIndex (x : TabSlot) : M Unit :=
  let st := hotTable x
  (List.range (2 * x.hotKeys.length)).forM (fun j =>
    hotPut x (x.hotKeys.length * tbStride x.desc + 16 * j)
      (match tabFind st j with | some e => bucketBytes e.1 e.2 0 | none => emptyBucket))

/-! ## Indices (R342, R343) -/

/-- Home bucket over all granules. -/
def homeAll (d : List Byte) (k : Nat) : Nat :=
  k * tbMult d % 2 ^ 64 / 2 ^ (64 - log2Up (tbEntries d) - tbGb d)

/-- Granule of an index; none: it takes the default row whatever the table holds. -/
def tbGranule (d : List Byte) (k : Nat) : Option Nat :=
  if tbHashed d then (if bit k 63 then none else some (homeAll d k / 2 ^ tbGb d))
  else if k = 0xFFFF_FFFF ∨ tbRows d ≤ k then none
  else some (k / 2 ^ tbG d)

/-- Row of a key within granule slot i (R342); none: a hash miss. -/
def findRow (cx : Ctx) (x : TabSlot) (i k : Nat) : M (Option Nat) := do
  if tbHashed x.desc then
    match ← memProbe cx (bucketAddr x i 0) k (homeAll x.desc k % 2 ^ tbGb x.desc) (2 ^ tbGb x.desc) (2 ^ tbGb x.desc) 0 with
    | .row r => pure (some r)
    | _ => pure none
  else pure (some (k % 2 ^ tbG x.desc))

/-- The row of an index that granule slot i holds, from the prefetch area or from memory; none: a hash miss. -/
def fetchRow (t : Nat) (b : Bool) (x : TabSlot) (i k : Nat) : M (Option (List Byte)) := do
  let D ← get
  match D.fgr.prefetch.find? (fun p => p.table == t && p.slotB == b && p.key == k) with
  | some p =>
    onD (fun D => D.count B_FGR FGR_PREFETCH_HITS)
    pure (some p.bytes)
  | none => do
    match ← findRow (fgrCtx (tbOwner x.desc)) x i k with
    | none => pure none
    | some r => do
      let bs ← rowFetch x (rowAddr x i r)
      pure (some bs)

/-- The default row. -/
def defaultRow (x : TabSlot) : M (List Byte) := rowFetch x x.base

/-- The values of a row (R340). -/
def tbValues (d row : List Byte) : List Int :=
  let s : Int := ((field row 0 2 : Nat) : Int)
  let o := ifield row 2 2 * ((2 ^ tbShift d : Nat) : Int)
  (rowElems (if tbFormat d = 0 then .i8 else .i4) (tbD d) (row.drop 4)).map (fun c => s * c + o)

/-- acc + w * v, element by element (R345). -/
def addScaled (acc : List Int) (w : Int) (v : List Int) : List Int :=
  (List.range acc.length).map (fun j => acc.getD j 0 + w * v.getD j 0)

/-- Count defaults (R343). -/
def DieState.countDefaults (D : DieState) (n : Nat) : DieState := if n = 0 then D else D.count B_FGR FGR_DEFAULTED n

/-! ## Pooling at an owner (R353, R356) -/

/-- The exact partial over indices that this die holds, and the number of misses. -/
def ownerPartial (t : Nat) (b : Bool) (x : TabSlot) (me : Nat) : List (Nat × Int) → List Int → M (List Int × Nat)
  | [], acc => pure (acc, 0)
  | (k, w) :: rest, acc => do
    let i : Option Nat := match tbGranule x.desc k with
      | some g => ((tbReplicas x.shards g).find? (fun r => r.1 == me)).map (·.2)
      | none => none
    let row : Option (List Byte) ← match i with | some i => fetchRow t b x i k | none => pure none
    match row with
    | some bs => ownerPartial t b x me rest (addScaled acc w (tbValues x.desc bs))
    | none => do
      let bs ← defaultRow x
      let r ← ownerPartial t b x me rest (addScaled acc w (tbValues x.desc bs))
      pure (r.1, r.2 + 1)

/-- A pool request's body (R477). -/
def poolBody (version d n width pool bag : Nat) (keys : List Nat) (weights : List Int) : List Byte :=
  toLE 4 version ++ toLE 2 d ++ toLE 1 n ++ toLE 1 width ++ toLE 1 pool ++ [0, 0, 0] ++ toLE 4 bag
    ++ keys.flatMap (toLE width) ++ weights.flatMap (fun w => toLE 2 (wrapN 16 w))

/-- Serve or refuse a pool request (R356, R361, R363, R371, R502). -/
def DieState.servePool (p : Packet) (D : DieState) : Nat × DieState :=
  let t := p.aux
  let v := field p.body 0 4
  let n := field p.body 6 1
  let w := field p.body 7 1
  let refuse (st : Status) (D : DieState) : Nat × DieState := (st.code, D.answerError p st.code)
  let owner := match D.tableOf t with | some x => some x | none => none
  match D.findSlot t (fun s => 2 ≤ s.state && s.version == v) with
  | none =>
    match owner with
    | some x =>
      if D.gateClosed (tbOwner x.1) then refuse .refusedInstanceReset D
      else if tbVersion x.1 = v then refuse .refusedPlate D
      else refuse .faultStaleGeneration ((D.count32 B_FGR FGR_STALE_REFUSED).cause B_FGR 4)
    | none => refuse .faultStaleGeneration ((D.count32 B_FGR FGR_STALE_REFUSED).cause B_FGR 4)
  | some b =>
    let x := D.slotOf t b
    if D.gateClosed (tbOwner x.desc) then refuse .refusedInstanceReset D
    else if !((tbServers x.desc x.serving).contains (p.srcNode * 4 + p.srcDie)) || p.inst != tbOwner x.desc then
      refuse .refusedRole D
    else
      let ks := (List.range n).map (fun i => field p.body (16 + w * i) w)
      let wt (i : Nat) : Int := if field p.body 8 1 = 0 then ifield p.body (16 + w * n + 2 * i) 2 else 32768
      match runM (ownerPartial t b x D.me (ks.zip ((List.range n).map wt)) (List.replicate (field p.body 4 2) 0)) D with
      | (.error f, D) => refuse f.status D
      | (.ok (acc, miss), D) =>
        let D := (D.countDefaults miss).count B_FGR FGR_POOL_SERVED
        (0, D.answer p pkPoolReply 0 (acc.flatMap (fun v => toLE 8 (wrapN 64 v))) (field p.body 12 4 + miss * 2 ^ 32) t)

/-! ## Batches (R349-R352) -/

/-- Fields of a batch descriptor. -/
def bdLayout (d : List Byte) : Nat := field d 2 1
def bdPool (d : List Byte) : Nat := field d 3 1
def bdBags (d : List Byte) : Nat := field d 4 4
def bdFixed (d : List Byte) : Nat := field d 8 1
def bdType (d : List Byte) : VType := (VType.ofCode (field d 9 1)).getD .i8
def bdShift (d : List Byte) : Nat := field d 10 1
def bdMode (d : List Byte) : RMode := RMode.ofCode (field d 11 1)
def bdSeal (d : List Byte) : Nat := field d 12 4
def bdElem (d : List Byte) : VType := (VType.ofCode (field d 68 1)).getD .i8

/-- Elements of a row of the batch. -/
def Batch.d (B : Batch) (x : TabSlot) : Nat := match B.table with | some _ => tbD x.desc | none => field B.desc 70 2

/-- The slot a batch is bound to. -/
def DieState.batchSlot (D : DieState) (B : Batch) : TabSlot := match B.table with | some (t, b) => D.slotOf t b | none => {}

def DieState.batchOf (D : DieState) (id : Nat) : Option Batch := D.fgr.batches.find? (fun b => b.cmd == id)

def DieState.mapBatch (D : DieState) (id : Nat) (f : Batch → Batch) : DieState :=
  D.onFgr (fun g => { g with batches := g.batches.map (fun b => if b.cmd = id then f b else b) })

/-- DIV(a, b, mode) (R345). -/
def divRound (a : Int) (b : Nat) (m : RMode) : Int :=
  let q := Int.fdiv a (b : Int)
  let r := a - q * (b : Int)
  match m with
  | .rdn => q
  | .rtz => if a < 0 ∧ r ≠ 0 then q + 1 else q
  | _ => if 2 * r < (b : Int) then q else if (b : Int) < 2 * r then q + 1 else q + q % 2

/-- The rounded and saturated elements of a bag, and whether one saturated (R345, R57). -/
def bagOut (d : List Byte) (n : Nat) (acc : List Int) : List Int × Nat :=
  let sh := 15 + bdShift d
  let r (a : Int) : Int :=
    if bdPool d = 2 then (if n = 0 then 0 else divRound a (n * 2 ^ sh) (bdMode d)) else rnd a sh (bdMode d) 0
  (acc.map (fun a => satT (r a) (bdType d)), (acc.filter (fun a => !(inT (r a) (bdType d)))).length)

/-- Free bytes over a batch's rows that are not written (R351, R355). -/
def DieState.spoilBatch (D : DieState) (B : Batch) (n : Nat) : DieState :=
  ((List.range (bdBags B.desc)).filter (fun i => !B.ready.contains i)).foldl (fun (D : DieState) i =>
    let a := field B.desc 40 8 + i * field B.desc 48 4
    let bs := (List.range n).map (fun j => Config.freeByte (4 * (D.fresh + j) + D.num))
    if D.isLocal a then execM (localWrite (fgrCtx B.inst) (gLocal a) bs) { D with fresh := D.fresh + n } else D) D

/-- The tags of a batch's outstanding requests are given up. -/
def DieState.dropBatchTags (D : DieState) (id : Nat) : DieState :=
  let mine (e : TagEntry) : Bool := match e.use with
    | .pool b _ _ => b == id | .bagWrite b => b == id | .paramRead b _ => b == id | _ => false
  (D.fab.tags.filter mine).foldl (fun D e => D.bumpTag e)
    { D with fab := { D.fab with tagWait := D.fab.tagWait.filter (fun e => !mine e) } }

/-- A batch leaves the forager. -/
def DieState.removeBatch (D : DieState) (B : Batch) : DieState :=
  let D := D.dropBatchTags B.cmd
  let D := D.onFgr (fun f => { f with batches := f.batches.filter (fun x => x.cmd != B.cmd)
                                      shares := f.shares.filter (fun x => x.batch != B.cmd) })
  match B.table with
  | some (t, b) => D.settleSlot t b
  | none => D.settleReleases

/-- A batch ends with a fault or a refusal: no seal; what is not written is undefined. -/
def DieState.failBatch (D : DieState) (id : Nat) (st : Status) : DieState :=
  match D.batchOf id with
  | none => D
  | some B =>
    let n := B.d (D.batchSlot B) * (bdType B.desc).width / 8
    ((D.spoilBatch B n).removeBatch B).replyId id st

/-- Write output bytes of a batch: locally, or over the ring or the fabric (R349, R352). -/
def batchWrite (B : Batch) (a : Nat) (bs : List Byte) : M Unit := do
  let D ← get
  if gReserved a ≠ 0 then failWith .faultBounds
  else if D.isLocal a then localWrite (fgrCtx B.inst) (gLocal a) bs
  else (packetPieces a bs.length).forM (fun p => do
    let D ← get
    match D.request { kind := pkWrite, dstNode := gNode a, dstDie := gDie a, inst := B.inst, addr := p.1, length := p.2
                      body := (bs.drop (p.1 - a)).take p.2 } (.bagWrite B.cmd) with
    | .ok D => set (D.mapBatch B.cmd (fun B => { B with writes := B.writes + 1 }))
    | .error st => failWith st)

/-- The row and the defaulted count of a bag whose partials are all in (R352). -/
def finishBag (B : Batch) (g : Bag) : M Unit := do
  let r := bagOut B.desc g.n g.acc
  batchWrite B (field B.desc 40 8 + g.num * field B.desc 48 4) (packRow (bdType B.desc) r.1)
  if field B.desc 56 8 ≠ 0 then batchWrite B (field B.desc 56 8 + g.num) (toLE 1 g.defaulted) else pure ()
  onD (fun D => D.mapBatch B.cmd (fun B => { B with
    bags := B.bags.filter (fun x => x.num != g.num), ready := B.ready ++ [g.num]
    defaulted := B.defaulted + g.defaulted, sat := B.sat || r.2 != 0 }))
  onD (fun D => D.count B_FGR FGR_BAGS)
  if r.2 ≠ 0 then onD (fun D => (D.count32 B_FGR FGR_SAT_COUNT r.2).cause B_FGR 5) else pure ()

/-- Finish a bag if nothing is outstanding. -/
def DieState.settleBag (D : DieState) (id num : Nat) : DieState :=
  match D.batchOf id with
  | none => D
  | some B => match B.bags.find? (fun g => g.num == num) with
    | none => D
    | some g =>
      if g.shares ≠ 0 then D
      else match runM (finishBag B g) D with
        | (.ok _, D) => D
        | (.error f, D) => D.failBatch id f.status

/-- Reply space in use: 8d + 16 for each share sent (R355). -/
def DieState.replySpace (D : DieState) : Nat :=
  (D.fgr.shares.map (fun s => if s.waiting then 0 else
    match D.batchOf s.batch with | some B => 8 * B.d (D.batchSlot B) + 16 | none => 0)).foldl (· + ·) 0

/-- Send a share that has room for its reply; it ends its batch, or asks for the other replica, when it cannot leave. -/
def DieState.sendShare (D : DieState) (s : PoolShare) (B : Batch) : Except Status DieState :=
  let x := D.batchSlot B
  let w := if tbHashed x.desc then 8 else 4
  let t := match B.table with | some (t, _) => t | none => 0
  let body := poolBody B.version (tbD x.desc) s.keys.length w (bdPool B.desc) s.bag s.keys s.weights
  match D.request { kind := pkPoolReq, dstNode := s.die / 4, dstDie := s.die % 4, inst := B.inst, length := body.length
                    aux := t, body := body } (.pool s.batch s.bag s.part) with
  | .error st => .error st
  | .ok D =>
    let sent (y : PoolShare) : PoolShare := if y.batch = s.batch ∧ y.part = s.part then { y with waiting := false } else y
    .ok ((D.onFgr (fun f => { f with shares := f.shares.map sent })).count B_FGR FGR_POOL_SENT)

/-- Group indices by the die that serves them, in order of first use. -/
def groupShares : List (Nat × Nat × Int) → List (Nat × List (Nat × Int)) → List (Nat × List (Nat × Int))
  | [], acc => acc
  | (k, key, w) :: rest, acc =>
    groupShares rest (if acc.any (fun e => e.1 == k)
      then acc.map (fun e => if e.1 = k then (k, e.2 ++ [(key, w)]) else e) else acc ++ [(k, [(key, w)])])

/-- Add the shares of a bag: one request for each serving die (R353), so that indices join a share of the bag that has not been
sent to that die yet. why: how the first replica failed. -/
def DieState.addShares (D : DieState) (id bag : Nat) (why : Option Status) (gs : List (Nat × List (Nat × Int))) : DieState :=
  gs.foldl (fun (D : DieState) e =>
    match D.batchOf id with
    | none => D
    | some B =>
      let open_ (y : PoolShare) : Bool := y.batch == id && y.bag == bag && y.die == e.1 && y.why == why && y.waiting
      if D.fgr.shares.any open_ then
        let join (y : PoolShare) : PoolShare :=
          if open_ y then { y with keys := y.keys ++ e.2.map (·.1), weights := y.weights ++ e.2.map (·.2) } else y
        D.onFgr (fun f => { f with shares := f.shares.map join })
      else
        let s : PoolShare := { batch := id, bag := bag, part := B.nextPart, die := e.1, why := why
                               keys := e.2.map (·.1), weights := e.2.map (·.2) }
        let more (g : Bag) : Bag := if g.num = bag then { g with shares := g.shares + 1 } else g
        (D.mapBatch id (fun B => { B with nextPart := B.nextPart + 1, bags := B.bags.map more })).onFgr
          (fun f => { f with shares := f.shares ++ [s] })) D

/-- A share's answer is a failure, or it could not be sent at all: once to the other replica, else the batch ends (R353, R355,
R356, R363, R390). Only what was sent is a resend. -/
def DieState.shareFailed (D : DieState) (s : PoolShare) (st : Status) (sent : Bool := true) : DieState :=
  match D.batchOf s.batch with
  | none => D
  | some B =>
    let x := D.batchSlot B
    let D := D.onFgr (fun f => { f with shares := f.shares.filter (fun y => !(y.batch == s.batch && y.part == s.part)) })
    let less (g : Bag) : Bag := if g.num = s.bag then { g with shares := g.shares - 1 } else g
    let D := D.mapBatch s.batch (fun B => { B with bags := B.bags.map less })
    let other (k : Nat) : Option Nat := match tbGranule x.desc k with
      | some g => ((tbReplicas x.shards g).find? (fun r => r.1 != s.die)).map (·.1)
      | none => none
    if st == .refusedRole || st == .faultStaleGeneration then D.failBatch s.batch st
    else match s.why with
      | some w => D.failBatch s.batch (if w = .faultUncorrectable then w else .faultTimeout)
      | none =>
        if s.keys.any (fun k => (other k).isNone) then D.failBatch s.batch st
        else
          let gs := groupShares ((s.keys.zip s.weights).map (fun e => ((other e.1).getD 0, e.1, e.2))) []
          let D := D.addShares s.batch s.bag (some st) gs
          if sent then (D.count32 B_FGR FGR_FAILOVERS gs.length).cause B_FGR 3 else D

/-- Send the shares that wait, oldest first, while reply space lasts (R355). -/
def DieState.pumpShares (D : DieState) : Nat → DieState
  | 0 => D
  | fuel + 1 =>
    match D.fgr.shares.find? (fun s => s.waiting) with
    | none => D
    | some s => match D.batchOf s.batch with
      | none => D
      | some B =>
        if stagingSize - D.hotUsed < D.replySpace + 8 * B.d (D.batchSlot B) + 16 then D
        else match D.sendShare s B with
          | .ok D => D.pumpShares fuel
          | .error st => (D.shareFailed s st false).pumpShares fuel

def DieState.pump (D : DieState) : DieState := D.pumpShares (4 * D.fgr.shares.length + 4)

/-- One index of a bag at the requesting die (R353): its row here, or the die that serves it. -/
inductive Served1 where
  | here (row : List Byte) (defaulted : Bool)
  | there (die : Nat)

/-- Can a request of this die leave for a die now (R23, R500)? -/
def DieState.reachable (D : DieState) (k : Nat) : Bool :=
  if k / 4 = D.fab.node then k % 4 == D.num || (ringModule D.d2d.links D.num (k % 4)).isSome else !D.fab.quarantined

/-- The die that serves a granule (R353): this die if it holds a replica, else replica 0, else, when that is unreachable,
replica 1; with its granule slot. -/
def DieState.servingDie (D : DieState) (x : TabSlot) (g : Nat) : Option (Nat × Nat) :=
  let rs := tbReplicas x.shards g
  match rs.find? (fun r => r.1 == D.me) with
  | some r => some r
  | none => match rs.find? (fun r => D.reachable r.1) with
    | some r => some r
    | none => rs.head?

/-- Decide one index of a table batch. -/
def resolve (t : Nat) (b : Bool) (x : TabSlot) (k : Nat) : M Served1 := do
  let D ← get
  match tbGranule x.desc k with
  | none => pure (.here (← defaultRow x) true)
  | some g =>
    match firstIdx (fun h => h == k) x.hotKeys 0 with
    | some i => do
      onD (fun D => D.count B_FGR FGR_HOT_HITS)
      pure (.here (← hotRead x i) (x.hotMiss.contains i))
    | none =>
      match D.servingDie x g with
      | none => pure (.here (← defaultRow x) true)
      | some r =>
        if r.1 ≠ D.me then pure (.there r.1)
        else match ← fetchRow t b x r.2 k with
          | some bs => pure (.here bs false)
          | none => pure (.here (← defaultRow x) true)

/-- A comb source's row for a key (R347); the flag: the key is absent. -/
def combRow (B : Batch) (b : CombBuf) (k : Nat) : M (List Int × Bool) := do
  let n := field B.desc 70 2
  let none' : List Int × Bool := (List.replicate n 0, true)
  let size := 2 ^ cdLg b.desc
  if bit k 63 then pure none' else do
    let p ← memProbe (fgrCtx B.inst) (b.base + b.lay.hash) k (homeBucket k (cdMult b.desc) (cdLg b.desc)) size size 0
    match p with
    | .row r => do
      let bytes := n * (bdElem B.desc).width / 8
      onD (fun D => D.count B_FGR FGR_ROW_FETCHES (ceilDiv bytes 64))
      let bs ← paramRead B.cmd true (fgrCtx B.inst) (field B.desc 72 8 + r * field B.desc 80 4) bytes
      pure (rowElems (bdElem B.desc) n bs, false)
    | _ => pure none'

/-- The indices and weights of bag i (R350). -/
def readBag (B : Batch) (hashed : Bool) (i : Nat) : M (List (Nat × Int)) := do
  let w := if hashed then 8 else 4
  let weighted := bdPool B.desc == 0
  let rd (a n : Nat) : M (List Byte) := if n = 0 then pure [] else paramRead B.cmd true (fgrCtx B.inst) a n
  let pick (ks ws : List Byte) (n : Nat) : List (Nat × Int) :=
    (List.range n).map (fun j => (field ks (w * j) w, if weighted then ifield ws (2 * j) 2 else 32768))
  if bdLayout B.desc = 1 then do
    let n := bdFixed B.desc
    let len := n * w + (if weighted then 2 * n else 0)
    let r ← rd (field B.desc 16 8 + i * len) len
    pure (pick r (r.drop (n * w)) n)
  else do
    let e ← rd (field B.desc 16 8 + 8 * i) 8
    let n := field e 4 1
    guardS (n ≤ 64) .faultFormat
    let ks ← rd (field B.desc 24 8 + w * field e 0 4) (w * n)
    let ws ← if weighted then rd (field B.desc 32 8 + 2 * field e 0 4) (2 * n) else pure []
    pure (pick ks ws n)

/-- Begin bag i of a batch: its local terms, and its shares (R353). -/
def beginBag (id i : Nat) : M Unit := do
  let D ← get
  match D.batchOf id with
  | none => pure ()
  | some B =>
    let x := D.batchSlot B
    let zero : List Int := List.replicate (B.d x) 0
    match B.table, B.comb with
    | some (t, b), _ => do
      let es ← readBag B (tbHashed x.desc) i
      let step (st : List Int × Nat × List (Nat × Nat × Int)) (e : Nat × Int) : M (List Int × Nat × List (Nat × Nat × Int)) := do
        match ← resolve t b x e.1 with
        | .here row d => pure (addScaled st.1 e.2 (tbValues x.desc row), st.2.1 + b2n d, st.2.2)
        | .there k => pure (st.1, st.2.1, st.2.2 ++ [(k, e.1, e.2)])
      let r ← es.foldlM step (zero, 0, [])
      onD (fun D => (D.countDefaults r.2.1).mapBatch id (fun B => { B with
        bags := B.bags ++ [{ num := i, n := es.length, acc := r.1, defaulted := r.2.1, shares := 0 }] }))
      onD (fun D => D.addShares id i none (groupShares r.2.2 []))
    | none, some (tg, k) => do
      let es ← readBag B true i
      let step (st : List Int × Nat) (e : Nat × Int) : M (List Int × Nat) := do
        let r ← combRow B (D.combBuf tg k) e.1
        pure (addScaled st.1 e.2 r.1, st.2 + b2n r.2)
      let r ← es.foldlM step (zero, 0)
      onD (fun D => (D.countDefaults r.2).mapBatch id (fun B => { B with
        bags := B.bags ++ [{ num := i, n := es.length, acc := r.1, defaulted := r.2, shares := 0 }] }))
    | none, none => pure ()

/-- The next bag of a batch is on its way: the answers that it was read from are used up. -/
def DieState.bagBegun (D : DieState) (id : Nat) : DieState :=
  (D.mapBatch id (fun B => { B with next := B.next + 1 })).mapCmd id (fun c => { c with answers := [] })

/-- Work through the bags of a batch, in order, until it ends or a bag waits for bytes of another die or package. -/
def DieState.runBags (D : DieState) (id : Nat) : Nat → DieState
  | 0 => D.pump
  | fuel + 1 => match D.batchOf id with
    | none => D.pump
    | some B =>
      if bdBags B.desc ≤ B.next then D.pump
      else match runM (beginBag id B.next) D with
        | (.ok _, D') => ((D'.bagBegun id).settleBag id B.next).runBags id fuel
        | (.error f, D') => match f.need with
          | some (g, n) => (D.askParam id B.inst g n).pump
          | none => (D'.failBatch id f.status).pump

/-- A batch goes on. -/
def DieState.goOn (D : DieState) (id : Nat) : DieState :=
  match D.batchOf id with
  | none => D
  | some B => D.runBags id (bdBags B.desc)

/-! ## Order of work (R41, R356, R368, R370) -/

/-- Does a pool request of another die wait? It goes first. -/
def DieState.poolWaits (D : DieState) : Bool := D.fab.inbox.any (fun p => p.kind == pkPoolReq)

/-- Does a lookup wait: a pool request, or a TABLE_LOOKUP that is next to be carried out? Updates and prefetches come after. -/
def DieState.lookupWaits (D : DieState) : Bool :=
  D.poolWaits || D.cmd.cmds.any (fun c => c.op == 0x0302 && c.phase == .ready)

/-- Does an update wait at this primary? A prefetch comes after. -/
def DieState.updateWaits (D : DieState) : Bool := D.fgr.works.any (fun w => !w.applied)

/-- Forager commands accepted and not complete (R370). -/
def DieState.fgrCommands (D : DieState) : Nat :=
  (D.cmd.cmds.filter (fun c => 0x0300 ≤ c.op && c.op ≤ 0x0304 && (match c.phase with | .running => true | _ => false))).length

/-- Field checks of a batch descriptor (R349, R351). -/
def batchOk (c : Cmd) : M Unit := do
  let d := c.params
  let comb := field d 0 2 == 0xFFFF
  let dd := if comb then field d 70 2 else 0
  okField (comb || field d 0 2 < 1024) 0
  okField (64 ≤ d.length && (!comb || 96 ≤ d.length)) 0
  okField (bdLayout d ≤ 1) 2
  okField (bdPool d ≤ 2) 3
  okField (1 ≤ bdBags d && bdBags d ≤ 2 ^ 24) 4
  okField (if bdLayout d = 1 then 1 ≤ bdFixed d && bdFixed d ≤ 64 else bdFixed d == 0) 8
  okField (1 ≤ field d 9 1 && field d 9 1 ≤ 3) 9
  okField (bdShift d ≤ 31) 10
  okField (field d 11 1 ≤ 2) 11
  okField (!bit (bdSeal d) 24 || refOk (bdSeal d)) 12
  okField (zeros d 52 4) 52
  okField (!comb || (field d 64 2 < 8 && field d 66 1 < 4 && 1 ≤ field d 68 1 && field d 68 1 ≤ 3 && zeros d 69 1
    && 1 ≤ dd && dd ≤ 256 && zeros d 84 12)) 64

/-- TABLE_LOOKUP up to acceptance (R348, R351, R361, R370). -/
def tableLookup (rivals : List Nat) (c : Cmd) : M (Option (List Byte)) := do
  batchOk c
  let D ← get
  let d := c.params
  let t := field d 0 2
  let stride (n : Nat) : Bool := field d 48 4 % 4 == 0 && n * (bdType d).width / 8 ≤ field d 48 4
  if t = 0xFFFF then
    let tg := field d 64 2
    let k := field d 66 1
    okField (stride (field d 70 2)) 48
    guardS (cdOwner (D.combPlate tg) != 0 && cdOwner (D.combPlate tg) == c.inst) .refusedRole
    guardS ((D.combBuf tg k).phase == .published && (D.combBuf tg k).gen == field d 67 1) .faultStaleGeneration
    claim 10 160 (256 - D.fgrCommands) c.queue rivals
    onD (fun D => (D.started c.id).onFgr (fun f => { f with batches := f.batches ++
      [{ cmd := c.id, inst := c.inst, desc := padTo 96 d, table := none, comb := some (tg, k) }] }))
  else match D.tableOf t with
    | none => badField 0
    | some x => do
      okField (D.serves t) 0
      okField (stride (tbD x.1)) 48
      guardS (tbOwner x.1 == c.inst) .refusedRole
      claim 10 160 (256 - D.fgrCommands) c.queue rivals
      match D.activeSlot t with
      | none => failWith .faultStaleGeneration
      | some b => onD (fun D => (D.started c.id).onFgr (fun f => { f with batches := f.batches ++
          [{ cmd := c.id, inst := c.inst, desc := padTo 96 d, table := some (t, b), version := (D.slotOf t b).version }] }))
  pure none

/-- LOOKUP_BATCH_COMPLETE: every row is visible, so the seal is signalled and the reply sent (R352). -/
def DieState.batchComplete (D : DieState) (id : Nat) : DieState :=
  match D.batchOf id with
  | none => D
  | some B =>
    match B.bad with
    | some st => D.failBatch id st
    | none =>
      if B.ready.length ≠ bdBags B.desc ∨ B.writes ≠ 0 then D
      else
        let D := if bit (bdSeal B.desc) 24 then D.jobSignal (bdSeal B.desc) 1 else D
        (D.removeBatch B).replyId id .ok 0
          (toLE 4 B.ready.length ++ toLE 4 B.defaulted ++ toLE 4 (b2n B.sat) ++ toLE 4 B.version)

/-- The share a tag stands for. -/
def DieState.shareOf (D : DieState) (batch part : Nat) : Option PoolShare :=
  D.fgr.shares.find? (fun s => s.batch == batch && s.part == part)

/-- A partial has come (R353). -/
def DieState.poolAnswer (D : DieState) (batch bag part : Nat) (p : Packet) : DieState :=
  let D := D.onFgr (fun f => { f with shares := f.shares.filter (fun s => !(s.batch == batch && s.part == part)) })
  let add (g : Bag) : Bag :=
    if g.num ≠ bag then g
    else { g with acc := addScaled g.acc 1 ((List.range g.acc.length).map (fun j => ifield p.body (8 * j) 8))
                  defaulted := g.defaulted + p.addr / 2 ^ 32 % 256, shares := g.shares - 1 }
  ((D.mapBatch batch (fun B => { B with bags := B.bags.map add })).settleBag batch bag).pump

/-- An acknowledgement or refusal of an output write (R352). -/
def DieState.bagAck (D : DieState) (id status : Nat) : DieState :=
  D.mapBatch id (fun B => { B with
    writes := B.writes - 1
    bad := if status = 0 ∨ B.bad.isSome = true then B.bad else some ((Status.ofCode status).getD .faultTimeout) })

/-! ## Loading (R344, R357, R358, R360, R502) -/

/-- TABLE_LOAD up to acceptance. Parameters: table U16, slot U8, hot destination U8 (0 staging, 1 stacked memory),
version U32, region base U64, granule slots U32, hot count U32, hot list address U64, hot destination U64, release
seal U32. -/
def tableLoad (rivals : List Nat) (c : Cmd) : M (Option (List Byte)) := do
  let D ← get
  let t := c.p 0 2
  okField (t < 1024 && D.serves t) 0
  match D.tableOf t with
  | none => badField 0
  | some w => do
    let b := c.p 2 1 == 1
    okField (c.p 2 1 ≤ 1) 2
    okField (c.p 3 1 ≤ 1) 3
    okField (c.p 4 4 != 0 && (D.slotOf t (!b)).version != c.p 4 4) 4
    okField (c.p 8 8 % 4096 == 0) 8
    okField (c.p 16 4 ≤ 65536) 16
    okField (c.p 20 4 ≤ tbHot w.1) 20
    okField (!bit (c.p 40 4) 24 || refOk (c.p 40 4)) 40
    guardS (tbOwner w.1 == c.inst) .refusedRole
    claim 10 160 (256 - D.fgrCommands) c.queue rivals
    guardS ((D.slotOf t b).state == 0) .faultStaleGeneration
    let kw := if tbHashed w.1 then 8 else 4
    let n := c.p 20 4
    let list ← if n = 0 then pure [] else paramRead c.id c.stacked c.ctx (c.p 24 8) (kw * n)
    let x : TabSlot :=
      { state := 1, version := c.p 4 4, base := c.p 8 8, granules := c.p 16 4, desc := w.1, shards := w.2.1, serving := w.2.2
        hotKeys := (List.range n).map (fun i => field list (kw * i) kw), hotStaging := n != 0 && c.p 3 1 == 0
        hotAt := c.p 32 8, release := c.p 40 4, load := some c.id }
    onD (fun D => (D.started c.id).setSlot t b x)
    pure none

/-- Do two hot areas overlap, in the staging buffer or in stacked memory (R358)? -/
def hotOverlap (x y : TabSlot) : Bool :=
  x.hotStaging == y.hotStaging && !x.hotKeys.isEmpty && !y.hotKeys.isEmpty
  && decide (x.hotAt < y.hotAt + y.hotSize) && decide (y.hotAt < x.hotAt + x.hotSize)

/-- The checks of a load (R344, R358, R360): region bounds, hot area, buckets. -/
def loadCheck (t : Nat) (b : Bool) (x : TabSlot) : M Unit := do
  let D ← get
  let others := (D.fgr.tables.flatMap (fun e =>
    (if e.1 = t ∧ b = false then [] else [e.2.a]) ++ (if e.1 = t ∧ b = true then [] else [e.2.b]))).filter (fun y => y.state != 0)
  let used := ((List.range (tbEntries x.desc)).flatMap (tbReplicas x.shards)).filter (fun r => r.1 == D.me)
  guardS (D.inRegions (tbOwner x.desc) x.base (slotSize x) && used.all (fun r => r.2 < x.granules)) .faultBounds
  guardS (!x.hotStaging || (decide (x.hotAt + x.hotSize ≤ stagingSize))) .faultBounds
  guardS (!(others.any (hotOverlap x))) .faultBounds
  guardS (x.hotStaging || x.hotKeys.isEmpty || D.inRegions (tbOwner x.desc) x.hotAt x.hotSize) .faultBounds
  if tbHashed x.desc then do
    let _ ← (List.range x.granules).mapM (fun i => do
      let es ← (List.range (2 ^ tbGb x.desc)).mapM (fun j => stackRead (fgrCtx (tbOwner x.desc)) (bucketAddr x i j) 16)
      let full := es.filter (fun e => field e 0 8 != emptyKey)
      guardS (full.length ≤ 2 ^ (tbGb x.desc - 1) && full.all (fun e => field e 8 4 < 2 ^ tbG x.desc)) .faultFormat)
    pure ()
  else pure ()

/-- Build the hot copy and its index (R357): a row held here from its granule, another die's as far supplies it (no bytes: it has
missed there), an invalid or missed one from the default row; the places of the list that hold the default row. -/
def buildHot (t : Nat) (b : Bool) (x : TabSlot) (far : List (List Byte)) : M (List Nat) := do
  let D ← get
  let misses ← (List.range x.hotKeys.length).mapM (fun i => do
    let k := x.hotKeys.getD i 0
    let row : Option (List Byte) ← match tbGranule x.desc k with
      | none => pure none
      | some g => match (tbReplicas x.shards g).find? (fun r => r.1 == D.me) with
        | some r => fetchRow t b x r.2 k
        | none => pure (if (far.getD i []).isEmpty then none else some (padTo (tbStride x.desc) (far.getD i [])))
    match row with
    | some bs => do
      hotWrite x i bs
      pure []
    | none => do
      hotWrite x i (← defaultRow x)
      pure [i])
  hotIndex x
  pure misses.flatten

/-- A TABLE_LOAD has ended in a fault (R360, R376). -/
def DieState.loadFailed (D : DieState) (owner t : Nat) (st : Status) : DieState :=
  (D.cause B_FGR 2).event { cls := 9, code := 0x02, island := 26, inst := some owner, loc := t, status := st.code }

/-- TABLE_LOAD_DONE. -/
def DieState.loadDone (D : DieState) (t : Nat) (b : Bool) (far : List (List Byte)) : DieState :=
  let x := D.slotOf t b
  match x.load with
  | none => D
  | some id =>
    if x.state ≠ 1 then D
    else match runM (do loadCheck t b x; buildHot t b x far) D with
      | (.ok misses, D) =>
        let named := match D.tableOf t with | some w => tbVersion w.1 == x.version | none => false
        let st := if named && (D.activeSlot t).isNone then 3 else 2
        (D.setSlot t b { x with state := st, load := none, hotMiss := misses }).replyId id .ok
      | (.error f, D) => ((D.setSlot t b {}).loadFailed (tbOwner x.desc) t f.status).replyId id f.status f.reason

/-- The slot of die d of this package that holds a version of a table, if the die runs. -/
def State.slotAt (s : State) (d t version : Nat) : Option (Bool × TabSlot) :=
  let D := quadGet s.dies d
  if D.boot.held then none
  else (D.findSlot t (fun x => x.state != 0 && x.version == version)).map (fun b => (b, D.slotOf t b))

/-- Row k of a hot list at die d: from the die of this package that holds it under the version, else as far gives it (R357; log
entry 96). -/
def State.hotRow (s : State) (d t : Nat) (x : TabSlot) (k : Nat) (far : List Byte) : State × List Byte :=
  let D := quadGet s.dies d
  let rs := match tbGranule x.desc k with | some g => tbReplicas x.shards g | none => []
  if rs.any (fun r => r.1 == D.me) then (s, [])
  else match rs.find? (fun r => r.1 / 4 == D.fab.node && (s.slotAt (r.1 % 4) t x.version).isSome) with
    | none => (s, far)
    | some r => match s.slotAt (r.1 % 4) t x.version with
      | none => (s, far)
      | some (b, y) =>
        match runM (fetchRow t b y r.2 k) (quadGet s.dies (r.1 % 4)) with
        | (.ok row, T) => ({ s with dies := quadMod s.dies (r.1 % 4) (fun _ => T) }, row.getD [])
        | (.error _, T) => ({ s with dies := quadMod s.dies (r.1 % 4) (fun _ => T) }, far)

/-- The rows of a slot's hot list that this die does not hold. -/
def State.hotRows (s : State) (d t : Nat) (x : TabSlot) (far : List (List Byte)) : State × List (List Byte) :=
  (List.range x.hotKeys.length).foldl (fun (st : State × List (List Byte)) i =>
    let r := st.1.hotRow d t x (x.hotKeys.getD i 0) (far.getD i [])
    (r.1, st.2 ++ [r.2])) (s, [])

/-- TABLE_LOAD_DONE of a die of the package. -/
def State.loadDone (s : State) (a : At) (t : Nat) (b : Bool) (far : List (List Byte)) : State :=
  let s := s.atDie a (fun D => D)
  let x := (s.die a.die).slotOf t b
  let r := if x.state = 1 then s.hotRows a.die t x far else (s, [])
  r.1.onDie a.die (fun D => D.loadDone t b r.2)

/-- TABLE_UNLOAD. -/
def tableUnload (c : Cmd) : M (List Byte) := do
  let D ← get
  let t := c.p 0 2
  okField (t < 1024) 0
  okField (c.p 2 1 ≤ 1) 2
  let b := c.p 2 1 == 1
  let held := D.slotOf t b
  match (if held.state = 0 then (D.tableOf t).map (·.1) else some held.desc) with
  | none => failWith .faultStaleGeneration
  | some d => do
    guardS (tbOwner d == c.inst) .refusedRole
    guardS (held.state == 2) .faultStaleGeneration
    onD (fun D => (D.onFgr (fun f => { f with
      prefetch := f.prefetch.filter (fun p => !(p.table == t && p.slotB == b)) })).setSlot t b {})
    pure []

/-- TABLE_STATUS. -/
def tableStatus (c : Cmd) : M (List Byte) := do
  let D ← get
  let t := c.p 0 2
  okField (t < 1024) 0
  pure (toLE 1 (D.slotOf t false).state ++ toLE 1 (D.slotOf t true).state ++ toLE 2 0
    ++ toLE 4 (D.slotOf t false).version ++ toLE 4 (D.slotOf t true).version
    ++ toLE 2 (D.inflight t false) ++ toLE 2 (D.inflight t true))

/-! ## Prefetch (R359) -/

/-- Bytes of the prefetch area, and what its rows occupy. -/
def DieState.prefetchArea (D : DieState) : Nat := stagingSize - D.hotUsed
def prefetchUsed (l : List Prefetched) : Nat := (l.map (fun p => p.bytes.length)).foldl (· + ·) 0

/-- Put a row into the prefetch area; the oldest make room (R359). -/
def DieState.prefetchPut (D : DieState) (p : Prefetched) : Nat → DieState
  | 0 => D
  | fuel + 1 =>
    if prefetchUsed D.fgr.prefetch + p.bytes.length ≤ D.prefetchArea then
      D.onFgr (fun f => { f with prefetch := f.prefetch ++ [p] })
    else match D.fgr.prefetch with
      | [] => D
      | _ :: rest => ((D.onFgr (fun f => { f with prefetch := rest })).count B_FGR FGR_PREFETCH_DROPS).prefetchPut p fuel

/-- Fetch the row of an index that this die holds into the prefetch area. -/
def DieState.prefetchRow (D : DieState) (t : Nat) (b : Bool) (x : TabSlot) (k : Nat) : DieState :=
  match tbGranule x.desc k with
  | none => D
  | some g => match (tbReplicas x.shards g).find? (fun r => r.1 == D.me) with
    | none => D
    | some r =>
      if D.fgr.prefetch.any (fun p => p.table == t && p.slotB == b && p.key == k) then D
      else
        let m : M (Option (Nat × List Byte)) := do
          match ← findRow (fgrCtx (tbOwner x.desc)) x r.2 k with
          | none => pure none
          | some n => do
            let bs ← rowFetch x (rowAddr x r.2 n)
            pure (some (rowAddr x r.2 n, bs))
        match runM m D with
        | (.ok (some (a, bs)), D) =>
          D.prefetchPut { table := t, slotB := b, key := k, addr := a, bytes := bs } (D.fgr.prefetch.length + 1)
        | (_, D) => D

/-- An index goes to its serving die: its row is fetched here, or it is posted to another die of the package. A hot row needs no
fetch, and a posting to another package leaves no trace (R359; log entry 99). -/
def DieState.postIndex (D : DieState) (t : Nat) (b : Bool) (x : TabSlot) (k : Nat) : DieState :=
  match (tbGranule x.desc k).bind (D.servingDie x) with
  | none => D
  | some r =>
    if x.hotKeys.contains k then D
    else if r.1 = D.me then D.prefetchRow t b x k
    else if r.1 / 4 = D.fab.node then D.onFgr (fun f => { f with postings := f.postings ++ [(r.1 % 4, t, x.version, k)] })
    else D

/-- TABLE_PREFETCH: table U16, two zero bytes, count U32, address U64. -/
def tablePrefetch (rivals : List Nat) (c : Cmd) : M (List Byte) := do
  let D ← get
  let t := c.p 0 2
  okField (t < 1024 && D.serves t) 0
  okField (1 ≤ c.p 4 4 && c.p 4 4 ≤ 65536) 4
  match D.tableOf t with
  | none => badField 0
  | some w => do
    guardS (tbOwner w.1 == c.inst) .refusedRole
    claim 10 160 (256 - D.fgrCommands) c.queue rivals
    match D.activeSlot t with
    | none => failWith .faultStaleGeneration
    | some b =>
      if !bit (D.reg B_FGR FGR_CTRL) 2 then pure []
      else do
        let kw := if tbHashed w.1 then 8 else 4
        let l ← paramRead c.id c.stacked c.ctx (c.p 8 8) (kw * c.p 4 4)
        onD (fun D => (List.range (c.p 4 4)).foldl (fun D i => D.postIndex t b (D.slotOf t b) (field l (kw * i) kw)) D)
        pure []

/-- A posted index at its serving die: the row enters the prefetch area there, if that die holds the version and prefetches. -/
def State.takePosting (s : State) (p : Nat × Nat × Nat × Nat) : State :=
  match s.slotAt p.1 p.2.1 p.2.2.1 with
  | none => s
  | some (b, x) => { s with dies := quadMod s.dies p.1 (fun T =>
      if bit (T.reg B_FGR FGR_CTRL) 2 then T.prefetchRow p.2.1 b x p.2.2.2 else T) }

/-- The postings of a die are passed on. -/
def State.passPostings (s : State) (d : Die) : State :=
  (s.die d).fgr.postings.foldl (fun (s : State) p => s.takePosting p)
    (s.onDie d (fun D => D.onFgr (fun f => { f with postings := [] })))

/-! ## Draining (R362, R363) -/

/-- A drain notice has come. -/
def DieState.drainNotice (D : DieState) : DieState :=
  match D.takePkt (· == pkDrain) with
  | none => D
  | some (p, D) =>
    let t := field p.body 0 4
    let from_ := p.srcNode * 4 + p.srcDie
    match D.findSlot t (fun s => s.state != 0 && s.version == field p.body 4 4) with
    | none => D
    | some b =>
      let x := D.slotOf t b
      let x := if x.notices.contains from_ then x else { x with notices := x.notices ++ [from_] }
      (D.setSlot t b x).settleSlot t b

/-- DRAIN_TIMEOUT of a table: one record for each die that did not answer (log entry 101). -/
def DieState.drainTimeout (D : DieState) (t : Nat) : DieState :=
  match D.findSlot t (fun s => s.state == 4) with
  | none => D
  | some b =>
    let x := D.slotOf t b
    if D.now < x.switched + tbDrainMs x.desc * 1000000 then D
    else
      let missing := (tbServers x.desc x.serving).filter (fun k => !x.notices.contains k)
      (missing.foldl (fun (D : DieState) k => D.event
        { cls := 9, code := 0x01, island := 26, inst := some (tbOwner x.desc), loc := t, ident := k
          count := min missing.length 65535 }) (D.cause B_FGR 1)).freeSlot t b

/-! ## Instance reset (R371) -/

/-- The instance's batches end and its tables' slots empty; its commands are replied to by the reset. Records that came from
another die end here, and that die hears of it. -/
def DieState.fgrReset (D : DieState) (inst : Nat) : DieState :=
  let D := (D.fgr.batches.filter (fun B => B.inst == inst)).foldl (fun (D : DieState) B =>
    (D.dropBatchTags B.cmd).onFgr (fun f => { f with
      batches := f.batches.filter (fun x => x.cmd != B.cmd), shares := f.shares.filter (fun x => x.batch != B.cmd) })) D
  let cmds := (D.cmd.cmds.filter (fun c => c.inst == inst)).map (·.id)
  let D := D.onFgr (fun f => { f with
    updates := f.updates.filter (fun u => !cmds.contains u.cmd)
    works := (f.works.filter (fun w => w.inst != inst || w.src != D.num)).map (fun w =>
      if w.inst = inst then { w with applied := true, pushes := 0, bad := some .refusedInstanceReset } else w) })
  (D.fgr.tables.map (·.1)).foldl (fun (D : DieState) t =>
    [false, true].foldl (fun (D : DieState) b =>
      let x := D.slotOf t b
      if x.state ≠ 0 ∧ tbOwner x.desc = inst then
        let D := D.onFgr (fun f => { f with prefetch := f.prefetch.filter (fun p => !(p.table == t && p.slotB == b)) })
        (if x.state = 4 then D.cause B_FGR 0 else D).setSlot t b {}
      else D) D) D

/-! ## Rows -/

/-- TABLE_LOAD. -/
def execTableLoad (a : At) (id : Nat) (rivals : List Nat) (s : State) : Out :=
  onDie a s (fun D => D.runCmd 0x0300 id (fun c D => D.withParams c.id c.inst (tableLoad rivals c) (fun r D => match r with
    | .ok _ => D
    | .error f => (if f.status.isFault then D.loadFailed c.inst (c.p 0 2) f.status else D).reply c f.status f.reason)))
/-- TABLE_LOAD_DONE. far: rows of the hot list that dies of other packages hold, by position in the list. -/
def execTableLoadDone (a : At) (table : Nat) (slotB : Bool) (far : List (List Byte)) (s : State) : Out :=
  if (s.die a.die).boot.held then .next s else .next (s.loadDone a table slotB far)
/-- TABLE_UNLOAD. -/
def execTableUnload (a : At) (id : Nat) (s : State) : Out :=
  onDie a s (fun D => D.runCmd 0x0301 id (fun c D => D.replyM c (tableUnload c)))
/-- TABLE_LOOKUP. Pool requests of other dies go first (R356, R370). -/
def execTableLookup (a : At) (id : Nat) (rivals : List Nat) (s : State) : Out :=
  onDie a s (fun D => if D.poolWaits then D else
    D.runCmd 0x0302 id (fun c D => (D.replyOpt c (tableLookup rivals c)).goOn c.id))
/-- LOOKUP_BATCH_COMPLETE. -/
def execLookupBatchComplete (a : At) (id : Nat) (s : State) : Out := onDie a s (fun D => D.batchComplete id)
/-- TABLE_PREFETCH. Lookups and updates go first (R359, R370). -/
def execTablePrefetch (a : At) (id : Nat) (rivals : List Nat) (s : State) : Out :=
  if (s.die a.die).boot.held then .next s
  else .next ((s.atDie a (fun D => if D.lookupWaits || D.updateWaits then D else
    D.runCmd 0x0303 id (fun c D => D.replyM c (tablePrefetch rivals c)))).passPostings a.die)
/-- TABLE_STATUS. -/
def execTableStatus (a : At) (id : Nat) (s : State) : Out :=
  onDie a s (fun D => D.runCmd 0x0305 id (fun c D => D.replyM c (tableStatus c)))
/-- DRAIN_TIMEOUT. -/
def execDrainTimeout (a : At) (table : Nat) (s : State) : Out := onDie a s (fun D => D.drainTimeout table)
/-- DRAIN_NOTICE_RECEIVE. -/
def execDrainNoticeReceive (a : At) (s : State) : Out := onDie a s (fun D => D.drainNotice)
/-- POOL_REQ_RECEIVE. -/
def execPoolReqReceive (a : At) (s : State) : Out :=
  onDie a s (fun D => D.serveRequest pkPoolReq true (fun p D => D.servePool p))
/-- POOL_REPLY_RECEIVE. -/
def execPoolReplyReceive (a : At) (s : State) : Out :=
  onDie a s (fun D => match D.takePkt (· == pkPoolReply) with
    | none => D
    | some (p, D) => match D.takeTag p with
      | (some e, D) => (match e.use with | .pool b g k => D.poolAnswer b g k p | _ => D)
      | (none, D) => D)

end Sys2Proof.Machine
end

