-- ==== Sys2Proof/Machine/Update.lean ====
section
/-! DEFINITION. Refinement updates (R365-R368): TABLE_UPDATE, the update unit of a primary owner, and the pushes of
rows to their copies. -/

namespace Sys2Proof.Machine

/-- Memory context of the update unit (R440, class 0). -/
def updCtx (inst : Nat) : Ctx := { inst := inst, req := 0x08D, cls := 0 }

/-! ## Submission (R365, R366) -/

/-- Bytes of a record: its index, d deltas, and zero bytes up to a multiple of 4 (R365). -/
def recordSize (d : List Byte) : Nat := ((if tbHashed d then 8 else 4) + 2 * tbD d + 3) / 4 * 4

/-- Record i of the records' bytes. -/
def updRecord (d : List Byte) (bs : List Byte) (i : Nat) : Nat × List Int :=
  let w := if tbHashed d then 8 else 4
  let r := (bs.drop (i * recordSize d)).take (recordSize d)
  (field r 0 w, (List.range (tbD d)).map (fun j => ifield r (w + 2 * j) 2))

/-- Records by their primary owner, in order of first use; none: the index is defaulted whatever the table holds. -/
def byPrimary (x : TabSlot) : List (Nat × List Int) → List (Nat × List (Nat × List Int)) × Nat → List (Nat × List (Nat × List Int)) × Nat
  | [], acc => acc
  | r :: rest, acc =>
    byPrimary x rest (match (tbGranule x.desc r.1).bind (fun g => tbReplica x.shards g 0) with
      | none => (acc.1, acc.2 + 1)
      | some (k, _) =>
        (if acc.1.any (fun e => e.1 == k) then acc.1.map (fun e => if e.1 = k then (k, e.2 ++ [r]) else e)
         else acc.1 ++ [(k, [r])], acc.2))

/-- TABLE_UPDATE up to acceptance. Work for dies of this package stands in works with its home die; work for other
packages is answered by the operand of UPDATE_RECORDS_APPLY. -/
def tableUpdate (rivals : List Nat) (c : Cmd) : M (Option (List Byte)) := do
  let D ← get
  let t := c.p 0 2
  okField (t < 1024 && D.serves t) 0
  match D.tableOf t with
  | none => badField 0
  | some w => do
    okField (c.p 2 1 ≤ 15) 2
    okField (c.p 3 1 == 0 || c.p 3 1 == 3) 3
    okField (1 ≤ c.p 4 4 && c.p 4 4 ≤ 2 ^ 24) 4
    okField (!bit (c.p 12 4) 24 || refOk (c.p 12 4)) 12
    guardS (tbOwner w.1 == c.inst) .refusedRole
    claim 10 160 (256 - D.fgrCommands) c.queue rivals
    match D.activeSlot t with
    | none => failWith .faultStaleGeneration
    | some b => do
      let x := D.slotOf t b
      let bs ← paramRead c.id c.stacked c.ctx (c.p 16 8) (recordSize x.desc * c.p 4 4)
      let g := byPrimary x ((List.range (c.p 4 4)).map (updRecord x.desc bs)) ([], 0)
      let near := g.1.filter (fun e => e.1 / 4 == D.fab.node)
      let far := (g.1.filter (fun e => e.1 / 4 != D.fab.node)).map (·.1)
      let works : List UpdWork := near.map (fun e =>
        { home := e.1 % 4, src := D.num, cmd := c.id, inst := c.inst, table := t, slotB := b, shift := c.p 2 1
          sto := c.p 3 1 == 3, seed := c.p 8 4, records := e.2 })
      let u : Update :=
        { cmd := c.id, table := t, slotB := b, sealRef := c.p 12 4, works := works.length, skipped := g.2
          far := if D.fab.quarantined then [] else far
          bad := if D.fab.quarantined && !far.isEmpty then some .refusedPlate else none }
      onD (fun D => ((D.started c.id).countDefaults g.2).onFgr (fun f => { f with
        updates := f.updates ++ [u], works := f.works ++ works }))
      pure none

def DieState.mapUpdate (D : DieState) (id : Nat) (f : Update → Update) : DieState :=
  D.onFgr (fun s => { s with updates := s.updates.map (fun u => if u.cmd = id then f u else u) })

/-- Updates whose primaries have all finished signal their seal and are answered (R367, R368). -/
def DieState.settleUpdates (D : DieState) : DieState :=
  (D.fgr.updates.filter (fun u => u.works == 0 && u.far.isEmpty)).foldl (fun (D : DieState) u =>
    let draining := (D.slotOf u.table u.slotB).state == 4
    let D := D.onFgr (fun f => { f with updates := f.updates.erase u })
    let D := match u.bad with
      | some st => D.replyId u.cmd st
      | none =>
        let D := if bit u.sealRef 24 then D.jobSignal u.sealRef 1 else D
        D.replyId u.cmd .ok 0 (toLE 4 u.rows ++ toLE 4 u.skipped ++ toLE 4 (b2n draining))
    D.settleSlot u.table u.slotB) D

/-- A primary reports rows applied, rows skipped and a failure. -/
def Update.credit (u : Update) (rows skipped : Nat) (bad : Option Status) : Update :=
  { u with rows := u.rows + rows, skipped := u.skipped + skipped, bad := if u.bad.isSome then u.bad else bad }

/-! ## The update unit (R365, R366) -/

/-- One element: the new code, and whether it saturated. -/
def updElem (fmt : VType) (shift : Nat) (sto : Bool) (draw : Nat) (c delta : Int) : Int × Bool :=
  let r := rndShift (shl c shift + delta) shift (if sto then .sto else .rne) draw
  (satT r fmt, !(inT r fmt))

/-- The elements of a row: element j draws from lane j mod 64 under STO. -/
def updElems (fmt : VType) (shift : Nat) (sto : Bool) : List Int → List Int → Nat → List Nat → List Int × Nat × List Nat
  | [], _, _, g => ([], 0, g)
  | c :: cs, ds, j, g =>
    let e := updElem fmt shift sto (laneDraw g j) c (ds.headD 0)
    let r := updElems fmt shift sto cs ds.tail (j + 1) (if sto then laneStep g j else g)
    (e.1 :: r.1, r.2.1 + b2n e.2, r.2.2)

/-- A copy that a new row has to reach: its die, the row in granule slot i or the index in the hot copy, its bytes. -/
inductive Copy where
  | replica (die i row : Nat) (bytes : List Byte)
  | hot (die key : Nat) (bytes : List Byte)
deriving DecidableEq, Repr

def Copy.die : Copy → Nat
  | .replica d _ _ _ => d
  | .hot d _ _ => d

def Copy.bytes : Copy → List Byte
  | .replica _ _ _ b => b
  | .hot _ _ b => b

/-- Apply one record at its primary; none: a hash miss. The lanes go on. A die of this package has a hot copy if its own list
names the index; one of another package is taken to hold the primary's list (log entry 183). -/
def applyRecord (t : Nat) (b : Bool) (x : TabSlot) (w : UpdWork) (r : Nat × List Int) (g : List Nat) :
    M (Option (List Copy) × List Nat) := do
  let D ← get
  let reps := match tbGranule x.desc r.1 with | some k => tbReplicas x.shards k | none => []
  match reps.find? (fun q => q.1 == D.me) with
  | none => pure (none, g)
  | some here => do
    match ← findRow (updCtx w.inst) x here.2 r.1 with
    | none => pure (none, g)
    | some n => do
      let a := rowAddr x here.2 n
      let fmt : VType := if tbFormat x.desc = 0 then .i8 else .i4
      let old ← stackRead (updCtx w.inst) a (tbStride x.desc)
      let e := updElems fmt w.shift w.sto (rowElems fmt (tbD x.desc) (old.drop 4)) r.2 0 g
      let new := old.take 4 ++ packRow fmt e.1 ++ old.drop (4 + tbCodeBytes x.desc)
      stackWrite (updCtx w.inst) a new
      onD (fun D =>
        let D := D.count B_FGR FGR_UPDATE_ROWS
        let D := if e.2.1 = 0 then D else (D.count32 B_FGR FGR_SAT_COUNT e.2.1).cause B_FGR 5
        D.onFgr (fun f => { f with prefetch := f.prefetch.filter (fun p => !(p.table == t && p.slotB == b && p.key == r.1)) }))
      let hot := firstIdx (fun k => k == r.1) x.hotKeys 0
      match hot with
      | some i => hotWrite x i new
      | none => pure ()
      let copies := (reps.filter (fun q => q.1 != D.me)).map (fun q => Copy.replica q.1 q.2 n new)
      let hots := ((tbServers x.desc x.serving).filter (fun k => k != D.me && (k / 4 == D.fab.node || hot.isSome))).map
        (fun k => Copy.hot k r.1 new)
      pure (some (copies ++ hots), e.2.2)

/-- Apply the records of a work in order: the copies to push. -/
def applyRecords (t : Nat) (b : Bool) (x : TabSlot) (w : UpdWork) : List (Nat × List Int) → List Nat → M (List Copy × Nat × Nat)
  | [], _ => pure ([], 0, 0)
  | r :: rest, g => do
    let e ← applyRecord t b x w r g
    let z ← applyRecords t b x w rest e.2
    pure (match e.1 with
      | some cs => (cs ++ z.1, z.2.1 + 1, z.2.2)
      | none => (z.1, z.2.1, z.2.2 + 1))

/-! ## The dies of the package -/

/-- Die-local address of a copy in the slot that holds it; none: the slot's hot list does not name the index. -/
def copyAt (y : TabSlot) : Copy → Option Nat
  | .replica _ i n _ => some (rowAddr y i n)
  | .hot _ k _ => (firstIdx (fun h => h == k) y.hotKeys 0).map (fun i =>
      (if y.hotStaging then stagingBase else 0) + y.hotAt + i * tbStride y.desc)

/-- Global address of a copy (R31, R367): where the table's slot of that die puts it; none: that die has no copy. That of another
package is known to the installation and not to this model: it is free. -/
def State.copyAddr (s : State) (D : DieState) (t version : Nat) (c : Copy) : Option Nat :=
  let loc : Option Nat :=
    if c.die / 4 = D.fab.node then (s.slotAt (c.die % 4) t version).bind (fun y => copyAt y.2 c)
    else some (D.freeNat % 2 ^ 48)
  loc.map (fun l => l + (c.die % 4) * 2 ^ 50 + (c.die / 4) * 2 ^ 52)

/-- The work of command cmd of source src changes. -/
def DieState.mapWork (D : DieState) (src cmd : Nat) (f : UpdWork → UpdWork) : DieState :=
  D.onFgr (fun g => { g with works := g.works.map (fun y => if y.src = src ∧ y.cmd = cmd then f y else y) })

/-- Push a row to a copy (R367). -/
def State.pushCopy (s : State) (D : DieState) (w : UpdWork) (version : Nat) (c : Copy) : DieState :=
  match s.copyAddr D w.table version c with
  | none => D
  | some a =>
    match D.tick.request { kind := pkPush, dstNode := c.die / 4, dstDie := c.die % 4, inst := w.inst, addr := a
                           length := c.bytes.length, body := c.bytes } (.push w.src w.cmd) with
    | .ok D => D.mapWork w.src w.cmd (fun y => { y with pushes := y.pushes + 1 })
    | .error st => D.mapWork w.src w.cmd (fun y => { y with bad := some (y.bad.getD st) })

/-- Work still at the die it was submitted to goes to its home die; an unreachable one ends it (R25). -/
def State.shareWorks (s : State) : State :=
  [0, 1, 2, 3].foldl (fun (s : State) d =>
    let D := quadGet s.dies d
    (D.fgr.works.filter (fun w => w.home != d)).foldl (fun (s : State) w =>
      let T := quadGet s.dies w.home
      let s := { s with dies := quadMod s.dies d (fun D => D.onFgr (fun f => { f with works := f.works.erase w })) }
      let fail (st : Status) : State := { s with dies := quadMod s.dies d (fun D => D.mapUpdate w.cmd (fun u =>
        { u.credit 0 0 (some st) with works := u.works - 1 })) }
      if T.boot.held || (ringModule D.d2d.links d w.home).isNone then fail .faultTimeout
      else match T.findSlot w.table (fun x => x.state != 0 && x.version == (D.slotOf w.table w.slotB).version) with
        | none => fail .faultStaleGeneration
        | some b => { s with dies := quadMod s.dies w.home (fun T => T.onFgr (fun f => { f with
            works := f.works ++ [{ w with slotB := b }] })) }) s) s

/-- Finished work is reported to the die it came from, or leaves for its package (R367). -/
def State.reportWork (s : State) (d : Nat) (w : UpdWork) : State :=
  let s := { s with dies := quadMod s.dies d (fun D =>
    (D.onFgr (fun f => { f with works := f.works.erase w })).settleSlot w.table w.slotB) }
  if w.src < 4 then { s with dies := quadMod s.dies w.src (fun D => D.mapUpdate w.cmd (fun u =>
    { u.credit w.rows w.skipped w.bad with works := u.works - 1 })) }
  else { s with dies := quadMod s.dies d (fun D => D.out (.updateDone (w.src - 4) w.cmd w.rows w.skipped
    (match w.bad with | some st => st.code | none => 0))) }

/-- All finished work is reported, and the updates that wait for nothing more are answered. -/
def State.settleWorks (s : State) : State :=
  let s := [0, 1, 2, 3].foldl (fun (s : State) d =>
    ((quadGet s.dies d).fgr.works.filter (fun w => w.applied && w.pushes == 0)).foldl (fun (s : State) w =>
      s.reportWork d w) s) s
  { s with dies := quadMap (fun D => if D.boot.held then D else D.settleUpdates) s.dies }

/-- The oldest work of die d that is not yet applied (R366). Lookups go first (R41, R368, R370). -/
def State.applyWork (s : State) (a : At) : State :=
  let D := (s.die a.die).at a.time
  if D.lookupWaits then s.onDie a.die (fun _ => D)
  else match D.fgr.works.find? (fun w => !w.applied) with
    | none => s.onDie a.die (fun _ => D)
    | some w =>
      let x := D.slotOf w.table w.slotB
      let r := runM (applyRecords w.table w.slotB x w w.records (seedLanes w.seed 512)) D
      let done (rows skipped : Nat) (bad : Option Status) (D : DieState) : DieState :=
        D.onFgr (fun f => { f with works := f.works.map (fun y => if y = w then
          { y with applied := true, rows := rows, skipped := skipped, bad := bad } else y) })
      let D := match r with
        | (.ok (cs, n, k), D) =>
          let D := (done n k none D).countDefaults k
          cs.foldl (fun (D : DieState) c => s.pushCopy D w x.version c) D
        | (.error f, D) => done 0 0 (some f.status) D
      s.onDie a.die (fun _ => D)

/-- Records of another package reach their primary here: they wait behind those that came before, or are refused (R356, R361,
R366, R371). -/
def DieState.takeRecords (D : DieState) (die cmd inst t version shift : Nat) (sto : Bool) (seed : Nat)
    (recs : List (Nat × List Int)) : DieState :=
  let refuse (st : Status) : DieState := D.out (.updateDone die cmd 0 0 st.code)
  match D.findSlot t (fun x => 2 ≤ x.state && x.version == version) with
  | none => refuse .faultStaleGeneration
  | some b =>
    if D.gateClosed inst then refuse .refusedInstanceReset
    else if tbOwner (D.slotOf t b).desc ≠ inst then refuse .refusedRole
    else D.onFgr (fun f => { f with works := f.works ++
      [{ home := D.num, src := 4 + die, cmd := cmd, inst := inst, table := t, slotB := b, shift := shift, sto := sto, seed := seed
         records := recs }] })

/-- The primary of another package has answered. -/
def DieState.farAnswer (D : DieState) (cmd die rows skipped st : Nat) : DieState :=
  D.mapUpdate cmd (fun u =>
    if u.far.contains die then
      { u.credit rows skipped (if st = 0 then none else some ((Status.ofCode st).getD .faultTimeout)) with far := u.far.erase die }
    else u)

/-! ## Pushes (R367) -/

/-- A push arrives at a copy: its bytes are written under class 4 (R385), or to the staging buffer's hot area. -/
def DieState.servePush (p : Packet) (D : DieState) : Nat × DieState :=
  let a := gLocal p.addr
  if D.gateClosed p.inst then (Status.refusedInstanceReset.code, D.answerError p Status.refusedInstanceReset.code)
  else
    let D := D.onFgr (fun f => { f with prefetch := f.prefetch.filter (fun q => q.addr != a) })
    if stagingBase ≤ a ∧ a + p.body.length ≤ stagingBase + stagingSize then
      (0, (D.onFgr (fun f => { f with staging := memWrite f.staging (a - stagingBase) p.body })).answer p pkWriteAck 0 [])
    else match runM (stackWrite { inst := p.inst, req := p.arrival, cls := 4 } a p.body) D with
      | (.ok _, D) => (0, D.answer p pkWriteAck 0 [])
      | (.error f, D) => (f.status.code, D.answerError p f.status.code)

/-- A push has been answered, or has ended without an answer. -/
def DieState.pushAck (D : DieState) (src cmd status : Nat) : DieState :=
  D.mapWork src cmd (fun w => { w with
    pushes := w.pushes - 1
    bad := if status = 0 ∨ w.bad.isSome = true then w.bad else some ((Status.ofCode status).getD .faultTimeout) })

/-! ## Rows -/

/-- TABLE_UPDATE. -/
def execTableUpdate (a : At) (id : Nat) (rivals : List Nat) (s : State) : Out :=
  if (s.die a.die).boot.held then .next s
  else .next ((s.atDie a (fun D => D.runCmd 0x0304 id (fun c D => D.replyOpt c (tableUpdate rivals c)))).shareWorks.settleWorks)

/-- UPDATE_RECORDS_APPLY: the oldest work of this die; or, with far, what comes from another package: its records for this
primary, or the answer of its primary. -/
def execUpdateRecordsApply (a : At) (far : Option FarUpdate) (s : State) : Out :=
  if (s.die a.die).boot.held then .next s
  else match far with
    | none => .next (s.applyWork a).settleWorks
    | some (.answer cmd die rows skipped st) => .next (s.atDie a (fun D => D.farAnswer cmd die rows skipped st)).settleWorks
    | some (.records die cmd inst t version shift sto seed recs) =>
      .next (s.atDie a (fun D => D.takeRecords die cmd inst t version shift sto seed recs))

/-- PUSH_RECEIVE. -/
def execPushReceive (a : At) (s : State) : Out :=
  onDie a s (fun D => D.serveRequest pkPush false (fun p D => D.servePush p))

end Sys2Proof.Machine
end

