-- ==== Sys2Proof/Machine/Ports.lean ====
section
/-! DEFINITION. Fabric ports: flits and packets (R474-R476), FEC frames (R471), credits and turns (R478, R479), replay
(R480), port states (R472, R473, R492, R493), routing (R484-R486), and the injections of links (R504, R505). -/

namespace Sys2Proof.Machine

/-! ## Flits (R474, R476) -/

/-- The message header of a packet of n flits. -/
def msgHeader (p : Packet) (n : Nat) : List Byte :=
  toLE 8 p.addr ++ toLE 4 p.length ++ toLE 1 p.status ++ toLE 1 n ++ toLE 2 p.aux

/-- Flits of a packet. -/
def pktLen (p : Packet) : Nat := ceilDiv (16 + p.body.length) 236

/-- The header of a flit: position 0 single, 1 first, 2 middle, 3 last. -/
def flitHeader (p : Packet) (pos rseq : Nat) : List Byte :=
  toLE 1 (p.vc + p.lane * 4 + b2n p.replayed * 32 + pos * 64)
    ++ toLE 1 (p.kind + b2n p.signal * 16 + b2n p.rerouted * 32)
    ++ toLE 2 (p.dstNode + p.dstDie * 4096) ++ toLE 2 (p.srcNode + p.srcDie * 4096)
    ++ toLE 1 p.inst ++ toLE 1 p.instGen ++ toLE 2 p.tag ++ toLE 1 p.tagGen ++ toLE 1 p.hops ++ toLE 2 rseq ++ toLE 2 p.epoch

/-- The first 252 bytes of each flit of a packet, with replay sequence 0. -/
def pktFlits (p : Packet) : List (List Byte) :=
  let n := pktLen p
  let all := msgHeader p n ++ p.body
  (List.range n).map (fun i =>
    flitHeader p (if n = 1 then 0 else if i = 0 then 1 else if i + 1 = n then 3 else 2) 0 ++ padTo 236 (all.drop (236 * i)))

/-- A flit with its replay sequence and its CRC. -/
def sealFlit (f : List Byte) (rseq : Nat) : List Byte :=
  let f := putBytes f 12 (toLE 2 rseq)
  f ++ toLE 4 (crc32c f)

/-- The packet that whole flits spell; none: it is malformed (R475). -/
def flitsPkt (fs : List (List Byte)) : Option Packet :=
  let h := fs.headD []
  let all := fs.flatMap (fun f => (f.drop 16).take 236)
  let p : Packet :=
    { kind := bits (field h 1 1) 0 4, vc := bits (field h 0 1) 0 2, lane := bits (field h 0 1) 2 3
      replayed := bit (field h 0 1) 5, signal := bit (field h 1 1) 4, rerouted := bit (field h 1 1) 5
      dstNode := field h 2 2 % 4096, dstDie := bits (field h 2 2) 12 2, srcNode := field h 4 2 % 4096
      srcDie := bits (field h 4 2) 12 2, inst := field h 6 1 % 8, instGen := field h 7 1, tag := field h 8 2
      tagGen := field h 10 1 % 64, hops := field h 11 1 % 64, epoch := field h 14 2
      addr := field all 0 8, length := field all 8 4, status := field all 12 1, aux := field all 14 2
      body := (all.drop 16).take (field all 8 4) }
  if 1 ≤ p.kind ∧ p.kind ≤ 11 ∧ field all 13 1 = fs.length ∧ fs.length ≤ 18 then some p else none

/-- Bytes with bit b inverted. -/
def flipBit (l : List Byte) (b : Nat) : List Byte :=
  l.set (b / 8) ((l.getD (b / 8) 0) ^^^ BitVec.ofNat 8 (2 ^ (b % 8)))

/-! ## Link injections (R504, R505) -/

def LinkInj.action (x : LinkInj) : Nat := field x.desc 2 1
def LinkInj.count (x : LinkInj) : Nat := field x.desc 12 4

/-- Does an injection act on the packets of a target in a direction? An Ethernet frame is a packet of kind 0. -/
def LinkInj.matches (x : LinkInj) (kind index : Nat) (tx : Bool) (p : Packet) : Bool :=
  field x.desc 0 1 == kind && field x.desc 1 1 == index && bit (field x.desc 3 1) (if tx then 0 else 1)
  && bit (field x.desc 4 1) p.vc && bit (field x.desc 5 1) p.inst && (x.count == 0 || decide (x.acted < x.count))

/-- A packet corrupted before its CRC is formed; none: it is malformed from then on. -/
def corruptPkt (p : Packet) (b : Nat) : Option Packet :=
  if p.kind = 0 then some { p with body := flipBit p.body b }
  else match pktFlits p with
    | f :: rest => if b < 2016 then (flitsPkt (flipBit f b :: rest)).map (fun q => { q with arrival := p.arrival }) else some p
    | [] => some p

/-- One packet through one injection: what passes, each with a bit to invert after the CRC. -/
def LinkInj.pass (x : LinkInj) (kind index : Nat) (tx : Bool) (now : Nat) (p : Packet) : LinkInj × List (Packet × Option Nat) :=
  if !x.matches kind index tx p then (x, [(p, none)])
  else
    let x := { x with seen := x.seen + 1 }
    if x.seen % (max 1 (field x.desc 8 4)) ≠ 0 then (x, [(p, none)])
    else
      let x := { x with acted := x.acted + 1 }
      let b := field x.desc 24 4
      let hold := { x with held := x.held ++ [(now, tx, p)] }
      match x.action with
      | 0 => (x, [])
      | 1 => (x, match corruptPkt p b with | some q => [(q, none)] | none => [])
      | 2 => (x, [(p, some b)])
      | 3 => if hold.held.length < field x.desc 16 4 then (hold, [])
             else ({ hold with held := [] }, hold.held.reverse.map (fun h => (h.2.2, none)))
      | _ => (hold, [])

/-- A packet through every active injection of the die. -/
def DieState.linkPass (D : DieState) (kind index : Nat) (tx : Bool) (p : Packet) : List (Packet × Option Nat) × DieState :=
  let r := D.fab.injections.foldl (fun (acc : Tab LinkInj × List (Packet × Option Nat)) e =>
      let z := acc.2.foldl (fun (a : LinkInj × List (Packet × Option Nat)) q =>
          let y := a.1.pass kind index tx D.now q.1
          (y.1, a.2 ++ y.2.map (fun o => (o.1, if o.2.isSome then o.2 else q.2)))) (e.2, [])
      (acc.1 ++ [(e.1, z.1)], z.2)) ([], [(p, none)])
  (r.2, { D with fab := { D.fab with injections := r.1 } })

/-! ## Sending (R478-R480) -/

def DieState.port (D : DieState) (p : Nat) : FPort := if p = 0 then D.fab.p0 else D.fab.p1
def DieState.onPort (D : DieState) (p : Nat) (f : FPort → FPort) : DieState :=
  { D with fab := if p = 0 then { D.fab with p0 := f D.fab.p0 } else { D.fab with p1 := f D.fab.p1 } }

/-- FAB_PORT_CTRL enable. -/
def DieState.portEnabled (D : DieState) (p : Nat) : Bool := bit (D.reg B_FAB FAB_PORT_CTRL p) 0

/-- Can the next receiver, as the credits say, and the replay buffer take the packet? -/
def FPort.fits (x : FPort) (p : Packet) : Bool :=
  let n := pktLen p
  let u := tabGet 0 x.used (8 * p.vc + p.lane)
  let extra := (x.used.map (fun e => e.2 - 18)).foldl (· + ·) 0
  x.replay.length + n ≤ 5120 && (u + n ≤ 18 || extra + (u + n - 18) - (u - 18) ≤ 5120)

/-- The packet the port sends next: channels in turn, and the lanes of a channel in turn; MGMT at most one turn in
sixteen while others wait (R479). -/
def FPort.next (x : FPort) : Option OutPkt :=
  let heads (v : Nat) : List OutPkt := (List.range 8).filterMap (fun i =>
    x.waiting.find? (fun o => o.pkt.vc == v && o.pkt.lane == (x.lanes.getD v 0 + i) % 8))
  let others := x.waiting.any (fun o => o.pkt.vc != 3)
  let open_ (v : Nat) : Bool := if v = 3 then !others || 15 ≤ x.sinceMgmt else x.state == 4
  ((List.range 4).map (fun i => (x.turn + i) % 4)).findSome? (fun v =>
    if open_ v then (heads v).find? (fun o => x.fits o.pkt) else none)

/-- Put the flits of a packet on the link. -/
def DieState.sendFlits (D : DieState) (port : Nat) (o : OutPkt) : DieState :=
  let fs := pktFlits o.pkt
  let D := (List.range fs.length).foldl (fun (D : DieState) i =>
    let x := D.port port
    let n := (x.txSeq + 1) % 65536
    let f := sealFlit (fs.getD i []) n
    let D := D.onPort port (fun x => { x with txSeq := n, replay := x.replay ++ [{ num := n, bytes := f, out := o }] })
    D.out (.flit port (match o.flip with | some b => if i = 0 then flipBit f b else f | none => f))) D
  let D := D.count B_FAB FAB_PORT_FLITS_TX fs.length port
  D.onPort port (fun x => { x with used := tabMod 0 (8 * o.pkt.vc + o.pkt.lane) (· + fs.length) x.used })

/-- Send what may go. -/
def DieState.drainPort (D : DieState) (port : Nat) : Nat → DieState
  | 0 => D
  | fuel + 1 =>
    let x := D.port port
    if x.state < 3 ∨ 4 < x.state then D
    else match x.next with
      | none => D
      | some o =>
        let D := D.onPort port (fun x => { x with
          waiting := x.waiting.erase o, turn := (o.pkt.vc + 1) % 4, lanes := x.lanes.set o.pkt.vc ((o.pkt.lane + 1) % 8)
          sinceMgmt := if o.pkt.vc = 3 then 0 else min 15 (x.sinceMgmt + 1) })
        (D.sendFlits port o).drainPort port fuel

/-- A packet reaches an output port. -/
def DieState.portPut (D : DieState) (port ingress : Nat) (p : Packet) : DieState :=
  let r := D.linkPass 0 (2 * D.num + port) true p
  let D := r.2.onPort port (fun x => { x with
    waiting := x.waiting ++ r.1.map (fun q => { ingress := ingress, pkt := q.1, flip := q.2 : OutPkt }) })
  (D.drainPort port ((D.port port).waiting.length + 1)).work B_FAB

/-! ## Receiving -/

/-- Is the packet for this link alone: a waggle, or a plate pull between neighbours? -/
def linkLocal (k : Nat) : Bool := k == pkWaggle || k == pkPlate

/-- A packet for this die: MGMT packets that find 64 waiting are dropped (R490). -/
def DieState.toInbox (D : DieState) (p : Packet) : DieState :=
  let mg (k : Nat) : Bool := k == pkDrain || k == pkPlate
  if mg p.kind && decide (64 ≤ (D.fab.inbox.filter (fun q => mg q.kind)).length) then D
  else { D with fab := { D.fab with inbox := D.fab.inbox ++ [p] } }

/-- A packet for this node (R484): here, or over the ring in transit. -/
def DieState.deliverNode (D : DieState) (p : Packet) : DieState :=
  if p.dstDie = D.num then D.toInbox p
  else (D.ringSend p.dstDie { cls := 5, pkt := { p with arrival := 0x0B0 + D.num } }).getD (D.count B_FAB FAB_NOROUTE_DROPS)

/-- A whole packet has come in through a port. -/
def DieState.takeIn (D : DieState) (port : Nat) (p : Packet) : DieState :=
  let p := { p with arrival := 0x0C0 + port }
  if linkLocal p.kind then D.toInbox p
  else if (D.port port).state ≠ 4 ∧ p.vc ≠ 3 then D
  else if D.fab.assigned && p.dstNode == D.fab.node then D.deliverNode p
  else { D with fab := { D.fab with transit := D.fab.transit ++ [(port, p)] } }

/-- One flit of a good frame (R474, R475, R480). -/
def DieState.takeFlit (D : DieState) (port : Nat) (f : List Byte) : DieState :=
  let x := D.port port
  if bits (field f 1 1) 0 4 = 0 then D
  else if field f 252 4 ≠ crc32c (f.take 252) then D.onPort port (fun x => { x with nak := true })
  else if field f 12 2 ≠ (x.rxSeq + 1) % 65536 then D
  else
    let D := D.count B_FAB FAB_PORT_FLITS_RX 1 port
    let k := field f 0 1 % 32
    let fs := tabGet [] x.partials k ++ [f]
    let pos := bits (field f 0 1) 6 2
    let whole := pos == 0 || pos == 3
    let D := D.onPort port (fun x => { x with
      rxSeq := field f 12 2, nak := false, partials := tabSet [] k (if whole then [] else fs) x.partials })
    if !whole then D
    else match flitsPkt (if pos = 0 then [f] else fs) with
      | none => D
      | some p =>
        let r := D.linkPass 0 (2 * D.num + port) false p
        r.1.foldl (fun (D : DieState) q =>
          (if q.2.isSome then D.onPort port (fun x => { x with nak := true }) else D).takeIn port q.1) r.2

/-- Send again what the peer has not acknowledged (R480). -/
def DieState.resendPort (D : DieState) (port : Nat) : DieState :=
  let x := D.port port
  let D := x.replay.foldl (fun (D : DieState) e => D.out (.flit port e.bytes)) D
  let D := D.count B_FAB FAB_PORT_REPLAYS x.replay.length port
  D.onPort port (fun x => { x with replay := x.replay.map (fun e => { e with resends := e.resends + 1 }) })

/-- Credits that come back for a channel: they free its lanes in ascending order. -/
def freeCredits (vc : Nat) : List Nat → Nat → Tab Nat → Tab Nat
  | [], _, t => t
  | l :: ls, n, t =>
    let u := tabGet 0 t (8 * vc + l)
    freeCredits vc ls (n - u) (tabSet 0 (8 * vc + l) (u - n) t)

/-- The frame word (R471). -/
def DieState.takeWord (D : DieState) (port w : Nat) : DieState :=
  if bits w 32 8 ≠ crc8 (bits w 0 32) 32 then D
  else
    let ack := bits w 0 16
    let D := D.onPort port (fun x => { x with
      replay := if x.replay.any (fun e => e.num == ack) then (x.replay.dropWhile (fun e => e.num != ack)).drop 1 else x.replay
      used := freeCredits (bits w 17 2) [0, 1, 2, 3, 4, 5, 6, 7] (bits w 19 10) x.used })
    let D := if bit w 16 then D.resendPort port else D
    D.drainPort port ((D.port port).waiting.length + 1)

/-- FEC_FRAME_RECEIVE: codewords corrected and not correctable, the frame word and five flits. -/
def DieState.frameRx (D : DieState) (port corrected bad word : Nat) (flits : List (List Byte)) : DieState :=
  if (D.port port).state < 3 ∨ 4 < (D.port port).state then D
  else
    let D := D.count B_FAB FAB_PORT_FEC_CORR corrected port
    if bad ≠ 0 then
      (D.count B_FAB FAB_PORT_FEC_UNCORR bad port).onPort port (fun x => { x with badFrames := x.badFrames + 1, nak := true })
    else
      let D := (D.onPort port (fun x => { x with badFrames := 0 })).takeWord port word
      (flits.take 5).foldl (fun (D : DieState) f => D.takeFlit port (padTo 256 f)) D

/-! ## Routing (R484-R486) -/

/-- State of a package port (R26). -/
def State.portState (s : State) (p : Nat) : Nat := ((quadGet s.dies (p / 2)).port (p % 2)).state

/-- The ACTIVE ports of a bundle of this node (R485). -/
def State.activePorts (s : State) (P : Plate) (node b : Nat) : List Nat :=
  (maskPorts (plMask P node b)).filter (fun p => s.portState p == 4)

/-- The route of a packet: its egress port, floor and whether it takes its reroute; none: it is dropped (R486). -/
def State.routeOf (s : State) (P : Plate) (D : DieState) (ingress : Nat) (p : Packet) : Option (Nat × Nat × Bool) :=
  let e := plRoute P D.fab.node D.num ingress p.dstNode
  let use (k : Nat) : Option (Nat × Nat) :=
    let ports := s.activePorts P D.fab.node (bits e k 3)
    if bit e (k + 3) && !ports.isEmpty then some (ports.getD (p.dstNode % ports.length) 0, bits e (k + 4) 3) else none
  if p.rerouted then (use 16).map (fun r => (r.1, r.2, false))
  else match use 0 with
    | some r => some (r.1, r.2, false)
    | none => (use 8).map (fun r => (r.1, r.2, true))

/-- FAB_PACKET_FORWARD: the oldest packet to route at a die. -/
def State.forward (s : State) (a : At) : State :=
  let D := (s.die a.die).at a.time
  match D.fab.transit with
  | [] => s.onDie a.die (fun _ => D)
  | (ing, p) :: rest =>
    let D := { D with fab := { D.fab with transit := rest } }
    let put (D : DieState) : State := s.onDie a.die (fun _ => D)
    if D.fab.assigned && p.dstNode == D.fab.node then put (D.deliverNode p)
    else match D.fab.plate with
      | none => put (D.count B_FAB FAB_NOROUTE_DROPS)
      | some P =>
        if P.hopLimit ≤ p.hops then put (D.count B_FAB FAB_HOP_DROPS)
        else match s.routeOf P D ing p with
          | none => put (D.count B_FAB FAB_NOROUTE_DROPS)
          | some (out, floor, re) =>
            let D := if re then D.cause B_FAB 2 else D
            let p := { p with lane := max p.lane floor, hops := p.hops + 1, rerouted := p.rerouted || re }
            if out / 2 = D.num then put (D.portPut (out % 2) ing p)
            else put ((D.ringSend (out / 2) { cls := 5, pkt := p, egress := some out }).getD (D.count B_FAB FAB_NOROUTE_DROPS))

/-! ## Port states (R472, R473, R492, R493) -/

/-- A packet goes through a new routing decision at this die (R493). -/
def DieState.reroute (D : DieState) (o : OutPkt) (again : Bool) : DieState :=
  if linkLocal o.pkt.kind then D
  else { D with fab := { D.fab with transit := D.fab.transit ++
    [(o.ingress, { o.pkt with hops := o.pkt.hops - 1, replayed := o.pkt.replayed || again })] } }

/-- What waits for the port is routed anew. -/
def DieState.unqueue (D : DieState) (port : Nat) (p : OutPkt → Bool) : DieState :=
  let os := (D.port port).waiting.filter p
  os.foldl (fun (D : DieState) o => D.reroute o false) (D.onPort port (fun x => { x with waiting := x.waiting.filter (fun o => !p o) }))

/-- The link of a port is gone: unacknowledged packets are injected again, whole (R493). -/
def DieState.linkGone (D : DieState) (port state : Nat) : DieState :=
  let x := D.port port
  let os := (x.replay.map (fun e => e.out)).eraseDups
  let D := D.onPort port (fun x => { x with
    state := state, replay := [], used := [], partials := [], txSeq := 0, rxSeq := 0, nak := false, badFrames := 0
    waggles := 0, mismatches := 0, agreeing := 0, echo := none, lengths := [], trainSince := D.now })
  let D := os.foldl (fun (D : DieState) o => D.reroute o true) D
  D.unqueue port (fun _ => true)

/-- A port leaves ACTIVE for UP. -/
def DieState.backToUp (D : DieState) (port : Nat) : DieState :=
  if (D.port port).state = 4 then
    (D.onPort port (fun x => { x with state := 3 })).unqueue port (fun o => o.pkt.vc != 3)
  else D

/-- A port in UP that meets R473 becomes ACTIVE. -/
def DieState.tryActive (D : DieState) (port : Nat) : DieState :=
  let x := D.port port
  if x.state = 3 ∧ 3 ≤ x.waggles ∧ x.wiringOk ∧ x.lengthOk ∧ x.powerOk ∧ !D.fab.quarantined ∧ !x.hold then
    (D.onPort port (fun x => { x with state := 4 })).cause B_FAB 1
  else D

/-- A failure of R492 is detected. Causes 3 and 5 show in the port's own state. -/
def DieState.portFail (D : DieState) (port cause : Nat) : DieState :=
  let x := D.port port
  if x.state < 3 ∨ 4 < x.state ∨ cause = 0 ∨ 5 < cause ∨ (cause = 3 ∧ x.badFrames < 8)
      ∨ (cause = 5 ∧ x.replay.all (fun e => decide (e.resends < 4)) = true) then D
  else
    let D := (D.linkGone port 5).onPort port (fun x => { x with cause := cause, hold := true })
    let D := ((D.count32 B_FAB FAB_PORT_FAILS 1 port).cause B_FAB 0)
    D.event { cls := 10, code := 0x01, island := 36 + port, ident := 2 * D.num + port, cause := cause }

/-- Light on every lane, with the lowest received and the launched power in 0.01 dBm. -/
def DieState.lightDetect (D : DieState) (port : Nat) (rx tx : Int) : DieState :=
  let x := D.port port
  if (x.state = 1 ∨ x.state = 5) ∧ D.portEnabled port ∧ !x.hot then
    D.onPort port (fun x => { x with
      state := 2, trainSince := D.now, rxPower := wrapN 16 rx, txPower := wrapN 16 tx, powerOk := decide (-800 ≤ rx) })
  else D

/-- Frames are aligned and the replay handshake is done. -/
def DieState.portUp (D : DieState) (port : Nat) : DieState :=
  if (D.port port).state = 2 then D.onPort port (fun x => { x with state := 3, upSince := D.now }) else D

/-- 20 ms without alignment. -/
def DieState.trainTimeout (D : DieState) (port : Nat) : DieState :=
  let x := D.port port
  if x.state = 2 ∧ x.trainSince + 20000000 ≤ D.now then D.onPort port (fun x => { x with state := 1 }) else D

/-- 100 ms in UP without a failure (R473). -/
def DieState.holdExpire (D : DieState) (port : Nat) : DieState :=
  let x := D.port port
  if x.state = 3 ∧ x.hold ∧ x.upSince + 100000000 ≤ D.now then
    (D.onPort port (fun x => { x with hold := false })).tryActive port
  else D

/-- The enable bit of a port takes a value (R472, R509). -/
def DieState.setEnable (D : DieState) (port : Nat) (on : Bool) : DieState :=
  let D := D.setReg B_FAB FAB_PORT_CTRL (putBits (D.reg B_FAB FAB_PORT_CTRL port) 0 1 (b2n on)) port
  if on && (D.port port).state == 0 then D.onPort port (fun x => { x with state := 1 })
  else if !on then D.linkGone port 0
  else D

/-- A write of retrain: the port goes to TRAINING. -/
def DieState.portRetrain (D : DieState) (port : Nat) : DieState :=
  if (D.port port).state = 0 then D else D.linkGone port 2

/-! ## Registers of a port (R507, R509) -/

def FPort.stateWord (x : FPort) : Nat :=
  x.state + b2n x.wiringOk * 8 + b2n x.lengthOk * 16 + b2n x.powerOk * 32 + x.cause * 256
def FPort.peerWord (x : FPort) : Nat := x.peerNode % 4096 + b2n x.peerAssigned * 2 ^ 12 + x.peerPort % 8 * 2 ^ 13
/-- The mean of the last eight results, in 0.1 m (R483). -/
def FPort.length (x : FPort) : Option Nat :=
  if x.lengths.isEmpty then none else some ((x.lengths.foldl (· + ·) 0) / (x.lengths.length : Int)).toNat
def FPort.lengthWord (x : FPort) : Nat := match x.length with | some n => min n (2 ^ 24 - 1) + 2 ^ 24 | none => 0
def FPort.opticsWord (x : FPort) : Nat := x.rxPower % 65536 + x.txPower % 65536 * 65536

/-! ## Rows -/

/-- FEC_FRAME_RECEIVE. -/
def execFecFrameReceive (a : At) (port corrected bad word : Nat) (flits : List (List Byte)) (s : State) : Out :=
  onDie a s (fun D => D.frameRx (port % 2) corrected bad word flits)
/-- FAB_PACKET_FORWARD. -/
def execFabPacketForward (a : At) (s : State) : Out :=
  if (s.die a.die).boot.held then .next s else .next (s.forward a)
/-- PORT_LIGHT_DETECT. -/
def execPortLightDetect (a : At) (port : Nat) (rx tx : Int) (s : State) : Out :=
  onDie a s (fun D => D.lightDetect (port % 2) rx tx)
/-- PORT_TRAINING_DONE. -/
def execPortTrainingDone (a : At) (port : Nat) (s : State) : Out := onDie a s (fun D => D.portUp (port % 2))
/-- PORT_TRAINING_TIMEOUT. -/
def execPortTrainingTimeout (a : At) (port : Nat) (s : State) : Out := onDie a s (fun D => D.trainTimeout (port % 2))
/-- PORT_FAIL. -/
def execPortFail (a : At) (port cause : Nat) (s : State) : Out := onDie a s (fun D => D.portFail (port % 2) cause)
/-- PORT_UP_HOLD_EXPIRE. -/
def execPortUpHoldExpire (a : At) (port : Nat) (s : State) : Out := onDie a s (fun D => D.holdExpire (port % 2))
/-- FAB_PORT_RETRAIN: a write of FAB_PORT_CTRL with bit 1 set, for the port of the requester's selection. -/
def execFabPortRetrain (a : At) (r : Req) (v : Word) (s : State) : Out :=
  onDie a s (fun D => if bit v.toNat 1 then D.csrDo r B_FAB FAB_PORT_CTRL (fun D =>
      let port := D.sel r.id B_FAB FAB_PORT_SEL % 2
      (D.setEnable port (bit v.toNat 0)).portRetrain port)
    else D)

end Sys2Proof.Machine
end

