-- ==== Sys2Proof/Machine/Tags.lean ====
section
/-! DEFINITION. Requests of other dies served here (R475, R499), the end of this die's own requests (R494, R572), and the
completion record (R495). -/

namespace Sys2Proof.Machine

/-! ## Serving (R159, R444) -/

/-- The requester of a packet (R440). -/
def DieState.pktReq (D : DieState) (p : Packet) : Req :=
  { id := p.arrival, inst := p.inst, overDie := some p.srcDie, overNode := if p.srcNode = D.fab.node then none else some p.srcNode }

/-- Checkpoint at which a packet came in: 2 UCIe, 3 fabric. -/
def DieState.pktGate (D : DieState) (p : Packet) : Nat := if p.srcNode = D.fab.node then 2 else 3

/-- A write or read of another die: into remote windows only; everything else is refused at ingress (R444, R445). -/
def serveWindow (p : Packet) (data : Option (List Byte)) : M (List Byte) := do
  let D ← get
  let a := gLocal p.addr
  match place a with
  | .store c off =>
    arrive c { node := p.srcNode, die := p.srcDie, inst := p.inst } (D.pktReq p) off p.length data p.signal
  | q => do
    let i0 := match q with | .stack n off _ => D.granI0 n off | _ => false
    onD (fun D => D.refuse (D.pktReq p) (D.pktGate p) a data.isSome i0 7 0x01)
    throw { status := .faultBounds, loc := a }

/-- Serve a WRITE. -/
def DieState.serveWrite (p : Packet) (D : DieState) : Nat × DieState :=
  match runM (serveWindow p (some p.body)) D with
  | (.ok _, D) => (0, D.answer p pkWriteAck 0 [])
  | (.error f, D) => (f.status.code, D.answerError p f.status.code)

/-- Serve a READ. -/
def DieState.serveRead (p : Packet) (D : DieState) : Nat × DieState :=
  match runM (serveWindow p none) D with
  | (.ok b, D) => (0, D.answer p pkReadData 0 b)
  | (.error f, D) => (f.status.code, D.answerError p f.status.code)

/-! ## The end of a request (R494) -/

/-- A request ends with an answer: its kind, status and bytes. -/
def DieState.endUse (D : DieState) (e : TagEntry) (status : Nat) (bs : List Byte) : DieState :=
  match e.use with
  | .dmaRead core g => D.dmaAnswer core g status bs
  | .dmaWrite core => D.dmaAck core status
  | .pool b _ k =>
    match D.shareOf b k with
    | some x => (D.shareFailed x ((Status.ofCode status).getD .faultTimeout)).pump
    | none => D
  | .push src cmd => D.pushAck src cmd status
  | .bagWrite id => D.bagAck id status
  | .paramRead cmd g => (D.paramAnswer cmd g status (if status = 0 then padTo e.pkt.length bs else [])).goOn cmd
  | .paramWrite cmd => D.paramAcked cmd status
  | .other => D

/-- A node that quarantines itself issues no fabric request: those that wait for a tag end (R490, R500). -/
def DieState.refuseWaiting (D : DieState) : DieState :=
  (D.fab.tagWait.filter (fun e => !e.ring)).foldl (fun (D : DieState) e => D.endUse e Status.refusedPlate.code [])
    { D with fab := { D.fab with tagWait := D.fab.tagWait.filter (fun e => e.ring) } }

/-- The oldest WRITE_ACK, READ_DATA or ERROR that has come. -/
def DieState.takeResponse (D : DieState) : DieState :=
  match D.takePkt (fun k => k == pkWriteAck || k == pkReadData || k == pkError) with
  | none => D
  | some (p, D) => match D.takeTag p with
    | (none, D) => D
    | (some e, D) =>
      D.endUse e (if p.kind = pkError then (if p.status = 0 then Status.faultTimeout.code else p.status) else 0) p.body

/-- Steps round the package ring from die d to die t through module m, and the links they use (R23, R24). -/
def ringLinks (d t m : Nat) : List Nat :=
  if m = 0 then (List.range ((t + 4 - d) % 4)).map (fun k => (d + k) % 4)
  else (List.range ((d + 4 - t) % 4)).map (fun k => (t + k) % 4)

/-- Send a packet over the ring through module m. -/
def DieState.ringVia (D : DieState) (m : Nat) (msg : RingMsg) : DieState :=
  (D.onMod m (fun x => { x with out := x.out ++ [msg] })).count B_D2D D2D_FLITS_TX ((msg.pkt.body.length + 16 + 235) / 236) m

/-- The module for another try of a request: the other way round the ring, if its links carry traffic. -/
def DieState.otherWay (D : DieState) (e : TagEntry) : Nat :=
  if (ringLinks D.num e.pkt.dstDie (1 - e.via)).all (bit D.d2d.links) then 1 - e.via
  else (ringModule D.d2d.links D.num e.pkt.dstDie).getD e.via

/-- Send a request again with the same tag and generation (R494, R572). -/
def DieState.resend (D : DieState) (e : TagEntry) : DieState :=
  let p := { e.pkt with replayed := true }
  let near := e.ring && p.dstDie != D.num
  let via := D.otherWay e
  let e' := { e with resent := true, sent := D.now, via := if near then via else e.via, pkt := p }
  let D := { D with fab := { D.fab with tags := D.fab.tags.map (fun t => if t = e then e' else t) } }
  if near then (D.count B_D2D D2D_RESENDS 1 via).ringVia via { cls := ringClass p, pkt := { p with arrival := 0x0B0 + D.num } }
  else D.post p

/-- A request's timer has expired: 200 µs, or 20 µs within the package (R494, R572). One of before its instance's reset
is dropped (R451). -/
def DieState.tagTimeout (D : DieState) (tag : Nat) (ring : Bool) : DieState :=
  match D.fab.tags.find? (fun t => t.num == tag && t.ring == ring) with
  | none => D
  | some e =>
    if D.now < e.sent + (if ring then 20000 else 200000) then D
    else if e.pkt.instGen ≠ D.gen e.pkt.inst then D.bumpTag e
    else if !e.resent then (if ring then D else D.count B_FAB FAB_TAG_RETRIES).resend e
    else
      let D := if ring then (D.bumpTag e).count B_D2D D2D_TIMEOUTS 1 e.via else ((D.bumpTag e).count B_FAB FAB_TAG_TIMEOUTS).cause B_FAB 6
      D.endUse e Status.faultTimeout.code []

/-- Requests whose link has failed go out the other way at once (R572); those sent twice end. -/
def DieState.resendLink (D : DieState) (l : Nat) : DieState :=
  (D.fab.tags.filter (fun t => t.ring && (ringLinks D.num t.pkt.dstDie t.via).contains l)).foldl (fun (D : DieState) e =>
    if e.resent then ((D.bumpTag e).count B_D2D D2D_TIMEOUTS 1 e.via).endUse e Status.faultTimeout.code [] else D.resend e) D

/-! ## Rows -/

/-- A row of one die after which finished updates are reported (R367). -/
def onWorks (a : At) (s : State) (f : DieState → DieState) : Out :=
  if (s.die a.die).boot.held then .next s else .next (s.atDie a f).settleWorks

/-- FAB_WRITE_RECEIVE. -/
def execFabWriteReceive (a : At) (s : State) : Out :=
  onDie a s (fun D => D.serveRequest pkWrite false (fun p D => D.serveWrite p))
/-- FAB_READ_RECEIVE. -/
def execFabReadReceive (a : At) (s : State) : Out :=
  onDie a s (fun D => D.serveRequest pkRead true (fun p D => D.serveRead p))
/-- FAB_RESPONSE_RECEIVE. -/
def execFabResponseReceive (a : At) (s : State) : Out := onWorks a s (fun D => D.takeResponse)
/-- TAG_TIMEOUT. -/
def execTagTimeout (a : At) (tag : Nat) (s : State) : Out := onWorks a s (fun D => D.tagTimeout tag false)
/-- D2D_REQUEST_TIMEOUT. -/
def execD2dRequestTimeout (a : At) (tag : Nat) (s : State) : Out := onWorks a s (fun D => D.tagTimeout tag true)
/-- COMPLETION_RECORD_AGE_OUT. -/
def execCompletionRecordAgeOut (a : At) (s : State) : Out := onDie a s (fun D => D.ageServed)

end Sys2Proof.Machine
end

