-- ==== Sys2Proof/Machine/Plates.lean ====
section
/-! DEFINITION. The plate (R496-R498): its signature, its checks, staging, the switch; and the commands of R503. -/

namespace Sys2Proof.Machine

/-! ## State-level commands -/

/-- Carry out accepted command id on the package, which must have the opcode op: as DieState.runCmd does on a die. -/
def State.runCmd (s : State) (a : At) (op id : Nat) (body : Cmd → State → State) : State :=
  let s := s.atDie a (fun D => D)
  let D := s.die a.die
  match D.cmdOf id with
  | none => s
  | some c =>
    if c.op = op ∧ c.phase = .ready then
      if c.needsAudit then
        if D.auditLost then
          s.onDie a.die (fun D => ((D.count32 B_ROL ROL_UNRECORDED).cause B_ROL 4).reply c .refusedDomainOff)
        else
          let st := ((body c s).die a.die).outcomeOf c
          s.onDie a.die (fun D => (D.mapCmd id (fun c => { c with phase := .audit })).audit (D.cmdRecord c st) (.command id))
      else body c s
    else s

/-- A row that carries out a command on the package. -/
def onCmd (a : At) (op id : Nat) (s : State) (body : Cmd → State → State) : Out :=
  if (s.die a.die).boot.held then .next s else .next (s.runCmd a op id body).settleFlash

/-- Answer a command of die d. -/
def State.replyAt (s : State) (d : Die) (c : Cmd) (st : Status) (reason : Nat := 0) (detail : List Byte := []) : State :=
  s.onDie d (fun D => D.reply c st reason detail)

/-- The same change of every die that runs. -/
def State.onRunning (s : State) (f : DieState → DieState) : State :=
  { s with dies := quadMap (fun D => if D.boot.held then D else f D) s.dies }

/-! ## The image (R496, R497) -/

/-- The signature block: certificate, then signature. -/
def plateBlock (image : List Byte) : List Byte := image.drop (image.length - 352)

def plateEpoch (image : List Byte) : Nat := field image 8 8
def plateDigest (image : List Byte) : List Byte := (image.drop 16).take 16

/-- Does the certificate chain to an installer anchor, as role installer, valid at a time, covering a node? -/
def plateCertOk (f : Flash) (image : List Byte) (time node : Nat) : Bool :=
  let b := plateBlock image
  field b 0 1 == 1 && field b 1 1 == 1 && 1 ≤ field b 2 1 && anchorFits f (field b 2 1) 1
  && Config.ecdsaOk (anchorKey f (field b 2 1)) (b.take 128) ((b.drop 128).take 96)
  && decide (field b 8 8 * 1000000000 ≤ time) && decide (time ≤ field b 16 8 * 1000000000)
  && decide (field b 24 2 ≤ node) && decide (node ≤ field b 26 2) && decide (anchorMin f (field b 2 1) ≤ field b 4 4)

/-- Do header, digest and signature verify? -/
def plateSignOk (image : List Byte) : Bool :=
  let b := plateBlock image
  let body := putBytes (image.take (image.length - 352)) 16 (List.replicate 16 0)
  416 ≤ image.length && image.length ≤ 2 ^ 24 && field image 0 2 == 1 && field image 4 4 == image.length
  && plateEpoch image != 0 && zeros image 32 32
  && (Config.sha384 body).take 16 == plateDigest image
  && Config.ecdsaOk ((b.drop 32).take 96) (plateDigest image ++ toLE 8 (plateEpoch image)) ((b.drop 256).take 96)

/-- What an image holds for a die. -/
def plateFor (image : List Byte) (d : Nat) : Option Plate :=
  (Config.plateOf image d).map (fun P => { P with image := image, epoch := plateEpoch image, digest := plateDigest image })

/-- The node ID that a plate gives this package (R9, R501). -/
def plateNode (P : Plate) : Option Nat := (P.nodes.find? (fun e => e.1 == Config.packageSerial)).map (·.2)

/-- A plate's stipple tables as a table window holds them. -/
def plateStipple (P : Plate) : Tab Byte := P.stipple.foldl (fun t e => tabSet 0 e.1 e.2 t) []

/-! ## The safety block (R512-R514, R534) -/

/-- Bytes of stacked memory as they stand. -/
def DieState.peekMem (D : DieState) (a n : Nat) : List Byte :=
  (List.range n).map (fun i => match place (gLocal a + i) with
    | .stack k off _ => memGet D.mem.bytes (stackKey k off)
    | _ => 0)

/-- Field ranges of an enabled zone record, with its polygon (R513, R514). -/
def zoneOk (b z : List Byte) (stipple : Tab Byte) : Bool :=
  let w : Int := (sbW b : Int) * ((2 ^ sbShift b : Nat) : Int)
  let h : Int := (sbH b : Int) * ((2 ^ sbShift b : Nat) : Int)
  bits (field z 0 1) 1 7 == 0 && 3 ≤ field z 1 1 && field z 1 1 ≤ 32 && 1 ≤ znOn z && znOn z ≤ 4 && 1 ≤ znMin z
  && field z 6 1 ≤ 7 && field z 7 1 ≤ 7 && zeros z 12 20 && zeros z (32 + 8 * field z 1 1) (256 - 8 * field z 1 1) && zeros z 288 32
  && (znPoly z).all (fun v => decide (sbX0 b ≤ v.1) && decide (v.1 ≤ sbX0 b + w) && decide (sbY0 b ≤ v.2) && decide (v.2 ≤ sbY0 b + h))
  && polySimple (znPoly z) && decide (znMin z ≤ 15 * (zoneCells b z).length)
  && (znRequired z).all (fun i => seEnabled (stpEntry stipple 0 i) && seSafety (stpEntry stipple 0 i))

/-- Entry of cluster c in the proof image: descriptor offset, output offset, output length. -/
def proofEntry (img : List Byte) (c : Nat) : Nat × Nat × Nat :=
  (field img (64 + 16 * c) 4, field img (68 + 16 * c) 4, field img (72 + 16 * c) 4)

/-- Words of a task's op stream as they stand: in the cluster's store, or in stacked memory. -/
def DieState.peekOps (D : DieState) (c : Nat) (t : List Byte) : List Nat :=
  let w := taskWindow t (tdOpWindow t)
  (List.range (tdOpCount t)).map (fun i =>
    let a := w.base + tdOpOffset t + 16 * i
    if w.kind = 0 then leNat ((List.range 16).map (fun j => (D.cluster c).get (a + j)))
    else leNat (D.peekMem a 16))

/-- The proof image's checks (R534). Windows in a cluster store lie in no image; R183 asks for them. -/
def DieState.proofOk (D : DieState) (at_ : Nat) : Bool :=
  let head := D.peekMem at_ 128
  let n := field head 4 4
  field head 0 2 == 1 && zeros head 2 2 && zeros head 8 56 && D.inRegions 0 at_ (max n 128)
  && ((List.range 4).filter (fun c => D.clusterOwner c == some 0)).all (fun c =>
      let e := proofEntry head c
      let t := D.peekMem (at_ + e.1) 384
      let inside (w : Window) : Bool :=
        w.kind != 1 || (decide (gLocal at_ ≤ gLocal w.base) && decide (gLocal w.base + w.size ≤ gLocal at_ + n))
        || (decide (gLocal at_ + e.2.1 ≤ gLocal w.base) && decide (gLocal w.base + w.size ≤ gLocal at_ + e.2.1 + e.2.2))
      zeros head (76 + 16 * c) 4 && 128 ≤ e.1 && decide (e.1 + 384 ≤ n) && decide (e.2.2 ≤ 2 ^ 18)
      && D.inRegions 0 (at_ + e.2.1) e.2.2
      && tdProof t && tdInst t == 0 && tdLimit t == 150 && tdCoreMask t == 15 * 16 ^ c
      && (List.range 8).all (fun w => inside (taskWindow t w))
      && [1, 2, 3, 4, 5, 6, 7].all (fun k => (D.peekOps c t).any (fun w => opEngine w == k)))

def sumN (l : List Nat) : Nat := l.foldl (fun a b => a + b) 0

/-- The safety island's checks of a die's block (R514). A plate without one leaves the die without zones. -/
def DieState.safetyOk (D : DieState) (P : Plate) : Bool :=
  let b := P.safety
  let st := plateStipple P
  let zs := (List.range (sbZones b)).filterMap (fun i => (P.zones.find? (fun z => z.1 == i)).map (·.2))
  let on := zs.filter znEnabled
  b.isEmpty
  || (field b 0 2 == 1 && field b 2 2 % 4096 == (plateNode P).getD D.fab.node && bits (field b 2 2) 12 2 == D.num
    && bits (field b 2 2) 14 2 == 0 && bits (field b 4 1) 1 7 == 0 && 6 ≤ sbShift b && sbShift b ≤ 12 && sbZones b ≤ 256
    && zs.length == sbZones b && 1 ≤ sbW b && sbW b ≤ 4096 && 1 ≤ sbH b && sbH b ≤ 4096
    && field b 136 1 ≤ 7 && zeros b 137 119 && field b 32 8 % 64 == 0
    && D.inRegions 0 (gLocal (field b 32 8)) 192
    && [0, 1, 2, 3].all (fun i => field b (72 + 8 * i) 8 == 0 || D.inRegions 0 (gLocal (field b (72 + 8 * i) 8)) 384)
    && zs.all (fun z => bits (field z 0 1) 1 7 == 0) && on.all (fun z => zoneOk b z st)
    && decide (sumN (on.map (fun z => (zoneCells b z).length)) ≤ 2 ^ 23)
    && decide (sumN (on.map (fun z => zoneSpans b z)) ≤ 65536)
    && (!sbNetwork b || (field b 28 4 != 0 && D.proofOk (field b 48 8))))

/-! ## Every section's checks (R36, R73, R114, R338, R487, R488, R514) -/

/-- Are the shard map and the serving list that stacked memory holds those of the image, whose digest counts them (R338; log
entry 177)? -/
def DieState.tableRead (D : DieState) (x : List Byte × List Byte × List Byte) : Bool :=
  let same (a n : Nat) (l : List Byte) : Bool := D.peekMem (field x.1 a 8) n == padTo n l
  same 40 (8 * tbEntries x.1) x.2.1 && same 56 (2 * tbServing x.1) x.2.2

/-- A target's plate part passes, or the plate holds none: 128 bytes of 0 (R114; log entry 44). -/
def combPartOk (d : List Byte) : Bool := d.all (· == 0) || combDescOk d

def DieState.sectionsOk (D : DieState) (P : Plate) (rejoin : Bool) : Bool :=
  let node := (plateNode P).getD D.fab.node
  let serves (t : Nat) : Bool := match plateTable (some P) t with
    | some x => (tbServers x.1 x.2.2).contains (node * 4 + D.num)
    | none => false
  10 ≤ P.frameMs && P.frameMs ≤ 200 && 1 ≤ P.sliceMs && P.sliceMs ≤ 20 && P.frameMs % P.sliceMs == 0
  && stpTablesOk (plateStipple P)
  && P.combs.all (fun c => decide (c.1 < 8) && combPartOk (padTo 128 c.2))
  && (P.tables.map (·.1)).eraseDups.length == P.tables.length
  && P.tables.all (fun t => !serves t.1 || (match plateTable (some P) t.1 with
      | some x => tableOk x.1 x.2.1 x.2.2 && field x.1 0 2 == t.1
          && (rejoin || D.tableRead x) && (rejoin || (D.findSlot t.1 (fun y => (y.state == 2 || y.state == 3) && y.version == tbVersion x.1)).isSome)
      | none => false))
  && D.safetyOk P && fabricOk P

/-! ## Staging (R497) -/

/-- Dies that run, as numbers. -/
def State.running (s : State) : List Nat := [0, 1, 2, 3].filter (fun d => !(quadGet s.dies d).boot.held)

/-- The checks of R497, at die 0's tables and time; none: they pass. rejoin: R501. -/
def State.plateCheck (s : State) (image : List Byte) (rejoin : Bool) : Option Status :=
  let D := s.dies.q0
  let node := if D.fab.assigned then D.fab.node else ((plateFor image 0).bind plateNode).getD 0
  let mine := match D.fab.plate with | some p => p.epoch | none => 0
  let other := match D.fab.staged with | some p => p.epoch != plateEpoch image | none => false
  if !plateCertOk s.pkg.flash image (D.certTime s.pkg.flash.auditTime) node then some .refusedRole
  else if !plateSignOk image then some .faultFormat
  else if plateEpoch image ≤ mine then some .refusedPlate
  else if !rejoin && D.fab.switchAt.isSome && other then some .refusedPlate
  else if s.running.all (fun d => match plateFor image d with
      | some P => (quadGet s.dies d).sectionsOk P rejoin
      | none => false) then none
  else some .faultFormat

/-- Every die holds the staged plate, and the flash beside the active one. -/
def State.stageImage (s : State) (image : List Byte) : State :=
  let s := s.running.foldl (fun (s : State) d => { s with dies := quadMod s.dies d (fun D =>
    match plateFor image d with
    | some P => { D with fab := { D.fab with staged := some P }, stp := { D.stp with staged := plateStipple P } }
    | none => D) }) s
  { s with pkg := { s.pkg with flash := { s.pkg.flash with staged := image } } }

/-- PLATE_STAGE: image address 8 bytes, length 4. -/
def State.plateStage (s : State) (d : Die) (c : Cmd) : State :=
  if d ≠ 0 then s.replyAt d c .refusedRole
  else
    let m : M (List Byte) := do
      okField (416 ≤ c.p 8 4 && c.p 8 4 ≤ 2 ^ 24) 8
      paramRead c.id c.stacked c.ctx (c.p 0 8) (c.p 8 4)
    match runM m (s.die d) with
    | (.error f, D) => match f.need with
      | some (g, n) => s.onDie d (fun D => D.askParam c.id c.inst g n)
      | none => (s.onDie d (fun _ => D)).replyAt d c f.status f.reason
    | (.ok image, D) =>
      let s := s.onDie d (fun _ => D)
      match s.plateCheck image false with
      | some st => s.replyAt d c st
      | none => (s.stageImage image).replyAt d c .ok

/-! ## Switching (R498, R501) -/

/-- Is T a frame boundary of a plate (R37)? -/
def onBoundary (P : Plate) (t : Nat) : Bool := t % (P.frameMs * 1000000) == 0

/-- PLATE_SWITCH. -/
def State.plateSwitch (s : State) (d : Die) (c : Cmd) : State :=
  if d ≠ 0 then s.replyAt d c .refusedRole
  else
    let D := s.die d
    let t := c.p 8 8
    match D.fab.staged with
    | none => s.replyAt d c .refusedPlate
    | some P =>
      if P.epoch ≠ c.p 0 8 then s.replyAt d c .refusedPlate
      else
        let under := match D.fab.plate with | some Q => onBoundary Q t | none => t % 100000000 == 0
        if under && onBoundary P t && decide (D.now + 2 * D.frameNs ≤ t) && decide (t ≤ D.now + 86400000000000) then
          (s.onRunning (fun D => { D with fab := { D.fab with switchAt := some t, rejoin := false, missed := false } })).replyAt d c .ok
        else s.replyAt d c .faultFormat 24

/-- PLATE_ABORT. -/
def State.plateAbort (s : State) (d : Die) (c : Cmd) : State :=
  if d ≠ 0 then s.replyAt d c .refusedRole
  else
    let D := s.die d
    match D.fab.staged, D.fab.switchAt with
    | some P, some t =>
      if P.epoch = c.p 0 8 ∧ D.now + D.frameNs < t ∧ D.fab.rejoin = false then
        (s.onRunning (fun D => { D with fab := { D.fab with switchAt := none } })).replyAt d c .ok
      else s.replyAt d c .refusedPlate
    | _, _ => s.replyAt d c .refusedPlate

/-- A rejoin ends every outstanding request and raises every generation, so that no answer to one is taken (R501
step 5, log entry 108). -/
def DieState.rejoinDrop (D : DieState) : DieState :=
  let D := (D.fab.tags ++ D.fab.tagWait).foldl (fun (D : DieState) e => (D.dropTag e).endUse e Status.refusedPlate.code [])
    { D with fab := { D.fab with tagWait := [] } }
  { D with ins := { D.ins with gens := (List.range 8).foldl (fun t i => tabMod 0 i (fun g => (g + 1) % 256) t) D.ins.gens }
           fab := { D.fab with tagBase := (D.fab.tagBase + 1) % 64 } }

/-- The staged plate becomes active at a die, at time t, in one step. -/
def DieState.activate (D : DieState) (P : Plate) (t : Nat) : DieState :=
  let D := D.sliceBoundary
  let old := D.combPlate
  let rejoin := D.fab.rejoin
  let D := if rejoin then D.rejoinDrop else D
  let node := (plateNode P).getD D.fab.node
  let prev := match D.fab.plate with | some p => p.epoch | none => 0
  let D := { D with fab := { D.fab with
    plate := some P, staged := none, switchAt := none, switched := some t, prevEpoch := prev, node := node
    assigned := (plateNode P).isSome, rejoin := false, missed := false, quarantined := false
    p0 := { D.fab.p0 with mismatches := 0, agreeing := 0, waggles := if rejoin then 0 else D.fab.p0.waggles }
    p1 := { D.fab.p1 with mismatches := 0, agreeing := 0, waggles := if rejoin then 0 else D.fab.p1.waggles } } }
  let D := (((D.stpSwitch).combSwitch old).bindTables).mark .zones
  (D.cause B_FAB 5).event { cls := 10, code := 0x05, loc := t, ident := P.epoch % 2 ^ 32 }

/-- Is a switch due now, at a package that may make it (R498)? -/
def State.switchDue (s : State) (now : Nat) : Option Nat :=
  match s.running with
  | [] => none
  | d :: _ =>
    let D := quadGet s.dies d
    match D.fab.switchAt, D.fab.staged with
    | some t, some _ => if t ≤ now && (D.fab.rejoin || (D.ptp.locked && !D.fab.missed)) then some t else none
    | _, _ => none

/-- A switch that came due without lock stays pending until a rejoin (R498). -/
def State.missSwitch (s : State) (now : Nat) : State :=
  s.onRunning (fun D =>
    let due := match D.fab.switchAt with | some t => decide (t ≤ now) && !D.fab.rejoin | none => false
    { D with fab := { D.fab with missed := D.fab.missed || due } })

/-- Every die of the package makes the staged plate active, and the audit log takes a checkpoint (R463, R498). -/
def State.activateAll (s : State) (now : Nat) : State :=
  match s.switchDue now with
  | none => s.missSwitch now
  | some t =>
    let s := s.onRunning (fun D => match D.fab.staged with | some P => (D.at now).activate P t | none => D)
    let f := s.pkg.flash
    let f := { f with plate := f.staged, staged := [] }
    ({ s with pkg := { s.pkg with flash := if s.dies.q0.boot.held then f else f.checkpoint now } }).settleWorks

/-! ## Status commands (R503) -/

/-- State of PLATE_STATUS: 0 steady, 1 staged, 2 scheduled, 3 quarantined, 4 pulling. -/
def DieState.plateState (D : DieState) : Nat :=
  if D.fab.pulling then 4 else if D.fab.quarantined then 3 else if D.fab.switchAt.isSome then 2
  else if D.fab.staged.isSome then 1 else 0

/-- Mask of the ACTIVE package ports. -/
def State.activeMask (s : State) : Nat := (List.range 8).foldl (fun m p => m + b2n (s.portState p == 4) * 2 ^ p) 0

/-- PLATE_STATUS. -/
def State.plateStatus (s : State) (d : Die) (c : Cmd) : State :=
  let D := s.die d
  let ep (p : Option Plate) : Nat := match p with | some p => p.epoch | none => 0
  s.replyAt d c .ok 0 (toLE 8 (ep D.fab.plate) ++ toLE 4 (ep D.fab.staged % 2 ^ 32) ++ toLE 1 D.plateState ++ toLE 1 s.activeMask
    ++ toLE 2 (D.fab.node + b2n D.fab.assigned * 32768))

/-- PORT_STATUS: package port. -/
def State.portStatus (s : State) (d : Die) (c : Cmd) : State :=
  let p := c.p 0 4
  if 8 ≤ p then s.replyAt d c .faultFormat 16
  else
    let x := (quadGet s.dies (p / 2)).port (p % 2)
    s.replyAt d c .ok 0 (toLE 4 x.stateWord ++ toLE 4 x.peerWord ++ toLE 4 x.lengthWord ++ toLE 4 x.opticsWord)

/-- PORT_ENABLE: package port, enable. -/
def State.portEnable (s : State) (d : Die) (c : Cmd) : State :=
  let p := c.p 0 4
  if 8 ≤ p then s.replyAt d c .faultFormat 16
  else if 1 < c.p 4 4 then s.replyAt d c .faultFormat 20
  else if (quadGet s.dies (p / 2)).boot.held then s.replyAt d c .faultTimeout
  else ({ s with dies := quadMod s.dies (p / 2) (fun D => D.setEnable (p % 2) (c.p 4 4 == 1)) }).replyAt d c .ok

/-! ## Rows -/

/-- PLATE_STAGE. -/
def execPlateStage (a : At) (id : Nat) (s : State) : Out := onCmd a 0x0600 id s (fun c s => s.plateStage a.die c)
/-- PLATE_SWITCH. -/
def execPlateSwitch (a : At) (id : Nat) (s : State) : Out := onCmd a 0x0601 id s (fun c s => s.plateSwitch a.die c)
/-- PLATE_ABORT. -/
def execPlateAbort (a : At) (id : Nat) (s : State) : Out := onCmd a 0x0602 id s (fun c s => s.plateAbort a.die c)
/-- PLATE_STATUS. -/
def execPlateStatus (a : At) (id : Nat) (s : State) : Out := onCmd a 0x0603 id s (fun c s => s.plateStatus a.die c)
/-- PORT_STATUS. -/
def execPortStatus (a : At) (id : Nat) (s : State) : Out := onCmd a 0x0604 id s (fun c s => s.portStatus a.die c)
/-- PORT_ENABLE. -/
def execPortEnable (a : At) (id : Nat) (s : State) : Out := onCmd a 0x0605 id s (fun c s => s.portEnable a.die c)
/-- PLATE_SWITCH_AT_T. -/
def execPlateSwitchAtT (a : At) (s : State) : Out :=
  if (s.die a.die).boot.held then .next s else .next ((s.atDie a (fun D => D)).activateAll a.time)

end Sys2Proof.Machine
end

