-- ==== Sys2Proof/Machine/Waggles.lean ====
section
/-! DEFINITION. Waggles (R482, R483), the activation of ports (R473), self-quarantine (R500) and rejoin (R501). -/

namespace Sys2Proof.Machine

/-! ## Sending (R482) -/

def plateEp (p : Option Plate) : Nat := match p with | some p => p.epoch | none => 0
def plateDg (p : Option Plate) : List Byte := match p with | some p => padTo 16 p.digest | none => List.replicate 16 0

/-- The 128 bytes of a waggle. -/
def DieState.waggleBody (D : DieState) (port : Nat) : List Byte :=
  let x := D.port port
  let f := D.fab
  let echo := x.echo.getD (0, D.now)
  toLE 2 1 ++ toLE 2 (f.node % 4096 + b2n f.assigned * 32768) ++ toLE 1 (2 * D.num + port) ++ toLE 1 x.state
    ++ toLE 2 (1 + (if Config.partVariant.val < 2 then 0 else 2)) ++ toLE 8 Config.packageSerial ++ toLE 8 D.now
    ++ toLE 8 echo.1 ++ toLE 4 (D.now - echo.2) ++ toLE 4 (x.length.getD 0xFFFF_FFFF) ++ toLE 2 x.rxPower ++ toLE 2 x.txPower
    ++ toLE 1 (b2n f.admitted + b2n f.quarantined * 2 + b2n D.saf.service.isSome * 4 + b2n D.ptp.locked * 8) ++ toLE 3 0
    ++ toLE 8 (plateEp f.plate) ++ plateDg f.plate ++ toLE 8 (plateEp f.staged) ++ plateDg f.staged
    ++ toLE 8 (f.switchAt.getD 0) ++ List.replicate 24 0

/-- A packet for the neighbour at the other end of a link (log entry 50). -/
def DieState.linkPacket (D : DieState) (port kind : Nat) (body : List Byte) : Packet :=
  let x := D.port port
  { kind := kind, vc := 3, dstNode := x.peerNode, dstDie := x.peerPort / 2, srcNode := D.fab.node, srcDie := D.num
    epoch := D.epochTag, length := body.length, body := body }

/-- WAGGLE_SEND: 1 ms, less its tolerance, after the last one. -/
def DieState.waggleSend (D : DieState) (port : Nat) : DieState :=
  let x := D.port port
  if (x.state = 3 ∨ x.state = 4) ∧ (x.lastWaggle = 0 ∨ x.lastWaggle + 990000 ≤ D.now) then
    let p := D.linkPacket port pkWaggle (D.waggleBody port)
    (D.onPort port (fun x => { x with lastWaggle := D.now })).portPut port 2 p
  else D

/-! ## Rejoin (R501) -/

/-- The next frame boundary of the plate in force. -/
def DieState.nextFrame (D : DieState) : Nat := (D.now / D.frameNs + 1) * D.frameNs

/-- The staged plate becomes active at the next frame boundary. -/
def State.scheduleRejoin (s : State) (now : Nat) : State :=
  { s.onRunning (fun D => { D with fab := { D.fab with
      switchAt := some ((D.at now).nextFrame), rejoin := true, missed := false, pulling := false } }) with pkg := { s.pkg with pull := none } }

/-- Package ports whose peer shows a higher epoch: the highest first, then the lowest node ID. -/
def State.pullPeers (s : State) (mine : Nat) : List Nat :=
  let x (p : Nat) : FPort := (quadGet s.dies (p / 2)).port (p % 2)
  sortBy (fun p q => (x q).peerEpoch < (x p).peerEpoch || ((x q).peerEpoch == (x p).peerEpoch && (x p).peerNode < (x q).peerNode))
    ((List.range 8).filter (fun p => ((x p).state == 3 || (x p).state == 4) && mine < (x p).peerEpoch))

/-- Body of a pull request and of a chunk: kind, three zero bytes, offset, epoch; then the chunk's bytes. -/
def plateBody (kind offset epoch : Nat) (data : List Byte) : List Byte :=
  toLE 4 kind ++ toLE 4 offset ++ toLE 8 epoch ++ data

/-- Ask the peer of the pull for the bytes that come next. -/
def State.askChunk (s : State) : State :=
  match s.pkg.pull with
  | none => s
  | some u => { s with dies := quadMod s.dies (u.port / 2) (fun D =>
      D.portPut (u.port % 2) 2 (D.linkPacket (u.port % 2) pkPlate (plateBody 0 u.bytes.length u.epoch []))) }

/-- Begin a pull from the best peer that has not failed; when all have, from the best of all again. -/
def State.startPull (s : State) (now : Nat) (tried : List Nat) : State :=
  let mine := match s.running with | d :: _ => plateEp (quadGet s.dies d).fab.plate | [] => 0
  let ps := s.pullPeers mine
  let go (p : Nat) (tried : List Nat) : State :=
    let x := (quadGet s.dies (p / 2)).port (p % 2)
    let s := s.onRunning (fun D => { D with fab := { D.fab with pulling := true } })
    State.askChunk { s with pkg := { s.pkg with pull := some { port := p, start := now, epoch := x.peerEpoch, digest := x.peerDigest
                                                               tried := tried } } }
  match ps.find? (fun p => !tried.contains p), ps with
  | some p, _ => go p tried
  | none, p :: _ => go p []
  | none, [] => { s.onRunning (fun D => { D with fab := { D.fab with pulling := false } }) with pkg := { s.pkg with pull := none } }

/-- A stale node: its own staged plate if it is the peer's, else a pull (R501 step 2). -/
def State.startRejoin (s : State) (now epoch : Nat) (digest : List Byte) : State :=
  let held := match s.running with
    | d :: _ => match (quadGet s.dies d).fab.staged with
      | some P => P.epoch == epoch && padTo 16 P.digest == padTo 16 digest
      | none => false
    | [] => false
  let coming := match s.running with | d :: _ => (quadGet s.dies d).fab.rejoin | [] => false
  if coming then s
  else if held then s.scheduleRejoin now
  else if s.pkg.pull.isSome then s
  else s.startPull now []

/-! ## Self-quarantine (R500) -/

/-- The node self-quarantines: every port is held in UP, and every die reports doubt 5. -/
def State.quarantine (s : State) (d : Die) (now : Nat) : State :=
  if (s.die d).fab.quarantined then s
  else
    let s := s.onRunning (fun D =>
      let D := { D.at now with fab := { D.fab with quarantined := true, admitted := false } }
      (((D.refuseWaiting.backToUp 0).backToUp 1).cause B_FAB 3).doubt 5)
    s.onDie d (fun D => D.event { cls := 10, code := 0x03, ident := D.fab.node })

/-! ## Receiving (R473, R483, R500) -/

/-- Is the peer's wiring that of a link of the plate in force, and its length within tolerance? -/
def DieState.wiring (D : DieState) (port : Nat) : Bool × Bool :=
  let x := D.port port
  match D.fab.plate with
  | none => (false, false)
  | some P => match plLink P D.fab.node (2 * D.num + port) with
    | none => (false, false)
    | some l =>
      let near (n : Nat) : Bool := decide (100 * ((n : Int) - (l.1.length : Int)).natAbs ≤ 10000 + l.1.length)
      (x.peerAssigned && plFar l == (x.peerNode, x.peerPort), match x.length with | some n => near n | none => false)

/-- What a valid waggle tells the port. rx: the lowest lane power measured, 0.01 dBm. -/
def DieState.noteWaggle (D : DieState) (port : Nat) (b : List Byte) (rx : Int) : DieState :=
  let echo := field b 24 8
  let one : Int := (D.now : Int) - (echo : Int) - (field b 32 4 : Int) - 2 * (Config.portLatency D.num port : Int)
  let D := D.onPort port (fun x => { x with
    peerNode := field b 2 2 % 4096, peerAssigned := bit (field b 2 2) 15, peerPort := field b 4 1 % 8
    peerState := field b 5 1 % 8, peerEpoch := field b 48 8, peerDigest := (b.drop 56).take 16
    rxPower := wrapN 16 rx, powerOk := decide (-800 ≤ rx), echo := some (field b 16 8, D.now), waggles := x.waggles + 1
    lengths := if echo = 0 then x.lengths else (Int.fdiv one 2 * 2 :: x.lengths).take 8 })
  let w := D.wiring port
  let x := D.port port
  let bad := !(w.1 && w.2) && 3 ≤ x.waggles && (x.waggles == 3 || (x.wiringOk && x.lengthOk))
  let D := D.onPort port (fun x => { x with wiringOk := w.1, lengthOk := w.2 })
  if bad then (D.cause B_FAB 7).event { cls := 10, code := 0x02, island := 36 + port, ident := 2 * D.num + port } else D

/-- Was a waggle sent too near a switch at either end to be compared? -/
def DieState.nearSwitch (D : DieState) (sent peer : Nat) : Bool :=
  let near (t : Nat) : Bool := decide (t ≤ sent + 2000000) && decide (sent ≤ t + 2000000)
  (match D.fab.switchAt with | some t => near t | none => false)
  || (match D.fab.switched with | some t => near t | none => false) || (peer != 0 && near peer)

/-- Every port in UP or ACTIVE has shown two matching waggles: the node is admitted (R501 step 6). -/
def State.admission (s : State) (d : Die) : State :=
  let D := s.die d
  let all := (List.range 8).all (fun p =>
    let E := quadGet s.dies (p / 2)
    let x := E.port (p % 2)
    E.boot.held || x.state < 3 || 4 < x.state || 2 ≤ x.agreeing)
  if !D.fab.admitted && !D.fab.quarantined && D.fab.plate.isSome && all then
    (s.onRunning (fun D => ({ D with fab := { D.fab with admitted := true } }).cause B_FAB 4)).onDie d
      (fun D => D.event { cls := 10, code := 0x06, ident := D.fab.node })
  else s

/-- The comparison of plates (R500). -/
def State.comparePlate (s : State) (a : At) (port : Nat) (b : List Byte) : State :=
  let D := s.die a.die
  let e := field b 48 8
  let dg := (b.drop 56).take 16
  let mine := plateEp D.fab.plate
  if D.nearSwitch (field b 16 8) (field b 96 8) then s
  else if e = mine ∧ dg = plateDg D.fab.plate then
    (s.onDie a.die (fun D => D.onPort port (fun x => { x with mismatches := 0, agreeing := x.agreeing + 1 }))).admission a.die
  else
    let s := s.onDie a.die (fun D => D.onPort port (fun x => { x with mismatches := x.mismatches + 1, agreeing := 0 }))
    if (D.port port).mismatches + 1 < 2 then s
    else if mine < e then (s.quarantine a.die a.time).startRejoin a.time e dg
    else if e = mine ∧ mine ≠ 0 ∧ D.fab.quarantined = false then
      (s.onDie a.die (fun D => D.event { cls := 10, code := 0x04, ident := 2 * D.num + port })).quarantine a.die a.time
    else s

/-- WAGGLE_RECEIVE at a port. -/
def State.waggleReceive (s : State) (a : At) (port : Nat) (rx : Int) : State :=
  let s := s.atDie a (fun D => D)
  let D := s.die a.die
  match D.fab.inbox.find? (fun p => p.kind == pkWaggle && p.arrival == 0x0C0 + port) with
  | none => s
  | some p =>
    let s := s.onDie a.die (fun D => { D with fab := { D.fab with inbox := D.fab.inbox.erase p } })
    if (D.port port).state < 3 ∨ 4 < (D.port port).state then s
    else if p.body.length ≠ 128 ∨ field p.body 0 2 ≠ 1 then
      s.onDie a.die (fun D => D.onPort port (fun x => { x with waggles := 0 }))
    else
      let s := s.onDie a.die (fun D => D.noteWaggle port p.body rx)
      let s := s.comparePlate a port p.body
      s.onDie a.die (fun D =>
        let x := D.port port
        if x.state = 4 ∧ (x.peerState ≠ 4 ∨ !x.wiringOk ∨ !x.lengthOk ∨ !x.powerOk) then D.backToUp port
        else D.tryActive port)

/-! ## Pulling the image (R501 step 2) -/

/-- PLATE_PACKET_RECEIVE: a request is served, or a chunk taken in. -/
def State.platePacket (s : State) (a : At) : State :=
  let s := s.atDie a (fun D => D)
  match (s.die a.die).takePkt (· == pkPlate) with
  | none => s
  | some (p, D) =>
    let s := s.onDie a.die (fun _ => D)
    let port := p.arrival - 0x0C0
    let off := field p.body 4 4
    if field p.body 0 4 = 0 then
      match D.fab.plate with
      | some P =>
        if P.epoch = field p.body 8 8 ∧ off < P.image.length then
          s.onDie a.die (fun D => D.portPut port 2
            (D.linkPacket port pkPlate (plateBody 1 off P.epoch ((P.image.drop off).take 3056))))
        else s
      | none => s
    else match s.pkg.pull with
      | some u =>
        if u.port = 2 * D.num + port ∧ u.epoch = field p.body 8 8 ∧ off = u.bytes.length then
          let u := { u with bytes := u.bytes ++ p.body.drop 16, start := D.now }
          let s := { s with pkg := { s.pkg with pull := some u } }
          if u.bytes.length < 8 ∨ u.bytes.length < field u.bytes 4 4 then s.askChunk else s
        else s
      | none => s

/-- PLATE_PULL_TIMEOUT: nothing for 10 ms. -/
def State.pullTimeout (s : State) (now : Nat) : State :=
  match s.pkg.pull with
  | none => s
  | some u => if now < u.start + 10000000 then s else s.startPull now (u.tried ++ [u.port])

/-- PLATE_PULL_DONE: the whole image has come; it is checked, and scheduled (R501 steps 3 and 4). -/
def State.pullDone (s : State) (a : At) : State :=
  match s.pkg.pull with
  | none => s
  | some u =>
    if u.bytes.length < 64 ∨ u.bytes.length < field u.bytes 4 4 then s
    else
      let image := u.bytes.take (field u.bytes 4 4)
      if plateEpoch image ≠ u.epoch ∨ (s.plateCheck image true).isSome = true then s.startPull a.time (u.tried ++ [u.port])
      else match (plateFor image a.die.val).bind plateNode with
        | none =>
          let s := { s with pkg := { s.pkg with pull := none } }
          (s.onRunning (fun D => { D with fab := { D.fab with pulling := false } })).onDie a.die
            (fun D => (D.at a.time).event { cls := 10, code := 0x07, ident := Config.packageSerial % 2 ^ 32 })
        | some _ => (s.stageImage image).scheduleRejoin a.time

/-! ## Rows -/

/-- WAGGLE_SEND. -/
def execWaggleSend (a : At) (port : Nat) (s : State) : Out := onDie a s (fun D => D.waggleSend (port % 2))
/-- WAGGLE_RECEIVE: port, and the lowest lane power measured in 0.01 dBm. -/
def execWaggleReceive (a : At) (port : Nat) (rx : Int) (s : State) : Out :=
  if (s.die a.die).boot.held then .next s else .next (s.waggleReceive a (port % 2) rx)
/-- PLATE_PACKET_RECEIVE. -/
def execPlatePacketReceive (a : At) (s : State) : Out :=
  if (s.die a.die).boot.held then .next s else .next (s.platePacket a)
/-- PLATE_PULL_TIMEOUT. -/
def execPlatePullTimeout (a : At) (s : State) : Out :=
  if (s.die a.die).boot.held then .next s else .next ((s.atDie a (fun D => D)).pullTimeout a.time)
/-- PLATE_PULL_DONE. -/
def execPlatePullDone (a : At) (s : State) : Out :=
  if (s.die a.die).boot.held then .next s else .next ((s.atDie a (fun D => D)).pullDone a)

end Sys2Proof.Machine
end

