-- ==== Sys2Proof/Machine/Ring.lean ====
section
/-! DEFINITION. The package ring (R23-R25, R570-R572, R581): packets that cross it, modules that fail and return. -/

namespace Sys2Proof.Machine

/-- The neighbour at module m of die d, and its module there (R23). -/
def ringPeer (d m : Nat) : Nat := if m = 0 then (d + 1) % 4 else (d + 3) % 4

/-- The link of a module. -/
def modLink (d m : Nat) : Nat := if m = 0 then d else (d + 3) % 4

/-- The message that crosses next: of class SAFE first, then the oldest (R571). -/
def Module.front (x : Module) : Option RingMsg :=
  match x.out.find? (fun r => r.cls == 0) with
  | some r => some r
  | none => x.out.head?

/-- A message has come in through module m: it ends here, leaves through a port, or goes on round the ring. -/
def DieState.ringTake (D : DieState) (m : Nat) (r : RingMsg) : DieState :=
  let on (D : DieState) (t : Nat) : DieState :=
    if bit D.d2d.links (modLink D.num (1 - m)) then D.ringVia (1 - m) r
    else (D.ringSend t r).getD (D.count B_FAB FAB_NOROUTE_DROPS)
  match r.egress with
  | some q => if q / 2 = D.num then D.portPut (q % 2) 2 r.pkt else on D (q / 2)
  | none => if r.pkt.dstDie = D.num then D.toInbox r.pkt else on D r.pkt.dstDie

/-- A packet that has come with message r, or was released by an injection while r crossed: one of another destination
than r's finds its own way. -/
def DieState.ringPacket (D : DieState) (m : Nat) (r : Option RingMsg) (p : Packet) : DieState :=
  let same := match r with | some r => r.pkt.dstNode == p.dstNode && r.pkt.dstDie == p.dstDie | none => false
  match r with
  | some r => if same then D.ringTake m { r with pkt := p }
    else if p.dstNode = D.fab.node then D.ringTake m { cls := ringClass p, pkt := p }
    else { D with fab := { D.fab with transit := D.fab.transit ++ [(2, p)] } }
  | none => if p.dstNode = D.fab.node then D.ringTake m { cls := ringClass p, pkt := p }
    else { D with fab := { D.fab with transit := D.fab.transit ++ [(2, p)] } }

/-- D2D_PACKET_RECEIVE: the next message from the neighbour at module m. The sender's injections act on it, then this
die's (R504). -/
def State.ringReceive (s : State) (a : At) (m : Nat) : State :=
  let s := s.atDie a (fun D => D)
  let d := a.die.val
  let e := ringPeer d m
  let l := modLink d m
  let E := quadGet s.dies e
  match (E.d2d.mod (1 - m)).front with
  | none => s
  | some r =>
    let E := E.onMod (1 - m) (fun x => { x with out := x.out.erase r })
    let sent := E.linkPass 1 l true r.pkt
    let s := { s with dies := quadSet s.dies e sent.2 }
    s.onDie a.die (fun D => sent.1.foldl (fun (D : DieState) q =>
      let got := D.linkPass 1 l false q.1
      got.1.foldl (fun (D : DieState) z =>
        let D := if q.2.isSome || z.2.isSome then D.count B_D2D D2D_RETRIES 1 m else D
        let D := D.count B_D2D D2D_FLITS_RX (ceilDiv (16 + z.1.body.length) 236) m
        D.ringPacket m (some r) z.1) got.2) D)

/-- A link stops carrying traffic: every die turns its traffic round (R24), and requests on it go again (R572). -/
def State.linkOff (s : State) (l : Nat) : State :=
  if !(s.running.any (fun d => bit (quadGet s.dies d).d2d.links l)) then s
  else s.onRunning (fun D =>
    ({ D with d2d := { D.d2d with links := andNot D.d2d.links (2 ^ l) } }).resendLink l)

/-- A module leaves its active state: state 4 after a failure, 1 for a retraining. Its neighbour's goes down with it, and
both dies have lost a link (doubt 10). -/
def State.moduleDown (s : State) (d m state cause : Nat) : State :=
  let s := s.linkOff (modLink d m)
  let e := ringPeer d m
  let down (D : DieState) (m st : Nat) : DieState :=
    let was := (D.d2d.mod m).state
    let D := D.onMod m (fun x => { x with state := st, cause := if cause = 0 then x.cause else cause, out := [] })
    if was = 2 ∨ was = 3 then D.doubt 10 else D
  let s := { s with dies := quadMod s.dies d (fun D => down D m state) }
  if (quadGet s.dies e).boot.held then s
  else { s with dies := quadMod s.dies e (fun E => if (E.d2d.mod (1 - m)).state = 0 then E else down E (1 - m) (if state = 1 then 1 else 4)) }

/-- UCIE_MODULE_FAIL: 1 retries, 2 no valid flit, 3 heartbeats, 4 lanes. -/
def State.moduleFail (s : State) (a : At) (m cause : Nat) : State :=
  let s := s.atDie a (fun D => D)
  let x := (s.die a.die).d2d.mod m
  if x.state < 2 ∨ 3 < x.state ∨ cause = 0 ∨ 4 < cause then s
  else
    let s := s.moduleDown a.die.val m 4 cause
    (s.onDie a.die (fun D => ((D.count32 B_D2D D2D_FAILS 1 m).cause B_D2D 0).event
      { cls := 11, code := 0x02, island := 34 + m, ident := m, cause := cause })).settleWorks

/-- UCIE_TRAINING_DONE: lanes mapped out on each side. The module then waits in HOLD (R572); the
training of a boot makes it ACTIVE at once. -/
def DieState.moduleTrained (D : DieState) (m tx rx : Nat) : DieState :=
  let x := D.d2d.mod m
  if (x.state ≠ 1 ∧ x.state ≠ 4) ∨ 4 < tx ∨ 4 < rx then D
  else
    let D := D.onMod m (fun x => { x with state := 3, since := D.now, txRepaired := tx, rxRepaired := rx })
    if 0 < tx + rx then D.cause B_D2D 2 else D

/-- A link carries traffic once both its modules are ACTIVE. -/
def State.linkOn (s : State) (d m : Nat) : State :=
  let e := ringPeer d m
  if ((quadGet s.dies d).d2d.mod m).state = 2 ∧ ((quadGet s.dies e).d2d.mod (1 - m)).state = 2 then
    s.onRunning (fun D => { D with d2d := { D.d2d with links := orN D.d2d.links (2 ^ (modLink d m)) } })
  else s

/-- UCIE_HOLD_EXPIRE: 100 ms without a failure. -/
def State.moduleHold (s : State) (a : At) (m : Nat) : State :=
  let s := s.atDie a (fun D => D)
  let D := s.die a.die
  if (D.d2d.mod m).state = 3 ∧ (D.d2d.mod m).since + 100000000 ≤ D.now then
    (s.onDie a.die (fun D => (D.onMod m (fun x => { x with state := 2 })).cause B_D2D 1)).linkOn a.die.val m
  else s

/-- UCIE_HEARTBEAT_SEND. -/
def DieState.ringBeat (D : DieState) (m : Nat) : DieState :=
  let x := D.d2d.mod m
  if (x.state = 2 ∨ x.state = 3) ∧ x.beat + 10000 ≤ D.now then
    (D.onMod m (fun x => { x with beat := D.now })).out (.heartbeat m)
  else D

/-- D2D_RETRAIN: a write of D2D_CTRL with bit 2 set; the installer's. Its other bits act with it (R15). -/
def State.d2dRetrain (s : State) (a : At) (r : Req) (v : Nat) : State :=
  let s := s.atDie a (fun D => D)
  let D := s.die a.die
  if !bit v 2 then s
  else if !D.barOpen r B_D2D then s
  else if D.csrAdmits D.saf.service.isSome r B_D2D D2D_CTRL true false && 1 ≤ D.roleOf r then
    let m := D.sel r.id B_D2D D2D_MOD_SEL % 2
    let s := s.onDie a.die (fun D => (D.touchSession r).ctrlWrite r B_D2D v)
    if (D.d2d.mod m).state = 0 then s else (s.moduleDown a.die.val m 1 0).settleWorks
  else s.onDie a.die (fun D => D.refuseCsr r B_D2D D2D_CTRL true)

/-! ## Rows -/

/-- A row of the package, from a die that is not held. -/
def onPkg (a : At) (s : State) (f : State → State) : Out :=
  if (s.die a.die).boot.held then .next s else .next (f s)

/-- D2D_PACKET_RECEIVE. -/
def execD2dPacketReceive (a : At) (m : Nat) (s : State) : Out := onPkg a s (fun s => s.ringReceive a (m % 2))
/-- UCIE_MODULE_FAIL. -/
def execUcieModuleFail (a : At) (m cause : Nat) (s : State) : Out := onPkg a s (fun s => s.moduleFail a (m % 2) cause)
/-- UCIE_TRAINING_DONE. -/
def execUcieTrainingDone (a : At) (m tx rx : Nat) (s : State) : Out := onDie a s (fun D => D.moduleTrained (m % 2) tx rx)
/-- UCIE_HOLD_EXPIRE. -/
def execUcieHoldExpire (a : At) (m : Nat) (s : State) : Out := onPkg a s (fun s => s.moduleHold a (m % 2))
/-- UCIE_HEARTBEAT_SEND. -/
def execUcieHeartbeatSend (a : At) (m : Nat) (s : State) : Out := onDie a s (fun D => D.ringBeat (m % 2))
/-- D2D_RETRAIN. -/
def execD2dRetrain (a : At) (r : Req) (v : Word) (s : State) : Out := onPkg a s (fun s => s.d2dRetrain a r v.toNat)

end Sys2Proof.Machine
end

