-- ==== Sys2Proof/Machine/Resets.lean ====
section
/-! DEFINITION. The commit of the instance bank (R437-R439), instance resets (R449-R452, R158, R371) and function-level
resets (R559). -/

namespace Sys2Proof.Machine

/-! ## The checks of a commit (R438) -/

/-- A part with the S suffix (R2). -/
def sPart : Bool := decide (2 ≤ Config.partVariant.val)

/-- Are the fields of an enabled entry in range (code 1)? -/
def entryOk (t : Tab Byte) (i : Nat) : Bool :=
  let f (o n : Nat) : Nat := bankField t i o n
  let budget (soft hard n lo hi : Nat) : Bool := lo ≤ f soft n && f soft n ≤ hi && lo ≤ f hard n && f hard n ≤ hi
  f 0 1 == 1 && f 1 1 < 16 && f 2 2 % 64 == 0 && f 4 2 % 64 == 0 && f 4 2 ≤ 16384 && f 6 2 ≤ 4080
  && budget 8 10 2 1 4096 && budget 12 16 4 0 160000 && budget 20 22 2 1 256
  && (bankBytes t i 24 40).all (· == 0) && (bankBytes t i 320 64).all (· == 0)
  && (List.range 16).all (fun r =>
    f (64 + 16 * r) 8 % 0x200000 == 0 && f (72 + 16 * r) 4 % 2 == 0 && f (76 + 16 * r) 1 ≤ 2 && f (77 + 16 * r) 1 < 8
    && f (79 + 16 * r) 1 == 0)

/-- Soft limits not above the hard ones (code 6). -/
def softOk (t : Tab Byte) (i : Nat) : Bool :=
  bankField t i 8 2 ≤ bankField t i 10 2 && bankField t i 12 4 ≤ bankField t i 16 4 && bankField t i 20 2 ≤ bankField t i 22 2

/-- Populated stack bytes of a region as (stack, first offset, length): an interleaved one covers half of it in each
(R378). -/
def Region.extents (r : Region) : List (Nat × Nat × Nat) :=
  let cap := stackGiB * 2 ^ 30
  let part (n start len : Nat) : Nat × Nat × Nat := (n, start, min len (cap - start))
  if r.size = 0 then []
  else if r.view = 0 then [part 0 (r.base / 2) (r.size / 2), part 1 (r.base / 2) (r.size / 2)]
  else
    let lo := if r.view = 1 then 0x0040_0000_0000 else 0x0050_0000_0000
    [part (if r.view = 1 then 0 else 1) (r.base - lo) (r.size - (lo - r.base))]

/-- Do two regions share a byte? -/
def Region.meets (a b : Region) : Bool :=
  a.extents.any (fun x => b.extents.any (fun y => x.1 == y.1 && overlap x.2.1 x.2.2 y.2.1 y.2.2))

/-- Does a region lie in the populated range of its view (code 5)? -/
def Region.populated (r : Region) : Bool :=
  let lo := [0, 0x0040_0000_0000, 0x0050_0000_0000].getD r.view 0
  let len := if r.view = 0 then 2 * stackGiB * 2 ^ 30 else stackGiB * 2 ^ 30
  r.size == 0 || (lo ≤ r.base && r.base + r.size ≤ lo + len)

/-- What code 7 compares: clusters, seals, queues and regions. Only budgets may change while an instance runs. -/
def entryFixed (t : Tab Byte) (i : Nat) : List Byte := bankBytes t i 1 7 ++ bankBytes t i 64 256

/-- The first failing check of R438, in the order of its codes: code, instance, region. -/
def DieState.commitCheck (D : DieState) : Option (Nat × Nat × Nat) :=
  let t := D.ins.staged
  let on := (List.range 8).filter (insEnabled t)
  let first (code : Nat) (l : List Nat) (p : Nat → Bool) : Option (Nat × Nat × Nat) := (l.find? p).map (fun i => (code, i, 0))
  let others (i : Nat) : List Nat := on.filter (· != i)
  let seals (i : Nat) : Nat × Nat := (insSealBase t i, insSealCount t i)
  let region (code : Nat) (p : Nat → Region → Bool) : Option (Nat × Nat × Nat) :=
    (on.flatMap (fun i => (List.range 16).map (fun r => (i, r)))).find? (fun x => p x.1 (insRegion t x.1 x.2))
      |>.map (fun x => (code, x.1, x.2))
  let both := on.filter (insEnabled D.ins.active)
  (first 1 on (fun i => !entryOk t i))
  <|> (first 2 on (fun i => (others i).any (fun j => andN (insClusters t i) (insClusters t j) != 0)))
  <|> (first 3 on (fun i => 16384 < (seals i).1 + (seals i).2
        || (others i).any (fun j => overlap (seals i).1 (seals i).2 (seals j).1 (seals j).2)))
  <|> (region 4 (fun i r => (others i).any (fun j => (insRegions t j).any r.meets)))
  <|> (region 5 (fun _ r => !r.populated))
  <|> (first 6 on (fun i => !softOk t i))
  <|> (first 7 both (fun i => entryFixed t i != entryFixed D.ins.active i))
  <|> (if bankBytes t 0 0 384 != bankBytes D.ins.active 0 0 384 && D.saf.service.isNone then some (8, 0, 0) else none)
  <|> (if (!insEnabled t 0 || insClusters t 0 == 0) && sPart then some (9, 0, 0) else none)
  <|> (D.ins.resets.head?.map (fun e => (10, e.1, 0)))

/-! ## The start of a reset (R450, R451) -/

/-- Is a packet a request of this die that carries the instance? -/
def DieState.ownRequest (D : DieState) (i : Nat) (p : Packet) : Bool :=
  p.srcNode == D.fab.node && p.srcDie == D.num && p.inst == i && (pkVc p.kind == 0)

/-- Requests of the instance that wait at the egress of the fabric and of the ring are dropped (R450, R451). -/
def DieState.dropEgress (D : DieState) (i : Nat) : DieState :=
  let keep (o : OutPkt) : Bool := !(o.ingress == 2 && D.ownRequest i o.pkt)
  let D : DieState := { D with fab := { D.fab with
      transit := D.fab.transit.filter (fun x => !(x.1 == 2 && D.ownRequest i x.2))
      tagWait := D.fab.tagWait.filter (fun e => e.pkt.inst != i) } }
  [0, 1].foldl (fun (D : DieState) p => (D.onPort p (fun x => { x with waiting := x.waiting.filter keep })).onMod p
    (fun x => { x with out := x.out.filter (fun m => !D.ownRequest i m.pkt) })) D

/-- The stipple unit drops what the instance has fed (R450). -/
def DieState.dropFeeds (D : DieState) (i : Nat) : DieState :=
  let mine (id : Nat) : Bool := D.cmd.cmds.any (fun c => c.id == id && c.inst == i)
  { D with stp := { D.stp with
      intake := D.stp.intake.filter (fun x => match x with | .pkt p => !(p.port == 4 && p.inst == i) | _ => true)
      feeds := D.stp.feeds.filter (fun f => !mine f.cmd)
      poses := D.stp.poses.filter (fun p => !mine p.2.2) } }

/-- The instance's tasks stop (R201). -/
def DieState.stopTasks (D : DieState) (i : Nat) : DieState :=
  (D.task.tasks.filter (fun t => t.inst == i)).foldl (fun (D : DieState) t => D.endTaskBadly t
    { status := .refusedInstanceReset, op := 0xFFFFFFFF
      core := D.globalCore ((maskCores (tdCoreMask t.desc)).headD 0), engine := 0, quiet := true }) D

/-- Every accepted, delayed or waiting command of the instance is replied to. -/
def DieState.refuseAll (D : DieState) (i : Nat) : DieState :=
  let ids := (D.cmd.cmds.filter (fun c => c.inst == i && !D.keepsSlot c.id)).map (·.id)
  let D : DieState := { D with cmd := { D.cmd with
      waits := D.cmd.waits.filter (fun w => match w.who with | .cmd id => !ids.contains id | _ => true)
      qwaits := D.cmd.qwaits.filter (fun w => !ids.contains w.cmd) } }
  ids.foldl (fun (D : DieState) id => D.replyId id .refusedInstanceReset) D

/-- A reset of instance i is accepted: its work stops and is dropped, the generation moves on, the gate closes. One
that is in progress is joined; of an instance that is not enabled there is none (R449). -/
def DieState.beginReset (D : DieState) (i : Nat) (fromCommit : Bool := false) : DieState :=
  match tabFind D.ins.resets i with
  | some x => { D with ins := { D.ins with resets := tabPut i { x with fromCommit := x.fromCommit || fromCommit } D.ins.resets } }
  | none =>
    if !insEnabled D.ins.active i then D
    else
      let entry := bankBytes D.ins.active i 0 384
      let D := ((D.stopTasks i).dropFeeds i).fgrReset i
      let D := ((D.combReset i).refuseAll i).dropEgress i
      { D with ins := { D.ins with
          gens := tabMod 0 i (fun g => (g + 1) % 256) D.ins.gens
          resets := tabPut i { start := D.now, fromCommit := fromCommit, entry := entry } D.ins.resets } }

/-! ## Its end (R450, R158, R424, R452) -/

/-- The stores of a cluster are zeroed, its windows closed, and its generators left undefined until they are seeded
(R63, R158). -/
def DieState.zeroCluster (D : DieState) (c : Nat) : DieState :=
  let D := D.fillReady c 0 0x2000000
  let D := (D.onCluster c (fun C => { C with fills := [], bufs := [], held := [] })).closeRwins c
  [0, 1, 2, 3].foldl (fun (D : DieState) k => D.onCore (4 * c + k) (fun k => { k with
    engines := tabMap (fun _ e => { e with lanes := [] }) k.engines })) D

/-- Free an instance's queues; of its admin pair, the slots not fetched are passed over. -/
def DieState.freeQueues (D : DieState) (i : Nat) : DieState :=
  let mine := D.queueNums.filter (fun q => 16 ≤ q && (D.queue q).inst == i)
  let D := mine.foldl (fun (D : DieState) q => (D.setQueue q {}).releaseHeld q) D
  D.setQueue (2 * i) { D.queue (2 * i) with head := (D.queue (2 * i)).tail, headSince := none, promoted := false }

/-- The reset of instance i completes. -/
def DieState.completeReset (D : DieState) (i : Nat) : DieState :=
  match tabFind D.ins.resets i with
  | none => D
  | some x =>
    let f (o n : Nat) : Nat := field x.entry o n
    let D := ((List.range 4).filter (bit (f 1 1))).foldl (fun (D : DieState) c => D.zeroCluster c) D
    let seals := ((List.range (f 4 2)).map (f 2 2 + ·)).filter (fun n => (D.sealOf n).alloc)
    let D := seals.foldl (fun (D : DieState) n => D.newUse n false) D
    let D := D.freeQueues i
    let regions := (List.range 16).filter (fun r => f (72 + 16 * r) 4 != 0 && bit (f (77 + 16 * r) 1) 2)
    let scrubs : List Scrub := regions.map (fun r =>
      { inst := i, index := r, base := f (64 + 16 * r) 8, size := f (72 + 16 * r) 4 * 2 ^ 20, view := f (76 + 16 * r) 1 })
    let left := tabDel i D.ins.resets
    let done := D.ins.commitBusy && !(left.any (fun e => e.2.fromCommit))
    let D : DieState := { D with ins := { D.ins with
        resets := left, scrubs := D.ins.scrubs ++ scrubs, commitBusy := D.ins.commitBusy && !done }
                                 pcie := { D.pcie with flrs := D.pcie.flrs.filter (fun e => e.2 != i) } }
    let D := (D.cause B_INS 1).event { cls := 1, code := 0x07, inst := some i, count := D.gen i }
    if done then D.cause B_INS 2 else D

/-- A region has been zeroed, in whole granules (R392, R452). -/
def DieState.scrubRegion (D : DieState) (i index : Nat) : DieState :=
  match D.ins.scrubs.find? (fun s => s.inst == i && s.index == index) with
  | none => D
  | some s =>
    let r : Region := { base := s.base, size := s.size, view := s.view, rights := 0, shared := 0 }
    let D := r.extents.foldl (fun (D : DieState) e => { D with mem := { D.mem with
        bytes := memZero D.mem.bytes (stackKey e.1 e.2.1) e.2.2
        grans := D.mem.grans.filter (fun g => g.1 < stackKey e.1 e.2.1 / 32 || (stackKey e.1 e.2.1 + e.2.2) / 32 ≤ g.1) } }) D
    let D : DieState := { D with ins := { D.ins with scrubs := D.ins.scrubs.erase s } }
    if D.ins.scrubs.isEmpty then D.cause B_INS 4 else D

/-! ## Requests for a reset -/

/-- A commit (R438, R439): its result, and the resets of what it disables, on the bank as it stood. -/
def DieState.commitBank (D : DieState) : DieState :=
  match D.commitCheck with
  | some (code, i, r) => (D.setReg B_INS INS_COMMIT_STATUS (code + i * 2 ^ 8 + r * 2 ^ 16)).cause B_INS 2
  | none =>
    let gone := (List.range 8).filter (fun i => insEnabled D.ins.active i && !insEnabled D.ins.staged i)
    let D := gone.foldl (fun (D : DieState) i => D.beginReset i true) D
    let D := D.setReg B_INS INS_COMMIT_STATUS 0
    let D : DieState := { D with ins := { D.ins with active := D.ins.staged, commitBusy := !gone.isEmpty }
                                 toFlash := D.toFlash ++ [.instances D.num (memRead D.ins.staged 0 3072)] }
    if gone.isEmpty then D.cause B_INS 2 else D

/-- A write of INS_CTRL: its fields, a commit, and cleared counters. -/
def DieState.insCtrl (D : DieState) (r : Req) (v : Nat) : DieState :=
  D.csrDo r B_INS INS_CTRL (fun D =>
    let D := D.ctrlWrite r B_INS v
    if bit v 2 then D.commitBank else D)

/-- A write of INS_RESET (R449): by the installer any bit, by others the bit of the instance they carry. -/
def DieState.insReset (D : DieState) (r : Req) (v : Nat) : DieState :=
  D.csrDo r B_INS INS_RESET (fun D =>
    let want := (List.range 8).filter (bit v)
    if 1 ≤ D.roleOf r then want.foldl (fun (D : DieState) i => D.beginReset i) D
    else
      let other := v % 256 - (if bit v r.inst then 2 ^ r.inst else 0)
      let D := if other = 0 then D else
        D.event { cls := 7, code := 0x02, inst := some r.inst, loc := other, ident := refusalIdent r D.num 4 true }
      if bit v r.inst then D.beginReset r.inst else D)

/-! ## Rows -/

/-- INS_COMMIT: a write of INS_CTRL with the commit bit. -/
def execInsCommit (a : At) (r : Req) (v : Word) (s : State) : Out :=
  if (s.die a.die).boot.held then .next s else .next (s.atDie a (fun D => D.insCtrl r v.toNat)).settleFlash.settleWorks

/-- INSTANCE_RESET: a write of INS_RESET. -/
def execInstanceReset (a : At) (r : Req) (v : Word) (s : State) : Out := onWorks a s (fun D => D.insReset r v.toNat)

/-- REGION_SCRUB_DONE. -/
def execRegionScrubDone (a : At) (inst index : Nat) (s : State) : Out := onDie a s (fun D => D.scrubRegion inst index)

end Sys2Proof.Machine
end

