-- ==== Sys2Proof/Machine/Eth.lean ====
section
/-! DEFINITION. The Ethernet ports (R562-R569, R578, R579), PTP and the time base (R566, R599), the Ethernet reference
(R598). -/

namespace Sys2Proof.Machine

/-! ## Addresses (R562) -/

def DieState.ethPort (D : DieState) (p : Nat) : EthPort := tabGet {} D.eth p
def DieState.onEth (D : DieState) (p : Nat) (f : EthPort → EthPort) : DieState := { D with eth := tabMod {} p f D.eth }

/-- MAC address of a port: 0-3 ingest, 4 safety. -/
def DieState.macOf (D : DieState) (p : Nat) : Nat :=
  (Config.baseMac + (if p = 4 then 16 + D.num else 4 * D.num + p)) % 2 ^ 48

/-- IPv4 and IPv6 addresses of a port. -/
def DieState.ip4Of (D : DieState) (p : Nat) : Nat := D.reg B_ETH ETH_PORT_IPV4 p
def DieState.ip6Of (D : DieState) (p : Nat) : Nat :=
  (List.range 4).foldl (fun v i => v + D.reg B_ETH (ETH_PORT_IPV6 + 4 * i) p * 2 ^ (32 * i)) 0

/-- Entry e of a port's lists: 0-15 multicast addresses, 16-23 VLAN IDs (R578). -/
def DieState.ethList (D : DieState) (p e : Nat) : Nat := D.reg64 B_ETH ETH_PORT_LIST (p + 8 * e)

/-- Is a multicast address accepted by the port? -/
def DieState.mcastOk (D : DieState) (p mac : Nat) : Bool :=
  mac == 0x011B19000000 || mac == 0x0180C200000E
  || (List.range 16).any (fun e => D.ethList p e % 2 ^ 48 == mac && bit mac 40)

/-- Is a VLAN ID permitted? -/
def DieState.vidOk (D : DieState) (p vid : Nat) : Bool :=
  (List.range 8).any (fun e => bit (D.ethList p (16 + e)) 15 && D.ethList p (16 + e) % 4096 == vid)

/-! ## A received frame (R563) -/

/-- Big-endian field of a frame. -/
def bef (l : List Byte) (o n : Nat) : Nat := beNat ((l.drop o).take n)

/-- The Internet checksum of bytes: the sum of their 16-bit words, folded. -/
def netSum (l : List Byte) : Nat :=
  let l := if l.length % 2 = 1 then l ++ [0] else l
  let s := (List.range (l.length / 2)).foldl (fun n i => n + bef l (2 * i) 2) 0
  let s := s % 65536 + s / 65536
  let s := s % 65536 + s / 65536
  s % 65536 + s / 65536

/-- A frame taken apart. -/
structure EthFrame where
  dst : Nat
  src : Nat
  /-- the tag's two bytes -/
  tag : Option Nat
  kind : Nat
  body : List Byte
deriving DecidableEq, Repr

/-- Take a frame without its FCS apart. -/
def ethFrame (f : List Byte) : EthFrame :=
  if bef f 12 2 = 0x8100 then
    { dst := bef f 0 6, src := bef f 6 6, tag := some (bef f 14 2), kind := bef f 16 2, body := f.drop 18 }
  else { dst := bef f 0 6, src := bef f 6 6, tag := none, kind := bef f 12 2, body := f.drop 14 }

/-- Is it an ARP frame for everyone, for the port, or for a group it accepts (step 3)? -/
def DieState.dstOk (D : DieState) (p : Nat) (x : EthFrame) : Bool :=
  x.dst == D.macOf p || (x.dst == 2 ^ 48 - 1 && x.kind == 0x0806) || D.mcastOk p x.dst

/-- An IP packet: version, addresses (as in a stream's match key, R75), protocol, and payload. -/
structure IpPacket where
  v6 : Bool
  src : List Byte
  dst : List Byte
  proto : Nat
  body : List Byte
deriving DecidableEq, Repr

/-- The IPv4-mapped form of an address. -/
def mapped4 (a : List Byte) : List Byte := List.replicate 10 0 ++ [0xFF, 0xFF] ++ a

/-- Is the destination the port's own address, or a group it accepts (step 6)? -/
def DieState.ipDstOk (D : DieState) (p : Nat) (v6 : Bool) (dst : List Byte) : Bool :=
  let n := beNat dst
  if v6 then
    (n == D.ip6Of p && n != 0) || ((dst.getD 0 0) == 0xFF && D.mcastOk p (0x3333_0000_0000 + n % 2 ^ 32))
  else
    (n == D.ip4Of p && n != 0) || (bits n 28 4 == 14 && D.mcastOk p (0x0100_5E00_0000 + n % 2 ^ 23))

/-- The IP header's checks (step 6); none: it fails. -/
def DieState.ipOf (D : DieState) (p : Nat) (x : EthFrame) : Option IpPacket :=
  let b := x.body
  if x.kind = 0x0800 then
    let h := 4 * bits (bef b 0 1) 0 4
    let n := bef b 2 2
    let dst := (b.drop 16).take 4
    if bits (bef b 0 1) 4 4 == 4 && 20 ≤ h && h ≤ n && n ≤ b.length && netSum (b.take h) == 0xFFFF
        && bits (bef b 6 2) 0 14 == 0 && D.ipDstOk p false dst then
      some { v6 := false, src := mapped4 ((b.drop 12).take 4), dst := dst, proto := bef b 9 1, body := (b.take n).drop h }
    else none
  else
    let n := bef b 4 2
    let dst := (b.drop 24).take 16
    if bits (bef b 0 1) 4 4 == 6 && 40 + n ≤ b.length && (bef b 6 1 == 17 || bef b 6 1 == 58) && D.ipDstOk p true dst then
      some { v6 := true, src := (b.drop 8).take 16, dst := dst, proto := bef b 6 1, body := (b.drop 40).take n }
    else none

/-- The pseudo-header of an upper-layer checksum. -/
def pseudo (v6 : Bool) (src dst : List Byte) (proto n : Nat) : List Byte :=
  if v6 then src ++ dst ++ toBE 4 n ++ toBE 4 proto else src.drop 12 ++ dst ++ toBE 2 proto ++ toBE 2 n

/-- The UDP datagram's checks (step 7): its length and its checksum. -/
def udpOk (q : IpPacket) : Bool :=
  let n := bef q.body 4 2
  8 ≤ n && n ≤ q.body.length
  && ((!q.v6 && bef q.body 6 2 == 0)
    || (bef q.body 6 2 != 0 && netSum (pseudo q.v6 q.src q.dst 17 n ++ q.body.take n) == 0xFFFF))

/-! ## Sending, and the reply logic (R565) -/

/-- A frame without its FCS, padded to the least length, with its FCS. -/
def sealFrame (f : List Byte) : List Byte :=
  let f := if f.length < 60 then padTo 60 f else f
  f ++ toLE 4 (fcs f)

/-- Header of a frame. -/
def ethHeader (dst src : Nat) (tag : Option Nat) (kind : Nat) : List Byte :=
  toBE 6 dst ++ toBE 6 src ++ (match tag with | some t => toBE 2 0x8100 ++ toBE 2 t | none => []) ++ toBE 2 kind

/-- Send a reply: at most 100 in a second (R565). kind: 1 ARP, 2 Neighbor Advertisement, 3 echo. -/
def DieState.ethReply (D : DieState) (p kind : Nat) (x : EthFrame) (etype : Nat) (body : List Byte) : DieState :=
  let sec := D.now / 1000000000
  let r := (D.ethPort p).replies
  let n := if r.1 = sec then r.2 else 0
  if 100 ≤ n then D.count B_ETH ETH_RX_FILTERED 1 p
  else
    let D := D.onEth p (fun e => { e with replies := (sec, n + 1) })
    (D.out (.frame p kind (sealFrame (ethHeader x.src (D.macOf p) x.tag etype ++ body)))).count B_ETH ETH_TX_FRAMES 1 p

/-- An IP packet back to where one came from. -/
def ipBack (q : IpPacket) (body : List Byte) : List Byte :=
  if q.v6 then toBE 4 0x6000_0000 ++ toBE 2 body.length ++ toBE 1 q.proto ++ toBE 1 255 ++ q.dst ++ q.src ++ body
  else
    let h (c : Nat) : List Byte := toBE 2 0x4500 ++ toBE 2 (20 + body.length) ++ toBE 4 0 ++ toBE 1 64 ++ toBE 1 q.proto
      ++ toBE 2 c ++ q.dst ++ q.src.drop 12
    h (0xFFFF - netSum (h 0)) ++ body

/-- A checksum put at offset 2 of an ICMP or ICMPv6 message. -/
def icmpSeal (q : IpPacket) (m : List Byte) : List Byte :=
  let ph := if q.v6 then pseudo true q.dst q.src 58 m.length else []
  putBytes m 2 (toBE 2 (0xFFFF - netSum (ph ++ putBytes m 2 [0, 0])))

/-- ARP requests for the port's own address are answered. -/
def DieState.takeArp (D : DieState) (p : Nat) (x : EthFrame) : DieState :=
  let b := x.body
  if bef b 0 6 = 0x0001_0800_0604 ∧ bef b 6 2 = 1 ∧ bef b 24 4 = D.ip4Of p ∧ D.ip4Of p ≠ 0 then
    D.ethReply p 1 x 0x0806
      (toBE 6 0x0001_0800_0604 ++ toBE 2 2 ++ toBE 6 (D.macOf p) ++ toBE 4 (D.ip4Of p) ++ (b.drop 8).take 10)
  else D

/-- Echo requests and Neighbor Solicitations for the port's own addresses are answered. -/
def DieState.takeIcmp (D : DieState) (p : Nat) (x : EthFrame) (q : IpPacket) : DieState :=
  let m := q.body
  let own := if q.v6 then beNat q.dst == D.ip6Of p else beNat q.dst == D.ip4Of p
  if q.v6 && bef m 0 1 == 135 && bef m 8 16 == D.ip6Of p && D.ip6Of p != 0 then
    let adv := toBE 4 0x8800_0000 ++ toBE 4 0x6000_0000 ++ toBE 16 (D.ip6Of p) ++ toBE 2 0x0201 ++ toBE 6 (D.macOf p)
    let q := { q with dst := toBE 16 (D.ip6Of p) }
    D.ethReply p 2 x x.kind (ipBack q (icmpSeal q adv))
  else if own && bef m 0 1 == (if q.v6 then 128 else 8) then
    let m := putBytes m 0 [if q.v6 then 129 else 0, 0]
    D.ethReply p 3 x x.kind (ipBack q (icmpSeal q m))
  else D

/-- The first 16 bytes of the chassis ID of an LLDP frame: its first TLV's value behind the subtype (R578). -/
def DieState.takeLldp (D : DieState) (p : Nat) (x : EthFrame) : DieState :=
  let n := bits (bef x.body 0 2) 0 9
  if bits (bef x.body 0 2) 9 7 ≠ 1 then D
  else
    let id := padTo 16 ((x.body.drop 3).take (n - 1))
    let D := D.onEth p (fun e => { e with partner := true })
    (List.range 4).foldl (fun (D : DieState) i => D.setReg B_ETH (ETH_PARTNER_ID + 4 * i) (field id (4 * i) 4) p) D

/-! ## PTP (R566, R599) -/

/-- The time base steps: the open frame and slice close, and those that hold the new time open. -/
def DieState.stepTime (D : DieState) (t : Nat) : DieState :=
  let back := decide (t < D.now)
  let D := if D.stp.replay then { D with now := t } else ({ (D.closeSlice D.now) with now := t }).openPresent
  if back then { D with saf := { D.saf with lastFrame := none } } else D

/-- Lock is gained or lost: a loss is doubt 7, and the die must acquire again. -/
def DieState.setLock (D : DieState) (on : Bool) : DieState :=
  if D.ptp.locked == on then D
  else
    let D := (({ D with ptp := { D.ptp with locked := on } }).cause B_ETH 1).clockSeen
    if on then D
    else ({ D with ptp := { D.ptp with acquired := false, syncs := 0, near := 0 } }).doubt 7

/-- An offset measurement of an acquired grandmaster, in ns. -/
def DieState.judgeOffset (D : DieState) (o : Int) : DieState :=
  let near := if o.natAbs ≤ 1000 then D.ptp.near + 1 else 0
  let D := { D with ptp := { D.ptp with near := near } }
  if D.ptp.locked && decide (10000 < o.natAbs) then D.setLock false
  else if 16 ≤ near then D.setLock true else D

/-- What IEEE 1588 made of a PTP message on a port. -/
def DieState.takePtp (D : DieState) (p : Nat) (x : PtpIn) : DieState :=
  let D := if D.ptp.gm = some x.gm then { D with ptp := { D.ptp with port := p } }
    else ((D.setReg64 B_ETH ETH_PTP_GM_ID (x.gm % 2 ^ 64)).cause B_ETH 2 |> fun (D : DieState) =>
      { D with ptp := { D.ptp with gm := some x.gm, port := p, syncs := 0, acquired := false, near := 0, lastSync := D.now } })
  let D := if x.sync then
      { D with ptp := { D.ptp with lastSync := D.now, syncs := if x.offset.isSome then D.ptp.syncs + 1 else 0 } } else D
  match x.offset with
  | none => D
  | some o =>
    let D := D.setReg B_ETH ETH_PTP_OFFSET (wrapN 32 o)
    if D.ptp.acquired then D.judgeOffset o
    else if D.ptp.locked && decide (10000 < o.natAbs) then D.setLock false
    else if x.sync && decide (16 ≤ D.ptp.syncs) then
      let D := { D with ptp := { D.ptp with acquired := true, near := 0 } }
      if 1000000 < o.natAbs then D.stepTime ((D.now : Int) - o).toNat else D
    else D

/-- 3 s without a Sync of the elected grandmaster. -/
def DieState.syncTimeout (D : DieState) : DieState :=
  if D.ptp.gm.isSome && !D.ptp.viaUcie && decide (D.ptp.lastSync + 3000000000 ≤ D.now) then
    ({ D with ptp := { D.ptp with syncs := 0 } }).setLock false else D

/-- Has the die a port with PTP enabled? -/
def DieState.ptpPorts (D : DieState) : Bool := (List.range 5).any (fun p => bit (D.reg B_ETH ETH_PORT_CTRL p) 2)

/-- The die follows a leader, or has none to follow. -/
def DieState.follow (D : DieState) (leader : Option DieState) : DieState :=
  match leader with
  | some L =>
    let D := if !D.ptp.locked && decide (1000000 < ((L.now : Int) - D.now).natAbs) then D.stepTime L.now else D
    ({ D with ptp := { D.ptp with viaUcie := true } }).setLock true
  | none => ({ D with ptp := { D.ptp with viaUcie := false } }).setLock false

/-- Dies without a PTP-enabled port follow the lowest-numbered locked die of the package (R566). -/
def State.settlePtp (s : State) : State :=
  let leader := (s.running.find? (fun d => (quadGet s.dies d).ptpPorts && (quadGet s.dies d).ptp.locked)).map (quadGet s.dies)
  s.onRunning (fun D => if D.ptpPorts then { D with ptp := { D.ptp with viaUcie := false } } else D.follow leader)

/-- A row of one die after which the others take its time. -/
def onPtp (a : At) (s : State) (f : DieState → DieState) : Out :=
  if (s.die a.die).boot.held then .next s else .next (s.atDie a f).settlePtp

/-! ## A frame's way (R563, R564, R569) -/

/-- A frame that passed the checks goes where its kind belongs. -/
def DieState.routeFrame (D : DieState) (p : Nat) (x : EthFrame) (first : Nat) (ptp : Option PtpIn) : DieState :=
  let drop (D : DieState) (c : Nat) : DieState := D.count B_ETH c 1 p
  let toPtp (D : DieState) : DieState := match ptp with
    | some m => if bit (D.reg B_ETH ETH_PORT_CTRL p) 2 then D.takePtp p m else D
    | none => D
  if x.kind = 0x88F7 then toPtp D
  else if x.kind = 0x0806 then D.takeArp p x
  else if x.kind = 0x88CC then (if p = 4 then drop D ETH_RX_FILTERED else D.takeLldp p x)
  else match D.ipOf p x with
    | none => drop D ETH_RX_IP_ERR
    | some q =>
      if q.proto = 17 then
        if !udpOk q then drop D ETH_RX_CSUM_ERR
        else
          let port := bef q.body 2 2
          let data := (q.body.take (bef q.body 4 2)).drop 8
          if port = 319 ∨ port = 320 then toPtp D
          else if p = 4 then drop D ETH_RX_FILTERED
          else D.intakeUdp p q.src port data first
      else if (q.v6 && q.proto == 58) || (!q.v6 && q.proto == 1) then
        let known := bef q.body 0 1 == (if q.v6 then 128 else 8) || (q.v6 && bef q.body 0 1 == 135)
        if p = 4 && !known then drop D ETH_RX_FILTERED else D.takeIcmp p x q
      else if p = 4 then drop D ETH_RX_FILTERED
      else D

/-- Steps 1 to 5 of R563 on a frame with its FCS. -/
def DieState.checkFrame (D : DieState) (p : Nat) (f : List Byte) (bad : Bool) (first : Nat) (ptp : Option PtpIn) : DieState :=
  let D := D.count B_ETH ETH_RX_FRAMES 1 p
  let n := f.length - 4
  let x := ethFrame (f.take n)
  let drop (c : Nat) : DieState := D.count B_ETH c 1 p
  if bad || field f n 4 != fcs (f.take n) then drop ETH_RX_FCS_ERR
  else if f.length < 64 ∨ 9216 < f.length then drop ETH_RX_LEN_ERR
  else if !D.dstOk p x || !(match x.tag with | some t => D.vidOk p (t % 4096) | none => true)
      || !([0x0800, 0x86DD, 0x0806, 0x88F7, 0x88CC].contains x.kind) then drop ETH_RX_FILTERED
  else D.routeFrame p x first ptp

/-- A frame has come in: injections of the port act on it first (R504). corr, bad: codewords that RS-FEC has corrected,
and has not. -/
def DieState.ethReceive (D : DieState) (p corr bad : Nat) (f : List Byte) (first : Nat) (ptp : Option PtpIn) : DieState :=
  let x := D.ethPort p
  if !x.link then D
  else
    let D := if x.fec then (D.count B_ETH ETH_FEC_CORR corr p).count B_ETH ETH_FEC_UNCORR bad p else D
    let lost := x.fec && bad != 0
    if p = 4 then D.checkFrame p f lost first ptp
    else
      let r := D.linkPass 2 (4 * D.num + p) false { kind := 0, body := f.take (f.length - 4) }
      r.1.foldl (fun (D : DieState) q =>
        let whole := q.1.body ++ (if q.1.body = f.take (f.length - 4) then f.drop (f.length - 4) else toLE 4 (fcs q.1.body))
        D.checkFrame p (match q.2 with | some b => flipBit whole b | none => whole) lost first ptp) r.2

/-! ## Links and references -/

/-- A port's link goes up or down. -/
def DieState.ethLink (D : DieState) (p : Nat) (up fec fault : Bool) : DieState :=
  let x := D.ethPort p
  if up && !(bit (D.reg B_ETH ETH_PORT_CTRL p) 0 && D.clk.refEth) then D
  else
    let D := D.onEth p (fun e => { e with link := up, fec := up && fec && p != 4, remoteFault := fault })
    if x.link == up then D
    else (D.cause B_ETH 0).event { cls := 11, code := 0x03, island := if p = 4 then 33 else 32, ident := p, cause := b2n up }

/-- The Ethernet reference is lost: its links go down (R598). -/
def DieState.ethRefLoss (D : DieState) : DieState :=
  if !D.clk.refEth then D
  else
    let D := { D with clk := { D.clk with refEth := false } }
    let D := (D.cause B_CLK 0).event { cls := 2, code := 0x01, ident := 2 }
    (List.range 5).foldl (fun (D : DieState) p => D.ethLink p false false false) D

/-- The 1PPS input against the second of PTP: a difference above 1 µs is an event (R566). -/
def DieState.ppsEdge (D : DieState) (o : Int) : DieState :=
  let D := D.setReg B_ETH ETH_PPS_OFFSET (wrapN 32 o)
  if 1000 < o.natAbs then (D.cause B_ETH 3).event { cls := 2, code := 0x07, loc := D.now } else D

/-! ## Rows -/

/-- ETH_FRAME_RX: port, codewords corrected and not correctable, the frame with its FCS, the time of its first byte
(its last is the command's), and what a PTP message means. -/
def execEthFrameRx (a : At) (port corr bad : Nat) (bytes : List Byte) (first : Nat) (ptp : Option PtpIn) (s : State) : Out :=
  onPtp a s (fun D => if port < 5 then D.ethReceive port corr bad bytes first ptp else D)

/-- ETH_LINK_CHANGE. -/
def execEthLinkChange (a : At) (port : Nat) (up fec fault : Bool) (s : State) : Out :=
  onDie a s (fun D => if port < 5 then D.ethLink port up fec fault else D)

/-- PTP_SYNC_TIMEOUT. -/
def execPtpSyncTimeout (a : At) (s : State) : Out := onPtp a s (fun D => D.syncTimeout)

/-- PPS_EDGE: the 1PPS input minus the second of PTP, ns. -/
def execPpsEdge (a : At) (offset : Int) (s : State) : Out := onDie a s (fun D => D.ppsEdge offset)

/-- ETHREF_LOSS. -/
def execEthrefLoss (a : At) (s : State) : Out :=
  .next (s.atDie a (fun D => if D.boot.held then D.pinRef 2 false else D.ethRefLoss))

end Sys2Proof.Machine
end

