-- ==== Sys2Proof/Machine/Links.lean ====
section
/-! DEFINITION. Injections on links (R504-R506), and the end of injections (R628). -/

namespace Sys2Proof.Machine

/-- Dies that own the target of a link injection: both ends of a UCIe link (R23, R26). -/
def injectDies (d : List Byte) : List Nat :=
  let i := field d 1 1
  match field d 0 1 with
  | 0 => [i / 2]
  | 1 => [i % 4, (i + 1) % 4]
  | _ => [i / 4]

/-- The fields of a link injection's descriptor (R504). -/
def linkDescOk (d : List Byte) : Bool :=
  let f (o n : Nat) : Nat := field d o n
  let t := f 0 1
  t ≤ 2 && f 1 1 < [8, 4, 16].getD t 0 && f 2 1 ≤ 4
  && (if t = 2 then f 3 1 == 2 && f 4 1 == 15 else f 3 1 < 4 && f 4 1 < 16)
  && zeros d 6 2 && zeros d 28 4 && 1 ≤ f 8 4 && f 8 4 ≤ 2 ^ 20 && 1 ≤ f 20 4 && f 20 4 ≤ 3600000
  && (if f 2 1 = 3 then 2 ≤ f 16 4 && f 16 4 ≤ 16 else if f 2 1 = 4 then 1 ≤ f 16 4 && f 16 4 ≤ 1000
      else if f 2 1 = 0 then true else f 24 4 < (if t = 2 then 73728 else 2048))

/-- LINK_INJECT. rivals claim an injection slot of the die in the same cycle (R423). -/
def State.linkInject (s : State) (d : Die) (c : Cmd) (rivals : List Nat) : State :=
  let D := s.die d
  let x := padTo 32 c.params
  let dies := injectDies x
  if !linkDescOk x || !(dies.contains d.val) then s.replyAt d c .faultFormat 16
  else if !(c.role == 2 || (c.role == 1 && !bit (field x 5 1) 0)) then s.replyAt d c .refusedRole
  else if !(dies.all (fun e => (quadGet s.dies e).saf.service.isSome)) then s.replyAt d c .refusedServiceMode
  else
    let free := (List.range 4).filter (fun k => (tabFind D.fab.injections k).isNone)
    match runM (claim 13 209 free.length c.queue rivals) D, free.head? with
    | (.error f, _), _ => s.replyAt d c f.status f.reason
    | (.ok _, _), none => s.replyAt d c .refusedFull 13
    | (.ok _, E), some k =>
      let id := D.log.nextInj
      let j : LinkInj := { id := id, desc := x, start := D.now }
      (s.onDie d (fun _ => ({ E with
        log := { E.log with nextInj := id + 1 }
        fab := { E.fab with injections := tabPut k j E.fab.injections, injStarted := E.fab.injStarted + 1 } }).event
          { cls := 13, code := 0x01, island := 39, ident := id })).replyAt d c .ok 0 (toLE 4 id)

/-- A packet held by an injection of die d goes on, as after the injection. -/
def State.release (s : State) (d : Nat) (x : LinkInj) (h : Nat × Bool × Packet) : State :=
  let i := field x.desc 1 1
  let p := h.2.2
  let at_ (e : Nat) (f : DieState → DieState) : State := { s with dies := quadMod s.dies e f }
  match field x.desc 0 1, h.2.1 with
  | 0, true => at_ d (fun D =>
      let D := D.onPort (i % 2) (fun y => { y with waiting := y.waiting ++ [{ ingress := 2, pkt := p }] })
      D.drainPort (i % 2) ((D.port (i % 2)).waiting.length + 1))
  | 0, false => at_ d (fun D => D.takeIn (i % 2) p)
  | 1, tx =>
    let other := if d = i then (i + 1) % 4 else i
    let e := if tx then other else d
    at_ e (fun D => D.ringPacket (if e = i then 0 else 1) none p)
  | _, _ => at_ d (fun D =>
      D.checkFrame (i % 4) (p.body ++ toLE 4 (fcs p.body)) false h.1 none)

/-- End the injections of die d that p picks: what they hold goes on (R505, R506). -/
def State.endLinks (s : State) (d : Nat) (p : LinkInj → Bool) : State :=
  let gone := (quadGet s.dies d).fab.injections.filter (fun e => p e.2)
  gone.foldl (fun (s : State) e =>
    let s := { s with dies := quadMod s.dies d (fun D =>
      ({ D with fab := { D.fab with injections := tabDel e.1 D.fab.injections } }).event
        { cls := 13, code := 0x02, island := 39, ident := e.2.id }) }
    e.2.held.foldl (fun (s : State) h => s.release d e.2 h) s) s

/-- LINK_INJECT_STOP: an injection ID. -/
def State.linkStop (s : State) (d : Die) (c : Cmd) : State :=
  if (s.die d).fab.injections.any (fun e => e.2.id == c.p 0 4) then
    (s.endLinks d.val (fun x => x.id == c.p 0 4)).replyAt d c .ok
  else s.replyAt d c .faultStaleGeneration

/-- Packets whose delay is over go on (R505). -/
def State.releaseDelayed (s : State) (d : Nat) (now : Nat) : State :=
  (quadGet s.dies d).fab.injections.foldl (fun (s : State) e =>
    let due (h : Nat × Bool × Packet) : Bool := e.2.action == 4 && decide (h.1 + field e.2.desc 16 4 * 1000 ≤ now)
    let s := { s with dies := quadMod s.dies d (fun D => { D with fab := { D.fab with
      injections := tabMap (fun k x => if k = e.1 then { x with held := x.held.filter (fun h => !due h) } else x)
        D.fab.injections } }) }
    (e.2.held.filter due).foldl (fun (s : State) h => s.release d e.2 h) s) s

/-- Injections of a die whose count or duration is reached end; delayed packets that are due go on. -/
def State.expireLinks (s : State) (d : Nat) (now : Nat) : State :=
  (s.releaseDelayed d now).endLinks d (fun x =>
    decide (x.start + field x.desc 20 4 * 1000000 ≤ now) || (x.count != 0 && decide (x.count ≤ x.acted) && (x.action != 4 || x.held.isEmpty)))

/-- A die leaves service mode: its injections end, and those on a link to it (R506, R545). -/
def State.endInjections (s : State) (d : Die) : State :=
  let s := s.onDie d (fun D => D.log.injections.foldl (fun (D : DieState) e => D.endInjection e.1) D)
  [0, 1, 2, 3].foldl (fun (s : State) e =>
    s.endLinks e (fun x => e == d.val || (injectDies x.desc).contains d.val)) s

/-! ## Rows -/

/-- LINK_INJECT. -/
def execLinkInject (a : At) (id : Nat) (rivals : List Nat) (s : State) : Out :=
  onCmd a 0x0750 id s (fun c s => s.linkInject a.die c rivals)
/-- LINK_INJECT_STOP. -/
def execLinkInjectStop (a : At) (id : Nat) (s : State) : Out := onCmd a 0x0751 id s (fun c s => s.linkStop a.die c)
/-- INJECTION_EXPIRE. -/
def execInjectionExpire (a : At) (s : State) : Out :=
  onPkg a s (fun s => (s.atDie a (fun D => D.expireInjections)).expireLinks a.die.val a.time)

end Sys2Proof.Machine
end

