-- ==== Sys2Proof/Machine/Island.lean ====
section
/-! DEFINITION. The safety island (ch. 16): authority and doubts (R522-R532), the network path's restart (R530), results
(R519-R521), the proof pass (R534-R536), merges and messages (R523, R524, R537-R539), the outputs (R540-R542). -/

namespace Sys2Proof.Machine

def DieState.onSaf (D : DieState) (f : SafState → SafState) : DieState := { D with saf := f D.saf }

/-- The safety block in force. -/
def DieState.block (D : DieState) : List Byte := match D.fab.plate with | some p => p.safety | none => []

/-- Does the plate enable the network path? -/
def DieState.netOn (D : DieState) : Bool := sbNetwork D.block

/-- Context of the island's own accesses (R381, R440). -/
def islandCtx : Ctx := { inst := 0, req := islandReq, cls := 5 }

/-- Clusters of instance 0, as a list and as a mask. -/
def DieState.proofClusters (D : DieState) : List Nat := (List.range 4).filter (fun c => D.clusterOwner c == some 0)
def bitMask (l : List Nat) : Nat := l.foldl (fun m c => orN m (2 ^ c)) 0

/-! ## Classes of the zones (R519, R523) -/

/-- Class of zone z in a record's bit stream (R519). -/
def zoneClass (l : List Byte) (z : Nat) : Nat := bits (leNat l) (3 * z) 3

/-- 256 classes packed as 3 bits each. -/
def packClasses (l : List Nat) : List Byte := toLE 96 (l.zipIdx.foldl (fun v x => v + x.1 % 8 * 2 ^ (3 * x.2)) 0)

/-- A bit per zone. -/
def packBits (p : Nat → Bool) : List Byte := toLE 32 ((List.range 256).foldl (fun v z => v + b2n (p z) * 2 ^ z) 0)

/-- The merged class of every zone at a boundary (R523). -/
def DieState.mergeAt (D : DieState) (t : Nat) : List Nat :=
  let net := D.saf.results.find? (fun r => r.time < t)
  (List.range 256).map (fun z =>
    match D.foeZones.find? (fun e => e.1 == z) with
    | none => 0
    | some e =>
      if (D.zoneState z).occupied then 0
      else if D.saf.network then
        min (match net with | some r => r.classes.getD z 0 | none => 0) (field e.2 7 1 % 8)
      else field e.2 6 1 % 8)

/-! ## Outputs (R540, R541) -/

def DieState.sdo (D : DieState) (w : Nat) : Sdo := if w = 0 then D.saf.sdoA else D.saf.sdoB
def DieState.onSdo (D : DieState) (w : Nat) (f : Sdo → Sdo) : DieState :=
  D.onSaf (fun x => if w = 0 then { x with sdoA := f x.sdoA } else { x with sdoB := f x.sdoB })

/-- What R540 asks of the outputs; a die without a safety block keeps them off. -/
def DieState.sdoAllowed (D : DieState) : Bool :=
  let b := D.foe.block
  D.saf.running && D.saf.down.isNone && D.saf.service.isNone && !D.saf.sdoLatched && !b.isEmpty
  && (List.range 256).all (fun z => !bit (field b 104 32) z || field b 136 1 ≤ D.saf.classes.getD z 0)

/-- Energise or de-energise one output. Its first test pulse comes 100 ms later, and that of SDO_B 50 ms after it. -/
def DieState.setSdo (D : DieState) (w : Nat) (on : Bool) : DieState :=
  if (D.sdo w).on == on then D
  else
    let low := (D.sdo w).pulse.isSome
    let D := D.onSdo w (fun x => { x with on := on, pulse := none, edge := D.now, lastPulse := D.now + 50000000 * w })
    if !on && low then D else D.out (.sdo w on)

/-- The outputs follow the merged classes. -/
def DieState.driveSdo (D : DieState) : DieState := (D.setSdo 0 D.sdoAllowed).setSdo 1 D.sdoAllowed

/-- SDO_TEST_PULSE. -/
def DieState.testPulse (D : DieState) (w : Nat) : DieState :=
  let x := D.sdo w
  if x.on && x.pulse.isNone && decide (x.lastPulse + 100000000 ≤ D.now) then
    (D.onSdo w (fun x => { x with pulse := some D.now, edge := D.now, lastPulse := D.now })).out (.sdo w false)
  else D

/-- SDO_PULSE_END. -/
def DieState.pulseEnd (D : DieState) (w : Nat) : DieState :=
  match (D.sdo w).pulse with
  | none => D
  | some t =>
    if D.now < t + 400000 then D
    else (D.onSdo w (fun x => { x with pulse := none, edge := D.now })).out (.sdo w true)

/-- The readback of an output is sampled: 100 µs after an edge, a level other than the expected one is a fault (R541,
R542). An injection of kind 6 forces the level (R628). -/
def DieState.readback (D : DieState) (w : Nat) (level : Bool) : DieState :=
  let inj (j : Injection) : Bool := j.kind == 6 && j.target == w
  let forced := D.log.injections.find? (fun e => inj e.2)
  let level := match forced with | some e => e.2.param == 1 | none => level
  let D := if forced.isSome then D.useInjection inj else D
  let D := D.onSdo w (fun x => { x with readback := level })
  let x := D.sdo w
  let want := x.on && x.pulse.isNone
  if D.now < x.edge + 100000 ∨ level = want then D
  else
    let case := if want then 1 else if x.on then 2 else 3
    let D := D.onSaf (fun f => { f with sdoLatched := true, sdoCase := case, sdoOutput := w })
    (((D.count32 B_SAF SAF_SDO_FAULTS).cause B_SAF 4).event
      { cls := 12, code := 0x05, island := 0, ident := w, cause := case }).driveSdo

/-! ## Health (R539) -/

/-- Does an enabled safety stream of the die have the condition? -/
def DieState.safetyStream (D : DieState) (p : StreamState → Bool) : Bool :=
  (enabledStreams D.stp.active).any (fun i => seSafety (stpEntry D.stp.active 0 i) && p (D.streamOf i))

/-- Temperatures the die watches: its own, its stacks', its optical engines'. -/
def DieState.temps (D : DieState) : List TempState := [D.pwr.die, D.mem.s0.temp, D.mem.s1.temp, D.pwr.opt0, D.pwr.opt1]

/-- Are both UCIe links of the die active? -/
def DieState.linksOk (D : DieState) : Bool := bit D.d2d.links D.num && bit D.d2d.links ((D.num + 3) % 4)

/-- The health flags. -/
def DieState.healthWord (D : DieState) : Nat :=
  let f : List Bool :=
    [D.log.isLost, !D.ptp.locked, D.clk.refA != D.clk.refB, D.temps.any (·.warm), D.saf.sdoLatched && D.saf.sdoCase != 0,
     D.safetyStream (·.absent), D.safetyStream (·.thin), D.saf.latched, D.saf.missing,
     !D.log.injections.isEmpty || !D.fab.injections.isEmpty, D.fab.switchAt.isSome, !D.linksOk, D.auditLost]
  f.zipIdx.foldl (fun v x => v + b2n x.1 * 2 ^ x.2) 0

/-! ## Messages (R537, R538, R567, R568) -/

/-- Mode of the die: 0 NETWORK, 1 FALLBACK, 2 SERVICE. -/
def DieState.safMode (D : DieState) : Nat := if D.saf.service.isSome then 2 else if D.saf.network then 0 else 1

/-- The 256 bytes of a message: whether it is a mode change, its time, and the slice that has ended. -/
def DieState.message (D : DieState) (change : Bool) (time : Nat) (e : SliceEnd) : List Byte :=
  let b := D.foe.block
  let head := D.saf.results.head?
  let flags := b2n (!sPart) + b2n (!D.saf.sent) * 2 + b2n change * 4 + b2n head.isSome * 8 + b2n D.ptp.locked * 16
  let net := match head with | some r => packBits (fun z => z < r.classes.length && r.classes.getD z 0 == 0) | none => toLE 32 0
  let body := toLE 1 1 ++ toLE 1 D.safMode ++ toLE 1 flags ++ toLE 1 D.num
    ++ toLE 2 (D.fab.node % 4096 + b2n D.fab.assigned * 32768) ++ toLE 2 (sbZones b) ++ toLE 4 D.saf.seq ++ toLE 8 time
    ++ toLE 8 e.frame ++ toLE 2 e.slice ++ toLE 1 D.saf.clean ++ toLE 1 0 ++ toLE 4 D.healthWord ++ toLE 4 D.saf.active
    ++ toLE 8 (match head with | some r => r.frame | none => 0) ++ toLE 8 (plateEp D.fab.plate) ++ (plateDg D.fab.plate).take 8
    ++ packBits (fun z => D.foeZones.any (fun x => x.1 == z) && (D.zoneState z).occupied) ++ net
    ++ packClasses D.saf.classes ++ toLE 28 0
  body ++ toLE 4 (crc32c body)

/-- The frame of a message to destination k; none: the destination is off (R567). -/
def DieState.safeFrame (D : DieState) (k : Nat) (m : List Byte) : Option (List Byte) :=
  let d := (List.range 8).flatMap (fun i => toLE 4 (D.reg B_ETH (ETH_SAFE_DST + 4 * i) k))
  let f (o n : Nat) : Nat := field d o n
  let tag := if bit (f 1 1) 3 then some (bits (f 1 1) 0 3 * 2 ^ 13 + f 2 2 % 4096) else none
  let head (t : Nat) : List Byte := ethHeader (beNat ((d.drop 4).take 6)) (D.macOf 4) tag t
  let udp (v6 : Bool) (src dst : List Byte) : List Byte :=
    let h (c : Nat) : List Byte := toBE 2 (49152 + D.num) ++ toBE 2 (f 10 2) ++ toBE 2 264 ++ toBE 2 c
    let c := 0xFFFF - netSum (pseudo v6 src dst 17 264 ++ h 0 ++ m)
    h (if c = 0 then 0xFFFF else c) ++ m
  match f 0 1 with
  | 1 => some (sealFrame (head 0x88B5 ++ m))
  | 2 =>
    let src := toBE 4 (D.ip4Of 4)
    let dst := (d.drop 28).take 4
    let h (c : Nat) : List Byte := toBE 1 0x45 ++ toBE 1 (f 12 1 % 64 * 4) ++ toBE 2 284 ++ toBE 4 0 ++ toBE 1 64 ++ toBE 1 17
      ++ toBE 2 c ++ src ++ dst
    some (sealFrame (head 0x0800 ++ h (0xFFFF - netSum (h 0)) ++ udp false (mapped4 src) dst))
  | 3 =>
    let src := toBE 16 (D.ip6Of 4)
    let dst := (d.drop 16).take 16
    some (sealFrame (head 0x86DD ++ toBE 4 (0x6000_0000 + f 12 1 % 64 * 4 * 2 ^ 20) ++ toBE 2 264 ++ toBE 1 17 ++ toBE 1 64
      ++ src ++ dst ++ udp true src dst))
  | _ => none

/-- Send a message: its sequence number is used even where the link is down (R568). -/
def DieState.sendMessage (D : DieState) (change : Bool) (time : Nat) (e : SliceEnd) : DieState :=
  let m := D.message change time e
  let h := D.healthWord
  let D := D.onSaf (fun x => { x with seq := (x.seq + 1) % 2 ^ 32, lastSeq := x.seq, sent := true, health := h })
  if !(D.ethPort 4).link then (D.count32 B_ETH ETH_SAFE_DISCARDS).cause B_ETH 4
  else
    let D := D.count B_SAF SAF_MSGS_SENT
    [0, 1, 2, 3].foldl (fun (D : DieState) k =>
      match D.safeFrame k m with
      | none => D
      | some f => (D.out (.safety k f)).count B_ETH ETH_TX_FRAMES 1 4) D

/-! ## Doubts (R526-R528) -/

/-- Sources that reset instance 0. -/
def resetDoubts : List Nat := [1, 2, 3, 4, 9]

/-- Is the condition of a lasting source there (R526)? An injection holds its source (R628). -/
def DieState.doubtHolds (D : DieState) (k : Nat) : Bool :=
  D.log.injections.any (fun e => e.2.kind == 4 && e.2.param == k)
  || (match k with
    | 5 => D.fab.quarantined
    | 6 => D.safetyStream (·.absent)
    | 7 => D.clockBad
    | 8 => D.temps.any (·.critical)
    | 10 => !D.linksOk
    | 11 => !D.cmd.ready
    | _ => false)

/-- Authority becomes FALLBACK (R522). -/
def DieState.toFallback (D : DieState) : DieState :=
  let D := D.onSaf (fun x => { x with clean := 0 })
  if !D.saf.network then D
  else
    let D := (D.onSaf (fun x => { x with network := false })).count B_SAF SAF_SWITCHES
    if D.num = 0 then D.out .ibi else D

/-- The merged classes are formed again, for the last evaluated slice, and the outputs follow. -/
def DieState.remerge (D : DieState) : DieState :=
  let e := D.saf.due.getD D.saf.merged
  (D.onSaf (fun x => { x with classes := D.mergeAt e.time })).driveSdo

/-- Is the time base on a slice boundary? -/
def DieState.onSlice (D : DieState) : Bool := !D.stp.replay && D.now % D.sliceNs == 0

/-- Instance 0 is reset for the network path, its results with it (R530); retry: as the second try of a restart. -/
def DieState.safReset (D : DieState) (retry : Bool := false) : DieState :=
  if !insEnabled D.ins.active 0 then D
  else
    let D := D.onSaf (fun x => { x with
      resetting := true, results := [], records := [], resultSeal := none, launches := [], checkFrom := none, atFrame := false
      retried := retry })
    D.beginReset 0

/-- Is a reset or a restart of the network path in progress (R531)? -/
def SafState.restarting (x : SafState) : Bool := x.resetting || !x.launches.isEmpty || x.atFrame

/-- A detection that resets instance 0: the fifth within 60 s latches the restart off (R531). -/
def DieState.countReset (D : DieState) : DieState :=
  let old := D.saf.resets.filter (fun t => D.now < t + 60000000000)
  let D := D.onSaf (fun x => { x with resets := D.now :: old })
  if 4 ≤ old.length ∧ D.saf.latched = false then
    (D.onSaf (fun x => { x with latched := true })).event { cls := 12, code := 0x07, island := 0, inst := some 0 }
  else D

/-- n detections that reset instance 0: all of them count; during a reset or restart the one that latches the restart
off alone resets again, unless a reset is under way (R531). -/
def DieState.resetClass (D : DieState) (n : Nat) : DieState :=
  let busy := D.saf.restarting
  let was := D.saf.latched
  let D := (List.range n).foldl (fun (D : DieState) _ => D.countReset) D
  if !busy || (D.saf.latched && !was && !D.saf.resetting) then D.safReset else D

/-- A restart failed before its tasks started: it is tried again at the next frame boundary, once (R530). -/
def DieState.restartFailed (D : DieState) : DieState :=
  let again := !D.saf.retried
  let D := D.onSaf (fun x => { x with launches := [], atFrame := again, retried := true })
  if again then D.event { cls := 12, code := 0x08, island := 0, inst := some 0 } else D

/-- Launches of a restart that have started, or ended, are no longer in progress; one that failed before it started
fails the restart. Answers that nothing waits for are dropped. -/
def DieState.settleLaunches (D : DieState) : DieState :=
  let failed := D.saf.launches.any (fun id => D.saf.replies.any (fun r => r.1 == id && !r.2.2))
  let live (id : Nat) : Bool := D.cmd.cmds.any (fun c => c.id == id)
    && !(D.task.tasks.any (fun t => t.cmd == id && t.stages.all (fun e => e.2 != .queued)))
  let proof := match D.saf.proof with | some p => p.running.map (·.2) | none => none
  let D := D.onSaf (fun x => { x with replies := x.replies.filter (fun r => proof == some r.1) })
  if failed then D.restartFailed else D.onSaf (fun x => { x with launches := x.launches.filter live })

/-- The sources detected since the last step are taken together: each is recorded, authority is FALLBACK, and a source
that resets instance 0 does so, unless a reset or restart is in progress. -/
def DieState.takeDoubts (D : DieState) : DieState :=
  let D := D.settleLaunches
  if D.doubts.isEmpty || !D.saf.running || D.saf.down.isSome then D
  else
    let ds := D.doubts
    let D := { D with doubts := [] }
    let D := ds.foldl (fun (D : DieState) d =>
      let D := D.setReg B_SAF SAF_DOUBT_SEEN (orN (D.reg B_SAF SAF_DOUBT_SEEN) (2 ^ (d.1 - 1)))
      let D := D.setReg64 B_SAF SAF_LAST_DOUBT_TIME D.now
      let D := D.setReg B_SAF SAF_LAST_DOUBT (d.1 % 256 + (if d.1 = 1 then d.2 % 256 * 256 else 0))
      let D := (D.cause B_SAF 0).event { cls := 12, code := 0x01, island := 0, cause := d.1 }
      D.onSaf (fun x => { x with
        active := orN x.active (2 ^ (d.1 - 1)), dirty := true })) D
    let was := D.saf.network
    let D := D.toFallback.remerge
    let D := if was && !D.onSlice then D.sendMessage true D.now (D.saf.due.getD D.saf.merged) else D
    let hits := ds.filter (fun d => resetDoubts.contains d.1)
    if hits.isEmpty then D else D.resetClass hits.length

/-- Lasting sources whose condition has ended are left; source 7 after 1 s (R526). -/
def DieState.clearDoubts (D : DieState) : DieState :=
  if !D.saf.running || D.saf.down.isSome then D
  else
    let ended (k : Nat) : Bool := bit D.saf.active (k - 1) && !D.doubtHolds k
      && (if k = 5 then D.fab.admitted else true)
      && (if k = 7 then (match D.saf.clockCalm with | some t => decide (t + 1000000000 ≤ D.now) | none => false) else true)
    let gone := bitMask (([5, 6, 7, 8, 10, 11].filter ended).map (· - 1))
    D.onSaf (fun x => { x with active := andNot x.active gone })

/-- Lasting sources whose condition is there when the island starts are raised. -/
def DieState.raiseHeld (D : DieState) : DieState :=
  ([5, 6, 7, 8, 10, 11].filter D.doubtHolds).foldl (fun (D : DieState) k => D.doubt k) D

/-! ## The restart of the network path (R520, R530) -/

/-- A task launch of the island, through the command processor: no budget delays it (R530). -/
def DieState.islandLaunch (D : DieState) (addr : Nat) : Nat × DieState :=
  let id := D.cmd.nextId
  let c : Cmd := { id := id, queue := 0, op := 0x0200, rq := 1, params := toLE 8 addr, stacked := true, island := true }
  (id, { D with cmd := { D.cmd with cmds := D.cmd.cmds ++ [c], nextId := id + 1 } })

/-- Restart descriptors of the block. -/
def DieState.restartTasks (D : DieState) : List Nat :=
  ((List.range 4).map (fun i => field D.block (72 + 8 * i) 8)).filter (· != 0)

/-- Allocate the result seal and publish its reference: behind the result area, and in slot 14 of every restart task. -/
def publishSeal : M Nat := do
  let D ← get
  let free := ((List.range (insSealCount D.ins.active 0)).map (insSealBase D.ins.active 0 + ·)).filter (fun n => !(D.sealOf n).alloc)
  match free.head? with
  | none => failWith .refusedFull 5
  | some n => do
    onD (fun D => D.setSeal n { D.sealOf n with alloc := true, counter := 0, arm := none, saturated := false })
    let ref := toLE 4 (sealRef n (D.sealOf n).gen)
    stackWrite islandCtx (gLocal (field D.block 32 8) + 128) ref
    let _ ← D.restartTasks.mapM (fun t => stackWrite islandCtx (gLocal t + 104) ref)
    pure n

/-- The network path starts: a result seal, and the block's tasks (R520). -/
def DieState.startNetwork (D : DieState) : DieState :=
  match runM publishSeal D with
  | (.error _, D) => D.restartFailed
  | (.ok n, D) =>
    let D := D.onSaf (fun x => { x with
      resultSeal := some n, noticed := 0, results := [], records := [], checkFrom := some (D.stp.frame + 1), launches := [] })
    D.restartTasks.foldl (fun (D : DieState) t =>
      let r := D.islandLaunch t
      r.2.onSaf (fun x => { x with launches := x.launches ++ [r.1] })) D

/-- Instance 0 has been reset: the network path restarts, unless the restart is latched off. -/
def DieState.restartNetwork (D : DieState) : DieState :=
  let D := D.onSaf (fun x => { x with resetting := false, atFrame := false })
  if D.saf.latched || !D.netOn then D else (D.count32 B_SAF SAF_RESTARTS).startNetwork

/-- The end of an instance reset: for instance 0, what the island waits for (R530). -/
def DieState.resetDone (D : DieState) (i : Nat) : DieState :=
  if !D.gateClosed i then D
  else
    let D := D.completeReset i
    if i = 0 ∧ D.saf.resetting then D.restartNetwork
    else if i = 0 then D.onSaf (fun x => { x with resultSeal := none }) else D

/-- An FLR (R559): that of a function which carries instance 0 is the safety island's to carry out. -/
def DieState.flr (D : DieState) (fn : Nat) : DieState :=
  let i := D.fnInst fn
  let D := ((D.resetFunction fn).endSessions (fun x => x.req == 0x0A0 + fn)).count32 B_PCI PCI_FLRS
  let D := D.cause B_PCI 1
  if !insEnabled D.ins.active i then D
  else
    let D := { D with pcie := { D.pcie with flrs := D.pcie.flrs ++ [(fn, i)] } }
    if i = 0 then
      let D := D.toFallback.remerge.countReset
      if D.saf.resetting then D else D.safReset
    else D.beginReset i

/-! ## Results (R519-R521) -/

/-- The command processor's notice of the result seal: it reads the record and passes it on (R520). -/
def DieState.resultNotice (D : DieState) : DieState :=
  match D.saf.resultSeal with
  | none => D
  | some n =>
    let v := (D.sealOf n).counter
    if !D.cmd.ready || v ≤ D.saf.noticed || !(D.sealOf n).alloc then D
    else
      let D := D.onSaf (fun x => { x with noticed := v })
      match runM (stackRead (cpCtx 0) (gLocal (field D.block 32 8)) 128) D with
      | (.ok b, D) => D.onSaf (fun x => { x with records := x.records ++ [b] })
      | (.error _, D) => D

/-- Has the deadline of a frame's result not passed (R39, R533)? -/
def DieState.inTime (D : DieState) (frame : Nat) : Bool :=
  D.stp.frame ≤ frame + 1 && (D.stp.replay || D.now ≤ (frame + 2) * D.frameNs)

/-- Is a record acceptable (R521)? -/
def DieState.recordOk (D : DieState) (b : List Byte) : Bool :=
  let n := field b 0 8
  field b 124 4 == crc32c (b.take 124) && zeros b 10 2 && zeros b 112 12
  && field b 12 4 == field D.block 28 4 && field b 8 2 == sbZones D.block
  && (match D.saf.lastFrame with | some l => l < n | none => true) && D.inTime n

/-- A record reaches the safety island. -/
def DieState.takeResult (D : DieState) : DieState :=
  if !D.saf.running || D.saf.down.isSome then D
  else match D.saf.records with
    | [] => D
    | b :: rest =>
      let D := D.onSaf (fun x => { x with records := rest })
      if !D.recordOk b then
        ((D.count32 B_SAF SAF_RESULT_REJECTS).cause B_SAF 3).event
          { cls := 12, code := 0x04, island := 0, inst := some 0, ident := field b 0 8 % 2 ^ 32 }
      else
        let n := field b 0 8
        let r : NetResult := { time := D.now, frame := n, classes := (List.range (field b 8 2)).map (zoneClass ((b.drop 16).take 96)) }
        (D.onSaf (fun x => { x with
          results := r :: x.results.take 3, lastFrame := some n, accepted := n :: x.accepted.take 3 })).setReg64 B_SAF SAF_RESULT_FRAME n

/-! ## The proof pass (R534-R536) -/

/-- Launch the proof task of the first of the clusters, or end the pass. -/
def DieState.proofNext (D : DieState) (cs : List Nat) : DieState :=
  match cs with
  | [] => D.onSaf (fun x => { x with proof := x.proof.map (fun p => { p with running := none }) })
  | c :: _ =>
    let at_ := gLocal (field D.block 48 8)
    let r := D.islandLaunch (at_ + (proofEntry (D.peekMem at_ 128) c).1)
    r.2.onSaf (fun x => { x with proof := x.proof.map (fun p => { p with running := some (c, r.1) }) })

/-- PROOF_PASS_START: at its offset into the frame. -/
def DieState.proofStart (D : DieState) : DieState :=
  let fresh := match D.saf.proof with | some p => p.frame != D.stp.frame | none => true
  if D.saf.running && D.saf.down.isNone && D.netOn && fresh && !D.gateClosed 0 && !D.proofClusters.isEmpty
      && decide (D.stp.frameAt + field D.block 40 4 * 1000 ≤ D.now) then
    (D.onSaf (fun x => { x with proof := some { frame := D.stp.frame, start := D.now } })).proofNext D.proofClusters
  else D

/-- The clusters above c. -/
def DieState.proofAfter (D : DieState) (c : Nat) : List Nat := D.proofClusters.filter (fun k => c < k)

/-- CRC-32C of a cluster's proof output. An injection of kind 9 inverts it (R628). -/
def proofCrc (c : Nat) : M Nat := do
  let D ← get
  let at_ := gLocal (field D.block 48 8)
  let e := proofEntry (D.peekMem at_ 128) c
  let out ← stackRead islandCtx (at_ + e.2.1) e.2.2
  let inj (j : Injection) : Bool := j.kind == 9 && j.target == c
  if D.log.injections.any (fun e => inj e.2) then do
    onD (fun D => D.useInjection inj)
    pure (2 ^ 32 - 1 - crc32c out)
  else pure (crc32c out)

/-- A proof task did not match. -/
def DieState.proofFailed (D : DieState) (cs : List Nat) (doubt : Bool) : DieState :=
  let D := D.onSaf (fun x => { x with proof := x.proof.map (fun p => { p with failed := orN p.failed (bitMask cs) }) })
  let D := D.cause B_SAF 2
  if doubt then (D.event { cls := 12, code := 0x03, island := 0, inst := some 0, ident := cs.headD 0 }).doubt 1 (cs.headD 0) else D

/-- PROOF_CRC_DONE: the running proof task has ended, and its output is compared. One that an instance reset cancelled
ends the pass unmatched, without a doubt (R536). -/
def DieState.proofDone (D : DieState) : DieState :=
  match D.saf.proof with
  | none => D
  | some p => match p.running with
    | none => D
    | some (c, id) => match D.saf.replies.find? (fun r => r.1 == id) with
      | none => D
      | some r =>
        let D := D.onSaf (fun x => { x with replies := x.replies.erase r })
        if r.2.1 = Status.refusedInstanceReset.code ∨ D.gateClosed 0 = true then (D.proofFailed (c :: D.proofAfter c) false).proofNext []
        else if !((Status.ofCode r.2.1).getD .faultInternal).isOk then (D.proofFailed [c] true).proofNext (D.proofAfter c)
        else match runM (proofCrc c) D with
          | (.error _, D) => (D.proofFailed [c] true).proofNext (D.proofAfter c)
          | (.ok v, D) =>
            let D := D.setReg B_SAF (SAF_PROOF_CRC + 4 * c) v
            let D := if v = field D.block (56 + 4 * c) 4 then
                D.onSaf (fun x => { x with proof := x.proof.map (fun p => { p with matched := orN p.matched (2 ^ c) }) })
              else D.proofFailed [c] true
            D.proofNext (D.proofAfter c)

/-- PROOF_WINDOW_EXPIRE: the pass is not complete within its window. -/
def DieState.proofLate (D : DieState) : DieState :=
  match D.saf.proof with
  | none => D
  | some p => match p.running with
    | none => D
    | some (c, _) =>
      if p.late || D.now < p.start + field D.block 44 4 * 1000 then D
      else
        let D := D.onSaf (fun x => { x with proof := x.proof.map (fun p => { p with late := true }) })
        (D.cause B_SAF 2).doubt 1 c

/-! ## The merge (R523, R524) -/

/-- SAFETY_MERGE: the evaluated slice is merged, the outputs follow, the message leaves, and the doubts that last until
it are left. -/
def DieState.merge (D : DieState) : DieState :=
  match D.saf.due with
  | none => D
  | some _ =>
    if !D.saf.running || D.saf.down.isSome then D
    else
      let D := D.takeDoubts
      let e := D.saf.due.getD {}
      let D := D.onSaf (fun x => { x with due := none, merged := e, classes := D.mergeAt e.time })
      let D := D.driveSdo.sendMessage false e.time e
      D.onSaf (fun x => { x with active := andNot x.active (bitMask (resetDoubts.map (· - 1))) })

/-! ## The command processor's heartbeats and watchdog (R526 code 11, R600) -/

/-- Every 100 µs each running core increments its half, unless an injection of kind 5 holds it (R430, R628). -/
def DieState.heartbeat (D : DieState) : DieState :=
  if !D.cmd.ready then D
  else
    let inj (k : Nat) (j : Injection) : Bool := j.kind == 5 && j.param == k
    let held (k : Nat) : Bool := D.log.injections.any (fun e => inj k e.2)
    let h := D.reg B_CMD CMD_HEARTBEAT
    let h0 := if held 0 then bits h 0 16 else (bits h 0 16 + 1) % 65536
    let h1 := if held 1 then bits h 16 16 else (bits h 16 16 + 1) % 65536
    let b0 := if held 0 then D.cmd.beat0 else some D.now
    let b1 := if held 1 then D.cmd.beat1 else some D.now
    let D := (D.useInjection (inj 0)).useInjection (inj 1)
    let D := D.setReg B_CMD CMD_HEARTBEAT (h0 + h1 * 65536)
    { D with cmd := { D.cmd with beat0 := b0, beat1 := b1 } }

/-- Has a core's heartbeat, since the command processor began, not advanced for 500 µs? -/
def CmdState.stalled (c : CmdState) (now : Nat) : Bool :=
  decide (c.beat0.getD c.began + 500000 ≤ now) || decide (c.beat1.getD c.began + 500000 ≤ now)

/-- A heartbeat has not advanced for 500 µs: the command processor restarts, and its commands end. -/
def DieState.watchdog (D : DieState) : DieState :=
  if !D.cmd.ready || !D.cmd.stalled D.now then D
  else
    let ids := (D.cmd.cmds.filter (fun c => !D.keepsSlot c.id)).map (·.id)
    let D := { D with cmd := { D.cmd with
      waits := D.cmd.waits.filter (fun w => match w.who with | .cmd _ => false | _ => true), qwaits := [] } }
    let D := ids.foldl (fun (D : DieState) id => D.replyId id .faultInternal) D
    let D := { D with cmd := { D.cmd with ready := false, restart := some D.now } }
    (D.event { cls := 1, code := 0x06, island := 1 }).doubt 11

/-- Seloth runs again. -/
def DieState.cpRestarted (D : DieState) : DieState :=
  match D.cmd.restart with
  | none => D
  | some _ => { D with cmd := { D.cmd with ready := true, restart := none, began := D.now, beat0 := none, beat1 := none } }

/-! ## Faults of the island, service mode, and the commands (R529, R544, R545) -/

/-- The island's own fault: its outputs latch off, its messages stop. -/
def DieState.islandFault (D : DieState) : DieState :=
  if !D.saf.running then D
  else
    let x := D.saf
    let D := (D.setSdo 0 false).setSdo 1 false
    D.onSaf (fun y => { down := some D.now, sdoLatched := true, service := x.service, latched := x.latched, resets := x.resets
                        sdoA := y.sdoA, sdoB := y.sdoB, clockCalm := x.clockCalm })

/-- It has restarted from ROM: FALLBACK, sequence 0, its zones as at boot; the network path restarts with it. -/
def DieState.islandRestart (D : DieState) : DieState :=
  match D.saf.down with
  | none => D
  | some _ =>
    let D := D.onSaf (fun x => { x with running := true, down := none })
    let D := { D with foe := { D.foe with states := [] } }
    let D := D.raiseHeld
    if D.netOn then D.safReset else D

/-- SAFETY_SERVICE_ENTER. -/
def serviceEnter (c : Cmd) : M (List Byte) := do
  okField (1 ≤ c.p 0 2 && c.p 0 2 ≤ 480) 0
  onD (fun D =>
    let D := D.toFallback
    let D := D.onSaf (fun x => { x with service := some (D.now + c.p 0 2 * 60000000000) })
    let D := ((D.cause B_SAF 5).event { cls := 12, code := 0x06, island := 0, cause := 1 }).remerge
    if D.num = 0 then D.out .ibi else D)
  pure []

/-- The die leaves service mode: replay ends, and the network path restarts; the restart is not counted (R545). -/
def DieState.leaveService (D : DieState) : DieState :=
  let D := D.onSaf (fun x => { x with service := none })
  let D := ((D.cause B_SAF 5).event { cls := 12, code := 0x06, island := 0 }).replayEnd
  let D := if D.num = 0 then D.out .ibi else D
  let D := D.remerge
  if D.netOn && !D.saf.resetting then D.safReset else D

/-- Service mode of a die ends, with its injections. -/
def State.leaveService (s : State) (d : Die) : State := ((s.endInjections d).onDie d (fun D => D.leaveService)).settleWorks

/-- SAFETY_SERVICE_EXIT. -/
def State.serviceExit (s : State) (d : Die) (c : Cmd) : State :=
  if (s.die d).saf.service.isNone then s.replyAt d c .refusedServiceMode else (s.replyAt d c .ok).leaveService d

/-- SERVICE_MODE_EXPIRE. -/
def State.serviceExpire (s : State) (a : At) : State :=
  let s := s.atDie a (fun D => D)
  match (s.die a.die).saf.service with
  | none => s
  | some t => if t ≤ (s.die a.die).now then s.leaveService a.die else s

/-- SAFETY_OUTPUT_CLEAR (R542, R529). -/
def outputClear (_ : Cmd) : M (List Byte) := do
  onD (fun D => (D.onSaf (fun x => { x with sdoLatched := false })).driveSdo)
  pure []

/-- SAFETY_LATCH_CLEAR: the restart is made at the next frame boundary (R531). -/
def latchClear (_ : Cmd) : M (List Byte) := do
  onD (fun D => if D.saf.latched then D.onSaf (fun x => { x with latched := false, resets := [], atFrame := true, retried := false }) else D)
  pure []

/-- State of the outputs (R551). -/
def DieState.sdoState (D : DieState) : Nat :=
  let x := D.saf
  b2n (x.sdoA.on && x.sdoA.pulse.isNone) + b2n (x.sdoB.on && x.sdoB.pulse.isNone) * 2 + b2n x.sdoA.readback * 4
    + b2n x.sdoB.readback * 8 + b2n x.sdoLatched * 16 + x.sdoCase * 32 + x.sdoOutput * 128

/-- SAFETY_STATUS: mode, authority, clean count, doubt mask, output state. -/
def safetyStatus (_ : Cmd) : M (List Byte) := do
  let D ← get
  pure (toLE 1 D.safMode ++ toLE 1 (b2n D.saf.network) ++ toLE 1 D.saf.clean ++ toLE 1 0 ++ toLE 4 D.saf.active ++ toLE 4 D.sdoState)

/-! ## Rows -/

/-- INSTANCE_RESET_COMPLETE. -/
def execInstanceResetComplete (a : At) (inst : Nat) (s : State) : Out := onDie a s (fun D => D.resetDone inst)
/-- FLR_RECEIVE: function 0 the physical one, n the virtual function n. -/
def execFlrReceive (a : At) (fn : Nat) (s : State) : Out := onWorks a s (fun D => if fn ≤ 8 then D.flr fn else D)
/-- DOUBT_RAISE: every source detected and not yet taken. osc: a measured difference of the safety-island oscillator from the
reference, in ppm, the one source that no other row detects. -/
def execDoubtRaise (a : At) (osc : Option Int) (s : State) : Out :=
  onWorks a s (fun D => (match osc with | some ppm => D.oscMeasure ppm | none => D).takeDoubts)
/-- DOUBT_CLEAR_TIMER. -/
def execDoubtClearTimer (a : At) (s : State) : Out := onDie a s (fun D => D.clearDoubts)
/-- SAFETY_MERGE. -/
def execSafetyMerge (a : At) (s : State) : Out := onWorks a s (fun D => D.merge)
/-- RESULT_SEAL_NOTICE. -/
def execResultSealNotice (a : At) (s : State) : Out := onDie a s (fun D => D.resultNotice)
/-- NETWORK_RESULT_RECEIVE. -/
def execNetworkResultReceive (a : At) (s : State) : Out := onDie a s (fun D => D.takeResult)
/-- PROOF_PASS_START. -/
def execProofPassStart (a : At) (s : State) : Out := onDie a s (fun D => D.proofStart)
/-- PROOF_CRC_DONE. -/
def execProofCrcDone (a : At) (s : State) : Out := onDie a s (fun D => D.proofDone)
/-- PROOF_WINDOW_EXPIRE. -/
def execProofWindowExpire (a : At) (s : State) : Out := onDie a s (fun D => D.proofLate)
/-- CMD_HEARTBEAT_INCREMENT. -/
def execCmdHeartbeatIncrement (a : At) (s : State) : Out := onDie a s (fun D => D.heartbeat)
/-- CP_WATCHDOG_EXPIRE. -/
def execCpWatchdogExpire (a : At) (s : State) : Out := onDie a s (fun D => D.watchdog)
/-- CP_RESTART_DONE. -/
def execCpRestartDone (a : At) (s : State) : Out := onDie a s (fun D => D.cpRestarted)
/-- SAFETY_ISLAND_FAULT. -/
def execSafetyIslandFault (a : At) (s : State) : Out := onDie a s (fun D => D.islandFault)
/-- SAFETY_ISLAND_RESTART. -/
def execSafetyIslandRestart (a : At) (s : State) : Out := onWorks a s (fun D => D.islandRestart)
/-- SDO_TEST_PULSE: output 0 SDO_A, 1 SDO_B. -/
def execSdoTestPulse (a : At) (output : Nat) (s : State) : Out := onDie a s (fun D => D.testPulse (output % 2))
/-- SDO_PULSE_END. -/
def execSdoPulseEnd (a : At) (output : Nat) (s : State) : Out := onDie a s (fun D => D.pulseEnd (output % 2))
/-- SDO_OUTPUT_FAULT: the readback of an output is sampled at a level. -/
def execSdoOutputFault (a : At) (output : Nat) (level : Bool) (s : State) : Out := onDie a s (fun D => D.readback (output % 2) level)
/-- SAFETY_SERVICE_ENTER. -/
def execSafetyServiceEnter (a : At) (id : Nat) (s : State) : Out :=
  onDie a s (fun D => D.runCmd 0x0500 id (fun c D => D.replyM c (serviceEnter c)))
/-- SAFETY_SERVICE_EXIT. -/
def execSafetyServiceExit (a : At) (id : Nat) (s : State) : Out := onCmd a 0x0501 id s (fun c s => s.serviceExit a.die c)
/-- SERVICE_MODE_EXPIRE. -/
def execServiceModeExpire (a : At) (s : State) : Out := onPkg a s (fun s => s.serviceExpire a)
/-- SAFETY_OUTPUT_CLEAR. -/
def execSafetyOutputClear (a : At) (id : Nat) (s : State) : Out :=
  onDie a s (fun D => D.runCmd 0x0502 id (fun c D => D.replyM c (outputClear c)))
/-- SAFETY_LATCH_CLEAR. -/
def execSafetyLatchClear (a : At) (id : Nat) (s : State) : Out :=
  onDie a s (fun D => D.runCmd 0x0503 id (fun c D => D.replyM c (latchClear c)))
/-- SAFETY_STATUS. -/
def execSafetyStatus (a : At) (id : Nat) (s : State) : Out :=
  onDie a s (fun D => D.runCmd 0x0504 id (fun c D => D.replyM c (safetyStatus c)))

end Sys2Proof.Machine
end

