-- ==== Sys2Proof/Machine/Frames.lean ====
section
/-! DEFINITION. The frame boundary (R37-R39, R525, R532, R533): the open frame closes, its deadline is judged, a plate
switch that is due is made, a pending restart begins. -/

namespace Sys2Proof.Machine

/-- Did the proof pass of a frame match on every cluster of instance 0 (R525)? -/
def DieState.proofMatched (D : DieState) (frame : Nat) : Bool :=
  match D.saf.proof with
  | some p => p.frame == frame && D.proofClusters.all (bit p.matched)
  | none => false

/-- The end of frame n is the deadline of the result of frame n - 1: a clean one counts, and the second gives the network
path authority; a missing one is doubt 2, but for frames that R532 exempts. -/
def DieState.judge (D : DieState) (n : Nat) : DieState :=
  if !D.saf.running || D.saf.down.isSome || D.saf.service.isSome || !D.netOn || n == 0 then D
  else if D.saf.accepted.contains (n - 1) then
    let D := D.onSaf (fun x => { x with missing := false })
    if D.proofMatched n && !D.saf.dirty && D.saf.active == 0 && D.doubts.isEmpty then
      let D := D.onSaf (fun x => { x with clean := min 2 (x.clean + 1) })
      if D.saf.clean = 2 ∧ D.saf.network = false ∧ D.saf.latched = false then
        let D := D.onSaf (fun x => { x with network := true })
        let D := (D.cause B_SAF 1).event { cls := 12, code := 0x02, island := 0 }
        if D.num = 0 then D.out .ibi else D
      else D
    else D
  else
    let D := D.onSaf (fun x => { x with missing := true, clean := 0 })
    if (match D.saf.checkFrom with | some k => decide (k ≤ n - 1) | none => false) then (D.doubt 2).takeDoubts else D

/-- A restart that waits for the frame boundary (R530, R531). -/
def DieState.restartDue (D : DieState) : DieState :=
  if !D.saf.atFrame || D.gateClosed 0 then D
  else if D.saf.retried then D.safReset true else D.restartNetwork

/-- The open frame closes and the next one opens. -/
def DieState.frameTurn (D : DieState) : DieState :=
  match D.frameDue with
  | none => D
  | some t =>
    let D := D.sliceBoundary.judge D.stp.frame
    let D := D.onSaf (fun x => { x with dirty := x.active != 0 })
    (D.openFrame (t / D.frameNs) t false).restartDue

/-- FRAME_BOUNDARY. -/
def State.frameBoundary (s : State) (a : At) : State :=
  let s := s.atDie a (fun D => D)
  if (s.die a.die).frameDue.isNone then s
  else (((s.onDie a.die (fun D => D.takeDoubts)).activateAll a.time).onDie a.die (fun D => D.frameTurn)).settleWorks

/-- FRAME_BOUNDARY. -/
def execFrameBoundary (a : At) (s : State) : Out := onPkg a s (fun s => s.frameBoundary a)

end Sys2Proof.Machine
end

