-- ==== Sys2Proof/Machine/Boot.lean ====
section
/-! DEFINITION. Resets of the package and of a die (R600, R619, R640-R642), the strap exchange (R27), the boot (R602, R603),
lost dies (R28, R601), and the samples of rails and temperatures that can reset a die (R596, R597). -/

namespace Sys2Proof.Machine

/-! ## Entering a reset (R599, R600) -/

/-- Kinds of reset that hold a die. -/
inductive ResetKind where
  | powerOn | package | die
deriving DecidableEq, Repr

/-- What a log keeps (R619, R621): nothing at power-on; the ring and its pointers at a package reset; at a die reset also
the state of its copies. -/
def LogState.kept (l : LogState) (k : ResetKind) (now : Nat) : LogState :=
  match k with
  | .powerOn => {}
  | .package => { ring := l.ring, nextSeq := l.nextSeq, flushedSeq := l.flushedSeq, lost := l.lost, lastFlush := now }
  | .die => { ring := l.ring, nextSeq := l.nextSeq, flushedSeq := l.flushedSeq, lost := l.lost
              fail0 := l.fail0, fail1 := l.fail1, rewritten := l.rewritten }

/-- A die in reset: every field at its reset value, but for the time base over a package reset, the log, the latched cause,
the levels of its pins, a store's retired regions over a die reset (R166), the slot it booted, the mark of a failed die 0 over
a die reset (R28; die 0's own reset after its boot is that failure), and a hold that a package reset finds. The safety discrete
outputs fall, if they were high. -/
def DieState.inReset (D : DieState) (k : ResetKind) (causes : Nat) : DieState :=
  let low (w : Nat) : List Output := if (D.sdo w).on && (D.sdo w).pulse.isNone then [.sdo w false] else []
  let now := if k = .package then D.now else 0
  let E : DieState :=
    { num := D.num, now := now, fresh := D.fresh, outs := D.outs ++ low 0 ++ low 1
      log := D.log.kept k now
      mem := { host := D.mem.host }
      clk := { refA := D.clk.refA, refB := D.clk.refB, refEth := D.clk.refEth }
      pcie := { perst := D.pcie.perst }
      boot := if k = .package ∧ D.boot.held = true ∧ D.boot.dieReset = true then { D.boot with slot := 0, orphan := false }
              else { held := true, slot := if k = .die then D.boot.slot else 0, dieReset := k == .die
                     orphan := k == .die && (D.boot.orphan || (D.num == 0 && decide (5 ≤ D.boot.stage))) }
      clusters := quadMap (fun C => { retired := if k = .die then C.retired else [] }) D.clusters }
  if k = .powerOn then E else E.setReg B_GLB GLB_RESET_CAUSE (orN (D.reg B_GLB GLB_RESET_CAUSE) causes)

/-- Every die in reset. -/
def State.allReset (s : State) (k : ResetKind) (causes : Nat) : State :=
  { s with dies := quadMap (fun D => D.inReset k causes) s.dies, pkg := { s.pkg with pull := none } }

/-- Is a die held for a thermal trip (R643)? -/
def DieState.tripped (D : DieState) : Bool := D.boot.held && D.boot.dieReset && D.boot.trip

/-- THERMTRIP# follows the dies: a change of its level is put out at die d. -/
def State.thermtrip (old : State) (d : Die) (s : State) : State :=
  let low (s : State) : Bool := [0, 1, 2, 3].any (fun e => (quadGet s.dies e).tripped)
  if low old == low s then s else s.onDie d (fun D => D.out (.thermtrip (low s)))

/-- A boot fails: it stops at the present stage with a code (R603). -/
def DieState.bootFail (D : DieState) (code : Nat) : DieState :=
  ({ D with boot := { D.boot with error := code } }).event { cls := 1, code := 0x02, island := 2, cause := code }

/-- A die reset, for a rail or for a thermal trip (R596, R597). During a boot it is that boot's failure. -/
def DieState.dieReset (D : DieState) (trip : Bool) : DieState :=
  let booting := D.boot.stage < 7
  let code := if trip then 9 else 10
  let D := D.inReset .die (if trip then 16 else 8)
  let D := { D with boot := { D.boot with trip := trip } }
  if booting then D.bootFail code else { D with boot := { D.boot with error := code } }

/-! ## Leaving a reset (R602, R640, R642) -/

/-- A die's boot begins; alone: after a die reset, or a hold for its rails. -/
def DieState.startBoot (D : DieState) (alone : Bool) : DieState :=
  { D with boot := { held := false, alone := alone, released := D.now, slot := D.boot.slot, orphan := D.boot.orphan }
           pcie := { D.pcie with config := !D.pcie.perst, deasserted := if D.pcie.perst then none else some D.now }
           pwr := { D.pwr with
             die := { D.pwr.die with lastValid := D.now }, opt0 := { D.pwr.opt0 with lastValid := D.now }
             opt1 := { D.pwr.opt1 with lastValid := D.now } }
           mem := { D.mem with s0 := { D.mem.s0 with temp := { lastValid := D.now } }
                               s1 := { D.mem.s1 with temp := { lastValid := D.now } } } }

/-- The package comes out of reset at a time, if both pins allow it: every die boots, but one whose rails are out of range
is held as for a rail fault. bad: bit d, die d's rails. -/
def State.leaveReset (s : State) (bad : Nat) : State :=
  if !s.pkg.pwrGood || s.pkg.resetLow then s
  else
    let start (d : Nat) (D : DieState) : DieState :=
      if !D.boot.held || D.boot.dieReset then D
      else if bit bad d then { D with boot := { D.boot with dieReset := true, trip := false, error := 10, causeGone := none } }
      else D.startBoot false
    { s with dies := { q0 := start 0 s.dies.q0, q1 := start 1 s.dies.q1, q2 := start 2 s.dies.q2, q3 := start 3 s.dies.q3 } }

/-- PWR_GOOD rises. -/
def State.powerOn (s : State) (a : At) (bad : Nat) (test : Bool) : State :=
  if s.pkg.pwrGood then s else State.thermtrip s a.die ({ s with pkg := { s.pkg with pwrGood := true, test := test } }.leaveReset bad)

/-- PWR_GOOD falls (R641). -/
def State.powerFall (s : State) (a : At) : State :=
  if !s.pkg.pwrGood then s
  else State.thermtrip s a.die ({ s with pkg := { s.pkg with pwrGood := false } }.allReset .powerOn 0)

/-- PKG_RESET# falls. -/
def State.resetPin (s : State) (a : At) : State :=
  if s.pkg.resetLow then s
  else
    let s' : State := { s with pkg := { s.pkg with resetLow := true } }
    if s.pkg.pwrGood then State.thermtrip s a.die ((s'.atDie a (fun D => D)).allReset .package 2) else s'

/-- PKG_RESET# rises. -/
def State.resetRise (s : State) (a : At) (bad : Nat) : State :=
  if !s.pkg.resetLow then s
  else (({ s with pkg := { s.pkg with resetLow := false } }).atDie a (fun D => D)).leaveReset bad

/-- A write of GLB_CTRL with package_reset set: the maker's (R605). -/
def State.packageReset (s : State) (a : At) (r : Req) (v bad : Nat) : State :=
  let s0 := s.atDie a (fun D => D)
  let D := s0.die a.die
  if !bit v 2 || !D.barOpen r B_GLB then s0
  else if D.csrAdmits D.saf.service.isSome r B_GLB GLB_CTRL true false && D.roleOf r == 2 then
    State.thermtrip s a.die ((s0.allReset .package 4).leaveReset bad)
  else s0.onDie a.die (fun D => D.refuseCsr r B_GLB GLB_CTRL true)

/-- 10 ms without the cause: a die that a die reset holds boots again, alone (R600, R603). -/
def State.dieRelease (s : State) (a : At) : State :=
  let s' := s.atDie a (fun D => D)
  let D := s'.die a.die
  match D.boot.causeGone with
  | none => s'
  | some t =>
    if D.boot.held && D.boot.dieReset && s.pkg.pwrGood && !s.pkg.resetLow && decide (t + 10000000 ≤ D.now) then
      State.thermtrip s a.die (s'.onDie a.die (fun D => ({ D with now := 0 }).startBoot true))
    else s'

/-! ## Lost dies (R27, R28, R601) -/

/-- Die D marks die d lost. Die 0 lost after it sent the image is missed until the package restarts (R28, R603). -/
def DieState.markLost (D : DieState) (d : Nat) : DieState :=
  if bit D.boot.lost d then D
  else
    let D := { D with boot := { D.boot with
      lost := orN D.boot.lost (2 ^ d), ready := andNot D.boot.ready (2 ^ d)
      orphan := D.boot.orphan || (d == 0 && decide (5 ≤ D.boot.stage)) } }
    (D.cause B_GLB 0).event { cls := 1, code := 0x05, island := 2, ident := d }

/-- The module of a neighbour's that leads to die d fails with it, and the traffic turns round (R24). -/
def State.dropModule (s : State) (d m : Nat) : State :=
  let x := (quadGet s.dies d).d2d.mod m
  if (quadGet s.dies d).boot.held || x.state = 0 || x.state = 4 then s else s.moduleDown d m 4 3

/-- Is die d gone, seen from another: held in reset, failed in its boot, or out of reach on the ring (R24, R601)? -/
def State.gone (s : State) (me d : Nat) : Bool :=
  let D := quadGet s.dies d
  D.boot.held || D.boot.error != 0
  || ((quadGet s.dies me).boot.stage == 7 && (ringModule (quadGet s.dies me).d2d.links me d).isNone)

/-- DIE_LOST: die a.die finds that die d is lost. -/
def State.dieLost (s : State) (a : At) (d : Nat) : State :=
  let s := s.atDie a (fun D => D)
  if a.die.val = d || !(s.gone a.die.val d) then s
  else
    let s := s.onDie a.die (fun D => D.markLost d)
    let s := if ringPeer a.die.val 0 = d then s.dropModule a.die.val 0 else s
    let s := if ringPeer a.die.val 1 = d then s.dropModule a.die.val 1 else s
    s.settleWorks

/-! ## The strap exchange (R27) -/

/-- The strap value of the die at a ring position. -/
def strapAt (d : Nat) : Nat := (Config.strapValue (Fin.ofNat 4 d)).val

/-- STRAP_VALUE_RECEIVE: the value of the die at ring position p, which runs. -/
def State.strapReceive (s : State) (a : At) (p : Nat) : State :=
  let s := s.atDie a (fun D => D)
  let P := quadGet s.dies p
  if p = a.die.val || P.boot.held || P.boot.stage < 2 || (s.die a.die).boot.closed then s
  else s.onDie a.die (fun D => { D with boot := { D.boot with straps := tabPut p (strapAt p) D.boot.straps } })

/-- STRAP_EXCHANGE_CLOSE: at 10 ms each die judges the values, its own with them. -/
def DieState.strapClose (D : DieState) : DieState :=
  if D.boot.closed || D.boot.alone || decide (D.now < D.boot.released + 10000000) || D.boot.error != 0 then D
  else
    let all := (D.num, strapAt D.num) :: D.boot.straps
    let D := { D with boot := { D.boot with closed := true } }
    if all.any (fun e => e.1 != e.2) then
      let v := all.foldl (fun v e => v + e.2 * 2 ^ (8 * e.1)) 0
      let D := { D with boot := { D.boot with conflict := true } }
      (D.event { cls := 1, code := 0x03, island := 0, loc := v }).bootFail 1
    else ([0, 1, 2, 3].filter (fun d => d != D.num && (tabFind D.boot.straps d).isNone)).foldl
      (fun (D : DieState) d => D.markLost d) D

/-- Do the running dies take the die for lost or absent? -/
def State.unwanted (s : State) (d : Nat) : Bool :=
  [0, 1, 2, 3].any (fun e => let E := quadGet s.dies e
    e != d && !E.boot.held && E.boot.error == 0 && bit E.boot.lost d)

/-- STRAP_LATE_ARRIVAL: a die that was absent or lost sends its value. It is admitted if the value fits its position and no
other die holds it. -/
def State.strapLate (s : State) (a : At) : State :=
  let s := s.atDie a (fun D => D)
  let d := a.die.val
  let D := s.die a.die
  if D.boot.stage ≠ 2 ∨ D.boot.error ≠ 0 ∨ (D.boot.alone = false ∧ s.unwanted d = false) then s
  else
    let other := [0, 1, 2, 3].any (fun e => e != d && !(quadGet s.dies e).boot.held && strapAt e == strapAt d)
    if strapAt d = d ∧ other = false then
      let s := s.onRunning (fun E => if E.num = d then E else { E with boot := { E.boot with lost := andNot E.boot.lost (2 ^ d) } })
      s.onDie a.die (fun D => { D with boot := { D.boot with closed := true } })
    else s.onDie a.die (fun D => D.bootFail 1)

/-! ## The stages (R602, R603) -/

/-- The default configuration of the instances (R439). -/
def defaultBank : Tab Byte :=
  let put (t : Tab Byte) (a n v : Nat) : Tab Byte := memWrite t a (toLE n v)
  let entry (t : Tab Byte) (i clusters base count queues lo size : Nat) : Tab Byte :=
    let k := 384 * i
    let t := put (put (put (put (put t k 1 1) (k + 1) 1 clusters) (k + 2) 2 base) (k + 4) 2 count) (k + 6) 2 queues
    let t := put (put (put t (k + 8) 2 4096) (k + 10) 2 4096) (k + 12) 4 160000
    let t := put (put (put t (k + 16) 4 160000) (k + 20) 2 256) (k + 22) 2 256
    put (put (put t (k + 64) 8 lo) (k + 72) 4 size) (k + 77) 1 3
  let t := entry [] 0 1 0 1024 64 0 4096
  entry t 1 14 1024 15360 4016 0x1_0000_0000 (2 * stackGiB * 1024 - 4096)

/-- The instance configuration comes into force: the committed one, or the default (R439). -/
def DieState.bootInstances (D : DieState) (f : Flash) : DieState :=
  let t := match tabFind f.instances D.num with
    | some b => if b.isEmpty then defaultBank else memWrite [] 0 b
    | none => defaultBank
  { D with ins := { D.ins with active := t, staged := t } }

/-- Regions that the repair record retires in a cluster of a die (R166). -/
def repaired (f : Flash) (die c : Nat) (old : Tab Bool) : Tab Bool :=
  (f.repairs.filter (fun r => r.1 == 0 && r.2.1 == die && r.2.2 / 2 ^ 13 == c)).foldl
    (fun t r => tabSet false (r.2.2 % 2 ^ 13) true t) old

/-- Stack rows of a die that the repair record replaces by spare ones (R398). -/
def sparedRows (f : Flash) (die : Nat) : List Nat :=
  (f.repairs.filter (fun r => r.1 == 1 && r.2.1 == die)).map (fun r => r.2.2)

/-- Die 0 has a slot with a good image: the chosen one, or the other (R574). -/
def bootSlot (f : Flash) (first : Nat) : Option Nat :=
  let image (n : Nat) : List Byte := if n = 0 then f.image0 else f.image1
  [first % 2, 1 - first % 2].find? (fun n => Config.imageOk (image n))

/-- Training of the mainband is done: both modules of the die are up. -/
def State.mainband (s : State) (d : Nat) : State :=
  let s := { s with dies := quadMod s.dies d (fun D =>
    (D.onMod 0 (fun x => { x with state := 2, peer := strapAt (ringPeer d 0) })).onMod 1
      (fun x => { x with state := 2, peer := strapAt (ringPeer d 1) })) }
  (s.linkOn d 0).linkOn d 1

/-- Stage 4 of die d: the image. bad: the digest of what it received is wrong. -/
def State.bootImage (s : State) (d : Die) (bad : Bool) : State :=
  let D := s.die d
  let Z := s.dies.q0
  let next (slot : Nat) (image : List Byte) : State :=
    (s.onDie d (fun D => { D with boot := { D.boot with
      stage := 5, slot := slot, image := image, orphan := D.boot.orphan || Z.boot.orphan } })).mainband d.val
  if d = 0 then
    match bootSlot s.pkg.flash (if D.boot.alone then D.boot.slot else s.pkg.flash.slot) with
    | some n => next n (if n = 0 then s.pkg.flash.image0 else s.pkg.flash.image1)
    | none => s.onDie d (fun D => D.bootFail 4)
  else if Z.boot.held || (Z.boot.error != 0 && Z.boot.error != 4) || bit D.boot.lost 0 then
    if D.boot.alone then s else s.onDie d (fun D => D.bootFail 6)
  else if Z.boot.error = 4 ∨ Z.boot.stage < 5 then s
  else if bad then
    if D.boot.badImage then s.onDie d (fun D => D.bootFail 5)
    else s.onDie d (fun D => { D with boot := { D.boot with badImage := true } })
  else next Z.boot.slot Z.boot.image

/-- A time base takes at least the time t. -/
def DieState.liftTime (D : DieState) (t : Nat) : DieState :=
  if t ≤ D.now then D else if D.boot.stage = 7 then D.stepTime t else { D with now := t }

/-- Stage 5: the stores are zero, the configuration and the repairs in force, the time base set (R599). anchorsBad: the anchor
store fails its signature (R455). -/
def State.bootFirmware (s : State) (d : Die) (anchorsBad : Bool) : State :=
  let f := s.pkg.flash
  let f := if d = 0 ∧ anchorsBad then { f with anchors := [] } else f
  let s := { s with pkg := { s.pkg with flash := f } }
  let s := s.onDie d (fun D =>
    let D := [0, 1, 2, 3].foldl (fun (D : DieState) c =>
      let D := D.onCluster c (fun C => { C with retired := repaired f D.num c C.retired })
      D.clusterUp c) D
    let D := D.bootInstances f
    let D := { D with rol := { D.rol with anchorsOk := !anchorsBad } }
    let D := if anchorsBad then D.event { cls := 7, code := 0x06, island := 2 } else D
    let D := D.audit { kind := 8, time := D.now } .none
    { D with boot := { D.boot with stage := 6 } })
  if d = 0 then s.onRunning (fun D => D.liftTime (f.auditTime + 1000000000))
  else
    let Z := s.dies.q0
    if Z.boot.held || Z.boot.stage < 6 then s else s.onDie d (fun D => D.liftTime Z.now)

/-- The stored plate of the package, as the die may use it. -/
def DieState.storedPlate (D : DieState) (image : List Byte) : Option Plate :=
  if image.isEmpty || !plateSignOk image then none
  else match plateFor image D.num with
    | some P => if D.sectionsOk P true then some P else none
    | none => none

/-- A plate comes into force at boot: tables, targets, zones, routing, and the ports it has links for. -/
def DieState.bootPlate (D : DieState) (P : Plate) : DieState :=
  let none_ : Nat → List Byte := D.combPlate
  let node := (plateNode P).getD 0
  let D := { D with fab := { D.fab with plate := some P, node := node, assigned := (plateNode P).isSome } }
  let D := { D with stp := { D.stp with active := plateStipple P, staged := plateStipple P } }
  let D := (enabledStreams D.stp.active).foldl (fun (D : DieState) i => D.onStream i (fun _ => { lastSeen := D.now })) D
  let D := ((D.combSwitch none_).bindTables).foeInstall
  [0, 1].foldl (fun (D : DieState) p => if (plLink P node (2 * D.num + p)).isSome then D.setEnable p true else D) D

/-- The admin pair of instance 0, which the safety island sets up: in stacked memory, 16 slots each (R413). -/
def DieState.islandPair (D : DieState) : DieState :=
  let cfg := 4 + 2 ^ 5 + 2 ^ 6
  (D.setReg B_CMD CMD_ADMIN_CFG cfg 0).adminPair 0 cfg

/-- A die is ready: Seloth fetches, the frame and slice of the moment are open, and the safety island leaves its boot state
with its first message (R522, R538). -/
def DieState.nowReady (D : DieState) : DieState :=
  let D := { D with boot := { D.boot with stage := 7 }, cmd := { D.cmd with ready := true, began := D.now } }
  let D := D.openPresent
  let D := D.onSaf (fun x => { x with running := true })
  let D := D.raiseHeld.takeDoubts
  let e : SliceEnd := { time := D.now, frame := D.stp.frame, slice := D.sliceIndex }
  let D := (D.onSaf (fun x => { x with merged := e, classes := D.mergeAt D.now })).driveSdo
  let D := D.sendMessage false D.now e
  let D := if D.netOn then D.startNetwork else D
  D.event { cls := 1, code := 0x01, island := 2 }

/-- Stage 6: the plate, and the die is ready. A die that boots alone takes the active plate of die 0. -/
def State.bootConfig (s : State) (d : Die) : State :=
  let image := if (s.die d).boot.alone ∧ d ≠ 0 then (match s.dies.q0.fab.plate with | some P => P.image | none => [])
    else s.pkg.flash.plate
  let s := s.onDie d (fun D =>
    let D := match D.storedPlate image with | some P => D.bootPlate P | none => D
    D.islandPair.nowReady)
  s.onRunning (fun E =>
    ({ E with boot := { E.boot with
        ready := if E.num = d.val then orN ([0, 1, 2, 3].foldl (fun m e =>
            m + b2n (!(quadGet s.dies e).boot.held && (quadGet s.dies e).boot.stage == 7) * 2 ^ e) 0) (2 ^ d.val)
          else orN E.boot.ready (2 ^ d.val)
        lost := andNot E.boot.lost (2 ^ d.val) } }).cause B_GLB 1)

/-- BOOT_STAGE_ADVANCE: the present stage of a die is done, or fails. -/
def State.bootAdvance (s : State) (a : At) (digestBad anchorsBad : Bool) : State :=
  let s := s.atDie a (fun D => D)
  let D := s.die a.die
  let go (n : Nat) : State := s.onDie a.die (fun D => { D with boot := { D.boot with stage := n } })
  let fail (code : Nat) : State := s.onDie a.die (fun D => D.bootFail code)
  if D.boot.error ≠ 0 then s
  else match D.boot.stage with
    | 0 => if s.pkg.test then s else go 1
    | 1 =>
      if Config.fuseMapValid a.die then go 2
      else s.onDie a.die (fun D => (D.event { cls := 1, code := 0x04, island := 2 }).bootFail 2)
    | 2 =>
      if !D.clk.refA && !D.clk.refB then fail 7
      else if !D.boot.closed || s.unwanted a.die.val then s
      else s.onDie a.die (fun D => { (D.onClk (fun k => { k with selB := !k.refA })) with boot := { D.boot with stage := 3 } })
    | 3 =>
      if D.mem.s0.failed || D.mem.s1.failed then fail 3
      else if D.mem.s0.ready && D.mem.s1.ready then
        (go 4).onDie a.die (fun D => { D with mem := { D.mem with spared := sparedRows s.pkg.flash D.num } })
      else s
    | 4 => s.bootImage a.die digestBad
    | 5 => s.bootFirmware a.die anchorsBad
    | 6 => s.bootConfig a.die
    | _ => s

/-- BOOT_READY_TIMEOUT: 1,500 ms after the release a die is not ready. One that waits in stage 4 for die 0 to return goes on
waiting. -/
def State.bootTimeout (s : State) (a : At) : State :=
  let s := s.atDie a (fun D => D)
  let D := s.die a.die
  let waits := D.boot.alone && D.boot.stage == 4 && a.die != 0 && (s.dies.q0.boot.held || bit D.boot.lost 0)
  if D.boot.stage = 7 ∨ D.boot.error ≠ 0 ∨ waits = true ∨ D.now < D.boot.released + 1500000000 then s
  else
    let s := s.onDie a.die (fun D => D.bootFail 8)
    (s.onRunning (fun E => if E.num = a.die.val then E else E.markLost a.die.val)).settleWorks

/-! ## Samples (R596, R597) -/

/-- RAIL_SAMPLE of a running die: readings as index, mV and mA, and the energy drawn since the last sample in µJ. -/
def DieState.railSample (D : DieState) (rails : List (Nat × Nat × Nat)) (energy : Nat) : DieState :=
  let r := rails.foldl (fun (x : DieState × Bool) e => let y := x.1.sampleRail e
    (y.1, x.2 || y.2)) (D.count B_PWR PWR_ENERGY energy, false)
  if r.2 then r.1.dieReset false else r.1

/-- A held die's rails: since when they are all in range. -/
def DieState.railHeld (D : DieState) (rails : List (Nat × Nat × Nat)) : DieState :=
  if !D.boot.dieReset || D.boot.trip then D
  else
    let ok := rails.all (fun e => withinMille e.2.1 (D.nominal e.1) 50)
    { D with boot := { D.boot with causeGone := if ok then some (D.boot.causeGone.getD D.now) else none } }

/-- An optical engine enters or leaves its critical condition: its port is disabled until it ends. -/
def DieState.opticHot (D : DieState) (p : Nat) (hot : Bool) : DieState :=
  if (D.port p).hot == hot then D
  else if hot then (D.onPort p (fun x => { x with hot := true })).linkGone p 0
  else
    let D := D.onPort p (fun x => { x with hot := false })
    if D.portEnabled p && (D.port p).state == 0 then D.onPort p (fun x => { x with state := 1 }) else D

/-- Is a reading above its trip threshold? -/
def overTrip (die opt0 opt1 : Option Nat) : Bool :=
  (match die with | some v => decide (115 < v) | none => false)
  || (match opt0 with | some v => decide (95 < v) | none => false)
  || (match opt1 with | some v => decide (95 < v) | none => false)

/-- DIE_TEMP_SAMPLE of a running die: the highest valid readings of the die and its two optical engines. An injection of
kind 7 stands in for the die's own (R628). -/
def DieState.tempSample (D : DieState) (die opt0 opt1 : Option Nat) : DieState :=
  let inj (j : Injection) : Bool := j.kind == 7
  let forced := D.log.injections.find? (fun e => inj e.2)
  let die := match forced with | some e => some e.2.param | none => die
  let D := if forced.isSome then D.useInjection inj else D
  if overTrip die opt0 opt1 then D.dieReset true
  else
    let (warn, crit, owarn, ocrit) := D.tempThresh
    let old := D.pwr
    let p : PwrState := { old with die := old.die.sample D.now die warn crit, opt0 := old.opt0.sample D.now opt0 owarn ocrit
                                   opt1 := old.opt1.sample D.now opt1 owarn ocrit }
    let D := { D with pwr := p }
    let D := ((D.tempEvents old.die p.die 0).tempEvents old.opt0 p.opt0 1).tempEvents old.opt1 p.opt1 2
    ((D.opticHot 0 p.opt0.critical).opticHot 1 p.opt1.critical).applyCap

/-- A tripped die's temperatures: since when none is above its trip threshold. -/
def DieState.tempHeld (D : DieState) (die opt0 opt1 : Option Nat) : DieState :=
  if !D.boot.dieReset || !D.boot.trip then D
  else { D with boot := { D.boot with
           causeGone := if overTrip die opt0 opt1 then none else some (D.boot.causeGone.getD D.now) } }

/-! ## Control registers (R15, R623) -/

/-- A write of v to block b's control register: its fields, and every action whose bit it sets. A block whose other actions
have rows of their own is written as those rows write it. STP_CTRL has no counters to clear; a package reset that such a write
starts finds every die's rails in range. -/
def State.ctrl (s : State) (a : At) (r : Req) (b v : Nat) : State :=
  if b = B_GLB ∧ bit v 2 = true then s.packageReset a r v 0
  else if b = B_D2D ∧ bit v 2 = true then s.d2dRetrain a r v
  else if b = B_INS then ((s.atDie a (fun D => D.insCtrl r v)).settleFlash).settleWorks
  else s.atDie a (fun D =>
    if b = B_EVL then D.evlCtrl r v
    else if b = B_HBMn 0 then D.hbmCtrl r 0 v
    else if b = B_HBMn 1 then D.hbmCtrl r 1 v
    else if b = B_STP then D
    else D.csrDo r b 0x0004 (fun D => D.ctrlWrite r b v))

/-! ## Rows -/

/-- CLEAR_COUNTERS: a write of a block's control register with clear_counters set. -/
def execClearCounters (a : At) (r : Req) (block : Nat) (v : Word) (s : State) : Out :=
  onPkg a s (fun s => if bit v.toNat 1 then s.ctrl a r block v.toNat else s.atDie a (fun D => D))

/-- POWER_ON: PWR_GOOD rises; the dies whose rails are out of range, and the level of TEST. -/
def execPowerOn (a : At) (bad : Nat) (test : Bool) (s : State) : Out := .next (s.powerOn a bad test)
/-- PWR_GOOD_FALL. -/
def execPwrGoodFall (a : At) (s : State) : Out := .next (s.powerFall a)
/-- PKG_RESET_ASSERT. -/
def execPkgResetAssert (a : At) (s : State) : Out := .next (s.resetPin a)
/-- PKG_RESET_RELEASE: the dies whose rails are out of range. -/
def execPkgResetRelease (a : At) (bad : Nat) (s : State) : Out := .next (s.resetRise a bad)
/-- GLB_PACKAGE_RESET. -/
def execGlbPackageReset (a : At) (r : Req) (v : Word) (bad : Nat) (s : State) : Out :=
  onPkg a s (fun s => s.packageReset a r v.toNat bad)
/-- BOOT_STAGE_ADVANCE. -/
def execBootStageAdvance (a : At) (digestBad anchorsBad : Bool) (s : State) : Out :=
  onPkg a s (fun s => s.bootAdvance a digestBad anchorsBad)
/-- BOOT_READY_TIMEOUT. -/
def execBootReadyTimeout (a : At) (s : State) : Out := onPkg a s (fun s => s.bootTimeout a)
/-- STRAP_VALUE_RECEIVE: from the die at a ring position. -/
def execStrapValueReceive (a : At) (position : Die) (s : State) : Out := onPkg a s (fun s => s.strapReceive a position.val)
/-- STRAP_EXCHANGE_CLOSE. -/
def execStrapExchangeClose (a : At) (s : State) : Out := onDie a s (fun D => D.strapClose)
/-- STRAP_LATE_ARRIVAL. -/
def execStrapLateArrival (a : At) (s : State) : Out := onPkg a s (fun s => s.strapLate a)
/-- DIE_LOST: die a.die finds die lost gone. -/
def execDieLost (a : At) (lost : Die) (s : State) : Out := onPkg a s (fun s => s.dieLost a lost.val)
/-- DIE_RESET_RELEASE. -/
def execDieResetRelease (a : At) (s : State) : Out := .next (s.dieRelease a)
/-- RAIL_SAMPLE. -/
def execRailSample (a : At) (rails : List (Nat × Nat × Nat)) (energy : Nat) (s : State) : Out :=
  .next (s.atDie a (fun D => if D.boot.held then D.railHeld rails else D.railSample rails energy))
/-- DIE_TEMP_SAMPLE. -/
def execDieTempSample (a : At) (die opt0 opt1 : Option Nat) (s : State) : Out :=
  .next (State.thermtrip s a.die
    (s.atDie a (fun D => if D.boot.held then D.tempHeld die opt0 opt1 else D.tempSample die opt0 opt1)))

end Sys2Proof.Machine
end

