-- ==== Sys2Proof/Machine/RegRead.lean ====
section
/-! DEFINITION. What a register reads as: its stored word, or what it shows of the state (R104, R174, R203, R240, R278, R311,
R332, R373, R399, R430, R433, R465, R468, R507, R549, R552, R576, R578, R580, R604, R607, R609, R631, R649); reads and
writes of 64-bit halves (R13), and writes that act (R105, R509). -/

namespace Sys2Proof.Machine

/-- The identity word of a block (R649). -/
def idWord (b : Nat) : Nat := fld b 16 12 + fld 1 8 8 + (if b = 0x090 ∨ b = 0x0A0 then stackGiB % 256 else 0)

/-! ## Blocks of the die. Each function answers the whole register that stands at an offset, low word first; i is the index of
its selection register. none: the register reads as stored. -/

def DieState.readGlb (D : DieState) (off : Nat) : Option Nat :=
  if off = GLB_STATUS then some (fld (b2n (D.boot.stage == 7)) 0 1 + fld (b2n (D.boot.stage == 7 && D.d2d.links % 16 != 15)) 1 1)
  else if off = GLB_PART then
    some (fld Config.partVariant.val 0 4 + fld stackGiB 4 8 + fld (b2n sPart) 12 1 + fld Config.stepping 16 8)
  else if off = GLB_SERIAL then some (Config.packageSerial % 2 ^ 64)
  else if off = GLB_BASE_MAC then some (Config.baseMac % 2 ^ 48)
  else if off = GLB_DIE then some (fld D.num 0 2 + fld D.boot.ready 4 4 + fld D.boot.lost 8 4)
  else if off = GLB_BOOT then some (fld D.boot.stage 0 4 + fld D.boot.error 8 8 + fld D.boot.slot 16 1)
  else if off = GLB_TIME then some (D.now % 2 ^ 64)
  else if off = GLB_PKEY then some (leNat (toBE 48 Config.packageKeyX ++ toBE 48 Config.packageKeyY))
  else none

/-- The group an island belongs to; none: its clock is fixed (R582). -/
def islandGroup (i : Nat) : Option Nat := (List.range 8).find? (fun g => (groupIslands g).contains i)

/-- Is an island's clock stopped by a power-down? -/
def DieState.islandStopped (D : DieState) (i : Nat) : Bool :=
  if 3 ≤ i ∧ i < 19 then !(D.core (i - 3)).powered else if 19 ≤ i ∧ i < 23 then !(D.cluster (i - 19)).powered else false

def DieState.readClk (D : DieState) (i off : Nat) : Option Nat :=
  let k := D.clk
  if off = CLK_STATUS then some (fld (b2n !k.changes.isEmpty) 0 1 + fld (b2n k.osc) 1 1)
  else if off = CLK_REF then some (fld (b2n k.refA) 0 1 + fld (b2n k.refB) 1 1 + fld (b2n k.selB) 2 1 + fld (b2n k.refEth) 3 1)
  else if off = CLK_OSC_DIFF then some (wrapN 32 k.oscPpm)
  else if off = CLK_ISL_FREQ then some (D.freeNat % 2 ^ 32)
  else if off = CLK_ISL_STATE then
    let point := match islandGroup i with | some g => D.runPoint g | none => 0
    let capped := match islandGroup i with | some g => g < 4 && D.wantPoint g < D.setPoint g | none => false
    some (fld point 0 2 + fld (b2n (k.bridge.contains i)) 2 1 + fld (b2n (D.islandStopped i)) 3 1 + fld (b2n capped) 4 1)
  else none

/-- Highest reading of a monitored temperature, with its valid bit: one was valid within the last 3 ms (R403). -/
def TempState.word (t : TempState) (now : Nat) : Nat :=
  fld (t.value.getD 0) 0 8 + fld (b2n (t.value.isSome && decide (now < t.lastValid + 3000000))) 8 1

def DieState.readPwr (D : DieState) (i off : Nat) : Option Nat :=
  let p := D.pwr
  let rail := tabGet {} p.rails i
  if off = PWR_STATUS then
    some (fld (b2n p.die.warm) 0 1 + fld (b2n p.die.critical) 1 1 + fld (b2n (p.rails.any (fun e => e.2.warning))) 2 1
      + fld (b2n !p.changes.isEmpty) 3 1)
  else if off = PWR_DOMAIN then some D.pwrDomain
  else if off = PWR_OP then some D.pwrOp
  else if off = PWR_CAP then some D.cap
  else if off = PWR_RAIL_MV then some (rail.mv % 2 ^ 32)
  else if off = PWR_RAIL_MA then some (if i < 16 then rail.ma % 2 ^ 32 else 0)
  else if off = PWR_RAIL_STATE then
    some (fld (if i < 20 then D.nominal i else 0) 0 16 + fld (b2n rail.warning) 16 1 + fld (b2n rail.fault) 17 1)
  else if off = PWR_TEMP then some (p.die.word D.now)
  else if off = PWR_OPT_TEMP then
    some ((if i = 0 then p.opt0 else p.opt1).word D.now + fld D.tempThresh.2.2.1 16 8 + fld D.tempThresh.2.2.2 24 8)
  else none

/-- The record that a requester selects, as it may read it: outcome, and the record (R624). -/
def DieState.readRecord (D : DieState) (r : Req) : Nat × List Byte :=
  let seq := D.sel r.id B_EVL EVL_READ_SEQ
  if seq < D.log.oldest then (1, [])
  else match D.log.ring.find? (fun e => e.seq == seq) with
    | none => (2, [])
    | some e =>
      let own := match e.ev.inst with | some i => i != 0 && i == r.inst | none => false
      if 1 ≤ D.roleOf r || own then (0, e.bytes D.num) else (3, [])

def DieState.readEvl (D : DieState) (r : Req) (off : Nat) : Option Nat :=
  let l := D.log
  if off = EVL_STATUS then
    some (fld (b2n l.isLost) 0 1 + fld (b2n l.fail0) 1 1 + fld (b2n l.fail1) 2 1 + fld (b2n l.flushing.isSome) 3 1
      + fld (b2n !D.flashReach) 4 1 + fld (bitMask (l.injections.map (·.1))) 5 4)
  else if off = EVL_NEXT_SEQ then some (l.nextSeq % 2 ^ 32)
  else if off = EVL_OLDEST_SEQ then some (l.oldest % 2 ^ 32)
  else if off = EVL_FLUSHED_SEQ then some (l.flushedSeq % 2 ^ 32)
  else if off = EVL_INTAKE then some (fld l.intake.length 0 6 + fld l.intakeMax 8 6)
  else if off = EVL_READ_STATUS then some (D.readRecord r).1
  else if off = EVL_READ_DATA then some (leNat (D.readRecord r).2)
  else none

def DieState.readSaf (D : DieState) (off : Nat) : Option Nat :=
  let x := D.saf
  if off = SAF_STATUS then
    some (fld (b2n x.running) 0 1 + fld (b2n D.netOn) 1 1 + fld (b2n x.restarting) 2 1 + fld (b2n x.latched) 3 1
      + fld (b2n D.ptp.locked) 4 1)
  else if off = SAF_MODE then some (fld D.safMode 0 2 + fld (b2n x.network) 2 1 + fld x.clean 3 2)
  else if off = SAF_DOUBT_ACTIVE then some (x.active % 2 ^ 32)
  else if off = SAF_MSG_SEQ then some (x.lastSeq % 2 ^ 32)
  else if off = SAF_HEALTH then some (x.health % 2 ^ 32)
  else if off = SAF_PROOF_STATUS then
    some (match x.proof with
      | some p => (if p.frame = D.stp.frame then fld p.matched 0 4 + fld p.failed 4 4 + fld (b2n p.late) 9 1 else 0)
          + fld (b2n p.running.isSome) 8 1
      | none => 0)
  else if off = SAF_SDO_STATE then some D.sdoState
  else if off = SAF_SERVICE_LEFT then
    some (match x.service with | some t => ceilDiv (t - D.now) 1000000000 | none => 0)
  else if off = SAF_CLAIM then some (b2n sPart)
  else none

def DieState.readFoe (D : DieState) (i off : Nat) : Option Nat :=
  let z := D.zoneState i
  let zs := D.foeZones.map (·.2)
  if off = FOE_STATUS then
    some (fld (b2n !D.foe.block.isEmpty) 0 1 + fld (b2n D.foe.evaluating.isSome) 1 1
      + fld (b2n (decide (D.now < D.foe.clearEnd))) 2 1 + fld (b2n D.foe.plane) 3 1)
  else if off = FOE_ZONE_STATE then
    some (fld z.count 0 16 + fld (b2n z.occupied) 16 1 + fld (b2n z.raw) 17 1 + fld (b2n z.blind) 18 1 + fld z.run 19 3
      + fld z.clear 24 8)
  else if off = FOE_OCC then some (leNat (packBits (fun z => D.foeZones.any (fun e => e.1 == z) && (D.zoneState z).occupied)))
  else if off = FOE_BLIND then some (leNat (packBits (fun z => D.foeZones.any (fun e => e.1 == z) && (D.zoneState z).blind)))
  else if off = FOE_SPANS then some (sumN (zs.map (zoneSpans D.foe.block)))
  else if off = FOE_ZONE_CELLS then some (sumN (zs.map (fun z => (zoneCells D.foe.block z).length)))
  else none

/-- i: the stream of STP_STREAM_SEL. -/
def DieState.readStp (D : DieState) (i off : Nat) : Option Nat :=
  let used := (List.range 6).map D.intakeUsed
  if off = STP_STATUS then
    some (fld (b2n (bit (D.reg B_STP STP_CTRL) 0 && stpTablesOk D.stp.active)) 0 1 + fld (b2n D.stp.replay) 1 1
      + fld (b2n D.ptp.locked) 2 1 + fld (b2n (intakeRoom 5 ≤ D.intakeUsed 5)) 3 1 + fld (b2n (4096 ≤ D.comb.waiting)) 4 1
      + fld ((enabledStreams D.stp.active).filter (fun i => (D.streamOf i).absent)).length 8 8)
  else if off = STP_TRIG_CRC then some trigCrc
  else if off = STP_FRAME_LEN_US then some (D.frameNs / 1000)
  else if off = STP_SLICE_LEN_US then some (D.sliceNs / 1000)
  else if off = STP_FRAME_NUM then some (D.stp.frame % 2 ^ 64)
  else if off = STP_SLICE_NUM then some D.sliceIndex
  else if off = STP_INTAKE_LEVEL then some (sumN used)
  else if off = STP_TBL_CTRL then some (fld (b2n D.stp.tblError) 2 1)
  else if off = STP_STREAM_WORDS then
    let x := D.streamOf i
    some ((List.range 3).foldl (fun v k => v + D.reg B_STP (STP_STREAM_WORDS + 4 * k) i * 2 ^ (32 * k)) 0
      + (fld (b2n x.present) 0 1 + fld (b2n x.absent) 1 1 + fld (b2n x.thin) 2 1) * 2 ^ 96)
  else none

def DieState.readFgr (D : DieState) (i off : Nat) : Option Nat :=
  let a := D.slotOf i false
  let b := D.slotOf i true
  let drains (x : TabSlot) : Nat := if x.state = 4 then x.notices.length else 0
  let f := D.fgr
  if off = FGR_STATUS then
    some (fld (b2n (!f.batches.isEmpty || !f.updates.isEmpty || !f.works.isEmpty || D.fgrCommands != 0)) 0 1
      + fld (b2n (f.shares.any (·.waiting))) 1 1 + fld (b2n (!f.works.isEmpty)) 2 1
      + fld (b2n (f.tables.any (fun t => t.2.a.state == 4 || t.2.b.state == 4))) 3 1 + fld D.fgrCommands 8 9)
  else if off = FGR_PREFETCH_BYTES then some D.prefetchArea
  else if off = FGR_TBL_STATE then
    let hot := (a.state == 3 && a.hotStaging) || (b.state == 3 && b.hotStaging)
    some (fld a.state 0 3 + fld b.state 4 3 + fld (b2n (D.serves i)) 7 1 + fld (b2n hot) 8 1
      + fld (min 1024 (drains a + drains b)) 16 11)
  else if off = FGR_TBL_VER_A then some (if a.state = 0 then 0 else a.version)
  else if off = FGR_TBL_VER_B then some (if b.state = 0 then 0 else b.version)
  else if off = FGR_TBL_INFLIGHT_A then some (D.inflight i false)
  else if off = FGR_TBL_INFLIGHT_B then some (D.inflight i true)
  else none

/-- Stack n. -/
def DieState.readHbm (D : DieState) (n off : Nat) : Option Nat :=
  let h := D.mem.hbm n
  if off = HBM_STATUS then
    some (fld (b2n h.ready) 0 1 + fld (b2n h.failed) 1 1 + fld (b2n h.temp.warm) 2 1 + fld (b2n h.temp.critical) 3 1
      + fld (b2n (h.ready && bits (D.reg (B_HBMn n) HBM_SCRUB_PERIOD) 0 8 != 0)) 4 1)
  else if off = HBM_TEMP then some (h.temp.word D.now)
  else if off = HBM_SCRUB_POS then some (h.scrubPos / 2 ^ 16)
  else none

/-- Commands in the delay lists, of an instance or of all. -/
def DieState.delayedCmds (D : DieState) (inst : Option Nat) : Nat :=
  (D.cmd.cmds.filter (fun c => (match inst with | some i => c.inst == i | none => true)
    && (match c.phase with | .delayed _ => true | _ => false))).length

def DieState.readCmd (D : DieState) (i off : Nat) : Option Nat :=
  let c := D.cmd
  if off = CMD_STATUS then
    let paused := 64 ≤ c.heldIn || 4096 ≤ c.cmds.length || D.queueNums.any (fun q => (D.queue q).state == .active && (D.queue q).kind == 0
      && c.held.any (fun h => h.queue == (D.queue q).defReply))
    let alive (beat : Option Nat) : Bool := match beat with | some t => decide (D.now ≤ t + 1000000) | none => false
    some (fld (b2n c.ready) 0 1 + fld (b2n (alive c.beat0)) 1 1 + fld (b2n (alive c.beat1)) 2 1 + fld (b2n paused) 3 1
      + fld c.heldIn 8 7)
  else if off = CMD_FW_VERSION then some (if D.boot.image.isEmpty then 0 else Config.imageVersion D.boot.image % 2 ^ 32)
  else if off = CMD_INFLIGHT then some (fld c.cmds.length 0 13 + fld (D.delayedCmds none) 16 11)
  else if off = CMD_INST_INFLIGHT then some (D.slotMeasure i 0)
  else if off = CMD_INST_DELAYED then some (D.delayedCmds (some i))
  else if off = CMD_INST_FORAGER then some (D.foragerMeasure i 0)
  else if off = CMD_INST_CLUSTER_TIME then some (tabGet 0 c.timeUse i)
  else none

def Queue.code (q : Queue) : Nat := match q.state with | .free => 0 | .active => 1 | .error => 2 | .destroying => 3

/-- SEAL_QUEUE_STATE and QDB_STATE of a queue (R436). -/
def DieState.queueWord (D : DieState) (n : Nat) : Nat :=
  let q := D.queue n
  fld q.code 0 2 + fld q.err 8 8 + fld (b2n (D.cmd.held.any (fun h => h.queue == n && h.inside))) 16 1 + fld (b2n q.phase) 17 1

/-- Is a register of a selected seal or queue closed to the requester: one of another instance, without a session (R433)? i: the
seal or the queue. -/
def DieState.sealClosed (D : DieState) (r : Req) (b i off : Nat) : Bool :=
  let q := D.queue i
  b == B_SEAL && D.roleOf r == 0
    && ([SEAL_COUNTER, SEAL_TARGET, SEAL_INFO].contains off && !D.ownsSeal r.inst i
        || [SEAL_QUEUE_CFG, SEAL_QUEUE_BASE, SEAL_QUEUE_HEAD, SEAL_QUEUE_TAIL, SEAL_QUEUE_STATE, SEAL_QUEUE_OVERRUNS].contains off
          && (q.state == .free || q.inst != r.inst))

/-- i: the selected seal or queue, which the requester may read (R433). -/
def DieState.readSeal (D : DieState) (i off : Nat) : Option Nat :=
  let x := D.sealOf i
  let q := D.queue i
  if off = SEAL_STATUS then
    some (fld (b2n (D.boot.stage == 7)) 0 1 + fld (b2n (decide (8192 ≤ D.commandWaits))) 1 1 + fld (min 64 D.cmd.intake.length) 8 7)
  else if off = SEAL_FREE_COUNT then some (16384 - (D.cmd.seals.filter (fun e => e.2.alloc)).length)
  else if off = SEAL_WAITS_PENDING then some D.commandWaits
  else if off = SEAL_COUNTER then some (x.counter % 2 ^ 32)
  else if off = SEAL_TARGET then some (match x.arm with | some (t, _) => t % 2 ^ 32 | none => 0)
  else if off = SEAL_INFO then
    some (fld x.gen 0 8 + fld (b2n x.alloc) 8 1 + fld (b2n x.arm.isSome) 9 1 + fld (b2n x.saturated) 10 1
      + fld ((D.sealOwner i).getD 0) 16 3 + fld (D.waitersOf i) 24 8)
  else if off = SEAL_QUEUE_CFG then
    some (fld q.log2 0 5 + fld q.kind 5 2 + fld q.prio 8 3 + fld (b2n q.stacked) 11 1 + fld (b2n q.emptyMode) 12 1
      + fld (b2n q.fullMode) 13 1 + fld (b2n q.doorbell.isSome) 14 1 + fld q.inst 16 3)
  else if off = SEAL_QUEUE_BASE then some (q.base % 2 ^ 64)
  else if off = SEAL_QUEUE_HEAD then some (q.head % 2 ^ 32)
  else if off = SEAL_QUEUE_TAIL then some (q.tail % 2 ^ 32)
  else if off = SEAL_QUEUE_STATE then
    some (D.queueWord i)
  else if off = SEAL_QUEUE_OVERRUNS then some (min q.overruns (2 ^ 32 - 1))
  else none

/-- i: the port, or the table entry in FAB_RT_SEL. -/
def DieState.readFab (D : DieState) (i off : Nat) : Option Nat :=
  let f := D.fab
  let x := D.port (i % 2)
  if off = FAB_STATUS then
    some (fld (b2n f.admitted) 0 1 + fld (b2n f.quarantined) 1 1 + fld (b2n f.switchAt.isSome) 2 1 + fld (b2n f.pulling) 3 1
      + fld (b2n !f.injections.isEmpty) 4 1)
  else if off = FAB_NODE then some (fld f.node 0 12 + fld (b2n f.assigned) 12 1 + fld D.num 13 2)
  else if off = FAB_HOP_LIMIT then some (match f.plate with | some p => fld p.hopLimit 0 6 + fld p.bound 8 8 | none => 0)
  else if off = FAB_PLATE_EPOCH then some (plateEp f.plate)
  else if off = FAB_PLATE_DIGEST then some (leNat (plateDg f.plate))
  else if off = FAB_STAGED_EPOCH then some (plateEp f.staged)
  else if off = FAB_SWITCH_TIME then some (f.switchAt.getD 0)
  else if off = FAB_TAGS_OUT then some (f.tags.length % 2 ^ 17)
  else if off = FAB_PORT_STATE then some x.stateWord
  else if off = FAB_PORT_PEER then some x.peerWord
  else if off = FAB_PORT_LENGTH then some x.lengthWord
  else if off = FAB_PORT_OPTICS then some x.opticsWord
  else if off = FAB_RT_ENTRY then
    some (match f.plate with | some p => plRoute p f.node D.num (bits i 12 2) (bits i 0 12) | none => 0)
  else if off = FAB_INJ_STATUS then some (fld (bitMask (f.injections.map (·.1))) 0 4 + fld (min 255 f.injStarted) 8 8)
  else none

def DieState.readPci (D : DieState) (off : Nat) : Option Nat :=
  let p := D.pcie
  if off = PCI_STATUS then
    some (fld (b2n p.up) 0 1 + fld (b2n (D.apertureOk 0)) 1 1 + fld (b2n (p.ide != 0)) 2 1 + fld (p.vfs / 2) 4 8)
  else if off = PCI_LINK then some p.link
  else none

def DieState.readEth (D : DieState) (i off : Nat) : Option Nat :=
  let e := D.ethPort i
  if off = ETH_STATUS then
    some (fld (b2n D.ptp.locked) 0 1 + fld (b2n D.ptp.viaUcie) 1 1
      + fld (bitMask ((List.range 5).filter (fun p => (D.ethPort p).link))) 2 5)
  else if off = ETH_PORT_STATE then
    some (if 4 < i then 0 else fld (b2n e.link) 0 1 + fld (b2n e.fec) 1 1 + fld (b2n e.remoteFault) 2 1
      + fld (b2n e.partner) 3 1 + fld (b2n (D.ptp.gm.isSome && D.ptp.port == i)) 4 1)
  else none

def DieState.readD2d (D : DieState) (i off : Nat) : Option Nat :=
  let m := D.d2d.mod (i % 2)
  if off = D2D_STATUS then
    let reach (d : Nat) : Bool := d == D.num || (ringModule D.d2d.links D.num d).isSome
    some (fld (b2n (D.d2d.links % 16 == 15)) 0 1 + fld (b2n (D.d2d.links % 16 != 15)) 1 1
      + fld (bitMask ((List.range 4).filter reach)) 2 4)
  else if off = D2D_MOD_STATE then
    some (fld m.state 0 3 + fld m.peer 3 2 + fld m.txRepaired 5 3 + fld m.rxRepaired 8 3 + fld m.cause 12 4)
  else none

/-- sel: the requester's INS_SEL. -/
def DieState.readIns (D : DieState) (sel off : Nat) : Option Nat :=
  let x := D.ins
  if off = INS_STATUS then
    some (fld (b2n x.commitBusy) 0 1 + fld (b2n (memRead x.active 0 3072 != memRead x.staged 0 3072)) 1 1
      + fld (b2n !x.scrubs.isEmpty) 2 1 + fld (bitMask ((List.range 8).filter (insEnabled x.active))) 8 8)
  else if off = INS_RESET_BUSY then some (bitMask (x.resets.map (·.1)))
  else if off = INS_GEN then some ((List.range 8).foldl (fun v i => v + fld (tabGet 0 x.gens i) (8 * i) 8) 0)
  else if off = INS_DATA then
    some (if bits sel 8 3 < 6 then
      leNat (memRead (if bit sel 3 then x.staged else x.active) (384 * bits sel 0 3 + 64 * bits sel 8 3) 64) else 0)
  else none

/-- req: the reader, whose nonce ROL_NONCE holds; its word 0 has a row of its own. i: the requester, the session slot or the block
that a ROL register is selected by. -/
def DieState.readRol (D : DieState) (f : Flash) (req i off : Nat) : Option Nat :=
  let x := D.rol
  let s := tabFind x.sessions (i % 4)
  if off = ROL_STATUS then
    some (fld x.sessions.length 0 3 + fld (b2n (D.reachesFlash && f.auditTakes 0)) 3 1 + fld (b2n (f.auditFree < 512)) 4 1
      + fld (b2n x.anchorsOk) 5 1)
  else if off = ROL_NONCE then some (match D.nonceOf req with | some n => leNat n.bytes | none => 0)
  else if off = ROL_AUTH_STATUS then some (tabGet 0 x.status i)
  else if off = ROL_SESSION_INFO then
    some (match s with
      | some s => fld 1 0 1 + fld s.role 1 2 + fld s.req 4 12 + fld (s.queue.getD 0xFFF) 16 12 + fld s.anchor 28 3
      | none => 0)
  else if off = ROL_SESSION_SERIAL then some (match s with | some s => s.serial % 2 ^ 32 | none => 0)
  else if off = ROL_LOCK_STATE then some (fld (b2n (x.lockOpen.contains i)) 0 1 + fld (b2n (hasRwl i)) 1 1)
  else if off = ROL_AUDIT_NEXT then some (f.auditSeq % 2 ^ 64)
  else if off = ROL_AUDIT_FREE then some f.auditFree
  else if off = ROL_AUDIT_DATA then
    some (match f.audit.find? (fun a => a.seq == D.reg64 B_ROL ROL_AUDIT_READ) with | some a => leNat a.bytes | none => 0)
  else none

/-- A remote-window entry (R160). -/
def Rwin.entry (w : Rwin) : List Byte :=
  if !w.isOpen then toLE 32 0
  else toLE 4 w.base ++ toLE 4 w.size ++ toLE 2 w.node ++ toLE 1 w.dies ++ toLE 1 w.insts ++ toLE 1 w.rights ++ toLE 1 w.flags
    ++ toLE 2 0 ++ toLE 4 w.sealRef ++ toLE 1 w.gen ++ toLE 11 0

/-- Cluster c. -/
def DieState.readCst (D : DieState) (c i off : Nat) : Option Nat :=
  let C := D.cluster c
  if off = CST_STATUS then
    let tasks := D.task.tasks.filter (fun t => t.stages.any (fun e => e.2 == .running && e.1 % 16 / 4 == c)
      && (List.range 8).any (fun w => (taskWindow t.desc w).kind == 0 && (taskWindow t.desc w).used))
    some (fld (b2n (!C.fills.isEmpty)) 0 1 + fld (b2n (!C.fills.isEmpty)) 1 1
      + fld ((List.range 64).filter (fun s => (C.rwin s).isOpen)).length 8 7 + fld tasks.length 16 4
      + fld ((D.clusterOwner c).getD 0) 24 3)
  else if off = CST_SEG_READY then some (if C.powered then C.segReady % 2 ^ 64 else 0)
  else if off = CST_RETIRED_COUNT then some (C.retired.filter (fun e => e.2)).length
  else if off = CST_RETIRE_MAP then some (bitMask ((List.range 32).filter (fun j => tabGet false C.retired (32 * i + j))))
  else if off = CST_RWIN_DATA then some (leNat (C.rwin i).entry)
  else none

/-- Registers of core g, 4c + k. i: the selected engine. -/
def DieState.readSeq (D : DieState) (g i off : Nat) : Option Nat :=
  let k := D.core g
  let t := match k.task with | some id => D.task.tasks.find? (fun t => t.id == id) | none => none
  let tok (n : Nat) : Nat := (List.range 4).foldl (fun v j => v + fld (k.tokens.getD (n + j) 0) (8 * j) 8) 0
  if off = SEQ_STATUS then
    let blocked := match t with
      | some t => (match D.nextOp g t with | some (w, _, _) => opEngine w == 0 && !k.hasTokens (opWait w) && !k.ended && k.seq.isNone | none => false)
      | none => false
    let starting := D.task.tasks.any (fun t => D.coreStarting t g)
    some (fld (b2n k.task.isSome) 0 1 + fld (b2n starting) 1 1 + fld (b2n (k.sealWait == some 0)) 2 1 + fld (b2n blocked) 3 1
      + fld (b2n (match t with | some t => t.proof | none => false)) 4 1 + fld k.launch.length 8 3
      + fld (match t with | some t => t.inst | none => 0) 16 3)
  else if off = SEQ_TASK_ID then some (k.task.getD 0)
  else if off = SEQ_PC then some k.pc
  else if off = SEQ_TOKENS_LO then some (tok 0)
  else if off = SEQ_TOKENS_HI then some (tok 4)
  else if off = SEQ_LOOP then some ((List.range 4).foldl (fun v j => v + fld (k.loops.getD j 0) (32 * j) 32) 0)
  else if off = SEQ_ENGINE_QUEUE then
    let e := k.engine i
    some (if i = 0 then 0 else fld e.queue.length 0 4 + fld (b2n !e.run.isEmpty) 8 1
      + fld (match e.queue.head? with | some o => opWait o.word | none => 0) 16 8)
  else none

/-- Fields of an engine's status that show how far the op in flight is: each holds some value that it may have then, and 0 with
none in flight (log entry 9). x: the free value. Weight loader, drain and slots of DTE and STE, the sparse engine's wait for its
checks and checking pass, the MVP's held buffer, the pass of VU and SEL. -/
def Engine.progress (g : Engine) (e x : Nat) : Nat :=
  let held := bitMask ((List.range 4).filter (fun i => g.run.any (fun r => r.slots.contains i)))
  let packs := g.run.any (fun r => opCode r.op.word == 0x20 || opCode r.op.word == 0x21)
  if g.run.isEmpty then 0
  else if e = 1 then fld x 2 2 + fld (andN (x / 4) held) 4 4
  else if e = 2 then fld x 2 2 + fld (andN (x / 4) held) 4 4 + fld (x / 64) 24 1 + (if packs then fld (x / 128) 25 1 else 0)
  else if e = 3 then fld x 1 1
  else if e = 4 then fld (x % 3) 1 2
  else if e = 5 then fld x 4 4
  else 0

/-- Status word of engine e of core g (R143, R180, R242, R247, R280, R313, R334). -/
def DieState.engineWord (D : DieState) (g e : Nat) : Nat :=
  let x := (D.core g).engine e
  let held := match x.queue.head? with | some o => o.gate == 1 | none => false
  let runs (p : Nat → Bool) : Bool := x.run.any (fun r => p r.op.word)
  let own := if e = 3 then fld (b2n (runs (fun w => bit (opImm w) 0))) 2 1
    else if e = 4 then fld (b2n held) 3 1
    else if e = 5 then fld (b2n (runs (fun w => (opCode w == 0x01 || opCode w == 0x02) && !bit (opImm w) 29))) 1 1 + fld (b2n held) 2 1
    else if e = 7 then fld (b2n (x.run.any (fun r => r.remote != 0 || r.asked.isSome))) 1 1
    else if e = 1 ∨ e = 2 then fld (b2n (decide (2 ≤ x.run.length))) 1 1 else 0
  fld (b2n !x.run.isEmpty) 0 1 + own + x.progress e D.freeNat + fld x.lastOp 8 8 + fld x.lastStatus 16 8

/-- Is chain buffer b of a core taken and not yet freed (R301, R311)? -/
def Core.bufTaken (k : Core) (b : Nat) : Bool :=
  let uses (o : OpEntry) : Bool := o.inBuf == some b || o.outBuf == some b
  k.chained.contains b || k.engines.any (fun e => e.2.queue.any uses || e.2.run.any (fun r => uses r.op))

/-- Registers of engine e of core g. -/
def DieState.readEngine (D : DieState) (g e i off : Nat) : Option Nat :=
  let k := D.core g
  if off = DTE_STATUS then some (D.engineWord g e)
  else if e = 1 ∧ off = DTE_FUSE_LANES then
    some (fuseLanes D.num g + fld (b2n (Config.fuseMapValid (Fin.ofNat 4 D.num))) 31 1)
  else if e = 1 ∧ off = DTE_FUSE_CELL then some (fuseCell D.num g (i % 64))
  else if e = 4 ∧ off = VU_CHAIN_STATUS then
    some (fld (b2n (k.bufTaken 0)) 0 1 + fld (b2n (k.bufTaken 1)) 1 1 + fld k.nextBuf 2 1 + fld k.buf0.producer 4 3
      + fld k.buf1.producer 8 3 + fld (min 1024 (ceilDiv k.buf0.bytes.length 64)) 16 11)
  else none

/-! ## One register word -/

/-- Does a register count cycles or occupancy within a step (stalls, waits, bubbles, row hits), packets of the die spine or errors
that the PCIe link corrected? What it counts depends on timing and is free (log entry 9). -/
def isTimed (k : BlockKind) (off : Nat) : Bool :=
  match k with
  | .glb => [GLB_SPINE_PACKETS, GLB_SPINE_STALLS].contains off
  | .clk => off == CLK_ISL_CROSS_STALLS
  | .hbm => [HBM_CLASS_WAIT, HBM_PC_ROW_HITS, HBM_PC_QUEUE_MAX].contains off
  | .fab => off == FAB_PORT_CREDIT_STALLS
  | .pci => off == PCI_CORR_ERRS
  | .cst => [CST_BANK_CONFLICTS, CST_PORT_STALLS].contains off
  | .seq => off == SEQ_DISPATCH_STALLS
  | .dte | .ste => [DTE_BUSY_CYCLES, DTE_BUBBLES, DTE_WLOAD_WAIT, DTE_SKID_FULL_CYCLES, DTE_DRAIN_HAZARD, DTE_GROUP_STALLS,
      DTE_GROUP_SKID_MAX].contains off
  | .mvp => [MVP_BUSY_CYCLES, MVP_STREAM_WAIT].contains off
  | .vu => [VU_BUSY_CYCLES, VU_GATE_WAIT, VU_CHAIN_WAIT].contains off
  | .sel => off == SEL_BUSY_CYCLES
  | _ => false

/-- What such a register of block b shows at index i: the sum of what each span of work added since the last clear, saturating at
64 bits, or the largest of them for a highest occupancy (6 and 7 bits). Row hits are requests served (R399); a port beyond the
range has no stalls (R174). -/
def DieState.timedValue (D : DieState) (k : BlockKind) (b off i : Nat) : Nat :=
  let vs := (D.csr.timed.filter (fun e => e.1 == b)).map (fun e => Config.freeTimed e.2 off i)
  let sum := min (sumN vs) (2 ^ 64 - 1)
  let most (n : Nat) : Nat := vs.foldl (fun m v => max m (v % 2 ^ n)) 0
  match k with
  | .hbm => if off = HBM_PC_QUEUE_MAX then most 7 else if off = HBM_PC_ROW_HITS then min sum (D.reg64 b HBM_PC_REQUESTS i) else sum
  | .dte | .ste => if off = DTE_GROUP_SKID_MAX then most 6 else sum
  | .cst => if off = CST_PORT_STALLS ∧ 35 ≤ i then 0 else sum
  | _ => sum

/-- What block b shows of the state at a register of it. -/
def State.shown (s : State) (D : DieState) (r : Req) (b : Nat) (d : RegDesc) : Option Nat :=
  let i := D.regIndex r.id b d
  let g := (b - 0x200) / 0x10
  if d.off = 0 then some (idWord b)
  else match blockKind b with
  | none => none
  | some k => if isTimed k d.off then some (D.timedValue k b d.off i) else match k with
    | .glb => D.readGlb d.off
    | .clk => D.readClk i d.off
    | .pwr => D.readPwr i d.off
    | .evl => D.readEvl r d.off
    | .saf => D.readSaf d.off
    | .foe => D.readFoe i d.off
    | .stp => D.readStp i d.off
    | .fgr => D.readFgr i d.off
    | .hbm => D.readHbm ((b - 0x090) / 0x10) d.off
    | .cmd => D.readCmd i d.off
    | .seal => D.readSeal i d.off
    | .fab => D.readFab i d.off
    | .pci => D.readPci d.off
    | .eth => D.readEth i d.off
    | .d2d => D.readD2d i d.off
    | .ins => D.readIns (D.sel r.id B_INS INS_SEL) d.off
    | .rol => D.readRol s.pkg.flash r.id i d.off
    | .cst => D.readCst (b - 0x180) i d.off
    | .seq => D.readSeq g i d.off
    | _ => D.readEngine g (b % 16) i d.off

/-- The word at an offset, as a requester reads it (R12, R15, R443): an offset without a register reads 0, a selection
register reads the requester's own copy, an action's bits read 0. -/
def State.readWord (s : State) (D : DieState) (r : Req) (b off : Nat) : Nat :=
  match regDesc b off with
  | none => 0
  | some d =>
    if isSelReg b d.off then D.sel r.id b d.off
    else match s.shown D r b d with
      | some v => bits v (8 * (off - d.off)) 32
      | none => andNot (D.reg b off (D.regIndex r.id b d)) d.w1s

/-! ## Reads (R13, R16) -/

/-- A requester's shadow of the high half at off + 4 is replaced (R13): each register has its own. -/
def DieState.setShadow (D : DieState) (r : Req) (b off : Nat) (v : Option Nat) : DieState :=
  let rest := D.csr.shadows.filter (fun x => !(x.req == r.id && x.block == b && x.off == off))
  { D with csr := { D.csr with shadows := match v with
      | some v => rest ++ [{ req := r.id, block := b, off := off, high := BitVec.ofNat 32 v }]
      | none => rest } }

/-- A read of a doorbell page (R415): the counts and the state of its queue, for the queue's instance, or for the holder of the
session it is bound to (R444). -/
def DieState.doorRead (D : DieState) (r : Req) (b off : Nat) : DieState :=
  let n := (b - 0x800) * 16 + off / 0x1000
  let o := off % 0x1000
  let q := D.queue n
  if !D.barOpen r b then D.out (.csrData r.id 0xFFFFFFFF)
  else if q.state != .free && q.inst == r.inst && r.overNode.isNone
      && (match D.queueSession q with | some ses => ses.req == r.id | none => true) then
    D.out (.csrData r.id (if o = 8 then q.tail else if o = 0xC then q.head
      else if o = 0x10 then D.queueWord n else 0))
  else (D.refuseDoor r n o false).out (.csrData r.id 0)

/-- A read comes to the register at an offset: one that counts what is free is looked at. -/
def DieState.lookAt (D : DieState) (b off : Nat) : DieState :=
  match blockKind b, regDesc b off with
  | some k, some d => if isTimed k d.off then D.lookTimed b else D
  | _, _ => D

/-- Is the register at an offset one of a seal or queue that the requester may not read (R433)? -/
def DieState.sealHidden (D : DieState) (r : Req) (b off : Nat) : Bool :=
  match regDesc b off with
  | some d => D.sealClosed r b (D.regIndex r.id b d) d.off
  | none => false

/-- A read: refused it returns 0 (R16), over a closed BAR0 all ones (R561), else what body answers. A misaligned read,
or one of an unassigned block, has a row of its own. -/
def State.csrGet (s : State) (a : At) (r : Req) (b off : Nat) (body : State → DieState → Nat × DieState) : State :=
  let s := s.atDie a (fun D => D)
  let D := s.die a.die
  if off % 4 ≠ 0 ∨ csrAssigned b = false then s
  else if doorBlock b then s.onDie a.die (fun D => D.doorRead r b off)
  else if !D.barOpen r b then s.onDie a.die (fun D => D.out (.csrData r.id 0xFFFFFFFF))
  else if D.csrAdmits D.saf.service.isSome r b off false false && !D.sealHidden r b off then
    let x := body s (D.lookAt b off)
    s.onDie a.die (fun _ => (x.2.useSel r.id b).tick.out (.csrData r.id x.1))
  else s.onDie a.die (fun D => (D.refuseCsr r b off false).out (.csrData r.id 0))

/-- A read of the low half of a 64-bit register: its high half is kept for the requester. Any other register is read plainly. -/
def State.readLow (s : State) (a : At) (r : Req) (b off : Nat) : State :=
  s.csrGet a r b off (fun s D =>
    let v := s.readWord D r b off
    match regDesc b off with
    | some d => if d.w64 && off % 8 == d.off % 8 then (v, D.setShadow r b off (some (s.readWord D r b (off + 4)))) else (v, D)
    | none => (v, D))

/-- A read of the high half: the requester's shadow, once, else the live value. -/
def State.readHigh (s : State) (a : At) (r : Req) (b off : Nat) : State :=
  s.csrGet a r b off (fun s D =>
    match D.csr.shadows.find? (fun x => x.req == r.id && x.block == b && x.off + 4 == off) with
    | some x => (x.high.toNat, D.setShadow r b (off - 4) none)
    | none => (s.readWord D r b off, D))

/-! ## Writes -/

/-- Is the register at off a base of an admin pair that is enabled, so that its writes are ignored (R431)? -/
def DieState.baseFixed (D : DieState) (r : Req) (b off : Nat) : Bool :=
  b == B_CMD && (off == CMD_ADMIN_CQ_BASE || off == CMD_ADMIN_RQ_BASE)
    && bit (D.reg B_CMD CMD_ADMIN_CFG (D.sel r.id B_CMD CMD_ADMIN_SEL % 8)) 6

/-- A write of the high half of a 64-bit register: both halves commit (R13). -/
def DieState.writeHigh (D : DieState) (r : Req) (b off v : Nat) : DieState :=
  match regDesc b off with
  | none => D
  | some d =>
    if !d.w64 || off % 8 == d.off % 8 then D
    else D.csrDo r b off (fun D =>
      let lo := match D.heldHalf r b (off - 4) with
        | some h => h.low.toNat
        | none => D.reg b (off - 4) (D.regIndex r.id b d)
      let D := if D.baseFixed r b (off - 4) then
          D.event { cls := 6, code := 0x07, island := 1, inst := some (D.sel r.id B_CMD CMD_ADMIN_SEL % 8) }
        else if blockKind b = some .cst ∧ d.off = CST_SEG_ON then D.writeSegOn (b - 0x180) (lo + v * 2 ^ 32)
        else D.commit64 r b d (off - 4) (lo + v * 2 ^ 32)
      { D with csr := { D.csr with halves := D.csr.halves.filter (fun h => !(h.req == r.id && h.block == b && h.off + 4 == off)) } })

/-- A 32-bit write of a register that has no row of its own (R15). The enable of a fabric port acts on the port (R509), and the
configuration of an admin pair on the pair (R431); the replay bit has a row of its own (R105). -/
def DieState.writeWord (D : DieState) (r : Req) (b off v : Nat) : DieState :=
  if b = B_FAB ∧ off = FAB_PORT_CTRL then
    D.csrDo r b off (fun D => D.setEnable (D.sel r.id B_FAB FAB_PORT_SEL % 2) (bit v 0))
  else if b = B_CMD ∧ off = CMD_ADMIN_CFG then
    D.csrDo r b off (fun D => D.writeAdminCfg (D.sel r.id B_CMD CMD_ADMIN_SEL % 8) v)
  else if b = B_STP ∧ off = STP_CTRL then D.csrWrite r b off (putBits v 1 1 (bits (D.reg b off) 1 1))
  else D.csrWrite r b off v

/-! ## The management page (R561, R575) -/

/-- The words of the page: the identity and variant of GLB, the boot stage with its error, the temperatures, the rail readings,
the safety mode with the authority. Their order is DESIGN CHOICE (log entry 180). -/
def DieState.mgmtPage (D : DieState) : List Nat :=
  let glb (off : Nat) : Nat := (D.readGlb off).getD 0
  [idWord B_GLB, glb GLB_PART, glb GLB_BOOT, D.pwr.die.word D.now, D.pwr.opt0.word D.now, D.pwr.opt1.word D.now]
    ++ (List.range 20).map (fun i => (tabGet {} D.pwr.rails i).mv % 2 ^ 32) ++ [(D.readSaf SAF_MODE).getD 0]

/-! ## Rows -/

/-- CSR_WRITE. -/
def execCsrWrite (a : At) (r : Req) (block off : Nat) (v : Word) (s : State) : Out :=
  onDie a s (fun D => D.writeWord r block off v.toNat)
/-- REG64_LOW_READ. -/
def execReg64LowRead (a : At) (r : Req) (block off : Nat) (s : State) : Out := onPkg a s (fun s => s.readLow a r block off)
/-- REG64_HIGH_READ. -/
def execReg64HighRead (a : At) (r : Req) (block off : Nat) (s : State) : Out := onPkg a s (fun s => s.readHigh a r block off)
/-- REG64_HIGH_WRITE. -/
def execReg64HighWrite (a : At) (r : Req) (block off : Nat) (v : Word) (s : State) : Out :=
  onDie a s (fun D => D.writeHigh r block off v.toNat)
/-- I3C_INDEX_WRITE: a one-byte index, on die 0 while it runs (R28, R575); the word it names is what the controller reads. -/
def execI3cIndexWrite (a : At) (index : Byte) (s : State) : Out :=
  onDie a s (fun D => if D.num = 0 then
    ({ D with pcie := { D.pcie with i3c := index.toNat } }).out (.mgmt index.toNat (D.mgmtPage.getD index.toNat 0)) else D)
/-- CMD_ADMIN_CFG_WRITE: for the instance in the requester's CMD_ADMIN_SEL (R430, R431). -/
def execCmdAdminCfgWrite (a : At) (r : Req) (v : Word) (s : State) : Out :=
  onDie a s (fun D => D.writeWord r B_CMD CMD_ADMIN_CFG v.toNat)

end Sys2Proof.Machine
end

