-- ==== Sys2Proof/Machine/Dispatch.lean ====
section
/-! DEFINITION. What each command does: one arm for each row of the opcode table. -/

namespace Sys2Proof.Machine

def exec (i : Instr) (s : State) : Host.Outcome State Fault Refusal :=
  match i with
  | .csrWrite a r block off v => Sys2Proof.Machine.execCsrWrite a r block off v s
  | .csrMisalignedAccess a r block off size write => Sys2Proof.Machine.execCsrMisalignedAccess a r block off size write s
  | .reg64LowRead a r block off => Sys2Proof.Machine.execReg64LowRead a r block off s
  | .reg64HighRead a r block off => Sys2Proof.Machine.execReg64HighRead a r block off s
  | .reg64LowWrite a r block off v => Sys2Proof.Machine.execReg64LowWrite a r block off v s
  | .reg64HighWrite a r block off v => Sys2Proof.Machine.execReg64HighWrite a r block off v s
  | .heldHalfExpire a => Sys2Proof.Machine.execHeldHalfExpire a s
  | .selectionWrite a r block off v => Sys2Proof.Machine.execSelectionWrite a r block off v s
  | .clearCounters a r block v => Sys2Proof.Machine.execClearCounters a r block v s
  | .powerOn a bad test => Sys2Proof.Machine.execPowerOn a bad test s
  | .pwrGoodFall a => Sys2Proof.Machine.execPwrGoodFall a s
  | .pkgResetAssert a => Sys2Proof.Machine.execPkgResetAssert a s
  | .pkgResetRelease a bad => Sys2Proof.Machine.execPkgResetRelease a bad s
  | .glbPackageReset a r v bad => Sys2Proof.Machine.execGlbPackageReset a r v bad s
  | .bootStageAdvance a digestBad anchorsBad => Sys2Proof.Machine.execBootStageAdvance a digestBad anchorsBad s
  | .bootReadyTimeout a => Sys2Proof.Machine.execBootReadyTimeout a s
  | .strapValueReceive a position => Sys2Proof.Machine.execStrapValueReceive a position s
  | .strapExchangeClose a => Sys2Proof.Machine.execStrapExchangeClose a s
  | .strapLateArrival a => Sys2Proof.Machine.execStrapLateArrival a s
  | .dieLost a lost => Sys2Proof.Machine.execDieLost a lost s
  | .dieResetRelease a => Sys2Proof.Machine.execDieResetRelease a s
  | .railSample a rails energy => Sys2Proof.Machine.execRailSample a rails energy s
  | .dieTempSample a die opt0 opt1 => Sys2Proof.Machine.execDieTempSample a die opt0 opt1 s
  | .refclkLoss a input => Sys2Proof.Machine.execRefclkLoss a input s
  | .ethrefLoss a => Sys2Proof.Machine.execEthrefLoss a s
  | .setOp a id => Sys2Proof.Machine.execSetOp a id s
  | .freqChangeDone a group => Sys2Proof.Machine.execFreqChangeDone a group s
  | .freqChangeTimeout a group => Sys2Proof.Machine.execFreqChangeTimeout a group s
  | .freqMonitorFault a island => Sys2Proof.Machine.execFreqMonitorFault a island s
  | .powerCluster a id => Sys2Proof.Machine.execPowerCluster a id s
  | .powerSegments a id => Sys2Proof.Machine.execPowerSegments a id s
  | .powerCore a id => Sys2Proof.Machine.execPowerCore a id s
  | .powerStatus a id => Sys2Proof.Machine.execPowerStatus a id s
  | .powerDownDrainExpire a unit => Sys2Proof.Machine.execPowerDownDrainExpire a unit s
  | .powerDownComplete a unit => Sys2Proof.Machine.execPowerDownComplete a unit s
  | .powerUpComplete a unit => Sys2Proof.Machine.execPowerUpComplete a unit s
  | .cstSegOnWrite a r cluster value => Sys2Proof.Machine.execCstSegOnWrite a r cluster value s
  | .segmentReady a cluster segment => Sys2Proof.Machine.execSegmentReady a cluster segment s
  | .commandPacketFetch a rivals => Sys2Proof.Machine.execCommandPacketFetch a rivals s
  | .packetAgePromote a q => Sys2Proof.Machine.execPacketAgePromote a q s
  | .budgetReevaluate a => Sys2Proof.Machine.execBudgetReevaluate a s
  | .nop a id => Sys2Proof.Machine.execNop a id s
  | .queueCreate a id rivals => Sys2Proof.Machine.execQueueCreate a id rivals s
  | .queueDestroy a id => Sys2Proof.Machine.execQueueDestroy a id s
  | .queueDestroyComplete a q => Sys2Proof.Machine.execQueueDestroyComplete a q s
  | .queueReset a id => Sys2Proof.Machine.execQueueReset a id s
  | .queueStatus a id => Sys2Proof.Machine.execQueueStatus a id s
  | .queuePush a id rivals => Sys2Proof.Machine.execQueuePush a id rivals s
  | .queuePop a id rivals => Sys2Proof.Machine.execQueuePop a id rivals s
  | .qdbTailWrite a r q v => Sys2Proof.Machine.execQdbTailWrite a r q v s
  | .qdbHeadWrite a r q v => Sys2Proof.Machine.execQdbHeadWrite a r q v s
  | .cmdAdminCfgWrite a r v => Sys2Proof.Machine.execCmdAdminCfgWrite a r v s
  | .sealAlloc a id rivals => Sys2Proof.Machine.execSealAlloc a id rivals s
  | .sealFree a id => Sys2Proof.Machine.execSealFree a id s
  | .sealReset a id => Sys2Proof.Machine.execSealReset a id s
  | .sealSignal a id => Sys2Proof.Machine.execSealSignal a id s
  | .sealWait a id rivals => Sys2Proof.Machine.execSealWait a id rivals s
  | .sealArm a id => Sys2Proof.Machine.execSealArm a id s
  | .sealQuery a id => Sys2Proof.Machine.execSealQuery a id s
  | .sealSignalApply a => Sys2Proof.Machine.execSealSignalApply a s
  | .sealWaitTimeout a => Sys2Proof.Machine.execSealWaitTimeout a s
  | .taskLaunch a id rivals => Sys2Proof.Machine.execTaskLaunch a id rivals s
  | .taskStatus a id => Sys2Proof.Machine.execTaskStatus a id s
  | .taskQueryCore a id => Sys2Proof.Machine.execTaskQueryCore a id s
  | .taskStart a core => Sys2Proof.Machine.execTaskStart a core s
  | .opDispatch a core => Sys2Proof.Machine.execOpDispatch a core s
  | .engineOpStart a core engine => Sys2Proof.Machine.execEngineOpStart a core engine s
  | .opComplete a core engine => Sys2Proof.Machine.execOpComplete a core engine s
  | .taskLimitExpire a task => Sys2Proof.Machine.execTaskLimitExpire a task s
  | .opRerun a core engine => Sys2Proof.Machine.execOpRerun a core engine s
  | .seqNop a core => Sys2Proof.Machine.execSeqNop a core s
  | .seqEnd a core => Sys2Proof.Machine.execSeqEnd a core s
  | .loopSet a core => Sys2Proof.Machine.execLoopSet a core s
  | .loopBranch a core => Sys2Proof.Machine.execLoopBranch a core s
  | .seqSealWait a core => Sys2Proof.Machine.execSeqSealWait a core s
  | .seqSealSignal a core => Sys2Proof.Machine.execSeqSealSignal a core s
  | .patchSet a core => Sys2Proof.Machine.execPatchSet a core s
  | .patchAdd a core => Sys2Proof.Machine.execPatchAdd a core s
  | .patchLoop a core => Sys2Proof.Machine.execPatchLoop a core s
  | .reseed a core => Sys2Proof.Machine.execReseed a core s
  | .seqDrain a core => Sys2Proof.Machine.execSeqDrain a core s
  | .cbEntryTimeout a cluster => Sys2Proof.Machine.execCbEntryTimeout a cluster s
  | .fillForcedGrant a cluster => Sys2Proof.Machine.execFillForcedGrant a cluster s
  | .scrubRangeDone a cluster => Sys2Proof.Machine.execScrubRangeDone a cluster s
  | .dmaCopy a core => Sys2Proof.Machine.execDmaCopy a core s
  | .dmaGather a core => Sys2Proof.Machine.execDmaGather a core s
  | .dmaScatter a core => Sys2Proof.Machine.execDmaScatter a core s
  | .dmaTranspose a core => Sys2Proof.Machine.execDmaTranspose a core s
  | .dmaFill a core => Sys2Proof.Machine.execDmaFill a core s
  | .remoteAccessArrive a cluster srcNode srcDie r off n data mark => Sys2Proof.Machine.execRemoteAccessArrive a cluster srcNode srcDie r off n data mark s
  | .rwinOpen a id rivals => Sys2Proof.Machine.execRwinOpen a id rivals s
  | .rwinClose a id => Sys2Proof.Machine.execRwinClose a id s
  | .rwinList a id => Sys2Proof.Machine.execRwinList a id s
  | .dteGemmW a core upset => Sys2Proof.Machine.execDteGemmW a core upset s
  | .dteGemmS a core upset => Sys2Proof.Machine.execDteGemmS a core upset s
  | .dteConvG a core upset => Sys2Proof.Machine.execDteConvG a core upset s
  | .dteMulW16 a core upset => Sys2Proof.Machine.execDteMulW16 a core upset s
  | .dteGemmW4 a core upset => Sys2Proof.Machine.execDteGemmW4 a core upset s
  | .dteGemmS4 a core upset => Sys2Proof.Machine.execDteGemmS4 a core upset s
  | .dteConvG4 a core upset => Sys2Proof.Machine.execDteConvG4 a core upset s
  | .steGemmW a core upset => Sys2Proof.Machine.execSteGemmW a core upset s
  | .steGemmS a core upset => Sys2Proof.Machine.execSteGemmS a core upset s
  | .steConvG a core upset => Sys2Proof.Machine.execSteConvG a core upset s
  | .steUnpack a core => Sys2Proof.Machine.execSteUnpack a core s
  | .stePack a core upset => Sys2Proof.Machine.execStePack a core upset s
  | .mvpMv a core upset => Sys2Proof.Machine.execMvpMv a core upset s
  | .mvpThin a core upset => Sys2Proof.Machine.execMvpThin a core upset s
  | .vuEltwise a core upset => Sys2Proof.Machine.execVuEltwise a core upset s
  | .vuRowmax a core upset => Sys2Proof.Machine.execVuRowmax a core upset s
  | .vuRowsum a core upset => Sys2Proof.Machine.execVuRowsum a core upset s
  | .vuSoftmax a core upset => Sys2Proof.Machine.execVuSoftmax a core upset s
  | .vuNorm a core upset => Sys2Proof.Machine.execVuNorm a core upset s
  | .selTopk a core upset torn => Sys2Proof.Machine.execSelTopk a core upset torn s
  | .selKth a core upset torn => Sys2Proof.Machine.execSelKth a core upset torn s
  | .selUnique a core upset torn => Sys2Proof.Machine.execSelUnique a core upset torn s
  | .selOrderedUnique a core upset torn => Sys2Proof.Machine.execSelOrderedUnique a core upset torn s
  | .selSplit a core upset torn => Sys2Proof.Machine.execSelSplit a core upset torn s
  | .hpuTileHash a core => Sys2Proof.Machine.execHpuTileHash a core s
  | .hpuNmap a core => Sys2Proof.Machine.execHpuNmap a core s
  | .hpuLower a core => Sys2Proof.Machine.execHpuLower a core s
  | .ethFrameRx a port corr bad bytes first ptp => Sys2Proof.Machine.execEthFrameRx a port corr bad bytes first ptp s
  | .ethLinkChange a port up fec fault => Sys2Proof.Machine.execEthLinkChange a port up fec fault s
  | .ptpSyncTimeout a => Sys2Proof.Machine.execPtpSyncTimeout a s
  | .ppsEdge a offset => Sys2Proof.Machine.execPpsEdge a offset s
  | .stipplePacketParse a => Sys2Proof.Machine.execStipplePacketParse a s
  | .streamTimeout a stream => Sys2Proof.Machine.execStreamTimeout a stream s
  | .streamPose a id => Sys2Proof.Machine.execStreamPose a id s
  | .stipplePoseTake a => Sys2Proof.Machine.execStipplePoseTake a s
  | .hostfeedSubmit a id => Sys2Proof.Machine.execHostfeedSubmit a id s
  | .hostfeedPacketAdmit a id => Sys2Proof.Machine.execHostfeedPacketAdmit a id s
  | .stpTblRead a r v => Sys2Proof.Machine.execStpTblRead a r v s
  | .stpTblWrite a r v => Sys2Proof.Machine.execStpTblWrite a r v s
  | .stpReplayWrite a r v frame => Sys2Proof.Machine.execStpReplayWrite a r v frame s
  | .stpFrameClose a r v frame => Sys2Proof.Machine.execStpFrameClose a r v frame s
  | .stpSliceClose a r v => Sys2Proof.Machine.execStpSliceClose a r v s
  | .frameBoundary a => Sys2Proof.Machine.execFrameBoundary a s
  | .sliceBoundary a => Sys2Proof.Machine.execSliceBoundary a s
  | .combInsertRecord a => Sys2Proof.Machine.execCombInsertRecord a s
  | .combFrameCloseMarker a => Sys2Proof.Machine.execCombFrameCloseMarker a s
  | .combScatterDone a => Sys2Proof.Machine.execCombScatterDone a s
  | .combClearDone a => Sys2Proof.Machine.execCombClearDone a s
  | .combBuffers a id rivals => Sys2Proof.Machine.execCombBuffers a id rivals s
  | .combPublish a id => Sys2Proof.Machine.execCombPublish a id s
  | .combPublishDone a => Sys2Proof.Machine.execCombPublishDone a s
  | .combRelease a id => Sys2Proof.Machine.execCombRelease a id s
  | .combDownsample a id => Sys2Proof.Machine.execCombDownsample a id s
  | .combTrilinear a id => Sys2Proof.Machine.execCombTrilinear a id s
  | .combStatus a id => Sys2Proof.Machine.execCombStatus a id s
  | .combJobComplete a => Sys2Proof.Machine.execCombJobComplete a s
  | .foePointRecord a => Sys2Proof.Machine.execFoePointRecord a s
  | .foeSliceClose a => Sys2Proof.Machine.execFoeSliceClose a s
  | .foeEvalDone a => Sys2Proof.Machine.execFoeEvalDone a s
  | .safetyMerge a => Sys2Proof.Machine.execSafetyMerge a s
  | .resultSealNotice a => Sys2Proof.Machine.execResultSealNotice a s
  | .networkResultReceive a => Sys2Proof.Machine.execNetworkResultReceive a s
  | .doubtRaise a osc => Sys2Proof.Machine.execDoubtRaise a osc s
  | .doubtClearTimer a => Sys2Proof.Machine.execDoubtClearTimer a s
  | .cpWatchdogExpire a => Sys2Proof.Machine.execCpWatchdogExpire a s
  | .cpRestartDone a => Sys2Proof.Machine.execCpRestartDone a s
  | .proofPassStart a => Sys2Proof.Machine.execProofPassStart a s
  | .proofCrcDone a => Sys2Proof.Machine.execProofCrcDone a s
  | .proofWindowExpire a => Sys2Proof.Machine.execProofWindowExpire a s
  | .safetyIslandFault a => Sys2Proof.Machine.execSafetyIslandFault a s
  | .safetyIslandRestart a => Sys2Proof.Machine.execSafetyIslandRestart a s
  | .sdoTestPulse a output => Sys2Proof.Machine.execSdoTestPulse a output s
  | .sdoPulseEnd a output => Sys2Proof.Machine.execSdoPulseEnd a output s
  | .sdoOutputFault a output level => Sys2Proof.Machine.execSdoOutputFault a output level s
  | .safetyServiceEnter a id => Sys2Proof.Machine.execSafetyServiceEnter a id s
  | .safetyServiceExit a id => Sys2Proof.Machine.execSafetyServiceExit a id s
  | .serviceModeExpire a => Sys2Proof.Machine.execServiceModeExpire a s
  | .safetyOutputClear a id => Sys2Proof.Machine.execSafetyOutputClear a id s
  | .safetyLatchClear a id => Sys2Proof.Machine.execSafetyLatchClear a id s
  | .safetyStatus a id => Sys2Proof.Machine.execSafetyStatus a id s
  | .tableLoad a id rivals => Sys2Proof.Machine.execTableLoad a id rivals s
  | .tableLoadDone a table slotB far => Sys2Proof.Machine.execTableLoadDone a table slotB far s
  | .tableUnload a id => Sys2Proof.Machine.execTableUnload a id s
  | .tableLookup a id rivals => Sys2Proof.Machine.execTableLookup a id rivals s
  | .lookupBatchComplete a id => Sys2Proof.Machine.execLookupBatchComplete a id s
  | .tablePrefetch a id rivals => Sys2Proof.Machine.execTablePrefetch a id rivals s
  | .tableUpdate a id rivals => Sys2Proof.Machine.execTableUpdate a id rivals s
  | .updateRecordsApply a far => Sys2Proof.Machine.execUpdateRecordsApply a far s
  | .tableStatus a id => Sys2Proof.Machine.execTableStatus a id s
  | .drainTimeout a table => Sys2Proof.Machine.execDrainTimeout a table s
  | .fabWriteReceive a => Sys2Proof.Machine.execFabWriteReceive a s
  | .fabReadReceive a => Sys2Proof.Machine.execFabReadReceive a s
  | .poolReqReceive a => Sys2Proof.Machine.execPoolReqReceive a s
  | .pushReceive a => Sys2Proof.Machine.execPushReceive a s
  | .fabResponseReceive a => Sys2Proof.Machine.execFabResponseReceive a s
  | .poolReplyReceive a => Sys2Proof.Machine.execPoolReplyReceive a s
  | .drainNoticeReceive a => Sys2Proof.Machine.execDrainNoticeReceive a s
  | .platePacketReceive a => Sys2Proof.Machine.execPlatePacketReceive a s
  | .fabPacketForward a => Sys2Proof.Machine.execFabPacketForward a s
  | .fecFrameReceive a port corrected bad word flits => Sys2Proof.Machine.execFecFrameReceive a port corrected bad word flits s
  | .portLightDetect a port rx tx => Sys2Proof.Machine.execPortLightDetect a port rx tx s
  | .portTrainingDone a port => Sys2Proof.Machine.execPortTrainingDone a port s
  | .portTrainingTimeout a port => Sys2Proof.Machine.execPortTrainingTimeout a port s
  | .portFail a port cause => Sys2Proof.Machine.execPortFail a port cause s
  | .portUpHoldExpire a port => Sys2Proof.Machine.execPortUpHoldExpire a port s
  | .waggleSend a port => Sys2Proof.Machine.execWaggleSend a port s
  | .waggleReceive a port rx => Sys2Proof.Machine.execWaggleReceive a port rx s
  | .tagTimeout a tag => Sys2Proof.Machine.execTagTimeout a tag s
  | .plateStage a id => Sys2Proof.Machine.execPlateStage a id s
  | .plateSwitch a id => Sys2Proof.Machine.execPlateSwitch a id s
  | .plateSwitchAtT a => Sys2Proof.Machine.execPlateSwitchAtT a s
  | .plateAbort a id => Sys2Proof.Machine.execPlateAbort a id s
  | .plateStatus a id => Sys2Proof.Machine.execPlateStatus a id s
  | .portStatus a id => Sys2Proof.Machine.execPortStatus a id s
  | .portEnable a id => Sys2Proof.Machine.execPortEnable a id s
  | .fabPortRetrain a r v => Sys2Proof.Machine.execFabPortRetrain a r v s
  | .platePullTimeout a => Sys2Proof.Machine.execPlatePullTimeout a s
  | .platePullDone a => Sys2Proof.Machine.execPlatePullDone a s
  | .linkInject a id rivals => Sys2Proof.Machine.execLinkInject a id rivals s
  | .linkInjectStop a id => Sys2Proof.Machine.execLinkInjectStop a id s
  | .injectionExpire a => Sys2Proof.Machine.execInjectionExpire a s
  | .d2dPacketReceive a m => Sys2Proof.Machine.execD2dPacketReceive a m s
  | .ucieModuleFail a m cause => Sys2Proof.Machine.execUcieModuleFail a m cause s
  | .ucieHeartbeatSend a m => Sys2Proof.Machine.execUcieHeartbeatSend a m s
  | .ucieHoldExpire a m => Sys2Proof.Machine.execUcieHoldExpire a m s
  | .d2dRequestTimeout a tag => Sys2Proof.Machine.execD2dRequestTimeout a tag s
  | .d2dRetrain a r v => Sys2Proof.Machine.execD2dRetrain a r v s
  | .pcieApertureAccess a fn off n data => Sys2Proof.Machine.execPcieApertureAccess a fn off n data s
  | .flrReceive a fn => Sys2Proof.Machine.execFlrReceive a fn s
  | .perstAssert a => Sys2Proof.Machine.execPerstAssert a s
  | .perstDeassert a => Sys2Proof.Machine.execPerstDeassert a s
  | .pcieLinkChange a up link cfg => Sys2Proof.Machine.execPcieLinkChange a up link cfg s
  | .atsInvalidation a => Sys2Proof.Machine.execAtsInvalidation a s
  | .i3cIndexWrite a index => Sys2Proof.Machine.execI3cIndexWrite a index s
  | .hbmTrainingDone a stack ok => Sys2Proof.Machine.execHbmTrainingDone a stack ok s
  | .hbmRequestAged a => Sys2Proof.Machine.execHbmRequestAged a s
  | .patrolScrubRead a stack => Sys2Proof.Machine.execPatrolScrubRead a stack s
  | .hbmScrubRestart a r stack v => Sys2Proof.Machine.execHbmScrubRestart a r stack v s
  | .hbmTempSample a stack reading => Sys2Proof.Machine.execHbmTempSample a stack reading s
  | .insCommit a r v => Sys2Proof.Machine.execInsCommit a r v s
  | .instanceReset a r v => Sys2Proof.Machine.execInstanceReset a r v s
  | .instanceResetComplete a inst => Sys2Proof.Machine.execInstanceResetComplete a inst s
  | .regionScrubDone a inst index => Sys2Proof.Machine.execRegionScrubDone a inst index s
  | .rolNonceRead a r => Sys2Proof.Machine.execRolNonceRead a r s
  | .rolAuthOpen a r v => Sys2Proof.Machine.execRolAuthOpen a r v s
  | .sessionAuthDone a req => Sys2Proof.Machine.execSessionAuthDone a req s
  | .rolAuthEnd a r v => Sys2Proof.Machine.execRolAuthEnd a r v s
  | .sessionTimeout a => Sys2Proof.Machine.execSessionTimeout a s
  | .nonceExpire a => Sys2Proof.Machine.execNonceExpire a s
  | .lockoutExpire a => Sys2Proof.Machine.execLockoutExpire a s
  | .rolLockOpen a r v => Sys2Proof.Machine.execRolLockOpen a r v s
  | .rolLockCommit a r v => Sys2Proof.Machine.execRolLockCommit a r v s
  | .auditTrim a r v => Sys2Proof.Machine.execAuditTrim a r v s
  | .auditRecordDurable a => Sys2Proof.Machine.execAuditRecordDurable a s
  | .fwStage a id => Sys2Proof.Machine.execFwStage a id s
  | .fwActivate a id => Sys2Proof.Machine.execFwActivate a id s
  | .repairEdit a id => Sys2Proof.Machine.execRepairEdit a id s
  | .fuseDump a id => Sys2Proof.Machine.execFuseDump a id s
  | .safetyInject a id rivals => Sys2Proof.Machine.execSafetyInject a id rivals s
  | .rfaCapture a id => Sys2Proof.Machine.execRfaCapture a id s
  | .anchorSet a id => Sys2Proof.Machine.execAnchorSet a id s
  | .eventWrite a nack => Sys2Proof.Machine.execEventWrite a nack s
  | .evlFlushStart a => Sys2Proof.Machine.execEvlFlushStart a s
  | .evlFlushNow a r v => Sys2Proof.Machine.execEvlFlushNow a r v s
  | .evlCopyScrub a errors => Sys2Proof.Machine.execEvlCopyScrub a errors s
  | .eventRead a id => Sys2Proof.Machine.execEventRead a id s
  | .eventMark a id => Sys2Proof.Machine.execEventMark a id s
  | .faultInject a id rivals => Sys2Proof.Machine.execFaultInject a id rivals s
  | .faultInjectStop a id => Sys2Proof.Machine.execFaultInjectStop a id s
  | .pcieCompletionTimeout a q => Sys2Proof.Machine.execPcieCompletionTimeout a q s
  | .cmdHeartbeatIncrement a => Sys2Proof.Machine.execCmdHeartbeatIncrement a s
  | .ucieTrainingDone a m tx rx => Sys2Proof.Machine.execUcieTrainingDone a m tx rx s
  | .referenceInputReturn a input => Sys2Proof.Machine.execReferenceInputReturn a input s
  | .completionRecordAgeOut a => Sys2Proof.Machine.execCompletionRecordAgeOut a s
  | .evlFlushComplete a ok => Sys2Proof.Machine.execEvlFlushComplete a ok s
  | .voltageStepComplete a group => Sys2Proof.Machine.execVoltageStepComplete a group s

end Sys2Proof.Machine
end

