-- ==== Sys2Proof/Safety.lean ====
section
/-! DEFINITION. The words that claims use: a running die, the die a command finds, an accepted command that is ready,
a register access that is admitted, and the invariants of the package. -/

namespace Sys2Proof

/-- The die and the time of a command. -/
def Instr.at : Instr → At
  | .csrWrite a _ _ _ _ => a
  | .csrMisalignedAccess a _ _ _ _ _ => a
  | .reg64LowRead a _ _ _ => a
  | .reg64HighRead a _ _ _ => a
  | .reg64LowWrite a _ _ _ _ => a
  | .reg64HighWrite a _ _ _ _ => a
  | .heldHalfExpire a => a
  | .selectionWrite a _ _ _ _ => a
  | .clearCounters a _ _ _ => a
  | .powerOn a _ _ => a
  | .pwrGoodFall a => a
  | .pkgResetAssert a => a
  | .pkgResetRelease a _ => a
  | .glbPackageReset a _ _ _ => a
  | .bootStageAdvance a _ _ => a
  | .bootReadyTimeout a => a
  | .strapValueReceive a _ => a
  | .strapExchangeClose a => a
  | .strapLateArrival a => a
  | .dieLost a _ => a
  | .dieResetRelease a => a
  | .railSample a _ _ => a
  | .dieTempSample a _ _ _ => a
  | .refclkLoss a _ => a
  | .ethrefLoss a => a
  | .setOp a _ => a
  | .freqChangeDone a _ => a
  | .freqChangeTimeout a _ => a
  | .freqMonitorFault a _ => a
  | .powerCluster a _ => a
  | .powerSegments a _ => a
  | .powerCore a _ => a
  | .powerStatus a _ => a
  | .powerDownDrainExpire a _ => a
  | .powerDownComplete a _ => a
  | .powerUpComplete a _ => a
  | .cstSegOnWrite a _ _ _ => a
  | .segmentReady a _ _ => a
  | .commandPacketFetch a _ => a
  | .packetAgePromote a _ => a
  | .budgetReevaluate a => a
  | .nop a _ => a
  | .queueCreate a _ _ => a
  | .queueDestroy a _ => a
  | .queueDestroyComplete a _ => a
  | .queueReset a _ => a
  | .queueStatus a _ => a
  | .queuePush a _ _ => a
  | .queuePop a _ _ => a
  | .qdbTailWrite a _ _ _ => a
  | .qdbHeadWrite a _ _ _ => a
  | .cmdAdminCfgWrite a _ _ => a
  | .sealAlloc a _ _ => a
  | .sealFree a _ => a
  | .sealReset a _ => a
  | .sealSignal a _ => a
  | .sealWait a _ _ => a
  | .sealArm a _ => a
  | .sealQuery a _ => a
  | .sealSignalApply a => a
  | .sealWaitTimeout a => a
  | .taskLaunch a _ _ => a
  | .taskStatus a _ => a
  | .taskQueryCore a _ => a
  | .taskStart a _ => a
  | .opDispatch a _ => a
  | .engineOpStart a _ _ => a
  | .opComplete a _ _ => a
  | .taskLimitExpire a _ => a
  | .opRerun a _ _ => a
  | .seqNop a _ => a
  | .seqEnd a _ => a
  | .loopSet a _ => a
  | .loopBranch a _ => a
  | .seqSealWait a _ => a
  | .seqSealSignal a _ => a
  | .patchSet a _ => a
  | .patchAdd a _ => a
  | .patchLoop a _ => a
  | .reseed a _ => a
  | .seqDrain a _ => a
  | .cbEntryTimeout a _ => a
  | .fillForcedGrant a _ => a
  | .scrubRangeDone a _ => a
  | .dmaCopy a _ => a
  | .dmaGather a _ => a
  | .dmaScatter a _ => a
  | .dmaTranspose a _ => a
  | .dmaFill a _ => a
  | .remoteAccessArrive a _ _ _ _ _ _ _ _ => a
  | .rwinOpen a _ _ => a
  | .rwinClose a _ => a
  | .rwinList a _ => a
  | .dteGemmW a _ _ => a
  | .dteGemmS a _ _ => a
  | .dteConvG a _ _ => a
  | .dteMulW16 a _ _ => a
  | .dteGemmW4 a _ _ => a
  | .dteGemmS4 a _ _ => a
  | .dteConvG4 a _ _ => a
  | .steGemmW a _ _ => a
  | .steGemmS a _ _ => a
  | .steConvG a _ _ => a
  | .steUnpack a _ => a
  | .stePack a _ _ => a
  | .mvpMv a _ _ => a
  | .mvpThin a _ _ => a
  | .vuEltwise a _ _ => a
  | .vuRowmax a _ _ => a
  | .vuRowsum a _ _ => a
  | .vuSoftmax a _ _ => a
  | .vuNorm a _ _ => a
  | .selTopk a _ _ _ => a
  | .selKth a _ _ _ => a
  | .selUnique a _ _ _ => a
  | .selOrderedUnique a _ _ _ => a
  | .selSplit a _ _ _ => a
  | .hpuTileHash a _ => a
  | .hpuNmap a _ => a
  | .hpuLower a _ => a
  | .ethFrameRx a _ _ _ _ _ _ => a
  | .ethLinkChange a _ _ _ _ => a
  | .ptpSyncTimeout a => a
  | .ppsEdge a _ => a
  | .stipplePacketParse a => a
  | .streamTimeout a _ => a
  | .streamPose a _ => a
  | .stipplePoseTake a => a
  | .hostfeedSubmit a _ => a
  | .hostfeedPacketAdmit a _ => a
  | .stpTblRead a _ _ => a
  | .stpTblWrite a _ _ => a
  | .stpReplayWrite a _ _ _ => a
  | .stpFrameClose a _ _ _ => a
  | .stpSliceClose a _ _ => a
  | .frameBoundary a => a
  | .sliceBoundary a => a
  | .combInsertRecord a => a
  | .combFrameCloseMarker a => a
  | .combScatterDone a => a
  | .combClearDone a => a
  | .combBuffers a _ _ => a
  | .combPublish a _ => a
  | .combPublishDone a => a
  | .combRelease a _ => a
  | .combDownsample a _ => a
  | .combTrilinear a _ => a
  | .combStatus a _ => a
  | .combJobComplete a => a
  | .foePointRecord a => a
  | .foeSliceClose a => a
  | .foeEvalDone a => a
  | .safetyMerge a => a
  | .resultSealNotice a => a
  | .networkResultReceive a => a
  | .doubtRaise a _ => a
  | .doubtClearTimer a => a
  | .cpWatchdogExpire a => a
  | .cpRestartDone a => a
  | .proofPassStart a => a
  | .proofCrcDone a => a
  | .proofWindowExpire a => a
  | .safetyIslandFault a => a
  | .safetyIslandRestart a => a
  | .sdoTestPulse a _ => a
  | .sdoPulseEnd a _ => a
  | .sdoOutputFault a _ _ => a
  | .safetyServiceEnter a _ => a
  | .safetyServiceExit a _ => a
  | .serviceModeExpire a => a
  | .safetyOutputClear a _ => a
  | .safetyLatchClear a _ => a
  | .safetyStatus a _ => a
  | .tableLoad a _ _ => a
  | .tableLoadDone a _ _ _ => a
  | .tableUnload a _ => a
  | .tableLookup a _ _ => a
  | .lookupBatchComplete a _ => a
  | .tablePrefetch a _ _ => a
  | .tableUpdate a _ _ => a
  | .updateRecordsApply a _ => a
  | .tableStatus a _ => a
  | .drainTimeout a _ => a
  | .fabWriteReceive a => a
  | .fabReadReceive a => a
  | .poolReqReceive a => a
  | .pushReceive a => a
  | .fabResponseReceive a => a
  | .poolReplyReceive a => a
  | .drainNoticeReceive a => a
  | .platePacketReceive a => a
  | .fabPacketForward a => a
  | .fecFrameReceive a _ _ _ _ _ => a
  | .portLightDetect a _ _ _ => a
  | .portTrainingDone a _ => a
  | .portTrainingTimeout a _ => a
  | .portFail a _ _ => a
  | .portUpHoldExpire a _ => a
  | .waggleSend a _ => a
  | .waggleReceive a _ _ => a
  | .tagTimeout a _ => a
  | .plateStage a _ => a
  | .plateSwitch a _ => a
  | .plateSwitchAtT a => a
  | .plateAbort a _ => a
  | .plateStatus a _ => a
  | .portStatus a _ => a
  | .portEnable a _ => a
  | .fabPortRetrain a _ _ => a
  | .platePullTimeout a => a
  | .platePullDone a => a
  | .linkInject a _ _ => a
  | .linkInjectStop a _ => a
  | .injectionExpire a => a
  | .d2dPacketReceive a _ => a
  | .ucieModuleFail a _ _ => a
  | .ucieHeartbeatSend a _ => a
  | .ucieHoldExpire a _ => a
  | .d2dRequestTimeout a _ => a
  | .d2dRetrain a _ _ => a
  | .pcieApertureAccess a _ _ _ _ => a
  | .flrReceive a _ => a
  | .perstAssert a => a
  | .perstDeassert a => a
  | .pcieLinkChange a _ _ _ => a
  | .atsInvalidation a => a
  | .i3cIndexWrite a _ => a
  | .hbmTrainingDone a _ _ => a
  | .hbmRequestAged a => a
  | .patrolScrubRead a _ => a
  | .hbmScrubRestart a _ _ _ => a
  | .hbmTempSample a _ _ => a
  | .insCommit a _ _ => a
  | .instanceReset a _ _ => a
  | .instanceResetComplete a _ => a
  | .regionScrubDone a _ _ => a
  | .rolNonceRead a _ => a
  | .rolAuthOpen a _ _ => a
  | .sessionAuthDone a _ => a
  | .rolAuthEnd a _ _ => a
  | .sessionTimeout a => a
  | .nonceExpire a => a
  | .lockoutExpire a => a
  | .rolLockOpen a _ _ => a
  | .rolLockCommit a _ _ => a
  | .auditTrim a _ _ => a
  | .auditRecordDurable a => a
  | .fwStage a _ => a
  | .fwActivate a _ => a
  | .repairEdit a _ => a
  | .fuseDump a _ => a
  | .safetyInject a _ _ => a
  | .rfaCapture a _ => a
  | .anchorSet a _ => a
  | .eventWrite a _ => a
  | .evlFlushStart a => a
  | .evlFlushNow a _ _ => a
  | .evlCopyScrub a _ => a
  | .eventRead a _ => a
  | .eventMark a _ => a
  | .faultInject a _ _ => a
  | .faultInjectStop a _ => a
  | .pcieCompletionTimeout a _ => a
  | .cmdHeartbeatIncrement a => a
  | .ucieTrainingDone a _ _ _ => a
  | .referenceInputReturn a _ => a
  | .completionRecordAgeOut a => a
  | .evlFlushComplete a _ => a
  | .voltageStepComplete a _ => a

/-- Does the command act on pins, rails or sensors, so that a die in reset sees it too (R600, R640-R643)? -/
def Instr.isPin : Instr → Bool
  | .powerOn _ _ _ => true
  | .pwrGoodFall _ => true
  | .pkgResetAssert _ => true
  | .pkgResetRelease _ _ => true
  | .dieResetRelease _ => true
  | .railSample _ _ _ => true
  | .dieTempSample _ _ _ _ => true
  | .refclkLoss _ _ => true
  | .ethrefLoss _ => true
  | .perstAssert _ => true
  | .perstDeassert _ => true
  | .referenceInputReturn _ _ => true
  | _ => false

/-- Can the command change more than its own die: the package, or another die? -/
def Instr.isWide : Instr → Bool
  | .reg64LowRead _ _ _ _ => true
  | .reg64HighRead _ _ _ _ => true
  | .clearCounters _ _ _ _ => true
  | .powerOn _ _ _ => true
  | .pwrGoodFall _ => true
  | .pkgResetAssert _ => true
  | .pkgResetRelease _ _ => true
  | .glbPackageReset _ _ _ _ => true
  | .bootStageAdvance _ _ _ => true
  | .bootReadyTimeout _ => true
  | .strapValueReceive _ _ => true
  | .strapLateArrival _ => true
  | .dieLost _ _ => true
  | .dieResetRelease _ => true
  | .dieTempSample _ _ _ _ => true
  | .ethFrameRx _ _ _ _ _ _ _ => true
  | .ptpSyncTimeout _ => true
  | .frameBoundary _ => true
  | .safetyMerge _ => true
  | .doubtRaise _ _ => true
  | .safetyIslandRestart _ => true
  | .flrReceive _ _ => true
  | .safetyServiceExit _ _ => true
  | .serviceModeExpire _ => true
  | .tableLoadDone _ _ _ _ => true
  | .tablePrefetch _ _ _ => true
  | .tableUpdate _ _ _ => true
  | .updateRecordsApply _ _ => true
  | .fabResponseReceive _ => true
  | .platePacketReceive _ => true
  | .fabPacketForward _ => true
  | .waggleReceive _ _ _ => true
  | .tagTimeout _ _ => true
  | .plateStage _ _ => true
  | .plateSwitch _ _ => true
  | .plateSwitchAtT _ => true
  | .plateAbort _ _ => true
  | .plateStatus _ _ => true
  | .portStatus _ _ => true
  | .portEnable _ _ => true
  | .platePullTimeout _ => true
  | .platePullDone _ => true
  | .linkInject _ _ _ => true
  | .linkInjectStop _ _ => true
  | .injectionExpire _ => true
  | .d2dPacketReceive _ _ => true
  | .ucieModuleFail _ _ _ => true
  | .ucieHoldExpire _ _ => true
  | .d2dRequestTimeout _ _ => true
  | .d2dRetrain _ _ _ => true
  | .insCommit _ _ _ => true
  | .instanceReset _ _ _ => true
  | .auditRecordDurable _ => true
  | .fwStage _ _ => true
  | .fwActivate _ _ => true
  | .repairEdit _ _ => true
  | .safetyInject _ _ _ => true
  | .anchorSet _ _ => true
  | .eventWrite _ _ => true
  | .evlCopyScrub _ _ => true
  | .faultInject _ _ _ => true
  | .evlFlushComplete _ _ => true
  | _ => false

end Sys2Proof

namespace Sys2Proof.Machine

/-- Die a.die is out of reset and its clocks run: commands act on it. -/
abbrev State.up (s : State) (a : At) : Prop := (s.die a.die).boot.held = false

/-- The die that a command finds: its time base stands at the command's time. -/
def State.dieAt (s : State) (a : At) : DieState := (s.die a.die).at a.time

/-- The package with die a.die replaced by D, everything else as it was. -/
def State.put (s : State) (a : At) (D : DieState) : State := s.onDie a.die (fun _ => D)

/-- Command id stands accepted with opcode op and is ready to be carried out, with no write of it to another die outstanding:
an operator command at once, an installer or maker command when its audit record is durable (R407, R461). -/
abbrev DieState.readyCmd (D : DieState) (op id : Nat) (c : Cmd) : Prop :=
  D.cmdOf id = some c ∧ c.op = op ∧ c.phase = .ready ∧ c.needsAudit = false ∧ c.acks = 0

/-- E is what die D becomes when command c ends as its action m does (R410-R412): answered OK with the action's detail, its
writes to other dies acknowledged; going on where the action gives none; answered with the action's failure; or asking another
die or package for the read that the action needs, and nothing else. -/
def DieState.EndsAs {α : Type} (D : DieState) (c : Cmd) (m : M α) (detail : α → Option (List Byte)) (E : DieState) : Prop :=
  (∀ x D' d, runM m D = (.ok x, D') → detail x = some d → D'.acked c.id = true → E = D'.reply c .ok 0 d) ∧
  (∀ x D', runM m D = (.ok x, D') → detail x = none → E = D') ∧
  (∀ f D', runM m D = (.error f, D') → f.need = none → E = D'.reply c f.status f.reason) ∧
  ∀ f D' g n, runM m D = (.error f, D') → f.need = some (g, n) → E = D.askParam c.id c.inst g n

/-- An aligned access of an assigned block that BAR0 and the firewall admit (R12, R16, R448, R561). -/
abbrev DieState.admits (D : DieState) (r : Req) (b off : Nat) (write : Bool) : Prop :=
  off % 4 = 0 ∧ (blockKind b).isSome = true ∧ D.barOpen r b = true ∧ D.csrAdmits D.saf.service.isSome r b off write false = true


/-! ## Invariants -/

/-- While PWR_GOOD or PKG_RESET# is low, every die is held in reset (R600, R640-R642). -/
def State.PinsHoldDies (s : State) : Prop :=
  s.pkg.pwrGood = false ∨ s.pkg.resetLow = true → ∀ d, (s.die d).boot.held = true

/-- The audit area holds at most 65,536 records, each with a number above the one before and below the next to be given;
each event ring holds at most 32,768 (R461, R464, R620). -/
def Flash.InOrder (f : Flash) : Prop :=
  f.audit.length ≤ 65536 ∧ f.audit.Pairwise (fun x y => x.seq < y.seq) ∧ (∀ x ∈ f.audit, x.seq < f.auditSeq) ∧
  ∀ r ∈ f.rings, r.2.length ≤ 32768

end Sys2Proof.Machine
end

