-- ==== Sys2Proof/Certificates/Slice0/Obligations.lean ====
section
/-! DEFINITION. What is claimed of the machine, for the provers: one definition per statement. Conventions: D is the die
that the command finds, its time base at the command's time; s.put a D is the package with that die replaced by D and
nothing else changed, so an equation with it states the whole frame. -/

open Sys2Proof Sys2Proof.Machine

/-! ## Steps -/

/-- A step carries out the command at the front of the queue, on the state with the queue's rest.
On an empty queue the block idles (log entry 1: the model's choice). -/
def Obligations.StepRunsTheFrontCommand : Prop :=
  (∀ (s : State) (c : Instr) (rest : List Instr),
     step { s with pending := c :: rest } = exec c { s with pending := rest }) ∧
  (∀ s : State, s.pending = [] → step s = .next s)

/-! ## Registers -/

/-- A 32-bit write takes effect by the access codes of R15: RW bits take the value, RWL bits too unless they are committed,
W1C bits clear where a 1 is written, within the bounds of the register; a register of W1C bits only loses those written as 1;
at an offset without a register nothing changes (R14). In SAF and FOE these
bits are the safety island's: the installer writes RWL bits alone there (R448). A cause that a write of INT_ENABLE
enables raises its vector (R558; log entry 66). A write of a control register first brings the block's counters of cycles
up to date (log entry 9).
Exactly one event of class 6, code 0x06 is recorded for a write that reaches a committed RWL register, and the
register keeps its value (R15, R448). -/
def Obligations.CsrWriteFollowsTheAccessCodes : Prop :=
  ∀ (s : State) (a : At) (r : Req) (b off : Nat) (v : Word), s.up a → (s.dieAt a).admits r b off true →
    ¬ (b = B_FAB ∧ off = FAB_PORT_CTRL) → ¬ (b = B_STP ∧ off = STP_CTRL) → ¬ (b = B_CMD ∧ off = CMD_ADMIN_CFG) →
    let D := (s.dieAt a).touchSession r
    let L := if off = 0x0004 then D.lookTimed b else D
    (regDesc b off = none → exec (.csrWrite a r b off v) s = .next (s.put a D)) ∧
    ∀ d, regDesc b off = some d → isSelReg b off = false → d.w64 = false → ¬ (b = B_INS ∧ d.off = INS_DATA) →
      let i := D.regIndex r.id b d
      let old := D.reg b off i
      let w := fieldsFor r b d
      let m := orN w.rw (if D.committed b then 0 else w.rwl)
      let x := andNot (orN (andNot old m) (andN v.toNat m)) (andN v.toNat w.w1c)
      let y := if (w.rw = 0 ∧ w.rwl = 0) ∨ x = old then x else heldValue b off x
      (d.rwl = 0 ∨ D.committed b = false →
        exec (.csrWrite a r b off v) s = .next (s.put a ((L.setReg b off y i).enableRaise b off old))) ∧
      (d.rwl = 0 → d.rw = 0 →
        exec (.csrWrite a r b off v) s =
          .next (s.put a ((L.setReg b off (andNot old (andN v.toNat w.w1c)) i).enableRaise b off old))) ∧
      (d.rwl ≠ 0 → D.committed b = true → (d.rw = 0 → d.w1c = 0 → y = old) ∧
        exec (.csrWrite a r b off v) s = .next (s.put a (((L.setReg b off y i).enableRaise b off old).event
          { cls := 6, code := 0x06, inst := some r.inst, loc := csrAddr b off, ident := r.id })))

/-- A 64-bit register (R13): the low half is held for its requester; the high half commits both in one step, the held
low half with it, or the low half as it stands without one; the base of an enabled admin pair stays, with an event (R431);
halves held for 1 ms are dropped. Each half that reaches a committed RWL register records its event (R15).
A read of the low half of a 64-bit register answers it and keeps the high half of the same instant for the
requester and the register; the next read of the high half answers that value and uses it up, and one without it the live
value (R13). Any other register is read as it stands. -/
def Obligations.WideRegistersCommitAndReadTogether : Prop :=
  (∀ (s : State) (a : At) (r : Req) (b off : Nat) (v : Word) (d : RegDesc), s.up a →
     let D := (s.dieAt a).touchSession r
     let rwl (o : Nat) (E : DieState) : DieState := E.event
       { cls := 6, code := 0x06, inst := some r.inst, loc := csrAddr b o, ident := r.id }
     (regDesc b off = some d → d.w64 = true → off % 8 = d.off % 8 → (s.dieAt a).admits r b off true →
       (d.rwl = 0 ∨ D.committed b = false → exec (.reg64LowWrite a r b off v) s = .next (s.put a (D.holdHalf r b off v))) ∧
       (d.rwl ≠ 0 → D.committed b = true →
         exec (.reg64LowWrite a r b off v) s = .next (s.put a (rwl off (D.holdHalf r b off v))))) ∧
     (regDesc b off = some d → d.w64 = true → off % 8 ≠ d.off % 8 → (s.dieAt a).admits r b off true →
       ¬ (blockKind b = some .cst ∧ d.off = CST_SEG_ON) →
       let i := D.regIndex r.id b d
       let lo := match D.heldHalf r b (off - 4) with | some h => h.low.toNat | none => D.reg b (off - 4) i
       let f := fieldsFor r b d
       let w := if D.committed b then f.rw else orN f.rw f.rwl
       let take (x o : Nat) : Nat := orN (andNot (D.reg b o i) w) (andN x w)
       let E := (D.setReg b (off - 4) (take ((lo + v.toNat * 2 ^ 32) % 2 ^ 32) (off - 4)) i).setReg b (off - 4 + 4)
         (take ((lo + v.toNat * 2 ^ 32) / 2 ^ 32) (off - 4 + 4)) i
       let used (X : DieState) : DieState := { X with csr := { X.csr with
         halves := X.csr.halves.filter (fun h => !(h.req == r.id && h.block == b && h.off + 4 == off)) } }
       (D.baseFixed r b (off - 4) = false → (d.rwl = 0 ∨ D.committed b = false) →
         exec (.reg64HighWrite a r b off v) s = .next (s.put a (used E))) ∧
       (D.baseFixed r b (off - 4) = false → d.rwl ≠ 0 → D.committed b = true →
         exec (.reg64HighWrite a r b off v) s = .next (s.put a (used (rwl (off - 4) E)))) ∧
       (D.baseFixed r b (off - 4) = true → exec (.reg64HighWrite a r b off v) s = .next (s.put a (used (D.event
         { cls := 6, code := 0x07, island := 1, inst := some (D.sel r.id B_CMD CMD_ADMIN_SEL % 8) }))))) ∧
     ∃ t, exec (.heldHalfExpire a) s = .next t ∧
       (∀ h, h ∈ (t.die a.die).csr.halves ↔ h ∈ (s.dieAt a).csr.halves ∧ (s.dieAt a).now < h.time + 1000000) ∧
       t = s.put a { s.dieAt a with csr := (t.die a.die).csr } ∧
       { (t.die a.die).csr with halves := [] } = { (s.dieAt a).csr with halves := [] }) ∧
  (∀ (s : State) (a : At) (r : Req) (b off : Nat), s.up a →
     (s.dieAt a).admits r b off false → (s.dieAt a).sealHidden r b off = false →
     let s' := s.put a (s.dieAt a)
     let D := (s.dieAt a).lookAt b off
     let answers (E : DieState) (x : Nat) : State := s'.put a ((E.useSel r.id b).tick.out (.csrData r.id x))
     let shadow := D.csr.shadows.find? (fun x => x.req == r.id && x.block == b && x.off + 4 == off)
     (∀ d, regDesc b off = some d → d.w64 = true → off % 8 = d.off % 8 → exec (.reg64LowRead a r b off) s =
       .next (answers (D.setShadow r b off (some (s'.readWord D r b (off + 4)))) (s'.readWord D r b off))) ∧
     ((∀ d, regDesc b off = some d → d.w64 = false ∨ off % 8 ≠ d.off % 8) →
       exec (.reg64LowRead a r b off) s = .next (answers D (s'.readWord D r b off))) ∧
     (∀ x, shadow = some x →
       exec (.reg64HighRead a r b off) s = .next (answers (D.setShadow r b (off - 4) none) x.high.toNat)) ∧
     (shadow = none → exec (.reg64HighRead a r b off) s = .next (answers D (s'.readWord D r b off))))

/-- Accesses that R12 forbids: misaligned, of another size, or of a block that is not assigned. They have no effect but
their event; a read answers 0xFFFF_FFFF. -/
def Obligations.MisalignedAccessesHaveNoEffect : Prop :=
  ∀ (s : State) (a : At) (r : Req) (b off size : Nat), s.up a →
    (size ≠ 4 ∨ off % 4 ≠ 0 ∨ csrAssigned b = false) →
    let D := (s.dieAt a).event
      { cls := 6, code := 0x05, inst := some r.inst, loc := csrAddr b off, ident := r.id }
    exec (.csrMisalignedAccess a r b off size true) s = .next (s.put a D) ∧
    exec (.csrMisalignedAccess a r b off size false) s = .next (s.put a (D.out (.csrData r.id 0xFFFF_FFFF)))

/-- A requester's selection register is its own: a write changes its copy for that block and no register; no copy of another
block changes (R443). -/
def Obligations.SelectionsAreTheRequestersOwn : Prop :=
  ∀ (s : State) (a : At) (r : Req) (b off : Nat) (v : Word) (d : RegDesc), s.up a → isSelReg b off = true →
    regDesc b off = some d → (s.dieAt a).barOpen r b = true → (s.dieAt a).gateClosed r.inst = false →
    (s.dieAt a).csrAdmits (s.dieAt a).saf.service.isSome r b off false true = true →
    let E := (s.dieAt a).setSel r.id b off (BitVec.ofNat 32 (andN v.toNat d.rw))
    exec (.selectionWrite a r b off v) s = .next (s.put a E) ∧
    E = { s.dieAt a with csr := { (s.dieAt a).csr with sels := E.csr.sels } } ∧
    (∀ r' b' o, b' ≠ b → E.sel r' b' o = (s.dieAt a).sel r' b' o) ∧
    ((∀ c ∈ (s.die a.die).csr.sels, tabWf (fun _ => (0 : Word)) c.vals = true) →
      E.sel r.id b off = andN v.toNat d.rw % 2 ^ 32 ∧ ∀ c ∈ E.csr.sels, tabWf (fun _ => (0 : Word)) c.vals = true)

/-- A write of a control register with clear_counters set: its fields take the write, and every counter of the block reads its
reset value while every other register of every block keeps its word (R623); in ROL only an installer clears (R469), in SAF
and FOE only the safety island (R448).
The writes that the access codes alone do not give: the INS window edits the staged entry (R467), the enable of a
fabric port acts on the port that the requester has selected (R509), and the replay bit has its own row (R105). -/
def Obligations.ControlWritesHaveTheirEffect : Prop :=
  (∀ (s : State) (a : At) (r : Req) (b : Nat) (v : Word) (k : BlockKind), s.up a → blockKind b = some k → k ≠ .stp →
     (s.dieAt a).admits r b 0x0004 true → bit v.toNat 1 = true →
     (b ∈ [B_GLB, B_D2D, B_EVL, B_HBMn 0, B_HBMn 1, B_INS] → bit v.toNat 2 = false) →
     let D := ((s.dieAt a).touchSession r).csrFields r b 0x0004 v.toNat
     let ends (E : DieState) : State := if b = B_INS then (s.put a E).settleFlash.settleWorks else s.put a E
     ((b = B_ROL → 1 ≤ D.roleOf r) → rwlOnly r b = false →
       exec (.clearCounters a r b v) s = .next (ends (D.clearBlock b)) ∧
       ∀ b' o sel, b' < 65536 → o < 65536 → (D.clearBlock b).reg b' o sel =
         if b' = b ∧ ∃ d, findReg o (regMap k) = some d ∧ d.ctr = true then regReset b o % 2 ^ 32 else D.reg b' o sel) ∧
     ((b = B_ROL ∧ D.roleOf r = 0) ∨ rwlOnly r b = true → exec (.clearCounters a r b v) s = .next (ends D))) ∧
  (∀ (s : State) (a : At) (r : Req) (v : Word), s.up a →
     let D := (s.dieAt a).touchSession r
     (∀ off d, (s.dieAt a).admits r B_INS off true → regDesc B_INS off = some d → d.off = INS_DATA →
       isSelReg B_INS off = false → d.w64 = false →
       exec (.csrWrite a r B_INS off v) s = .next (s.put a (D.writeInsData r off v.toNat))) ∧
     ((s.dieAt a).admits r B_FAB FAB_PORT_CTRL true →
       exec (.csrWrite a r B_FAB FAB_PORT_CTRL v) s =
         .next (s.put a (D.setEnable (D.sel r.id B_FAB FAB_PORT_SEL % 2) (bit v.toNat 0)))) ∧
     ((s.dieAt a).admits r B_STP STP_CTRL true →
       exec (.csrWrite a r B_STP STP_CTRL v) s = .next (s.put a
         (D.csrFields r B_STP STP_CTRL (putBits v.toNat 1 1 (bits ((s.dieAt a).reg B_STP STP_CTRL) 1 1))))))

/-! ## Command packets and queues (ch. 13) -/

/-- The command processor takes the packet at the head of the queue it picks: one whose slots cannot be read puts its queue in
ERROR (R417); one that is read leaves its slots, counts, and is refused by the first check of R407 that fails or by a budget
at its limit, accepted, or accepted and delayed by the budgets over theirs (R407, R421). A head packet that has waited 1 ms
has the highest priority (R419), and the budgets are measured anew at multiples of 10 µs (R421). -/
def Obligations.PacketsAreTakenFromTheQueues : Prop :=
  ∀ (s : State) (a : At) (rivals : List Nat) (qn : Nat), s.up a →
    let D := s.dieAt a
    (D.pickQueue = some qn → ∃ E, exec (.commandPacketFetch a rivals) s = .next (s.put a E) ∧
      let q := D.queue qn
      let n := bits (field (D.peekSlot q) 2 2) 0 2 + 1
      let slots : M (List Byte) := do let l ← (List.range n).mapM (fun i => readSlot q (q.head + i)); pure l.flatten
      (∀ f D1, runM slots D = (.error f, D1) → E = D1.queueError qn .faultUncorrectable) ∧
      ∀ (bytes : List Byte) (D1 : DieState), runM slots D = (.ok bytes, D1) →
        let D2 := { D1 with cmd := { D1.cmd with rr := (qn + 1) % 4096 } }.advanceHead qn n
        let p := D2.queue qn
        let F := ({ D2 with cmd := { D2.cmd with nextId := D2.cmd.nextId + 1 } } : DieState).count B_CMD CMD_PACKETS
        let G := match F.queueSession p with | some x => F.touchSession { id := x.req, inst := p.inst } | none => F
        let rq := field bytes 12 2
        let ownQueue := rq = 0xFFFF ∨ (D2.queue rq).liveReply = false ∨ (D2.queue rq).inst ≠ p.inst
        let c : Cmd := { id := D2.cmd.nextId, queue := qn, op := field bytes 0 2, flags := field bytes 2 2, seq := field bytes 4 4, inst := p.inst, gen := D2.gen p.inst, role := field bytes 9 1, rq := if ownQueue then p.defReply else rq, params := (bytes.drop 16).take (field bytes 10 2), stacked := p.stacked }
        let waiting := (G.cmd.cmds.filter (fun c => match c.phase with | .delayed _ => true | _ => false)).length
        (∀ st reason, D2.packetCheck qn bytes = some (st, reason) → E = G.refusePacket c st reason) ∧
        (D2.packetCheck qn bytes = none →
          (∀ k, G.budgetCheck c = .error k → E = G.refusePacket c .refusedQuota k) ∧
          (G.budgetCheck c = .ok [] → E = { G with cmd := { G.cmd with cmds := G.cmd.cmds ++ [c] } }) ∧
          ∀ k ks, G.budgetCheck c = .ok (k :: ks) → waiting < 1023 →
            let H := G.count B_CMD CMD_DELAYED
            E = { H with cmd := { H.cmd with cmds := H.cmd.cmds ++ [{ c with phase := .delayed (k :: ks), delayed := true }] } })) ∧
    (∀ w, (D.queue qn).headSince = some w → w + 1000000 ≤ D.now →
      exec (.packetAgePromote a qn) s = .next (s.put a (D.setQueue qn { D.queue qn with promoted := true }))) ∧
    (D.now % 10000 = 0 → exec (.budgetReevaluate a) s = .next (s.put a D.remeasure.releaseDelayed))

/-- NOP, QUEUE_STATUS, QUEUE_RESET and QUEUE_DESTROY on a queue of the instance (R409, R416, R417, R436, R652): each is
answered OK, with the detail that R652 gives, and the queue is as it says; the replies held for a reset queue and the pushes
that wait for it are then served; a destroyed queue ends what waits on it, and is freed, with its doorbell seal, once its
packets are answered.
QUEUE_CREATE ends as its checks decide; where they pass it makes one free queue active, with the base, size, kind and modes of
its parameters, and answers its number (R413, R414, R416). -/
def Obligations.QueueCommandsAnswer : Prop :=
  (∀ (s : State) (a : At) (id : Nat) (c : Cmd), s.up a →
     let D := s.dieAt a
     let qn := c.p 0 2
     let q := D.queue qn
     (D.readyCmd 0x0000 id c → exec (.nop a id) s = .next (s.put a (D.reply c .ok 0 (c.params.take 16)))) ∧
     (qn < 4096 → q.state ≠ .free → q.inst = c.inst →
       (D.readyCmd 0x0004 id c → exec (.queueStatus a id) s = .next (s.put a (D.reply c .ok 0
         (toLE 4 q.head ++ toLE 4 q.tail ++ toLE 1 q.state.code ++ toLE 1 q.err ++ toLE 2 0 ++ toLE 4 q.overruns)))) ∧
       (D.readyCmd 0x0003 id c → q.state ≠ .destroying →
         let E := ((D.setQueue qn { q with state := .active, head := 0, tail := 0, err := 0, headSince := none, promoted := false,
                                           popping := none }).releaseHeld qn).serveQueue qn
         E.acked id = true →
         (q.doorbell = none →
           exec (.queueReset a id) s = .next (s.put a (E.reply c .ok 0 (toLE 4 q.head ++ toLE 4 q.tail)))) ∧
         ∀ n, q.doorbell = some n →
           let F := E.resetDoor n true
           exec (.queueReset a id) s = .next (s.put a (F.reply c .ok 0
             (toLE 4 q.head ++ toLE 4 q.tail ++ toLE 4 (sealRef n (F.sealOf n).gen))))) ∧
       (D.readyCmd 0x0002 id c → 16 ≤ qn → q.state ≠ .destroying →
         (q.kind = 1 → ∀ k ∈ D.queueNums, ¬ ((D.queue k).kind = 0 ∧ (D.queue k).state ≠ .free ∧ (D.queue k).defReply = qn)) →
         let X := D.setQueue qn { q with state := .destroying, destroyer := some (c.id, q.filled) }
         let Y : DieState := { X with cmd := { X.cmd with qwaits := D.cmd.qwaits.filter (fun w => !(w.queue == qn)) } }
         let E := (D.cmd.qwaits.filter (fun w => w.queue == qn)).foldl (fun D w => D.replyId w.cmd .faultStaleGeneration) Y
         exec (.queueDestroy a id) s = .next (s.put a ((if q.kind = 1 then E.releaseHeld qn else E).started id)))) ∧
     (∀ n k, (D.queue k).state = .destroying → (D.queue k).destroyer = some (id, n) →
       (∀ x ∈ D.cmd.cmds, x.queue = k → x.id = id) →
       let E := match (D.queue k).doorbell with | some x => D.resetDoor x false | none => D
       exec (.queueDestroyComplete a k) s = .next (s.put a ((E.setQueue k {}).replyId id .ok 0 (toLE 4 n))))) ∧
  (∀ (s : State) (a : At) (id : Nat) (rivals : List Nat) (c : Cmd), s.up a → (s.dieAt a).readyCmd 0x0001 id c →
     ∃ E, exec (.queueCreate a id rivals) s = .next (s.put a E) ∧ (s.dieAt a).EndsAs c (queueCreate rivals c) some E ∧
     ∀ d D', runM (queueCreate rivals c) (s.dieAt a) = (.ok d, D') → E = D'.reply c .ok 0 d ∧
       ∃ n, 16 ≤ n ∧ n < 4096 ∧ ((s.dieAt a).queue n).state = .free ∧ d = toLE 2 n ∧
         D'.cmd.queues = tabSet {} n
           { state := .active, base := c.p 0 8, log2 := c.p 8 1, kind := c.p 9 1, prio := c.p 10 1,
             stacked := bit (c.p 11 1) 0, emptyMode := bit (c.p 11 1) 1, fullMode := bit (c.p 11 1) 2,
             doorbell := if bit (c.p 11 1) 3 then some (refNum (c.p 16 4)) else none, defReply := c.p 12 2,
             msix := c.p 14 2, inst := c.inst } (s.dieAt a).cmd.queues)

/-- Entries of a message queue (R409, R417, R427): a push into a ring with room appends its entry and answers the new
tail; into a full ring in mode 2 it only counts an overrun and fails; a pop of an empty ring in mode 1 answers that it took
none, and otherwise waits with its deadline; a pop that finds an entry delivers it and moves the head. What waits on the queue
is then served. -/
def Obligations.MessageQueuesPassEntries : Prop :=
  ∀ (s : State) (a : At) (id : Nat) (rivals : List Nat) (c : Cmd), s.up a →
    let D := s.dieAt a
    let qn := c.p 0 2
    let q := D.queue qn
    qn < 4096 → q.state = .active → q.inst = c.inst → q.kind = 2 →
    (D.readyCmd 0x0005 id c → q.doorbell = none → zeros c.params 2 6 = true →
      (∀ D', q.isFull = false → (q.filled + 1 = q.size → rivals = []) →
        D.writeSlot q (padTo 64 (c.params.drop 12)) = some D' → D'.acked id = true →
        let X := (D'.setQueue qn { q with tail := (q.tail + 1) % 2 ^ 32 }).reply c .ok 0 (toLE 4 ((q.tail + 1) % 2 ^ 32))
        exec (.queuePush a id rivals) s = .next (s.put a (X.serveQueue qn))) ∧
      (q.isFull = true → q.fullMode = true → D.cmd.contest.contains (176 + 65536 * qn, D.now) = false →
        let X := (D.setQueue qn { q with overruns := min (q.overruns + 1) (2 ^ 32 - 1) }).reply c .faultOverrun
        exec (.queuePush a id rivals) s = .next (s.put a (X.serveQueue qn)))) ∧
    (D.readyCmd 0x0006 id c → zeros c.params 2 2 = true →
      (q.filled = 0 → q.emptyMode = true →
        let X := D.reply c .ok 0 (toLE 4 q.head ++ toLE 4 0)
        exec (.queuePop a id rivals) s = .next (s.put a (X.serveQueue qn))) ∧
      (q.filled = 0 → q.emptyMode = false → D.commandWaits < 8191 →
        let X := D.started id
        let Y : DieState := { X with cmd := { X.cmd with qwaits := X.cmd.qwaits ++
          [{ cmd := id, queue := qn, push := false, deadline := deadlineOf D.now (c.p 4 4) }] } }
        exec (.queuePop a id rivals) s = .next (s.put a (Y.serveQueue qn))) ∧
      (∀ e D1 D2, q.filled ≠ 0 → q.popping = none → runM (readSlot q q.head) D = (.ok e, D1) →
        runM (paramWrite id c.stacked c.ctx (c.p 8 8) e) D1 = (.ok (), D2) → D2.acked id = true →
        let X := (D2.popped qn).reply c .ok 0 (toLE 4 ((q.head + 1) % 2 ^ 32) ++ toLE 4 1)
        exec (.queuePop a id rivals) s = .next (s.put a (X.serveQueue qn))))

/-- Doorbell writes (R415, R417): a software producer moves the tail of its queue, a software consumer the head, within
the ring, and what waits on the queue is served; a move outside it puts the queue in ERROR with FAULT_OVERRUN; one that the
page does not admit is refused, and one on a queue that is not active has no effect. A
write of CMD_ADMIN_CFG that enables the selected instance's admin pair makes both of its queues active (R413, R431). -/
def Obligations.DoorbellsMoveTheRing : Prop :=
  ∀ (s : State) (a : At) (r : Req) (qn : Nat) (v : Word), s.up a →
    let D := s.dieAt a
    let q := D.queue qn
    (D.barOpen r 0x800 = true →
    (D.doorAdmits r q (q.kind == 1 || q.doorbell.isSome) = true →
      (q.state ≠ .active → exec (.qdbTailWrite a r qn v) s = .next (s.put a D)) ∧
      (q.state = .active →
        ((v.toNat + 2 ^ 32 - q.tail) % 2 ^ 32 ≤ 2 ^ 31 → (v.toNat + 2 ^ 32 - q.head) % 2 ^ 32 ≤ q.size →
          exec (.qdbTailWrite a r qn v) s = .next (s.put a ((D.setQueue qn
            { q with tail := v.toNat, headSince := if q.filled = 0 then some D.now else q.headSince }).serveQueue qn))) ∧
        (2 ^ 31 < (v.toNat + 2 ^ 32 - q.tail) % 2 ^ 32 ∨ q.size < (v.toNat + 2 ^ 32 - q.head) % 2 ^ 32 →
          exec (.qdbTailWrite a r qn v) s = .next (s.put a (D.queueError qn .faultOverrun))))) ∧
    (D.doorAdmits r q (q.kind == 0) = true →
      (q.state ≠ .active → exec (.qdbHeadWrite a r qn v) s = .next (s.put a D)) ∧
      (q.state = .active →
        ((v.toNat + 2 ^ 32 - q.head) % 2 ^ 32 ≤ q.filled → exec (.qdbHeadWrite a r qn v) s =
          .next (s.put a (((D.setQueue qn { q with head := v.toNat }).releaseHeld qn).serveQueue qn))) ∧
        (q.filled < (v.toNat + 2 ^ 32 - q.head) % 2 ^ 32 →
          exec (.qdbHeadWrite a r qn v) s = .next (s.put a (D.queueError qn .faultOverrun))))) ∧
    (D.doorAdmits r q (q.kind == 1 || q.doorbell.isSome) = false →
      exec (.qdbTailWrite a r qn v) s = .next (s.put a (D.refuseDoor r qn 0))) ∧
    (D.doorAdmits r q (q.kind == 0) = false →
      exec (.qdbHeadWrite a r qn v) s = .next (s.put a (D.refuseDoor r qn 4)))) ∧
    let i := D.sel r.id B_CMD CMD_ADMIN_SEL % 8
    (D.admits r B_CMD CMD_ADMIN_CFG true →
      exec (.cmdAdminCfgWrite a r v) s = .next (s.put a ((D.touchSession r).writeAdminCfg i v.toNat))) ∧
    (i < 8 → bit (D.reg B_CMD CMD_ADMIN_CFG i) 6 = false → bit v.toNat 6 = true → 4 ≤ bits v.toNat 0 5 →
      bits v.toNat 0 5 ≤ 16 → bit v.toNat 19 = false →
      let E := (D.touchSession r).writeAdminCfg i v.toNat
      (E.queue (2 * i)).state = .active ∧ (E.queue (2 * i)).kind = 0 ∧ (E.queue (2 * i)).log2 = bits v.toNat 0 5 ∧
      (E.queue (2 * i)).inst = i ∧ (E.queue (2 * i + 1)).state = .active ∧ (E.queue (2 * i + 1)).kind = 1 ∧
      (E.queue (2 * i + 1)).inst = i)

/-! ## Seals (ch. 13) -/

/-- SEAL_ALLOC takes the lowest free seal of the instance's range and answers its reference, and is refused with none free; SEAL_FREE and SEAL_RESET end the
seal's use, and SEAL_RESET answers the new reference; SEAL_SIGNAL hands its signal to the seal unit; SEAL_QUERY answers
the seal's counter, target, generation and state (R409, R424, R425, R652).
SEAL_WAIT on a counter at or above its target answers OK at once with the counter; below it the wait is registered,
with its deadline. SEAL_ARM arms the seal for the requester's notice (R426-R429). -/
def Obligations.SealCommandsAnswer : Prop :=
  (∀ (s : State) (a : At) (id : Nat) (rivals : List Nat) (c : Cmd), s.up a →
     let D := s.dieAt a
     let n := refNum (c.p 0 4)
     let sl := D.sealOf n
     let base := insSealBase D.ins.active c.inst
     let inRange (k : Nat) : Prop := base ≤ k ∧ k < base + insSealCount D.ins.active c.inst
     (∀ k, D.readyCmd 0x0010 id c → inRange k → (D.sealOf k).alloc = false → (∀ j, base ≤ j → j < k → (D.sealOf j).alloc = true) →
       (rivals = [] ∨ ∃ j, j ≠ k ∧ inRange j ∧ (D.sealOf j).alloc = false) →
       exec (.sealAlloc a id rivals) s = .next (s.put a ((D.setSeal k
         { D.sealOf k with alloc := true, counter := 0, arm := none, saturated := false }).reply c .ok 0
           (toLE 4 (sealRef k (D.sealOf k).gen))))) ∧
     (D.readyCmd 0x0010 id c → (∀ k, inRange k → (D.sealOf k).alloc = true) →
       D.cmd.contest.contains (80 + c.inst, D.now) = false →
       exec (.sealAlloc a id rivals) s = .next (s.put a (D.reply c .refusedFull 5))) ∧
     (refOk (c.p 0 4) = true → D.ownsSeal c.inst n = true →
       (sl.alloc = true → sl.gen = refGen (c.p 0 4) → sl.door = none →
         (D.readyCmd 0x0011 id c → (D.sealCycle.newUse n false).acked id = true →
           exec (.sealFree a id) s = .next (s.put a ((D.sealCycle.newUse n false).reply c .ok 0 []))) ∧
         (D.readyCmd 0x0012 id c → (D.sealCycle.newUse n true).acked id = true →
           exec (.sealReset a id) s = .next (s.put a ((D.sealCycle.newUse n true).reply c .ok 0
             (toLE 4 (sealRef n ((D.sealCycle.newUse n true).sealOf n).gen)))))) ∧
       (D.readyCmd 0x0013 id c → exec (.sealSignal a id) s =
         .next (s.put a ((D.started c.id).signal n (refGen (c.p 0 4)) (c.p 4 4) (.cmd c.id))))) ∧
     (D.readyCmd 0x0016 id c → D.ownsSeal c.inst (c.p 0 2) = true →
       let q := D.sealOf (c.p 0 2)
       exec (.sealQuery a id) s = .next (s.put a (D.reply c .ok 0
         (toLE 4 q.counter ++ toLE 4 (match q.arm with | some (t, _) => t | none => 0) ++ toLE 1 q.gen
           ++ toLE 1 (b2n q.alloc + b2n q.arm.isSome * 2 + b2n q.saturated * 4 + b2n q.door.isSome * 8)
           ++ toLE 1 (D.waitersOf (c.p 0 2)) ++ toLE 1 c.inst))))) ∧
  (∀ (s : State) (a : At) (id : Nat) (rivals : List Nat) (c : Cmd), s.up a →
     let D := s.dieAt a
     let P := D.pastDeadlines
     let n := refNum (c.p 0 4)
     refOk (c.p 0 4) = true →
     (D.readyCmd 0x0014 id c → P.acked id = true → P.ownsSeal c.inst n = true → (P.sealOf n).alloc = true →
       (P.sealOf n).gen = refGen (c.p 0 4) → (P.sealOf n).door = none →
       (c.p 4 4 ≤ (P.sealOf n).counter → exec (.sealWait a id rivals) s =
         .next (s.put a ((P.countWait .ok).reply c .ok 0 (toLE 4 (P.sealOf n).counter)))) ∧
       ((P.sealOf n).counter < c.p 4 4 → P.commandWaits < 8191 → exec (.sealWait a id rivals) s =
         .next (s.put a { P.started c.id with cmd := { (P.started c.id).cmd with waits := P.cmd.waits ++
           [{ who := .cmd c.id, num := n, target := c.p 4 4,
              deadline := deadlineOf P.now (c.p 8 4) }] } }))) ∧
     (D.readyCmd 0x0015 id c → D.ownsSeal c.inst n = true → (D.sealOf n).alloc = true →
       (D.sealOf n).gen = refGen (c.p 0 4) → (D.sealOf n).door = none →
       (c.p 8 2 = 0xFFFF ∨ D.replyQueueOf c.inst (c.p 8 2) = some true) →
       (c.p 10 2 = 0xFFFF ∨ c.p 10 2 < fnVectors (D.fnOf c.inst)) →
       let E := (D.setSeal n { D.sealOf n with arm := some (c.p 4 4, c.p 8 2, c.p 10 2, c.seq, c.inst) }).notice n
       E.acked id = true → exec (.sealArm a id) s = .next (s.put a (E.reply c .ok 0 []))))

/-- A cycle of the seal unit applies a signal: the counter of an allocated seal of the signal's generation rises by its
amount and the signal leaves the intake; a wait whose deadline falls in the cycle times out (R425-R427). -/
def Obligations.SealCyclesApplySignalsAndTimeouts : Prop :=
  ∀ (s : State) (a : At), s.up a →
    let D := s.dieAt a
    D.cmd.qwaits = [] → D.task.tasks = [] →
    (∀ g, D.cmd.intake = [g] → D.cmd.waits = [] → g.src = .job → (D.sealOf g.num).alloc = true →
      (D.sealOf g.num).gen = g.gen → (D.sealOf g.num).door = none → (D.sealOf g.num).arm = none →
      (D.sealOf g.num).counter + g.add < 2 ^ 32 → tabWf (fun _ => ({} : Seal)) D.cmd.seals = true →
      ∃ t, exec (.sealSignalApply a) s = .next t ∧ (t.die a.die).cmd.intake = [] ∧
        (t.die a.die).cmd.seals = tabSet {} g.num
          { D.sealOf g.num with counter := (D.sealOf g.num).counter + g.add } D.cmd.seals ∧
        (t.die a.die).csr = (D.count B_SEAL SEAL_SIGNALS).csr) ∧
    (∀ i n x, D.cmd.intake = [] → D.cmd.waits = [{ who := .seq i, num := n, target := x, deadline := some D.now }] →
      (D.sealOf n).counter < x →
      exec (.sealWaitTimeout a) s = .next (s.put a
        (({ D with cmd := { D.cmd with waits := [] } }.count B_SEAL SEAL_TIMEOUTS).onCore i
          (fun k => { k with sealWait := some 4 }))))

/-! ## Tasks and the sequencer (ch. 6) -/

/-- An accepted TASK_LAUNCH ends as its checks decide; one that passes them enters its task, queued on its cores under the next
task ID, and has no reply yet; TASK_STATUS answers one byte for each core, and TASK_QUERY_CORE the core's task, launch-queue
length and program counter (R184-R188).
A free core whose head task waits for a scrub waits, one whose head task fails its launch checks ends that launch, and one
whose head task passes them starts it and reads its descriptors (R155, R187); dispatch takes a
SEQ op once it has its tokens, or puts an engine op at the end of its engine's queue with copies of its descriptors and of the
table that its chain names, and a deadlock ends the task (R191, R192, R195, R300); a task over its time limit ends with
FAULT_TIMEOUT on every core (R201). -/
def Obligations.TasksLaunchStartAndExpire : Prop :=
  (∀ (s : State) (a : At) (id : Nat) (rivals : List Nat) (c : Cmd), s.up a →
     let D := s.dieAt a
     (D.readyCmd 0x0200 id c → ∃ E, exec (.taskLaunch a id rivals) s = .next (s.put a E) ∧
       D.EndsAs c (do taskLaunch rivals c; pure (none : Option (List Byte))) (fun x => x) E ∧
       ∀ D', runM (taskLaunch rivals c) D = (.ok (), D') → E = D' ∧
         ∃ t, D'.task.tasks.getLast? = some t ∧ t.cmd = c.id ∧ t.inst = c.inst ∧ t.started = none ∧
           (∀ e ∈ t.stages, e.2 = .queued) ∧ t.stages.map (·.1) = maskCores (tdCoreMask t.desc) ∧
           D'.task.nextTask = (t.id + 1) % 2 ^ 32) ∧
     (∀ t, D.readyCmd 0x0201 id c → D.taskOf (c.p 0 4) = some t → t.inst = c.inst →
       exec (.taskStatus a id) s = .next (s.put a (D.reply c .ok 0
         ((List.range 16).flatMap (fun i => toLE 1 (D.coreState t i)))))) ∧
     (D.readyCmd 0x0202 id c → c.p 0 4 / 16 = D.num → D.clusterOwner (c.p 0 4 % 16 / 4) = some c.inst →
       let k := D.core (c.p 0 4 % 16)
       exec (.taskQueryCore a id) s = .next (s.put a (D.reply c .ok 0
         (toLE 4 (k.task.getD 0) ++ toLE 4 k.launch.length ++ toLE 4 k.pc))))) ∧
  (∀ (s : State) (a : At) (i : Nat) (t : Task), s.up a →
     let D := s.dieAt a
     (∀ id rest, (D.core i).task = none → (D.core i).launch = id :: rest → D.taskOf id = some t →
       ∃ E, exec (.taskStart a i) s = .next (s.put a E) ∧ (D.checkWindows t (i / 4) = .wait → E = D) ∧
         (∀ st, D.checkWindows t (i / 4) = .fail st → E = D.failLaunch t i st) ∧
         ∀ b D1, D.checkWindows t (i / 4) = .fine → runM (descRead i t) (D.beginTask i t rest) = (.ok b, D1) →
           E = D1.loadDescs i t b) ∧
     (∀ w, D.runningTask i = some t → (D.core i).ended = false → (D.core i).seq = none →
       (D.core i).pc < tdOpCount t.desc →
       let P := (D.work (coreBlock i 0)).prefetch i
       let k := D.core i
       let e := opEngine w
       let op : OpEntry := { idx := k.pc, word := w, headSince := P.now }
       P.nextOp i t = some (w, false, false) → opWordOk t.desc w = true →
       (k.deadlocked w = true → exec (.opDispatch a i) s = .next (s.put a (P.deadlockFault t))) ∧
       (k.deadlocked w = false → e = 0 → k.hasTokens (opWait w) = true → exec (.opDispatch a i) s = .next (s.put a
         ((P.onCore i (fun k => { (k.takeTokens (opWait w)) with seq := some op, pc := k.pc + 1 })).count (coreBlock i 0)
           SEQ_OPS_DISPATCHED))) ∧
       (k.deadlocked w = false → e = 0 → k.hasTokens (opWait w) = false →
         exec (.opDispatch a i) s = .next (s.put a P)) ∧
       let rest := if opChainIn w then k.chained.tail else k.chained
       let full : OpEntry := { op with
         da := k.descCopy (opDescA w), db := k.descCopy (opDescB w), dout := k.descCopy (opDescOut w)
         table := if opChain w = 0xFFFF then [] else k.descs, inBuf := if opChainIn w then k.chained.head? else none
         outBuf := if opChainOut w then some k.nextBuf else none, ord := k.issued }
       (k.deadlocked w = false → e ≠ 0 → (k.engine e).queue.length < 8 → (opChainIn w = true → k.chained ≠ []) →
         (opChainOut w = true → rest.length < 2) →
         let X := P.onCore i (fun k => { k with
           chained := if opChainOut w then rest ++ [k.nextBuf] else rest
           nextBuf := if opChainOut w then 1 - k.nextBuf else k.nextBuf, pc := k.pc + 1, issued := k.issued + 1 })
         let Y := if opChainOut w then X.onCore i (fun c => if k.nextBuf = 0 then { c with buf0 := { c.buf0 with producer := e } }
           else { c with buf1 := { c.buf1 with producer := e } }) else X
         let Z := (Y.onEngine i e (fun x => { x with queue := x.queue ++ [full] })).count (coreBlock i 0) SEQ_OPS_DISPATCHED
         exec (.opDispatch a i) s = .next (s.put a (if (k.engine e).queue.isEmpty then Z.headGate i e else Z)))) ∧
     (∀ id st, D.taskOf id = some t → t.started = some st → tdLimit t.desc ≠ 0 → st + tdLimit t.desc * 1000 < D.now →
       let f : TaskFault := { status := .faultTimeout, op := 0xFFFFFFFF, engine := 0, detail := 5,
                              core := D.globalCore ((maskCores (tdCoreMask t.desc)).headD 0) }
       exec (.taskLimitExpire a id) s = .next (s.put a (D.endTaskBadly t f))))

/-- Engine ops in order: once the waits that are late have ended and the head's gate has been looked at, the head of a queue
that has room, its tokens and an open gate or none enters flight (R193, R194, R219, R297); one that its gate holds stays, and
one whose gate ran out or lost its seal faults its task (R297); an op that failed
on parity and may be tried again goes back to its first start, counted (R202); one that succeeded completes, one that failed
on parity is tried again or ends its task, one that failed otherwise ends its task, and one with requests outstanding waits (R193, R199, R201). -/
def Obligations.EngineOpsStartRerunAndComplete : Prop :=
  ∀ (s : State) (a : At) (i e : Nat) (t : Task), s.up a →
    let D := s.dieAt a
    let g := (D.core i).engine e
    (∀ op, let P := D.pastDeadlines.headGate i e
      let x : OpCtx := { core := i, eng := e, task := t, op := op }
      P.runningTask i = some t → ((P.core i).engine e).queue.head? = some op →
      ((op.gate = 2 ∨ op.gate = 3 ∨ op.gate = 6) → ((P.core i).engine e).room e op = true →
        (P.core i).hasTokens (opWait op.word) = true → (P.core i).outbid e (P.seqMask i t) (opWait op.word) = false →
        (∀ k, op.gateAt = some k → P.gateMet t k.1 k.2.1 = .ok true) →
        exec (.engineOpStart a i e) s = .next (s.put a (P.enterFlight i e t op
          (if slotOk x then none else some { status := .faultFormat }) (op.gate == 3)))) ∧
      (op.gate = 1 → exec (.engineOpStart a i e) s = .next (s.put a P)) ∧
      (op.gate = 4 → exec (.engineOpStart a i e) s = .next (s.put a
        ((P.count32 (coreBlock i 4) VU_GATE_TIMEOUTS).faultTask i e op .faultTimeout 0 0 0))) ∧
      (op.gate = 5 → exec (.engineOpStart a i e) s = .next (s.put a (P.faultTask i e op .faultStaleGeneration 0 0 0)))) ∧
    (∀ r rs, g.run = r :: rs → r.result = none → r.op.attempts < r.op.lines.length →
      exec (.opRerun a i e) s = .next (s.put a (((D.onEngine i e (fun g => { g with
        lanes := r.lanes, run := { r with op := { r.op with attempts := r.op.attempts + 1 } } :: g.run.tail })).count
          (coreBlock i 0) SEQ_OPS_RERUN).cause (coreBlock i 0) 2))) ∧
    (∀ r rs x, D.runningTask i = some t → g.run = r :: rs → r.result = some x →
      (r.remote ≠ 0 → exec (.opComplete a i e) s = .next (s.put a D)) ∧
      (r.remote = 0 → r.remoteBad = none →
        (x.status.isOk = true → exec (.opComplete a i e) s = .next (s.put a (D.completeOk i e t r x))) ∧
        (x.status.isOk = false → x.status ≠ .faultParityPersistent →
          exec (.opComplete a i e) s = .next (s.put a (D.opFails i e t r x x.detail))) ∧
        (x.status = .faultParityPersistent → exec (.opComplete a i e) s = .next (s.put a (D.parityFault i e t r x)))))

/-- SEQ_NOP, END, LOOP_SET, LOOP_BRANCH, RESEED and DRAIN (R196, R197): the op finishes and the next op is the one after
it; LOOP_BRANCH jumps by its signed offset while its loop register counts down, and faults where that leaves the stream; END
with a chain buffer pending faults (R300).
SEAL_WAIT goes on when the seal stands at its target, otherwise waits with its deadline, and ends as the seal unit ends the
wait; SEAL_SIGNAL signals the slot's seal (R197). PATCH_SET, PATCH_ADD and PATCH_LOOP change one word of a descriptor of the core (R196). -/
def Obligations.SequencerOpsMoveOn : Prop :=
  (∀ (s : State) (a : At) (i : Nat) (t : Task) (op : OpEntry), s.up a →
     let D := s.dieAt a
     let k := D.core i
     D.runningTask i = some t → k.seq = some op →
     (opCode op.word = 0x00 → exec (.seqNop a i) s = .next (s.put a (D.finishSeq i op (op.idx + 1)))) ∧
     (opCode op.word = 0x01 → k.chained = [] → exec (.seqEnd a i) s =
       .next (s.put a ((D.onCore i (fun k => { k with ended := true })).finishSeq i op (op.idx + 1)))) ∧
     (opCode op.word = 0x01 → k.chained ≠ [] → exec (.seqEnd a i) s = .next (s.put a (D.seqFault i op .faultFormat))) ∧
     (opCode op.word = 0x02 → exec (.loopSet a i) s = .next (s.put a ((D.onCore i (fun k => { k with
       loops := k.loops.set (bits (opDescA op.word) 0 2) (opImm op.word) })).finishSeq i op (op.idx + 1)))) ∧
     (opCode op.word = 0x03 →
       let r := bits (opDescA op.word) 0 2
       let L := k.loops.getD r 0
       (L = 0 → exec (.loopBranch a i) s = .next (s.put a (D.finishSeq i op (op.idx + 1)))) ∧
       (L = 1 → exec (.loopBranch a i) s = .next (s.put a
         ((D.onCore i (fun k => { k with loops := k.loops.set r 0 })).finishSeq i op (op.idx + 1)))) ∧
       (1 < L → 0 ≤ (op.idx : Int) + sext 32 (opImm op.word) →
         (op.idx : Int) + sext 32 (opImm op.word) < (tdOpCount t.desc : Int) →
         exec (.loopBranch a i) s = .next (s.put a ((D.onCore i (fun k => { k with
           loops := k.loops.set r (L - 1) })).finishSeq i op ((op.idx : Int) + sext 32 (opImm op.word)).toNat))) ∧
       (1 < L → (op.idx : Int) + sext 32 (opImm op.word) < 0 ∨ (tdOpCount t.desc : Int) ≤ (op.idx : Int) + sext 32 (opImm op.word) →
         exec (.loopBranch a i) s = .next (s.put a ((D.onCore i (fun k => { k with
           loops := k.loops.set r (L - 1) })).seqFault i op .faultBounds)))) ∧
     (opCode op.word = 0x09 → (∀ e ∈ [1, 2, 3, 4], (k.engine e).idle = true) →
       exec (.reseed a i) s = .next (s.put a
         ((D.onCore i (fun k => k.seedAll (opImm op.word))).finishSeq i op (op.idx + 1)))) ∧
     (opCode op.word = 0x0A →
       (∀ j < 7, bits (opImm op.word) 1 7 = 0 ∨ bit (bits (opImm op.word) 1 7) j = true → (k.engine (j + 1)).idle = true) →
       exec (.seqDrain a i) s = .next (s.put a (D.finishSeq i op (op.idx + 1))))) ∧
  (∀ (s : State) (a : At) (i : Nat) (t : Task) (op : OpEntry), s.up a →
     let D := s.dieAt a
     let k := D.core i
     D.runningTask i = some t → k.seq = some op →
     (opCode op.word = 0x04 → k.sealWait = none →
       let ref := tdSlot t.desc (bits (opDescA op.word) 0 4)
       let sl := D.sealOf (refNum ref)
       bit ref 24 = true → sl.alloc = true → sl.gen = refGen ref → sl.door = none →
       (opImm op.word ≤ sl.counter → exec (.seqSealWait a i) s =
         .next (s.put a ((D.countWait .ok).finishSeq i op (op.idx + 1)))) ∧
       (sl.counter < opImm op.word → exec (.seqSealWait a i) s =
         let X := D.onCore i (fun k => { k with sealWait := some 0 })
         let w : Wait :=
           { who := .seq i, num := refNum ref, target := opImm op.word, deadline := deadlineOf X.now (opDescB op.word) }
         .next (s.put a { X with cmd := { X.cmd with waits := X.cmd.waits ++ [w] } }))) ∧
     (opCode op.word = 0x04 →
       (k.sealWait = some 0 → exec (.seqSealWait a i) s = .next (s.put a D)) ∧
       (k.sealWait = some 2 → exec (.seqSealWait a i) s = .next (s.put a (D.finishSeq i op (op.idx + 1)))) ∧
       (k.sealWait = some 3 →
         exec (.seqSealWait a i) s = .next (s.put a ((D.orFlags t.id 4).finishSeq i op (op.idx + 1)))) ∧
       (k.sealWait = some 4 → exec (.seqSealWait a i) s = .next (s.put a (D.seqFault i op .faultTimeout))) ∧
       (k.sealWait = some 5 → exec (.seqSealWait a i) s = .next (s.put a (D.seqFault i op .faultStaleGeneration)))) ∧
     (opCode op.word = 0x05 → bit (tdSlot t.desc (bits (opDescA op.word) 0 4)) 24 = true →
       exec (.seqSealSignal a i) s = .next (s.put a ((D.slotSignal t (bits (opDescA op.word) 0 4) (opImm op.word)
         (.task t.id i 0 op.idx)).finishSeq i op (op.idx + 1)))) ∧
     let d := opDescA op.word
     let w := bits (opDescB op.word) 0 4
     let patched (v : Nat) : DieState := (D.onCore i (fun k => k.patch d w (v % 2 ^ 32))).finishSeq i op (op.idx + 1)
     (opCode op.word = 0x06 → exec (.patchSet a i) s = .next (s.put a (patched (opImm op.word)))) ∧
     (opCode op.word = 0x07 → exec (.patchAdd a i) s = .next (s.put a (patched (k.descWord d w + opImm op.word)))) ∧
     (opCode op.word = 0x08 → exec (.patchLoop a i) s = .next (s.put a
       (patched (k.descWord d w + k.loops.getD (bits (opDescB op.word) 4 2) 0 * opImm op.word)))))

/-! ## Engines (ch. 7 to 10) -/

/-- An op of the tensor engines that is to run, its input chain buffer filled and its output buffer free, runs (R193, R301): its
outcome, the result of its computation or the first check that fails it, stands in flight for OP_COMPLETE, on the die as the
computation leaves it; the generators it starts from are kept for a rerun (R202).
The forms are those of R214, R216, R223, R225, R234 and R236; kind 3 of MUL.W16 is a format fault. -/
def Obligations.TensorOpsRun : Prop :=
  ∀ (s : State) (a : At) (i : Nat) (t : Task) (op : OpEntry) (upset : Upset), s.up a →
    let D := s.dieAt a
    let ready (e : Nat) : Prop := D.runningTask i = some t ∧ D.opToRun i e = some op ∧
      D.chainReady { core := i, eng := e, task := t, op := op } = true ∧ (D.core i).bufBusy op = false
    let ran (e : Nat) (m : OpCtx → M OpResult) : State :=
      let y := runM (m { core := i, eng := e, task := t, op := op })
        (D.onEngine i e (fun g => { g with run := noteLanes op g.lanes g.run }))
      let outcome := match y.1 with | .ok r => r | .error f => f.result
      s.put a (y.2.onEngine i e (fun g => { g with run := setResult outcome g.run }))
    (ready 1 →
      (opCode op.word = 0x01 → exec (.dteGemmW a i upset) s =
        .next (ran 1 (fun x => laneOp x (denseOp 1 128 false byteType) upset))) ∧
      (opCode op.word = 0x02 → exec (.dteGemmS a i upset) s =
        .next (ran 1 (fun x => laneOp x (denseOp 1 65536 false byteType) upset))) ∧
      (opCode op.word = 0x03 → exec (.dteConvG a i upset) s =
        .next (ran 1 (fun x => laneOp x (denseOp 1 128 true byteType) upset))) ∧
      (opCode op.word = 0x04 → immKind op.word ≠ 3 → exec (.dteMulW16 a i upset) s =
        .next (ran 1 (fun x => laneOp x (mulOp (immKind op.word)) upset))) ∧
      (opCode op.word = 0x04 → immKind op.word = 3 → exec (.dteMulW16 a i upset) s =
        .next (ran 1 (fun _ => failWith .faultFormat))) ∧
      (opCode op.word = 0x11 → exec (.dteGemmW4 a i upset) s =
        .next (ran 1 (fun x => laneOp x (denseOp 2 256 false (· == .i4)) upset))) ∧
      (opCode op.word = 0x12 → exec (.dteGemmS4 a i upset) s =
        .next (ran 1 (fun x => laneOp x (denseOp 2 131072 false (· == .i4)) upset))) ∧
      (opCode op.word = 0x13 → exec (.dteConvG4 a i upset) s =
        .next (ran 1 (fun x => laneOp x (denseOp 2 256 true (· == .i4)) upset)))) ∧
    (ready 2 →
      (opCode op.word = 0x01 → exec (.steGemmW a i upset) s =
        .next (ran 2 (fun x => laneOp x (sparseOp 128 false) upset))) ∧
      (opCode op.word = 0x02 → exec (.steGemmS a i upset) s =
        .next (ran 2 (fun x => laneOp x (sparseOp 65536 false) upset))) ∧
      (opCode op.word = 0x03 → exec (.steConvG a i upset) s =
        .next (ran 2 (fun x => laneOp x (sparseOp 128 true) upset))) ∧
      (opCode op.word = 0x20 → exec (.steUnpack a i) s = .next (ran 2 unpackOp)) ∧
      (opCode op.word = 0x21 → exec (.stePack a i upset) s = .next (ran 2 (fun x => packOp x upset)))) ∧
    (ready 3 →
      (opCode op.word = 0x01 → exec (.mvpMv a i upset) s = .next (ran 3 (fun x => mvpOp x true upset))) ∧
      (opCode op.word = 0x02 → exec (.mvpThin a i upset) s = .next (ran 3 (fun x => mvpOp x false upset))))

/-- The same of the vector unit, the selection engine and the hash engine (R304-R310, R319-R328, R134-R138). -/
def Obligations.VectorSelectAndHashOpsRun : Prop :=
  ∀ (s : State) (a : At) (i : Nat) (t : Task) (op : OpEntry) (upset : Upset) (bad : Bool) (torn : Option (Nat × Nat)),
    s.up a →
    let D := s.dieAt a
    let ready (e : Nat) : Prop := D.runningTask i = some t ∧ D.opToRun i e = some op ∧
      D.chainReady { core := i, eng := e, task := t, op := op } = true ∧ (D.core i).bufBusy op = false
    let ran (e : Nat) (m : OpCtx → M OpResult) : State :=
      let y := runM (m { core := i, eng := e, task := t, op := op })
        (D.onEngine i e (fun g => { g with run := noteLanes op g.lanes g.run }))
      let outcome := match y.1 with | .ok r => r | .error f => f.result
      s.put a (y.2.onEngine i e (fun g => { g with run := setResult outcome g.run }))
    (ready 4 →
      (opCode op.word = 0x01 → exec (.vuEltwise a i upset) s = .next (ran 4 (fun x => vuOp x vuEltwise false upset))) ∧
      (opCode op.word = 0x02 → exec (.vuRowmax a i upset) s = .next (ran 4 (fun x => vuOp x vuRowmax false upset))) ∧
      (opCode op.word = 0x03 → exec (.vuRowsum a i upset) s = .next (ran 4 (fun x => vuOp x vuRowsum false upset))) ∧
      (opCode op.word = 0x04 → exec (.vuSoftmax a i upset) s = .next (ran 4 (fun x => vuOp x vuSoftmax true upset))) ∧
      (opCode op.word = 0x05 → exec (.vuNorm a i upset) s = .next (ran 4 (fun x => vuOp x vuNorm false upset)))) ∧
    (ready 5 →
      (opCode op.word = 0x01 → exec (.selTopk a i bad torn) s = .next (ran 5 (fun x => pickOp x false bad torn))) ∧
      (opCode op.word = 0x02 → exec (.selKth a i bad torn) s = .next (ran 5 (fun x => pickOp x true bad torn))) ∧
      (opCode op.word = 0x03 → exec (.selUnique a i bad torn) s = .next (ran 5 (fun x => uniqueOp x false bad torn))) ∧
      (opCode op.word = 0x04 → exec (.selOrderedUnique a i bad torn) s =
        .next (ran 5 (fun x => uniqueOp x true bad torn))) ∧
      (opCode op.word = 0x05 → exec (.selSplit a i bad torn) s = .next (ran 5 (fun x => splitOp x bad torn)))) ∧
    (ready 6 →
      (opCode op.word = 0x01 → exec (.hpuTileHash a i) s = .next (ran 6 tileHashOp)) ∧
      (opCode op.word = 0x02 → exec (.hpuNmap a i) s = .next (ran 6 nmapOp)) ∧
      (opCode op.word = 0x03 → exec (.hpuLower a i) s = .next (ran 6 lowerOp)))

/-- A DMA op that is to run and waits for no answer runs (R169-R172, R193): its result or its failure stands in flight; one that
needs a remote read it has not been answered sends the READ and leaves no other trace, and runs again with the answer. -/
def Obligations.DmaOpsRunOrAsk : Prop :=
  ∀ (s : State) (a : At) (i : Nat) (t : Task) (op : OpEntry), s.up a →
    let D := s.dieAt a
    let x : OpCtx := { core := i, eng := 7, task := t, op := op }
    let ran (m : M OpResult) : State := s.put a (match runM m D with
      | (.ok r, E) => E.onEngine i 7 (fun g => { g with run := setResult r g.run })
      | (.error f, E) => match f.need with
        | some (g, n) => D.askRemote x g n
        | none => E.onEngine i 7 (fun g => { g with run := setResult f.result g.run }))
    D.runningTask i = some t → D.opToRun i 7 = some op → (∀ r ∈ ((D.core i).engine 7).run, r.asked = none) →
    (opCode op.word = 0x01 → exec (.dmaCopy a i) s = .next (ran (dmaCopy x))) ∧
    (opCode op.word = 0x02 → exec (.dmaGather a i) s = .next (ran (dmaGather x))) ∧
    (opCode op.word = 0x03 → exec (.dmaScatter a i) s = .next (ran (dmaScatter x))) ∧
    (opCode op.word = 0x04 → exec (.dmaTranspose a i) s = .next (ran (dmaTranspose x))) ∧
    (opCode op.word = 0x05 → exec (.dmaFill a i) s = .next (ran (dmaFill x)))

/-! ## The cluster store and power (ch. 5 and 18) -/

/-- Store segments (R167): an admitted write of CST_SEG_ON takes effect bit by bit, by its own row or as the high half of its
register; a bit that falls while the segment is in use stays 1, with an event and cause bit 5; a rising segment becomes ready
with undefined contents.
The coalescing buffers and the fill engine: entries whose first byte is 32 cycles old are released (R150); a forced
grant writes the next 4 KiB of the head range, and a range that is done leaves the queue, with cause bit 4 when none is
left (R148, R157); a byte that the engine writes reads 0 and no other changes (R156). -/
def Obligations.StoreSegmentsBuffersAndFills : Prop :=
  (∀ (s : State) (a : At) (r : Req) (k v g : Nat) (w : Word), s.up a → k < 4 → v < 2 ^ 64 →
     let D := s.dieAt a
     (D.admits r (B_CST k) CST_SEG_ON true →
       exec (.cstSegOnWrite a r k v) s = .next (s.put a
         ((List.range 64).foldl (fun D g => D.segBit k g (bit v g)) (D.touchSession r)))) ∧
     (D.admits r (B_CST k) (CST_SEG_ON + 4) true →
       let T := D.touchSession r
       let lo := match T.heldHalf r (B_CST k) CST_SEG_ON with | some h => h.low.toNat | none => T.reg (B_CST k) CST_SEG_ON
       let E := (List.range 64).foldl (fun D g => D.segBit k g (bit (lo + w.toNat * 2 ^ 32) g)) T
       exec (.reg64HighWrite a r (B_CST k) (CST_SEG_ON + 4) w) s = .next (s.put a { E with csr := { E.csr with
         halves := E.csr.halves.filter (fun h => !(h.req == r.id && h.block == B_CST k && h.off + 4 == CST_SEG_ON + 4)) } })) ∧
     (bit (D.reg64 (B_CST k) CST_SEG_ON) g = true → D.segInUse k g = true →
       D.segBit k g false = (D.cause (B_CST k) 5).event
         { cls := 4, code := 0x04, island := 19 + k, inst := D.clusterOwner k, loc := g * 0x80000, ident := g }) ∧
     ((D.cluster k).segRising.any (fun x => x.1 == g) = true →
       exec (.segmentReady a k g) s = .next (s.put a
         (((D.onCluster k (fun C => C.segUp g (4 * D.fresh + D.num + 1))).tick).settleSegs k))) ∧
     ∀ era, bit ((D.cluster k).segUp g era).segReady g = true) ∧
  (∀ (s : State) (a : At) (k : Nat), s.up a → k < 4 →
     let D := s.dieAt a
     let old (e : CbEntry) : Bool := 32 * 1000 ≤ (D.now - e.first) * D.clusterMHz k
     exec (.cbEntryTimeout a k) s = .next (s.put a ((D.cluster k).bufs.foldl (fun E pb =>
       ((pb.2.filter old).foldl (fun F e => F.releaseEntry k pb.1 e .timeout) E).onCluster k (fun C =>
         C.setBuf pb.1 ((C.buf pb.1).filter (fun e => !(old e))))) D)) ∧
     (∀ f rest, (D.cluster k).fills = f :: rest →
       let E := (D.fillReady k f.lo f.len).onCluster k (fun C => { C with fills := rest })
       let ended := if rest.isEmpty then E.cause (B_CST k) 4 else E
       (4096 < f.len → exec (.fillForcedGrant a k) s = .next (s.put a ((D.fillReady k f.lo 4096).onCluster k (fun C =>
         { C with fills := { f with lo := f.lo + 4096, len := f.len - 4096 } :: rest })))) ∧
       (f.len ≤ 4096 → exec (.fillForcedGrant a k) s = .next (s.put a ended)) ∧
       (f.len ≤ 2 ^ 25 → exec (.scrubRangeDone a k) s = .next (s.put a ended)))) ∧
  ∀ (C : Cluster) (lo len o : Nat), C.era = [] →
    (C.zero lo len).get o = if lo ≤ o ∧ o < lo + len then 0 else C.get o

/-- Remote accesses and windows (R159-R162, R650): an arriving access is answered with its data or with the status of
its refusal; RWIN_OPEN with fields in range opens the lowest closed slot with the next generation, RWIN_CLOSE closes the named
one, and RWIN_LIST answers the mask of the open ones. -/
def Obligations.RemoteWindowsOpenAndClose : Prop :=
  ∀ (s : State) (a : At) (id : Nat) (rivals : List Nat) (c : Cmd), s.up a →
    let D := s.dieAt a
    let k := c.p 0 1
    (∀ n (node die : Nat) r off len data mark, n < 4 →
      exec (.remoteAccessArrive a n node die r off len data mark) s = .next (s.put a
        (match runM (arrive n { node := node, die := die, inst := r.inst } r off len data mark) D with
         | (.ok b, E) => E.out (.storeReply r.id 0 b)
         | (.error f, E) => E.out (.storeReply r.id f.status.code [])))) ∧
    (k < 4 → c.p 1 3 = 0 → D.clusterOwner k = some c.inst →
      (∀ n, D.readyCmd 0x0110 id c → c.p 4 4 % 64 = 0 → c.p 8 4 % 64 = 0 → 64 ≤ c.p 8 4 → bits (c.p 12 2) 12 3 = 0 →
        c.p 14 1 < 16 → c.p 16 1 < 4 → c.p 17 1 < 2 → c.p 18 2 = 0 → (c.p 17 1 = 0 ∨ refOk (c.p 20 4) = true) →
        c.p 4 4 + c.p 8 4 ≤ 2 ^ 25 → n < 64 → ((D.cluster k).rwin n).isOpen = false →
        (∀ m < n, ((D.cluster k).rwin m).isOpen = true) →
        (rivals = [] ∨ ∃ m, n < m ∧ m < 64 ∧ ((D.cluster k).rwin m).isOpen = false) →
        let gen := (((D.cluster k).rwin n).gen + 1) % 256
        let w : Rwin :=
          { isOpen := true, base := c.p 4 4, size := c.p 8 4, node := c.p 12 2, dies := c.p 14 1, insts := c.p 15 1,
            rights := c.p 16 1, flags := c.p 17 1, sealRef := c.p 20 4, gen := gen }
        exec (.rwinOpen a id rivals) s = .next (s.put a ((D.onCluster k (fun C => { C with
          rwins := tabSet {} n w C.rwins })).reply c .ok 0 [BitVec.ofNat 8 n, 0, 0, 0, BitVec.ofNat 8 gen]))) ∧
      (D.readyCmd 0x0111 id c → c.p 6 2 = 0 → c.p 4 1 < 64 → ((D.cluster k).rwin (c.p 4 1)).isOpen = true →
        ((D.cluster k).rwin (c.p 4 1)).gen = c.p 5 1 →
        exec (.rwinClose a id) s = .next (s.put a ((D.onCluster k (fun C => { C with
          rwins := tabSet {} (c.p 4 1) { (D.cluster k).rwin (c.p 4 1) with isOpen := false } C.rwins })).reply c .ok 0
            []))) ∧
      (D.readyCmd 0x0112 id c → exec (.rwinList a id) s = .next (s.put a (D.reply c .ok 0
        (toLE 8 (((List.range 64).filter (fun n => ((D.cluster k).rwin n).isOpen)).map (fun n => 2 ^ n)).sum)))))

/-- Power commands (R590-R592): switching off an idle unit of the instance closes its gate and starts the change,
switching on a unit that is off starts its power-up, both after the change of the cluster that is in progress, and both answer
when the change is complete; a unit that already is as asked answers at once; a unit with a task or an open remote window stays on, and so does
one of instance 0 outside service mode. POWER_SEGMENTS writes CST_SEG_ON and answers once the segments match, with those that
stayed on; POWER_STATUS answers the domains, the operating points and the cap.
A change of power completes (R592, R593): 5 µs into a power-down what is still on its way is sent back; at its end
the unit's contents are gone, and at the end of a cluster's power-up its store is zero and every segment ready; each
end raises cause 3 of PWR and answers its command. -/
def Obligations.PowerChangesStartAndComplete : Prop :=
  (∀ (s : State) (a : At) (id : Nat) (c : Cmd), s.up a →
     let D := s.dieAt a
     let ends (u : Nat) (E : DieState) : Prop :=
       let change (on : Bool) (X : DieState) : DieState := { X.started c.id with
         pwr := { D.pwr with changes := D.pwr.changes ++ [{ unit := u, on := on, start := D.now, cmd := c.id }] } }
       let isOn : Prop := D.unitOn u = true ∧ (4 ≤ u → (D.cluster (unitCluster u)).powered = true)
       let used : Prop := D.coresBusy (unitCores u) = true ∨ (u < 4 ∧ (D.cluster u).rwins.any (fun e => e.2.isOpen) = true)
       (D.powerBusy u = true → E = { D.started c.id with pwr := { D.pwr with waiting := D.pwr.waiting ++ [(u, c.id)] } }) ∧
       (D.powerBusy u = false → c.p 4 4 = 1 →
         (D.unitOn u = true → E = D.reply c .ok 0 []) ∧
         (D.unitOn u = false → E = change true D)) ∧
       (D.powerBusy u = false → c.p 4 4 = 0 →
         (¬ isOn → E = D.reply c .ok 0 []) ∧
         (isOn → used → E = D.reply c .faultStaleGeneration) ∧
         (isOn → ¬ used → c.inst = 0 → D.saf.service = none → E = D.reply c .refusedServiceMode) ∧
         (isOn → ¬ used → (c.inst = 0 → D.saf.service ≠ none) → E = change false (D.closeGate u)))
     (D.readyCmd 0x0800 id c → c.p 0 4 < 4 → c.p 4 4 < 2 → D.clusterOwner (c.p 0 4) = some c.inst →
       ∃ E, exec (.powerCluster a id) s = .next (s.put a E) ∧ ends (c.p 0 4) E) ∧
     (D.readyCmd 0x0802 id c → c.p 0 4 / 16 = D.num → c.p 4 4 < 2 → D.clusterOwner (c.p 0 4 % 16 / 4) = some c.inst →
       ∃ E, exec (.powerCore a id) s = .next (s.put a E) ∧ ends (4 + c.p 0 4 % 16) E) ∧
     (D.readyCmd 0x0801 id c → c.p 0 4 < 4 → D.clusterOwner (c.p 0 4) = some c.inst →
       (D.cluster (c.p 0 4)).powered = true →
       let W := D.writeSegOn (c.p 0 4) (c.p 4 8)
       let refused := andNot (W.reg64 (B_CST (c.p 0 4)) CST_SEG_ON) (c.p 4 8)
       ∃ E, exec (.powerSegments a id) s = .next (s.put a E) ∧
         ((W.cluster (c.p 0 4)).segReady = orN (c.p 4 8) refused → W.acked id = true →
           E = W.reply c .ok 0 (toLE 8 refused)) ∧
         ((W.cluster (c.p 0 4)).segReady ≠ orN (c.p 4 8) refused →
           E = { W.started c.id with pwr := { W.pwr with segs := W.pwr.segs ++ [(c.p 0 4, c.p 4 8, refused, c.id)] } })) ∧
     (D.readyCmd 0x0804 id c → exec (.powerStatus a id) s =
       .next (s.put a (D.reply c .ok 0 (toLE 4 D.pwrDomain ++ toLE 4 D.pwrOp ++ toLE 4 D.cap))))) ∧
  (∀ (s : State) (a : At) (u : Nat) (p : PwrChange), s.up a →
     let D := s.dieAt a
     let E : DieState := { D with pwr := { D.pwr with changes := D.pwr.changes.erase p } }
     (D.powerChange u false = some p → p.drained = false → p.start + 5000 ≤ D.now →
       let back (q : Packet) : Bool := decide (u < 4) && (q.kind == pkWrite || q.kind == pkRead) &&
         (match place (gLocal q.addr) with | .store c _ => c == u | _ => false)
       let X : DieState := { D with fab := { D.fab with inbox := D.fab.inbox.filter (fun q => !(back q)) } }
       let Y := (D.fab.inbox.filter back).foldl (fun F q =>
         (F.count B_GLB GLB_DOMAIN_BOUNCED).answer q pkError Status.refusedDomainOff.code []) X
       exec (.powerDownDrainExpire a u) s = .next (s.put a { Y with pwr := { Y.pwr with
         changes := Y.pwr.changes.map (fun x => if x = p then { x with drained := true } else x) } })) ∧
     (D.powerChange u false = some p → 4 ≤ u →
       exec (.powerDownComplete a u) s = .next (s.put a
         ((((E.onCore (u - 4) (fun _ => { powered := false })).cause B_PWR 3).replyId p.cmd .ok).powerNext u))) ∧
     (D.powerChange u false = some p → u < 4 →
       let F := E.onCluster u (fun C =>
         { retired := C.retired, rwins := C.rwins, powered := false })
       exec (.powerDownComplete a u) s = .next (s.put a
         (((((unitCores u).foldl (fun D i => D.onCore i (fun _ => { powered := false })) F).cause B_PWR 3).replyId p.cmd
           .ok).powerNext u))) ∧
     (D.powerChange u true = some p → exec (.powerUpComplete a u) s = .next (s.put a
       ((((if u < 4 then E.clusterUp u else E.onCore (u - 4) (fun _ => { powered := true })).cause B_PWR 3).replyId p.cmd
         .ok).powerNext u))) ∧
     ∀ k < 4, ((D.clusterUp k).cluster k).bytes = [] ∧ ((D.clusterUp k).cluster k).segReady = 2 ^ 64 - 1)

/-! ## Clocks and temperatures (ch. 18) -/

/-- SET_OP keeps the group's point and asks for the change (R589, R590). A change goes from the regulator's step to the
bridge clock, and from the bridge clock to its new point once the monitor passes (R586); a change that does not pass
within 3 µs ends with FAULT_INTERNAL, its group on the bridge clock (R587).
An island out of tolerance goes to the bridge clock and is doubt 7 (R588); the loss of one 100 MHz input switches to
the other one, and one that returns is present again (R598). -/
def Obligations.ClocksChangeAndFail : Prop :=
  (∀ (s : State) (a : At) (id : Nat) (c : Cmd) (g : Nat) (o : OpChange), s.up a →
     let D := s.dieAt a
     (D.readyCmd 0x0803 id c → c.p 0 4 < 8 → c.p 4 4 < groupPoints (c.p 0 4) →
       let X := D.onClk (fun k => { k with sets := k.sets.set (c.p 0 4) (c.p 4 4) })
       exec (.setOp a id) s = .next (s.put a
         ((X.started c.id).requestChange (c.p 0 4) (X.wantPoint (c.p 0 4)) (some c.id)))) ∧
     (D.changeOf g = some o → o.stage = 0 → exec (.voltageStepComplete a g) s = .next (s.put a
       (((D.onClk (fun k => { k with volts := k.volts.set g o.point })).mapChange g (fun c =>
         { c with stage := 1, bridgeSince := D.now })).toBridge g))) ∧
     (D.changeOf g = some o → o.stage = 1 →
       let hold := D.now - o.bridgeSince
       let X := D.onClk (fun k => { k with
         bridge := k.bridge.filter (fun i => !((groupIslands g).contains i)), points := k.points.set g o.point })
       let Y := (groupIslands g).foldl (fun D i =>
         (D.count32 B_CLK CLK_ISL_CHANGES 1 i).setReg B_CLK CLK_LAST_HOLD_NS hold i) X
       exec (.freqChangeDone a g) s = .next (s.put a
         (if g < 4 ∧ o.point < Y.clk.volts.getD g 0 then Y.mapChange g (fun x => { x with stage := 2, hold := hold })
          else Y.endChange { o with hold := hold } .ok))) ∧
     (D.changeOf g = some o → o.stage = 2 → exec (.voltageStepComplete a g) s = .next (s.put a
       ((D.onClk (fun k => { k with volts := k.volts.set g o.point })).endChange o .ok))) ∧
     (D.changeOf g = some o → o.stage = 1 → o.bridgeSince + 3000 ≤ D.now →
       let e : Event := { cls := 2, code := 0x03, island := (groupIslands g).headD 0, ident := g, status := Status.faultInternal.code }
       let Z := (((D.cause B_CLK 2).event e).onClk (fun k =>
         { k with changes := k.changes.filter (fun x => x.group != g) })).replyHold o.cmd .faultInternal 0
       exec (.freqChangeTimeout a g) s = .next (s.put a
         (match Z.clk.waiting.find? (fun w => w.1 == g) with
          | some _ => Z.nextChange g (Z.clk.waiting.length + 1)
          | none => Z)))) ∧
  (∀ (s : State) (a : At) (i : Nat), s.up a →
     let D := s.dieAt a
     (i < 40 → (∀ c ∈ D.clk.changes, (groupIslands c.group).contains i = false) →
       exec (.freqMonitorFault a i) s = .next (s.put a
         ((((((D.onClk (fun k => { k with bridge := if k.bridge.contains i then k.bridge else k.bridge ++ [i] })).count32
           B_CLK CLK_ISL_MON_FAULTS 1 i).cause B_CLK 1).event
           { cls := 2, code := 0x02, island := i, ident := i }).clockSeen).doubt 7))) ∧
     (∀ c ∈ D.clk.changes, (groupIslands c.group).contains i = true →
       exec (.freqMonitorFault a i) s = .next (s.put a D)) ∧
     (i < 2 → (if i = 0 then D.clk.refA else D.clk.refB) = true →
       let X := ((D.onClk (fun k => if i = 0 then { k with refA := false } else { k with refB := false })).cause B_CLK 0).event
         { cls := 2, code := 0x01, ident := i }
       ((if i = 0 then D.clk.refB else D.clk.refA) = true → exec (.refclkLoss a i) s = .next (s.put a
         (X.onClk (fun k => { k with selB := decide (i = 0) })))) ∧
       ((if i = 0 then D.clk.refB else D.clk.refA) = false → exec (.refclkLoss a i) s = .next (s.put a
         ((X.onClk (fun k => { k with osc := true })).clockSeen.doubt 7)))) ∧
     (i < 2 → (if i = 0 then D.clk.refA else D.clk.refB) = false → exec (.refclkLoss a i) s = .next (s.put a D)) ∧
     (i < 2 → (if i = 0 then D.clk.refA else D.clk.refB) = false →
       let X := D.onClk (fun k => if i = 0 then { k with refA := true } else { k with refB := true })
       exec (.referenceInputReturn a i) s = .next (s.put a (if D.clk.osc = true
         then (X.onClk (fun k => { k with osc := false, selB := decide (i = 1) })).clockSeen else X))) ∧
     exec (.referenceInputReturn a 2) s = .next (s.put a (D.onClk (fun k => { k with refEth := true }))))

/-- Rails (R596): the energy drawn is counted and each reading of the list is judged in its order; a reading that is a fault
resets the die. On a die held in reset only the time since which its rails are in range is kept.
Temperatures: a reading of the die or an optical engine above its trip threshold resets the die; otherwise the conditions are
judged, record their events, disable or restore the optical ports, and set the cap of the clocks (R597). A stack that gets
warm records an event and cause 3 of its block, and a critical one cause 4 and doubt 8 (R394, R395, R526). A condition is
entered above its threshold or after 3 ms without a valid reading, and ends after 100 ms at 3 degrees below it; the value of
the last valid reading is kept for 3 ms (R394, R597). -/
def Obligations.SamplesAreJudged : Prop :=
  (∀ (s : State) (a : At) (rails : List (Nat × Nat × Nat)) (energy : Nat),
     let D := s.dieAt a
     (D.boot.held = false →
       let r := rails.foldl (fun (x : DieState × Bool) e => ((x.1.sampleRail e).1, x.2 || (x.1.sampleRail e).2))
         (D.count B_PWR PWR_ENERGY energy, false)
       exec (.railSample a rails energy) s = .next (s.put a (if r.2 = true then r.1.dieReset false else r.1))) ∧
     (D.boot.held = true → exec (.railSample a rails energy) s = .next (s.put a (D.railHeld rails)))) ∧
  (∀ (s : State) (a : At) (die opt0 opt1 : Option Nat),
     let D := s.dieAt a
     (D.boot.held = false → (∀ e ∈ D.log.injections, e.2.kind ≠ 7) →
       (overTrip die opt0 opt1 = true → exec (.dieTempSample a die opt0 opt1) s =
         .next (State.thermtrip s a.die (s.put a (D.dieReset true)))) ∧
       (overTrip die opt0 opt1 = false →
         let th := D.reg B_PWR PWR_TEMP_THRESH
         let d := D.pwr.die.sample D.now die (bits th 0 8) (bits th 8 8)
         let o0 := D.pwr.opt0.sample D.now opt0 (bits th 16 8) (bits th 24 8)
         let o1 := D.pwr.opt1.sample D.now opt1 (bits th 16 8) (bits th 24 8)
         let X : DieState := { D with pwr := { D.pwr with die := d, opt0 := o0, opt1 := o1 } }
         let Y := ((X.tempEvents D.pwr.die d 0).tempEvents D.pwr.opt0 o0 1).tempEvents D.pwr.opt1 o1 2
         exec (.dieTempSample a die opt0 opt1) s = .next (State.thermtrip s a.die (s.put a
           ((Y.opticHot 0 o0.critical).opticHot 1 o1.critical).applyCap)))) ∧
     (D.boot.held = true → exec (.dieTempSample a die opt0 opt1) s =
       .next (State.thermtrip s a.die (s.put a (D.tempHeld die opt0 opt1))))) ∧
  (∀ (s : State) (a : At) (n : Nat) (v : Option Nat), s.up a →
     let D := s.dieAt a
     let th := D.reg (B_HBMn n) HBM_TEMP_THRESH
     let old := (D.mem.hbm n).temp
     let new := old.sample D.now v (bits th 0 8) (bits th 8 8)
     let X := D.onHbm n (fun h => { h with temp := new })
     let Y := if new.warm = true ∧ old.warm = false then (X.cause (B_HBMn n) 3).event
       { cls := 3, code := 0x04, island := 27 + n, ident := n, count := v.getD 0 } else X
     n < 2 → exec (.hbmTempSample a n v) s = .next (s.put a
       (if new.critical = true ∧ old.critical = false then ((Y.cause (B_HBMn n) 4).event
         { cls := 3, code := 0x05, island := 27 + n, ident := n, count := v.getD 0 }).doubt 8 else Y))) ∧
  (∀ (t : TempState) (now w c x : Nat),
     ((t.sample now (some x) w c).value = some x ∧ (t.sample now (some x) w c).lastValid = now) ∧
     (w < x → (t.sample now (some x) w c).warm = true) ∧ (c < x → (t.sample now (some x) w c).critical = true) ∧
     (x ≤ w → t.warm = false → (t.sample now (some x) w c).warm = false) ∧
     (x ≤ c → t.critical = false → (t.sample now (some x) w c).critical = false) ∧
     (w < x + 3 → (t.sample now (some x) w c).warm = (decide (w < x) || t.warm)) ∧
     (x + 3 ≤ w → (t.sample now (some x) w c).warm = (t.warm && !decide (t.warmBelow.getD now + 100000000 ≤ now))) ∧
     (now < t.lastValid + 3000000 → (t.sample now none w c).value = t.value ∧
       (t.sample now none w c).warm = t.warm ∧ (t.sample now none w c).critical = t.critical) ∧
     (t.lastValid + 3000000 ≤ now → (t.sample now none w c).value = none ∧ (t.sample now none w c).warm = true ∧
       (t.sample now none w c).critical = true))

/-! ## Stacked memory (ch. 12) -/

/-- A trained stack is ready, and every byte of it reads zero (R397); a failed one is not ready, with its event; a stack's
age limit changes no state (R383, log entry 41). A patrol read passes over one line and counts a pass at the end (R393),
and a write of HBM_CTRL can restart the patrol, beside what its other bits do (R400). -/
def Obligations.StacksTrainAndScrub : Prop :=
  ∀ (s : State) (a : At) (r : Req) (n : Nat) (v : Word), s.up a → n < 2 →
    let D := s.dieAt a
    (D.boot.stage = 3 → (D.mem.hbm n).ready = false → (D.mem.hbm n).failed = false →
      (∃ t, exec (.hbmTrainingDone a n true) s = .next t ∧ ((t.die a.die).mem.hbm n).ready = true ∧
        (∀ k < 2 ^ 36, memGet (t.die a.die).mem.bytes (n * 2 ^ 36 + k) = 0) ∧
        (∀ m k, m ≠ n → k < 2 ^ 36 → memGet (t.die a.die).mem.bytes (m * 2 ^ 36 + k) = memGet D.mem.bytes (m * 2 ^ 36 + k))) ∧
      exec (.hbmTrainingDone a n false) s = .next (s.put a ((D.onHbm n (fun h => { h with failed := true })).event
        { cls := 3, code := 0x06, island := 27 + n, ident := n }))) ∧
    exec (.hbmRequestAged a) s = .next (s.put a D) ∧
    (bits (D.reg (B_HBMn n) HBM_SCRUB_PERIOD) 0 8 ≠ 0 → (D.mem.hbm n).ready = true →
      let l := (D.mem.hbm n).scrubPos
      let X := (D.scrubGran n (64 * l)).scrubGran n (64 * l + 32)
      (l + 1 < stackGiB * 2 ^ 24 →
        exec (.patrolScrubRead a n) s = .next (s.put a (X.onHbm n (fun h => { h with scrubPos := l + 1 })))) ∧
      (stackGiB * 2 ^ 24 ≤ l + 1 → exec (.patrolScrubRead a n) s = .next (s.put a
        (((X.onHbm n (fun h => { h with scrubPos := 0 })).count32 (B_HBMn n) HBM_SCRUB_PASSES).cause (B_HBMn n) 5)))) ∧
    (D.admits r (B_HBMn n) HBM_CTRL true → bit v.toNat 2 = true → exec (.hbmScrubRestart a r n v) s = .next (s.put a
      (((D.touchSession r).ctrlWrite r (B_HBMn n) v.toNat).onHbm n (fun h => { h with scrubPos := 0 }))))

/-! ## The PCIe endpoint (ch. 17) -/

/-- An aperture read answers its data, and one that fails answers none and is counted, as Completer Abort where the memory
answers uncorrectable and as Unsupported Request otherwise; a write that fails is dropped and counted, with cause 2. An access
past the aperture, or of an aperture whose base does not meet the rule, fails (R557). -/
def Obligations.ApertureAccessesComplete : Prop :=
  ∀ (s : State) (a : At) (fn off n : Nat) (b : List Byte), s.up a → fn ≤ 8 →
    let D := s.dieAt a
    D.pcie.up = true →
    let X := D.count B_PCI PCI_RX_TLPS
    (∃ E, exec (.pcieApertureAccess a fn off n none) s = .next (s.put a E) ∧
      (∀ d D', runM (apertureAccess fn off n none) X = (.ok d, D') →
        E = (D'.count B_PCI PCI_TX_TLPS).out (.pcieData fn (some d))) ∧
      (∀ f D', runM (apertureAccess fn off n none) X = (.error f, D') →
        E = ((D'.count B_PCI PCI_TX_TLPS).count B_PCI (if f.status = .faultUncorrectable then PCI_CA_SENT
          else PCI_UR_SENT)).out (.pcieData fn none))) ∧
    (∃ E, exec (.pcieApertureAccess a fn off n (some b)) s = .next (s.put a E) ∧
      (∀ d D', runM (apertureAccess fn off n (some b)) X = (.ok d, D') → E = D') ∧
      (∀ f D', runM (apertureAccess fn off n (some b)) X = (.error f, D') →
        E = (D'.count B_PCI PCI_DROPPED_WRITES).cause B_PCI 2)) ∧
    ((X.apertureOk fn = false ∨ X.apertureSize fn < off + n) → ∀ w, ∃ f D',
      runM (apertureAccess fn off n w) X = (.error f, D') ∧ f.status = .faultBounds)

/-- PERST#, the link and its errors (R555, R558-R561, R575): PERST# takes the link down and resets every function; its
release lets the ROM serve configuration space; a change of the link is an event and cause 0 of PCI, and a link that is up brings
the host's settings of configuration space, whose messages no longer masked leave (log entry 134); a host queue whose
read timed out is in ERROR; an ATS invalidation is counted; the I3C target of die 0 takes its index and answers the word of the
management page that it names, 0 past the page (log entry 180). -/
def Obligations.PcieLinkAndPins : Prop :=
  (∀ (s : State) (a : At) (q link : Nat) (cfg : PcieConfig) (index : Byte), s.up a →
    let D := s.dieAt a
    (∃ t, exec (.perstAssert a) s = .next t ∧ (t.die a.die).pcie.up = false ∧ (t.die a.die).pcie.perst = true ∧
      (t.die a.die).pcie.config = false ∧ (t.die a.die).pcie.vfs = 0 ∧ (t.die a.die).pcie.bar2 = 28 ∧
      (t.die a.die).pcie.flrs = [] ∧ (∀ fn < 9, fn ∈ (t.die a.die).pcie.msixOff) ∧
      (∀ v ∈ (t.die a.die).pcie.masked, 9 ≤ v / 2048) ∧ (∀ v ∈ (t.die a.die).pcie.waiting, 9 ≤ v / 2048) ∧
      (t.die a.die).mem = D.mem) ∧
    (D.pcie.perst = true → exec (.perstDeassert a) s = .next (s.put a
      { D with pcie := { D.pcie with perst := false, config := true, deasserted := some D.now } })) ∧
    (D.pcie.perst = false → D.pcie.up = false → exec (.pcieLinkChange a true link cfg) s = .next (s.put a
      (((({ D with pcie := { D.pcie with up := true, link := link % 2 ^ 15 } } : DieState).cause B_PCI 0).event
        { cls := 11, code := 0x01, island := 31, cause := 1 }).hostConfig cfg))) ∧
    (D.pcie.perst = false → D.pcie.up = true →
      exec (.pcieLinkChange a true link cfg) s = .next (s.put a (D.hostConfig cfg))) ∧
    (D.pcie.up = true → exec (.pcieLinkChange a false link cfg) s = .next (s.put a
      ((({ D with pcie := { D.pcie with up := false, link := 0 } } : DieState).cause B_PCI 0).event
        { cls := 11, code := 0x01, island := 31 }))) ∧
    ((D.queue q).state = .active → (D.queue q).stacked = false →
      exec (.pcieCompletionTimeout a q) s = .next (s.put a (D.queueError q .faultUncorrectable))) ∧
    exec (.atsInvalidation a) s = .next (s.put a (D.count32 B_PCI PCI_ATC_INVALS)) ∧
    (D.num = 0 → exec (.i3cIndexWrite a index) s = .next (s.put a
      (({ D with pcie := { D.pcie with i3c := index.toNat } } : DieState).out
        (.mgmt index.toNat (D.mgmtPage.getD index.toNat 0)))))) ∧
  (∀ (D : DieState) (c : PcieConfig),
    let E := D.hostConfig c
    let held (v : Nat) : Prop := (v / 2048 < 9 ∧ bit c.msix (v / 2048) = false) ∨ v ∈ c.masked
    E.pcie.masked = c.masked ∧ (∀ fn, fn ∈ E.pcie.msixOff ↔ fn < 9 ∧ bit c.msix fn = false) ∧
    28 ≤ E.pcie.bar2 ∧ E.pcie.bar2 ≤ 36 ∧ (28 ≤ c.bar2 → c.bar2 ≤ 36 → E.pcie.bar2 = c.bar2) ∧
    (c.ideFailed = false → ∀ v, v ∈ E.pcie.waiting → v ∈ D.pcie.waiting) ∧
    (∀ v ∈ D.pcie.waiting, held v → v ∈ E.pcie.waiting) ∧
    (∀ v ∈ D.pcie.waiting, ¬ held v → .msix (v / 2048) (v % 2048) ∈ E.outs))

/-! ## The event log and diagnostics (ch. 19) -/

/-- Raising an event counts and stamps it in its class; with room in the intake of 32 it is admitted, and otherwise it is
coalesced (R613, R616, R617). EVENT_WRITE moves the head of the intake to the end of the log's ring under the next
sequence number, a summary of coalesced events first (R618, R619); a copy that does not acknowledge the write fails, and with
none left the write is not completed (R621, R622).
Flushes (R620): a flush that is due, or that EVL_CTRL asks for, starts with everything written so far; when its write
ends the records are in the die's flash ring and count as flushed. A scrub of the copies counts a bad record once (R621). -/
def Obligations.EventsAreLoggedAndFlushed : Prop :=
  (∀ (s : State) (a : At) (e : Event) (D : DieState),
     (D.log.isLost = false → D.log.intake.length < 32 →
       ∃ e', (D.event e).log.intake = D.log.intake ++ [e'] ∧ e'.time = D.now ∧ e'.cls = e.cls ∧ e'.code = e.code ∧
         e'.loc = e.loc ∧ e'.ident = e.ident ∧ e'.inst = e.inst ∧ (e.sev = 0 → e'.sev = sevOf e.cls e.code) ∧
         (D.event e).log.coalCount = D.log.coalCount) ∧
     (D.log.isLost = false → 32 ≤ D.log.intake.length →
       (D.event e).log.intake = D.log.intake ∧ (D.event e).log.coalCount = D.log.coalCount + 1) ∧
     (D.log.isLost = false → D.log.coalCount = 0 → ∀ rest, D.log.intake = e :: rest →
       let E := D.writeEvent
       ∃ r, E.log.intake = rest ∧ r.ev = e ∧ r.summary = false ∧ r.seq = D.log.nextSeq ∧
         E.log.nextSeq = D.log.nextSeq + 1 ∧
         (D.log.ring.length < 4096 → E.log.ring = D.log.ring ++ [r]) ∧
         (4096 ≤ D.log.ring.length → E.log.ring = D.log.ring.tail ++ [r])) ∧
     (D.log.isLost = false → D.log.coalCount ≠ 0 →
       let E := D.writeEvent
       ∃ r, E.log.intake = D.log.intake ∧ r.summary = true ∧ r.seq = D.log.nextSeq ∧ r.ev.cls = 0 ∧ r.ev.code = 0x01 ∧
         r.ev.ident = min D.log.coalCount (2 ^ 32 - 1) ∧ E.log.coalCount = 0 ∧ E.log.nextSeq = D.log.nextSeq + 1 ∧
         (D.log.ring.length < 4096 → E.log.ring = D.log.ring ++ [r])) ∧
     (s.up a → ∀ nack : List Nat,
       let X := s.dieAt a
       let Y := if (X.log.fail0 || nack.contains 0) && (X.log.fail1 || nack.contains 1) then X else X.writeEvent
       exec (.eventWrite a nack) s = .next ((s.put a ((nack.filter (· < 2)).foldl (fun D c => D.failCopy c) Y)).logLostRecord
         X.log.isLost a))) ∧
  (∀ (s : State) (a : At) (r : Req) (v : Word), s.up a →
     let D := s.dieAt a
     (D.flushDue = true → D.log.flushing = none → D.flashReach = true → exec (.evlFlushStart a) s =
       .next (s.put a { D with log := { D.log with flushing := some D.log.nextSeq, critical := false } })) ∧
     (D.admits r B_EVL EVL_CTRL true → bit v.toNat 2 = true → exec (.evlFlushNow a r v) s =
       .next (s.put a (((D.touchSession r).ctrlWrite r B_EVL v.toNat).startFlush))) ∧
     (∀ upTo, D.log.flushing = some upTo →
       (∃ t recs, exec (.evlFlushComplete a true) s = .next t ∧ (t.die a.die).log.flushing = none ∧
         (t.die a.die).log.flushedSeq = max upTo D.log.flushedSeq ∧ (t.die a.die).log.lost = 0 ∧
         (D.log.lost = 0 → recs = D.log.ring.filter (fun x => D.log.flushedSeq ≤ x.seq && x.seq < upTo)) ∧
         (D.log.lost ≠ 0 → ∃ x, recs = x :: D.log.ring.filter (fun x => D.log.flushedSeq ≤ x.seq && x.seq < upTo) ∧
           x.ev.cls = 0 ∧ x.ev.code = 0x04 ∧ x.ev.count = D.log.lost) ∧
         t.pkg.flash.ringOf D.num = ringAppend (s.pkg.flash.ringOf D.num) recs) ∧
       exec (.evlFlushComplete a false) s = .next (s.put a
         (({ D with log := { D.log with flushing := none, lastFlush := D.now } } : DieState).event
           { cls := 0, code := 0x05, island := 39 }))) ∧
     (∀ errors, exec (.evlCopyScrub a errors) s = .next ((s.put a (errors.foldl (fun D e => D.copyError e)
       { D with log := { D.log with lastScrub := D.now } })).logLostRecord D.log.isLost a)) ∧
     (∀ (D : DieState) (x : Nat × Nat), (if x.1 = 0 then D.log.fail0 else D.log.fail1) = false →
       (D.log.rewritten.contains x = false → D.copyError x =
         ({ D with log := { D.log with rewritten := D.log.rewritten ++ [x] } } : DieState).count32 B_EVL EVL_COPY_ERRORS) ∧
       (D.log.rewritten.contains x = true → D.copyError x = D.failCopy x.1)))

/-- The diagnostics commands (R624-R630): EVENT_READ answers how many records it wrote and the range of sequence numbers
held; EVENT_MARK records an event of class 14 while the instance has marks left in the second, and is refused past them;
FAULT_INJECT enters its injection and answers its ID, and FAULT_INJECT_STOP ends the one it names. -/
def Obligations.DiagnosticsCommandsAnswer : Prop :=
  ∀ (s : State) (a : At) (id : Nat) (rivals : List Nat) (c : Cmd), s.up a →
    let D := s.dieAt a
    (D.readyCmd 0x0702 id c →
      ∃ E, exec (.eventRead a id) s = .next (s.put a E) ∧ D.EndsAs c (eventRead c) some E ∧
        (∀ d D', runM (eventRead c) D = (.ok d, D') →
          d = toLE 4 (D.log.from (c.p 0 4) (c.p 4 2)).length ++ toLE 4 D.log.oldest ++ toLE 4 D.log.nextSeq) ∧
        (1 ≤ c.p 4 2 → c.p 4 2 ≤ 4096 → c.p 6 2 = 0 → D.log.from (c.p 0 4) (c.p 4 2) = [] →
          E = D.reply c .ok 0 (toLE 4 0 ++ toLE 4 D.log.oldest ++ toLE 4 D.log.nextSeq))) ∧
    (D.readyCmd 0x0703 id c →
      let m := tabGet (0, 0) D.log.marks c.inst
      let n := if m.1 = D.now / 10 ^ 9 then m.2 else 0
      let X : DieState := { D with log := { D.log with marks := tabSet (0, 0) c.inst (D.now / 10 ^ 9, n + 1) D.log.marks } }
      let e : Event := { cls := 14, code := 0x01, island := 1, inst := some c.inst, loc := c.p 0 8, ident := c.p 8 4, status := c.p 12 1, cause := c.p 13 1, count := c.p 14 2 }
      (n < 1000 → exec (.eventMark a id) s = .next (s.put a ((X.event e).reply c .ok 0 []))) ∧
      (1000 ≤ n → exec (.eventMark a id) s = .next (s.put a (D.reply c .refusedQuota 15)))) ∧
    (D.readyCmd 0x0700 id c →
      ∃ E, exec (.faultInject a id rivals) s = .next ((s.put a E).logLostRecord D.log.isLost a) ∧
        D.EndsAs c (faultInject c rivals) some E ∧
        ∀ d D', runM (faultInject c rivals) D = (.ok d, D') → d = toLE 4 D.log.nextInj ∧ D'.log.nextInj = D.log.nextInj + 1) ∧
    (D.readyCmd 0x0701 id c →
      (∀ e, D.log.injections.find? (fun e => e.2.id == c.p 0 4) = some e →
        exec (.faultInjectStop a id) s = .next (s.put a ((D.endInjection e.1).reply c .ok 0 []))) ∧
      (D.log.injections.find? (fun e => e.2.id == c.p 0 4) = none →
        exec (.faultInjectStop a id) s = .next (s.put a (D.reply c .faultStaleGeneration))))

/-! ## Roles and the audit log (ch. 14) -/

/-- A read of ROL_NONCE makes a fresh nonce for its requester and answers its first word; nonces end after 10 s and
lockouts at their time (R457, R458).
Sessions (R456-R459): opening starts an authentication, at most one of a requester; a block that passes every check
of R458 waits for its record, and one that fails sets its result; ending ends the requester's own sessions; a session
idle for 15 minutes ends. -/
def Obligations.NoncesAndSessionsOpenAndEnd : Prop :=
  (∀ (s : State) (a : At) (r : Req), s.up a →
     let D := s.dieAt a
     (D.barOpen r B_ROL = true → D.csrAdmits D.saf.service.isSome r B_ROL ROL_NONCE false false = true →
       ∃ t, exec (.rolNonceRead a r) s = .next t ∧ (t.die a.die).nonceOf r.id = some
         { req := r.id, bytes := D.newNonce, made := D.now } ∧
         (t.die a.die).outs = D.outs ++ [.csrData r.id (field D.newNonce 0 4)] ∧ (t.die a.die).fresh = D.fresh + 1) ∧
     (∃ t, exec (.nonceExpire a) s = .next t ∧ t = s.put a { D with rol := (t.die a.die).rol } ∧
       (∀ n, n ∈ (t.die a.die).rol.nonces ↔ n ∈ D.rol.nonces ∧ D.now < n.made + 10000000000) ∧
       { (t.die a.die).rol with nonces := D.rol.nonces } = D.rol) ∧
     (∃ t, exec (.lockoutExpire a) s = .next t ∧ t = s.put a { D with rol := (t.die a.die).rol } ∧
       (∀ l, l ∈ (t.die a.die).rol.lockouts ↔ l ∈ D.rol.lockouts ∧ D.now < l.2) ∧
       { (t.die a.die).rol with lockouts := D.rol.lockouts } = D.rol)) ∧
  (∀ (s : State) (a : At) (r : Req) (v : Word), s.up a →
     let D := s.dieAt a
     let T := D.touchSession r
     let X := if bit v.toNat 1 = true then T.endSessions (fun x => x.req == r.id) else T
     let Y : DieState := if bit v.toNat 0 = true ∧ X.rol.pend.all (fun p => p.1 != r.id) = true then
       { X with rol := { X.rol with pend := X.rol.pend ++ [(r.id, r.inst, X.reg64 B_ROL ROL_AUTH_ADDR r.id)]
                                    status := tabSet 0 r.id 1 X.rol.status } } else X
     (D.admits r B_ROL ROL_AUTH_CTRL true →
       (bit v.toNat 0 = true → exec (.rolAuthOpen a r v) s = .next (s.put a Y)) ∧
       (bit v.toNat 1 = true → exec (.rolAuthEnd a r v) s = .next (s.put a Y))) ∧
     (∀ p, D.rol.pend.find? (fun p => p.1 == r.id) = some p →
       let E : DieState := { D with rol := { D.rol with pend := D.rol.pend.filter (fun x => x.1 != r.id) } }
       let read := runM (stackRead (cpCtx p.2.1) p.2.2 512) E
       let b := match read.1 with | .ok b => b | .error _ => []
       let result := if b.isEmpty = true then 3 else read.2.authResult s.pkg.flash r.id b
       let Z := read.2.dropNonce r.id
       exec (.sessionAuthDone a r.id) s = .next (s.put a (if result = 2 then
         Z.audit (Z.sessionRecord 1 r.id p.2.1 (field b 352 1) (field b 4 4) 0 (b.take 256))
           (.sessionOpen { role := field b 352 1, req := r.id, queue := if field b 354 2 = 0xFFFF then none else some (field b 354 2),
                           anchor := field b 2 1, serial := field b 4 4, opened := Z.now, lastUse := Z.now,
                           notAfter := field b 16 8 * 1000000000 })
         else Z.authFailed s.pkg.flash r.id p.2.1 result b))) ∧
     exec (.sessionTimeout a) s = .next (s.put a ((D.rol.sessions.filter (fun e =>
       decide (e.2.lastUse + 900000000000 ≤ D.now) || decide (e.2.opened + 28800000000000 ≤ D.now)
         || decide (e.2.notAfter < D.certTime s.pkg.flash.auditTime))).foldl (fun D e => D.endSession e.1) D))) ∧
  (∀ (D : DieState) (slot : Nat) (x : Session), (D.rol.sessions.map (·.1)).Nodup → tabFind D.rol.sessions slot = some x →
     let E := D.endSession slot
     tabFind E.rol.sessions slot = none ∧ (∀ k, k ≠ slot → tabFind E.rol.sessions k = tabFind D.rol.sessions k) ∧
     ∀ q, (E.queue q).bound = if (D.queue q).bound = some slot then none else (D.queue q).bound)

/-- The lock and audit registers (R15, R461, R463, R464, R468): opening or committing the locks of a block, and trimming the
audit log, first queue their record, and are refused and counted where the log is lost; a record that is durable has its effect
and stands in the log under the next sequence number, with a checkpoint after every 256th, and one that the log does not take
is denied. -/
def Obligations.LocksAndAuditAreRecorded : Prop :=
  (∀ (s : State) (a : At) (r : Req) (v : Word), s.up a →
    let D := s.dieAt a
    let T := D.touchSession r
    let b := T.sel r.id B_ROL ROL_LOCK_SEL
    let x : AuditRec := { time := T.now, inst := r.inst, role := T.roleOf r, req := r.id, op := b,
                          digest := (Config.sha384 (T.rwlImage b)).take 32 }
    let X := if bit v.toNat 0 = true ∧ hasRwl b = true then
      (if T.auditLost = true then T.unrecorded else T.audit { x with kind := 4 } (.lockOpen b)) else T
    let Y := if bit v.toNat 1 = true ∧ hasRwl b = true then
      (if X.auditLost = true then X.unrecorded else X.audit { x with kind := 5 } (.lockCommit b)) else X
    (D.admits r B_ROL ROL_LOCK_CTRL true →
      (bit v.toNat 0 = true → exec (.rolLockOpen a r v) s = .next (s.put a Y)) ∧
      (bit v.toNat 1 = true → exec (.rolLockCommit a r v) s = .next (s.put a Y))) ∧
    (D.admits r B_ROL ROL_AUDIT_CTRL true → bit v.toNat 0 = true → exec (.auditTrim a r v) s = .next (s.put a
      (if T.auditLost = true then T.unrecorded
       else T.audit { time := T.now, kind := 6, inst := r.inst, role := T.roleOf r, req := r.id }
         (.trim (T.reg64 B_ROL ROL_AUDIT_TRIM))))) ∧
    (∀ p rest, D.rol.auditQ = p :: rest →
      let E : DieState := { D with rol := { D.rol with auditQ := rest } }
      let f := s.pkg.flash.auditAdd { p.record with time := D.now }
      let g := match p.act with | .trim n => f.auditTrim n | _ => f
      (D.reachesFlash = true → s.pkg.flash.auditTakes p.record.kind = true → exec (.auditRecordDurable a) s =
        .next (({ s.put a (E.auditAct p.act) with pkg := { s.pkg with flash := g } } : State).auditHigh
          s.pkg.flash.audit.length)) ∧
      ((D.reachesFlash = false ∨ s.pkg.flash.auditTakes p.record.kind = false) →
        exec (.auditRecordDurable a) s = .next (s.put a (E.auditDeny p.act)))) ∧
    (D.rol.auditQ = [] → exec (.auditRecordDurable a) s = .next (s.put a D))) ∧
  (∀ (f : Flash) (r : AuditRec), ∃ y, y.seq = f.auditSeq ∧ y.kind = r.kind ∧ y.time = r.time ∧ y.op = r.op ∧ y.req = r.req ∧
     ((f.auditSeq + 1) % 256 ≠ 0 → (f.auditAdd r).audit = f.audit ++ [y] ∧ (f.auditAdd r).auditSeq = f.auditSeq + 1) ∧
     ((f.auditSeq + 1) % 256 = 0 → f.audit.length + 1 < 65536 → ∃ z, z.kind = 7 ∧ z.seq = f.auditSeq + 1 ∧
       (f.auditAdd r).audit = f.audit ++ [y, z] ∧ (f.auditAdd r).auditSeq = f.auditSeq + 2)) ∧
  (∀ (D : DieState) (b : Nat), b ∈ (D.auditAct (.lockOpen b)).rol.lockOpen ∧ b ∉ (D.auditAct (.lockCommit b)).rol.lockOpen)

/-- The maker commands (R460, R573, R574): each sends its change to the boot flash and answers OK; FUSE_DUMP and
RFA_CAPTURE write what they report, and SAFETY_INJECT enters an injection. -/
def Obligations.MakerCommandsAnswer : Prop :=
  ∀ (s : State) (a : At) (id : Nat) (rivals : List Nat) (c : Cmd), s.up a →
    let D := s.dieAt a
    let send (D : DieState) (o : FlashOp) : DieState := { D with toFlash := D.toFlash ++ [o] }
    (D.readyCmd 0x0F00 id c →
      ∃ E, exec (.fwStage a id) s = .next (s.put a E).settleFlash ∧ D.EndsAs c (fwStage c) some E ∧
        ∀ d D', runM (fwStage c) D = (.ok d, D') → d = [] ∧ c.p 12 4 < 2 ∧ c.p 12 4 ≠ D.boot.slot ∧
          ∃ b, Config.imageOk b = true ∧ D'.toFlash = D.toFlash ++ [.image (c.p 12 4) b]) ∧
    (D.readyCmd 0x0F01 id c → c.p 0 4 < 2 → exec (.fwActivate a id) s =
      .next (s.put a ((send D (.slot (c.p 0 4))).reply c .ok 0 [])).settleFlash) ∧
    (D.readyCmd 0x0F02 id c → c.p 0 4 < 2 → c.p 4 4 < 4 → (c.p 0 4 = 1 ∨ c.p 8 8 < 2 ^ 15) → c.p 16 4 < 2 →
      exec (.repairEdit a id) s = .next (s.put a
        ((send D (.repair (c.p 0 4) (c.p 4 4) (c.p 8 8) (c.p 16 4 == 1))).reply c .ok 0 [])).settleFlash) ∧
    (D.readyCmd 0x0F03 id c →
      ∃ E, exec (.fuseDump a id) s = .next (s.put a E) ∧
        D.EndsAs c (paramWrite id c.stacked c.ctx (c.p 0 8) (fuseMaps D.num s.pkg.flash)) (fun _ => some []) E) ∧
    (D.readyCmd 0x0F04 id c →
      ∃ E, exec (.safetyInject a id rivals) s = .next ((s.put a E).logLostRecord D.log.isLost a) ∧
        D.EndsAs c (safetyInject c rivals) some E ∧
        ∀ d D', runM (safetyInject c rivals) D = (.ok d, D') → d = toLE 4 D.log.nextInj) ∧
    (D.readyCmd 0x0F05 id c →
      ∃ E bytes, exec (.rfaCapture a id) s = .next (s.put a E) ∧ D.EndsAs c (rfaCapture c) some E ∧
        bytes.length = c.p 8 4 ∧ (bytes.take (32 * D.log.ring.length) <+: D.log.ring.flatMap (fun r => r.bytes D.num)) ∧
        ∀ d D', runM (rfaCapture c) D = (.ok d, D') → d = [] ∧
          ∃ D1, runM (paramWrite id c.stacked c.ctx (c.p 0 8) bytes) D1 = (.ok (), D') ∧ D1.mem = D.mem) ∧
    (D.readyCmd 0x0F06 id c → 1 ≤ c.p 0 4 → c.p 0 4 < 8 → exec (.anchorSet a id) s = .next (s.put a
      ((send D (.anchor (c.p 0 4) (if c.params.length ≤ 4 then [] else padTo 100 (c.params.drop 4)))).reply c .ok 0
        [])).settleFlash.endRevoked)

/-! ## Instances (ch. 14) -/

/-- A commit that passes the checks of R438 makes the staged bank active, begins the resets of the instances it disables and
sends the bank to the flash; one that fails leaves the active bank and reports the first failing check (R437-R439).
Instance resets (R449-R452): an installer's write of INS_RESET begins the reset of each instance it names, another's that of its
own instance, with an event where it names more; a reset
that completes ends with its event and cause 1 of INS; a region that is to be scrubbed reads zero once it is done. -/
def Obligations.InstancesCommitAndReset : Prop :=
  (∀ (s : State) (a : At) (r : Req) (v : Word), s.up a → (s.dieAt a).admits r B_INS INS_CTRL true → bit v.toNat 2 = true →
     let T := ((s.dieAt a).touchSession r).ctrlWrite r B_INS v.toNat
     (∀ code i k, T.commitCheck = some (code, i, k) → exec (.insCommit a r v) s = .next (s.put a
       ((T.setReg B_INS INS_COMMIT_STATUS (code + i * 2 ^ 8 + k * 2 ^ 16)).cause B_INS 2)).settleFlash.settleWorks) ∧
     (T.commitCheck = none →
       let gone := (List.range 8).filter (fun i => insEnabled T.ins.active i && !insEnabled T.ins.staged i)
       let X := (gone.foldl (fun D i => D.beginReset i true) T).setReg B_INS INS_COMMIT_STATUS 0
       let Y : DieState := { X with
         ins := { X.ins with active := X.ins.staged, commitBusy := !gone.isEmpty }
         toFlash := X.toFlash ++ [.instances X.num (memRead X.ins.staged 0 3072)] }
       exec (.insCommit a r v) s = .next (s.put a (if gone = [] then Y.cause B_INS 2 else Y)).settleFlash.settleWorks)) ∧
  (∀ (s : State) (a : At) (r : Req) (v : Word) (i k : Nat), s.up a →
     let D := s.dieAt a
     let T := D.touchSession r
     let named (i : Nat) : Bool := bit v.toNat i
     (D.admits r B_INS INS_RESET true → 1 ≤ T.roleOf r → exec (.instanceReset a r v) s =
       .next (s.put a (((List.range 8).filter named).foldl (fun D i => D.beginReset i) T)).settleWorks) ∧
     (D.admits r B_INS INS_RESET true → T.roleOf r = 0 →
       let other := v.toNat % 256 - (if named r.inst = true then 2 ^ r.inst else 0)
       let X := if other = 0 then T else T.event
         { cls := 7, code := 0x02, inst := some r.inst, loc := other, ident := refusalIdent r T.num 4 true }
       exec (.instanceReset a r v) s =
         .next (s.put a (if named r.inst = true then X.beginReset r.inst else X)).settleWorks) ∧
     (∀ x, D.ins.scrubs.find? (fun s => s.inst == i && s.index == k) = some x →
       let extents := ({ base := x.base, size := x.size, view := x.view, rights := 0, shared := 0 } : Region).extents
       ∃ E, exec (.regionScrubDone a i k) s = .next (s.put a E) ∧ E.ins.scrubs = D.ins.scrubs.erase x ∧
         (∀ n o, o < 2 ^ 36 → (∃ e ∈ extents, e.1 = n ∧ e.2.1 ≤ o ∧ o < e.2.1 + e.2.2) →
           memGet E.mem.bytes (stackKey n o) = 0) ∧
         (∀ n o, n < 2 → o < 2 ^ 36 → (∀ e ∈ extents, e.1 = n → o < e.2.1 ∨ e.2.1 + e.2.2 ≤ o) →
           memGet E.mem.bytes (stackKey n o) = memGet D.mem.bytes (stackKey n o)))) ∧
  (∀ (r : Region), r.populated = true →
     (r.view = 1 → r.size ≠ 0 → r.extents = [(0, r.base - 0x0040_0000_0000, r.size)]) ∧
     (r.view = 2 → r.size ≠ 0 → r.extents = [(1, r.base - 0x0050_0000_0000, r.size)]) ∧
     (r.view = 0 → r.size ≠ 0 → r.extents = [(0, r.base / 2, r.size / 2), (1, r.base / 2, r.size / 2)]))
/-! ## The safety island (ch. 16) -/

/-- The outputs (R540-R542): a test pulse drives an energised output low for at least 400 µs and no oftener than every
100 ms; a readback that differs 100 µs after the last edge latches both outputs off, is counted, raises cause 4 of SAF
and an event; SAFETY_OUTPUT_CLEAR leaves the latch, and the outputs follow what is asked of them. -/
def Obligations.OutputsPulseLatchAndClear : Prop :=
  ∀ (s : State) (a : At) (w id : Nat) (level : Bool) (c : Cmd), s.up a →
    let D := s.dieAt a
    let k := w % 2
    (((D.sdo k).on = false ∨ D.now < (D.sdo k).lastPulse + 100000000) → exec (.sdoTestPulse a w) s = .next (s.put a D)) ∧
    ((D.sdo k).on = true → (D.sdo k).pulse = none → (D.sdo k).lastPulse + 100000000 ≤ D.now →
      exec (.sdoTestPulse a w) s = .next (s.put a
        ((D.onSdo k (fun x => { x with pulse := some D.now, edge := D.now, lastPulse := D.now })).out (.sdo k false)))) ∧
    (∀ t, (D.sdo k).pulse = some t → t + 400000 ≤ D.now → exec (.sdoPulseEnd a w) s =
      .next (s.put a ((D.onSdo k (fun x => { x with pulse := none, edge := D.now })).out (.sdo k true)))) ∧
    ((∀ e ∈ D.log.injections, e.2.kind ≠ 6 ∨ e.2.target ≠ k) →
      let E := D.onSdo k (fun x => { x with readback := level })
      let want := (D.sdo k).on && (D.sdo k).pulse.isNone
      (level = want ∨ D.now < (D.sdo k).edge + 100000 → exec (.sdoOutputFault a w level) s = .next (s.put a E)) ∧
      (level ≠ want → (D.sdo k).edge + 100000 ≤ D.now → ∃ t, exec (.sdoOutputFault a w level) s = .next t ∧
        (t.die a.die).saf.sdoLatched = true ∧ ((t.die a.die).sdo 0).on = false ∧ ((t.die a.die).sdo 1).on = false ∧
        (t.die a.die).saf.sdoOutput = k ∧
        (t.die a.die).saf.sdoCase = if want then 1 else if (D.sdo k).on then 2 else 3)) ∧
    (D.readyCmd 0x0502 id c → exec (.safetyOutputClear a id) s =
      .next (s.put a ((D.onSaf (fun x => { x with sdoLatched := false })).driveSdo.reply c .ok 0 [])))

/-- The island's modes (R529, R531, R542-R545, R551): a fault of the island de-energises and latches its outputs and
stops it; its restart leaves it running in FALLBACK with its zones as at boot; service mode is entered for 1 to 480
minutes in FALLBACK with cause 5 of SAF, and left by command or at its time; the commands answer OK. -/
def Obligations.IslandStopsRestartsAndServes : Prop :=
  ∀ (s : State) (a : At) (id : Nat) (c : Cmd), s.up a →
    let D := s.dieAt a
    (D.saf.running = true → ∃ t, exec (.safetyIslandFault a) s = .next t ∧ t = s.put a (t.die a.die) ∧
      (t.die a.die).saf.running = false ∧ (t.die a.die).saf.down = some D.now ∧ (t.die a.die).saf.sdoLatched = true ∧
      ((t.die a.die).sdo 0).on = false ∧ ((t.die a.die).sdo 1).on = false ∧ (t.die a.die).saf.network = false ∧
      (t.die a.die).saf.service = D.saf.service) ∧
    (∀ t0, D.saf.down = some t0 →
      let E := D.onSaf (fun x => { x with running := true, down := none })
      let F := { E with foe := { E.foe with states := [] } }.raiseHeld
      exec (.safetyIslandRestart a) s = .next (s.put a (if F.netOn then F.safReset else F)).settleWorks) ∧
    (D.readyCmd 0x0500 id c → 1 ≤ c.p 0 2 → c.p 0 2 ≤ 480 →
      let E := D.toFallback.onSaf (fun x => { x with service := some (D.now + c.p 0 2 * 60000000000) })
      let F := ((E.cause B_SAF 5).event { cls := 12, code := 0x06, island := 0, cause := 1 }).remerge
      exec (.safetyServiceEnter a id) s =
        .next (s.put a ((if F.num = 0 then F.out .ibi else F).reply c .ok 0 []))) ∧
    (∀ e, D.readyCmd 0x0501 id c → D.saf.service = some e → exec (.safetyServiceExit a id) s =
      .next (((s.put a D).replyAt a.die c .ok).leaveService a.die).settleFlash) ∧
    (∀ e, D.saf.service = some e → e ≤ D.now →
      exec (.serviceModeExpire a) s = .next ((s.put a D).leaveService a.die)) ∧
    (D.readyCmd 0x0501 id c → D.saf.service = none → exec (.safetyServiceExit a id) s =
      .next ((s.put a D).replyAt a.die c .refusedServiceMode).settleFlash) ∧
    (D.readyCmd 0x0503 id c → exec (.safetyLatchClear a id) s = .next (s.put a
      ((if D.saf.latched = true then
        D.onSaf (fun x => { x with latched := false, resets := [], atFrame := true, retried := false }) else D).reply c .ok 0
        []))) ∧
    (D.readyCmd 0x0504 id c → exec (.safetyStatus a id) s = .next (s.put a (D.reply c .ok 0
      (toLE 1 D.safMode ++ toLE 1 (b2n D.saf.network) ++ toLE 1 D.saf.clean ++ toLE 1 0 ++ toLE 4 D.saf.active
        ++ toLE 4 D.sdoState))))

/-- Authority, doubts, results and merges (R519-R528): a doubt makes the authority FALLBACK and clears the clean count;
a lasting doubt ends with its condition, that of a clock after 1 s; a merge takes the classes of R523 and sends its message; the
notice of the result seal reads the record, and an acceptable record is the newest result while another is rejected; the end of
a reset of another instance than 0 is that of its own reset, and an FLR resets its function's instance
(log entry 21 for which that is). A measured difference of the oscillator is a source of DOUBT_RAISE (log entry 143). -/
def Obligations.DoubtsResultsAndMergesMove : Prop :=
  (∀ (s : State) (a : At) (osc : Option Int), s.up a →
    let D := s.dieAt a
    exec (.doubtRaise a osc) s = .next (s.put a
      (match osc with | some ppm => D.oscMeasure ppm | none => D).takeDoubts).settleWorks ∧
    (∀ e, D.saf.running = true → D.saf.down = none → D.saf.due = some e →
      let X := D.takeDoubts
      let f := X.saf.due.getD {}
      let Y := ((X.onSaf (fun x => { x with due := none, merged := f, classes := X.mergeAt f.time })).driveSdo).sendMessage false f.time f
      exec (.safetyMerge a) s = .next (s.put a
        (Y.onSaf (fun x => { x with active := andNot x.active (bitMask (resetDoubts.map (· - 1))) }))).settleWorks) ∧
    (∀ b rest, D.saf.running = true → D.saf.down = none → D.saf.records = b :: rest →
      let X := D.onSaf (fun x => { x with records := rest })
      (D.recordOk b = true → ∃ t r, exec (.networkResultReceive a) s = .next t ∧ (t.die a.die).saf.records = rest ∧
        (t.die a.die).saf.results = r :: D.saf.results.take 3 ∧ r.time = D.now ∧ r.frame = field b 0 8 ∧
        r.classes = (List.range (field b 8 2)).map (fun z => bits (leNat ((b.drop 16).take 96)) (3 * z) 3) ∧
        (t.die a.die).saf.lastFrame = some (field b 0 8)) ∧
      (D.recordOk b = false → exec (.networkResultReceive a) s = .next (s.put a
        (((X.count32 B_SAF SAF_RESULT_REJECTS).cause B_SAF 3).event
          { cls := 12, code := 0x04, island := 0, inst := some 0, ident := field b 0 8 % 2 ^ 32 })))) ∧
    (D.saf.running = true → D.saf.down = none →
      ∃ t, exec (.doubtClearTimer a) s = .next t ∧ t = s.put a { D with saf := (t.die a.die).saf } ∧
        ∀ k, 1 ≤ k → k ≤ 11 → (bit (t.die a.die).saf.active (k - 1) = true → bit D.saf.active (k - 1) = true) ∧
          (k ∈ [5, 6, 8, 10, 11] → D.doubtHolds k = false → (k = 5 → D.fab.admitted = true) →
            bit (t.die a.die).saf.active (k - 1) = false) ∧
          (∀ calm, k = 7 → D.doubtHolds k = false → D.saf.clockCalm = some calm → calm + 1000000000 ≤ D.now →
            bit (t.die a.die).saf.active (k - 1) = false) ∧
          (k ∈ resetDoubts ∨ D.doubtHolds k = true →
            bit (t.die a.die).saf.active (k - 1) = bit D.saf.active (k - 1))) ∧
    (∀ n, D.saf.resultSeal = some n → D.cmd.ready = true → (D.sealOf n).alloc = true →
      D.saf.noticed < (D.sealOf n).counter →
      let E := D.onSaf (fun x => { x with noticed := (D.sealOf n).counter })
      exec (.resultSealNotice a) s = .next (s.put a
        (match runM (stackRead (cpCtx 0) (gLocal (field D.block 32 8)) 128) E with
         | (.ok b, D') => D'.onSaf (fun x => { x with records := x.records ++ [b] })
         | (.error _, D') => D'))) ∧
    (∀ i, D.gateClosed i = true → (i ≠ 0 → exec (.instanceResetComplete a i) s = .next (s.put a (D.completeReset i))) ∧
      (i = 0 → (D.completeReset 0).saf.resetting = false → exec (.instanceResetComplete a i) s =
        .next (s.put a ((D.completeReset 0).onSaf (fun x => { x with resultSeal := none })))) ∧
      (i = 0 → (D.completeReset 0).saf.resetting = true → exec (.instanceResetComplete a i) s =
        .next (s.put a (D.completeReset 0).restartNetwork))) ∧
    (∀ fn, fn ≤ 8 →
      let i := D.fnInst fn
      let E := ((((D.resetFunction fn).endSessions (fun x => x.req == 0x0A0 + fn)).count32 B_PCI PCI_FLRS).cause B_PCI 1)
      let F : DieState := { E with pcie := { E.pcie with flrs := E.pcie.flrs ++ [(fn, i)] } }
      let G := F.toFallback.remerge.countReset
      exec (.flrReceive a fn) s = .next (s.put a
        (if insEnabled E.ins.active i = false then E
         else if i ≠ 0 then F.beginReset i
         else if G.saf.resetting = true then G else G.safReset)).settleWorks)) ∧
  (∀ (D : DieState), D.saf.running = true → D.saf.down = none →
    (D.doubts ≠ [] → (∀ d ∈ D.doubts, d.1 ∉ resetDoubts) →
      let E := D.takeDoubts
      E.doubts = [] ∧ E.saf.network = false ∧ E.saf.clean = 0 ∧ E.saf.dirty = true ∧
      (∀ d ∈ D.doubts, bit E.saf.active (d.1 - 1) = true) ∧
      (∀ j, bit D.saf.active j = true → bit E.saf.active j = true) ∧ E.saf.service = D.saf.service) ∧
    (D.doubts = [] → D.takeDoubts.saf.network = D.saf.network ∧ D.takeDoubts.saf.active = D.saf.active ∧
      D.takeDoubts.saf.seq = D.saf.seq) ∧
    (∀ change time e, (D.sendMessage change time e).saf.lastSeq = D.saf.seq ∧
      (D.sendMessage change time e).saf.seq = (D.saf.seq + 1) % 2 ^ 32))

/-- The proof pass and the command processor's watchdog (R430, R526, R534-R536, R600): a pass starts once a frame and
launches the proof task of its first cluster; its task's end compares the CRC; a pass that is late is a doubt of source
1; a heartbeat advances both halves; 500 µs without one restart the command processor, and its restart makes it ready. -/
def Obligations.ProofPassesAndHeartbeatsRun : Prop :=
  ∀ (s : State) (a : At), s.up a →
    let D := s.dieAt a
    (∀ c cs, D.saf.running = true → D.saf.down = none → D.netOn = true → D.saf.proof = none → D.gateClosed 0 = false →
      D.proofClusters = c :: cs → D.stp.frameAt + field D.block 40 4 * 1000 ≤ D.now →
      ∃ t, exec (.proofPassStart a) s = .next t ∧
        (t.die a.die).saf.proof = some { frame := D.stp.frame, start := D.now, running := some (c, D.cmd.nextId) } ∧
        (t.die a.die).cmd.nextId = D.cmd.nextId + 1 ∧
        ∃ x, (t.die a.die).cmd.cmds = D.cmd.cmds ++ [x] ∧ x.op = 0x0200 ∧ x.island = true ∧ x.id = D.cmd.nextId) ∧
    (∀ p c id r, D.saf.proof = some p → p.running = some (c, id) → D.saf.replies.find? (fun r => r.1 == id) = some r →
      let E := D.onSaf (fun x => { x with replies := x.replies.erase r })
      (r.2.1 = Status.refusedInstanceReset.code ∨ D.gateClosed 0 = true → exec (.proofCrcDone a) s =
        .next (s.put a ((E.proofFailed (c :: E.proofAfter c) false).proofNext []))) ∧
      (r.2.1 ≠ Status.refusedInstanceReset.code → D.gateClosed 0 = false →
        (((Status.ofCode r.2.1).getD .faultInternal).isOk = false → exec (.proofCrcDone a) s =
          .next (s.put a (let G := E.proofFailed [c] true; G.proofNext (E.proofAfter c)))) ∧
        (((Status.ofCode r.2.1).getD .faultInternal).isOk = true → exec (.proofCrcDone a) s = .next (s.put a
          (match runM (proofCrc c) E with
           | (.error _, D') => (D'.proofFailed [c] true).proofNext (D'.proofAfter c)
           | (.ok v, D') =>
             let F := D'.setReg B_SAF (SAF_PROOF_CRC + 4 * c) v
             let G := if v = field F.block (56 + 4 * c) 4 then
               F.onSaf (fun x => { x with proof := x.proof.map (fun p => { p with matched := orN p.matched (2 ^ c) }) })
               else F.proofFailed [c] true
             G.proofNext (G.proofAfter c)))))) ∧
    (∀ p c id, D.saf.proof = some p → p.running = some (c, id) → p.late = false →
      p.start + field D.block 44 4 * 1000 ≤ D.now → exec (.proofWindowExpire a) s = .next (s.put a
        (((D.onSaf (fun x => { x with proof := some { p with late := true } })).cause B_SAF 2).doubt 1 c))) ∧
    (D.cmd.ready = true →
      let inj (k : Nat) (j : Injection) : Bool := j.kind == 5 && j.param == k
      let held (k : Nat) : Bool := D.log.injections.any (fun e => inj k e.2)
      let h := D.reg B_CMD CMD_HEARTBEAT
      let half (k : Nat) : Nat := if held k = true then bits h (16 * k) 16 else (bits h (16 * k) 16 + 1) % 65536
      let beat (k : Nat) (old : Option Nat) : Option Nat := if held k = true then old else some D.now
      let E := ((D.useInjection (inj 0)).useInjection (inj 1)).setReg B_CMD CMD_HEARTBEAT (half 0 + half 1 * 65536)
      exec (.cmdHeartbeatIncrement a) s =
        .next (s.put a { E with cmd := { E.cmd with beat0 := beat 0 D.cmd.beat0, beat1 := beat 1 D.cmd.beat1 } })) ∧
    (D.cmd.ready = true → (D.cmd.beat0.getD D.cmd.began + 500000 ≤ D.now ∨ D.cmd.beat1.getD D.cmd.began + 500000 ≤ D.now) →
      let X : DieState := { D with cmd := { D.cmd with
        waits := D.cmd.waits.filter (fun w => match w.who with | .cmd _ => false | _ => true), qwaits := [] } }
      let Y := ((D.cmd.cmds.filter (fun c => !D.keepsSlot c.id)).map (·.id)).foldl (fun D id => D.replyId id .faultInternal) X
      let Z : DieState := { Y with cmd := { Y.cmd with ready := false, restart := some Y.now } }
      exec (.cpWatchdogExpire a) s = .next (s.put a ((Z.event { cls := 1, code := 0x06, island := 1 }).doubt 11))) ∧
    (D.cmd.ready = true → D.now < D.cmd.beat0.getD D.cmd.began + 500000 → D.now < D.cmd.beat1.getD D.cmd.began + 500000 →
      exec (.cpWatchdogExpire a) s = .next (s.put a D)) ∧
    (∀ t0, D.cmd.restart = some t0 → exec (.cpRestartDone a) s = .next (s.put a { D with
      cmd := { D.cmd with ready := true, restart := none, began := D.now, beat0 := none, beat1 := none } }))

/-! ## The fall-back occupancy engine and the stipple unit (ch. 3, 16) -/

/-- The fall-back occupancy engine (R515, R517, R524): a point inside the grid is counted in its cell of the open plane,
up to 15, and one outside is only counted; the zones of a new plate come into force in their place in the queue (R518); a slice marker swaps the planes and gives every enabled zone the state R517
gives it; the end of the evaluation clears the evaluated plane and hands the slice to the safety island.
A zone's rule (R517), whatever its record: a blind zone is occupied; a zone becomes occupied after as many raw
evaluations in a row as its record asks for, and is left after more clear ones than its hold. -/
def Obligations.OccupancyEngineCountsAndEvaluates : Prop :=
  (∀ (s : State) (a : At), s.up a →
     let D := (s.dieAt a).foeSettle (s.dieAt a).foe.queue.length
     let b := D.foe.block
     (∀ r rest, D.foe.queue = .point r :: rest →
       let i := shr (ifield r 0 4 - sbX0 b) (sbShift b)
       let j := shr (ifield r 4 4 - sbY0 b) (sbShift b)
       let z := ifield r 8 4
       let inGrid := 0 ≤ i ∧ i < (sbW b : Int) ∧ 0 ≤ j ∧ j < (sbH b : Int) ∧ ifield b 20 4 ≤ z ∧ z ≤ ifield b 24 4
       (inGrid → ∃ t, exec (.foePointRecord a) s = .next t ∧
         t = s.put a (t.die a.die) ∧ (t.die a.die).foe.queue = rest ∧ (t.die a.die).foe.plane = D.foe.plane ∧
         ∀ k, tabGet 0 (t.die a.die).foe.openPlane k =
           if k = 4096 * j.toNat + i.toNat then min (tabGet 0 D.foe.openPlane k + 1) 15 else tabGet 0 D.foe.openPlane k) ∧
       (¬ inGrid → ∃ t, exec (.foePointRecord a) s = .next t ∧ (t.die a.die).foe = { D.foe with queue := rest })) ∧
     (∀ e rest, D.foe.queue = .slice e :: rest → D.foe.evaluating = none → ∃ t, exec (.foeSliceClose a) s = .next t ∧
       (t.die a.die).foe.queue = rest ∧ (t.die a.die).foe.plane = !D.foe.plane ∧
       (t.die a.die).foe.evaluating = some (e, D.now) ∧
       ((D.foeZones.map (fun z => z.1)).Nodup →
         ∀ z ∈ D.foeZones, (t.die a.die).zoneState z.1 =
           evalZone z.2 ((znRequired z.2).any D.streamAbsent)
             (((zoneCells b z.2).map (tabGet 0 D.foe.openPlane)).foldl (· + ·) 0) (D.zoneState z.1))) ∧
     (let D := s.dieAt a
      ∀ e t0, D.foe.evaluating = some (e, t0) → ∃ t, exec (.foeEvalDone a) s = .next t ∧
       (t.die a.die).foe.evaluating = none ∧ (t.die a.die).saf = { D.saf with due := some e } ∧
       (t.die a.die).foe.openPlane = D.foe.openPlane ∧ (t.die a.die).foe.states = D.foe.states ∧
       (t.die a.die).foe.clearEnd = D.now + 32768 ∧
       (if D.foe.plane then (t.die a.die).foe.plane0 else (t.die a.die).foe.plane1) = [])) ∧
  (∀ (z : List Byte) (blind : Bool) (n : Nat) (x : ZoneState),
     let y := evalZone z blind n x
     (blind = true → y.occupied = true ∧ y.blind = true) ∧ (y.raw = true ↔ blind = true ∨ znMin z ≤ n) ∧
     y.count = min n 65535 ∧
     (blind = false → x.occupied = true →
       (y.occupied = false ↔ n < znMin z ∧ znHold z < min (x.clear + 1) 255)) ∧
     (blind = false → x.occupied = false →
       (y.occupied = true ↔ znMin z ≤ n ∧ znOn z ≤ min (x.run + 1) 4)))

/-- Packets, poses and streams (R87, R93, R96, R98, R100): the parser takes a packet of a safety stream first, drops one
of a bad length under reason 2, and parses the points of another in order; a posted pose replaces its transform and is
answered OK; a stream that is silent for its timeout is absent, with its event, and a safety stream raises doubt 6; host
packets enter one by one, and the last one answers with what entered and what did not. -/
def Obligations.PacketsPosesAndStreamsAreTaken : Prop :=
  ∀ (s : State) (a : At) (id i : Nat) (c : Cmd), s.up a →
    let D := s.dieAt a
    (∀ p, D.nextPacket = some p →
      let E : DieState := { D with stp := { D.stp with intake := dropPacket p D.stp.intake } }
      let x := E.pktCtx p
      (payloadBad x.layout p.payload.length = true → exec (.stipplePacketParse a) s = .next (s.put a
        ((E.stpDrop p.stream 2 true).emitMarkers (dropPacket p D.stp.intake).length))) ∧
      (payloadBad x.layout p.payload.length = false →
        let X : DieState := if (p.replay && E.stp.replayStart.isNone) = true then
          { E with stp := { E.stp with replayStart := some x.time } } else E
        let F := (List.range (blockCount x.layout p.payload.length)).foldl (fun F b =>
          (List.range (field x.layout 12 2)).foldl (fun F k => F.parsePoint x b k) F) (X.notePacket x)
        exec (.stipplePacketParse a) s = .next (s.put a (F.emitMarkers F.stp.intake.length)))) ∧
    (let e := stpEntry D.stp.active 0 (i % 256)
     seEnabled e = true → seTimeout e ≠ 0 → (D.streamOf (i % 256)).absent = false →
      (D.streamOf (i % 256)).lastSeen + seTimeout e * 1000 ≤ D.now → ∃ t, exec (.streamTimeout a i) s = .next t ∧
        ((t.die a.die).streamOf (i % 256)).absent = true ∧ ((t.die a.die).streamOf (i % 256)).present = false ∧
        (t.die a.die).doubts = if seSafety e then D.doubts ++ [(6, 0)] else D.doubts) ∧
    (D.readyCmd 0x0400 id c →
      let k := c.p 0 2
      let e := stpEntry D.stp.active 0 k
      let session := match D.queueSession (D.queue c.queue) with | some s => decide (1 ≤ s.role) | none => false
      zeros c.params 2 6 = true → k < 256 → seEnabled e = true → seMobile e = true →
      (if seComb e = true then D.targetOwner (seTarget e) == c.inst else session) = true → exec (.streamPose a id) s = .next (s.put a { D.started c.id with
        stp := { D.stp with poses := D.stp.poses ++ [(k, padTo 72 (c.params.drop 8), c.id)] } })) ∧
    (∀ k b x rest, D.stp.poses = (k, b, x) :: rest →
      let w := 3 * 2 ^ 20 + field (stpEntry D.stp.active 0 k) 26 1 * 80
      let E : DieState := { D with stp := { D.stp with poses := rest, active := memWrite D.stp.active w b } }
      exec (.stipplePoseTake a) s = .next (s.put a (E.replyId x .ok))) ∧
    (D.readyCmd 0x0401 id c → 1 ≤ c.p 8 4 → c.p 8 4 ≤ 65536 → (bit (c.p 12 4) 24 = false ∨ refOk (c.p 12 4) = true) →
      exec (.hostfeedSubmit a id) s = .next (s.put a { D.started c.id with stp := { D.stp with
        feeds := D.stp.feeds ++ [{ cmd := c.id, addr := c.p 0 8, left := c.p 8 4, sealRef := c.p 12 4 }] } })) ∧
    (∀ f, D.stp.feeds.find? (fun f => f.cmd == id) = some f → D.cmdOf id = some c →
      let rest (X : DieState) : DieState := { X with stp := { X.stp with feeds := X.stp.feeds.filter (fun f => f.cmd != c.id) } }
      ∃ E, exec (.hostfeedPacketAdmit a id) s = .next (s.put a E) ∧
        (∀ ok nx D', runM (feedPacket c f) D = (.ok (some (ok, nx)), D') →
          let g : HostFeed := { f with addr := nx, left := f.left - 1, accepted := f.accepted + b2n ok, dropped := f.dropped + b2n (!ok) }
          (f.left - 1 ≠ 0 →
            E = { D' with stp := { D'.stp with feeds := D'.stp.feeds.map (fun h => if h.cmd = c.id then g else h) } }) ∧
          (f.left - 1 = 0 → E = (if bit f.sealRef 24 = true then (rest D').jobSignal f.sealRef 1 else rest D').reply c .ok 0
            (toLE 4 g.accepted ++ toLE 4 g.dropped))) ∧
        (∀ D', runM (feedPacket c f) D = (.ok none, D') → E = D') ∧
        (∀ f' D', runM (feedPacket c f) D = (.error f', D') → f'.need = none → E = (rest D').reply c f'.status) ∧
        (∀ f' D' g n, runM (feedPacket c f) D = (.error f', D') → f'.need = some (g, n) → E = D.askParam c.id c.inst g n))

/-- The table window and replay (R72, R101, R102, R105, R107, R108): bit 0 of STP_TBL_CTRL reads the selected chunk into the
data words and bit 1 writes a chunk of the staged bank, a write of the active bank only records an event, and a selection of no
entry sets the error; the replay bit is honoured in service mode only, and opens the
host's frame; in replay, bits 2 and 3 of STP_CTRL close the frame and the slice. The end of replay by a write of the bit is the
model's choice (log entry 175). -/
def Obligations.TableWindowAndReplayWrites : Prop :=
  ∀ (s : State) (a : At) (r : Req) (v : Word) (n : Nat), s.up a →
    let D := s.dieAt a
    let T := D.touchSession r
    let sel := T.sel r.id B_STP STP_TBL_SEL
    let k := tblChunk sel
    let put (D : DieState) (e : Bool) : DieState := { D with stp := { D.stp with tblError := e } }
    let X := if bit v.toNat 0 = false then T
      else if tblOk sel = false then put T true
      else put ((List.range 16).foldl (fun (D : DieState) i => D.setReg B_STP (STP_TBL_DATA + 4 * i)
        (field (padTo 64 (memRead (if bit sel 4 then T.stp.staged else T.stp.active) k.1 k.2)) (4 * i) 4)) T) false
    let Y := if bit v.toNat 1 = false then X
      else if bit sel 4 = false then put (X.event
        { cls := 8, code := 0x05, island := 24, inst := some r.inst, loc := csrAddr B_STP STP_TBL_CTRL, ident := r.id }) true
      else if tblOk sel = false then put X true
      else
        let b := ((List.range 16).flatMap (fun i => toLE 4 (X.reg B_STP (STP_TBL_DATA + 4 * i)))).take k.2
        put { X with stp := { X.stp with staged := memWrite X.stp.staged k.1 b } } false
    (D.admits r B_STP STP_TBL_CTRL true →
      (bit v.toNat 0 = true → exec (.stpTblRead a r v) s = .next (s.put a Y)) ∧
      (bit v.toNat 1 = true → exec (.stpTblWrite a r v) s = .next (s.put a Y))) ∧
    (D.admits r B_STP STP_CTRL true →
      let old := T.reg B_STP STP_CTRL
      let E := T.setReg B_STP STP_CTRL (putBits old 0 1 (bits v.toNat 0 1))
      let F (n : Nat) : DieState := if bit v.toNat 1 = bit old 1 then E
        else if E.saf.service = none then E.event { cls := 8, code := 0x06, island := 24, inst := some 0 }
        else if bit v.toNat 1 = true then (E.setReg B_STP STP_CTRL (putBits (E.reg B_STP STP_CTRL) 1 1 1)).replayStart n
        else E.replayEnd
      let G (n : Nat) : DieState := if bit v.toNat 3 = true ∧ (F n).stp.replay = true then
        (let H := (F n).closeSlice (F n).now
         { H with stp := { H.stp with replaySlice := H.stp.replaySlice + 1 } }) else F n
      let K (n : Nat) : DieState := if bit v.toNat 2 = true ∧ (G n).stp.replay = true then
        (let H := (G n).openFrame n (G n).now false
         { H with stp := { H.stp with replaySlice := 0 } }) else G n
      (bit v.toNat 1 ≠ bit (D.reg B_STP STP_CTRL) 1 → exec (.stpReplayWrite a r v n) s = .next (s.put a (K n))) ∧
      (bit v.toNat 2 = true → exec (.stpFrameClose a r v n) s = .next (s.put a (K n))) ∧
      (bit v.toNat 3 = true → exec (.stpSliceClose a r v) s = .next (s.put a (K T.stp.frame))))

/-- Slices and frames turn (R36-R39, R92, R525): behind packets that have arrived, a slice boundary leaves its marker;
a frame boundary takes the doubts, makes the switch that is due, and turns the frame; two clean frames in a row give the
network path the authority unless its restart is latched off. -/
def Obligations.SlicesAndFramesTurn : Prop :=
  ∀ (s : State) (a : At), s.up a →
    let D := s.dieAt a
    (D.boot.stage = 7 → D.stp.replay = false → D.stp.sliceAt < D.now / D.sliceNs * D.sliceNs →
      let e : SliceEnd := { time := D.now / D.sliceNs * D.sliceNs, frame := D.stp.frame, slice := D.sliceIndex, replay := false }
      let E := D.mark (.slice e)
      exec (.sliceBoundary a) s = .next (s.put a { E with stp := { E.stp with sliceAt := e.time } })) ∧
    (∀ e : SliceEnd, (∀ p q, D.stp.intake = .pkt p :: q →
        D.mark (.slice e) = { D with stp := { D.stp with intake := D.stp.intake ++ [.slice e] } }) ∧
      (D.stp.intake = [] → D.mark (.slice e) = D.emitMarker (.slice e))) ∧
    (D.boot.stage = 7 → D.stp.replay = false → D.stp.frameAt < D.now / D.frameNs * D.frameNs →
      exec (.frameBoundary a) s = .next (((((s.put a D).onDie a.die (fun D => D.takeDoubts)).activateAll a.time).onDie a.die
        (fun D => D.frameTurn))).settleWorks) ∧
    ((D.stp.replay = true ∨ D.now / D.frameNs * D.frameNs ≤ D.stp.frameAt) →
      exec (.frameBoundary a) s = .next (s.put a D)) ∧
    (∀ n, D.saf.running = true → D.saf.down = none → D.saf.service = none → D.netOn = true →
      D.saf.accepted.contains n = false → D.saf.checkFrom = none →
      (D.judge (n + 1)).saf.missing = true ∧ (D.judge (n + 1)).saf.clean = 0) ∧
    (∀ n, D.saf.running = true → D.saf.down = none → D.saf.service = none → D.netOn = true →
      D.saf.accepted.contains n = true → D.proofMatched (n + 1) = true → D.saf.dirty = false → D.saf.active = 0 →
      D.doubts = [] → (D.judge (n + 1)).saf.clean = min 2 (D.saf.clean + 1) ∧
        (1 ≤ D.saf.clean → D.saf.latched = false → (D.judge (n + 1)).saf.network = true) ∧
        (D.saf.clean = 0 → (D.judge (n + 1)).saf.network = D.saf.network))

/-! ## The comb builder and the forager (ch. 4, 11) -/

/-- The comb builder (R117, R123, R126-R133, R142): a record goes to its target's building comb, or is missed; a frame marker
ends every building comb and queues its scatter; a cleared buffer is free, a scattered one closed, a published one
published; the commands queue their jobs and answer as R131 and R132 say. Drops and ended targets at the head of the queue are
accounted for first. -/
def Obligations.CombsAreBuiltClosedAndPublished : Prop :=
  ∀ (s : State) (a : At) (id : Nat) (rivals : List Nat) (c : Cmd), s.up a →
    let D := s.dieAt a
    let Q := D.combSettle D.comb.queue.length
    (∀ t r rest, Q.comb.queue = .point t r :: rest →
      let E : DieState := { Q with comb := { Q.comb with queue := rest } }
      (∀ k, (Q.combTarget t).building = some k → exec (.combInsertRecord a) s = .next (s.put a (E.combInsert t k r))) ∧
      ((Q.combTarget t).building = none → exec (.combInsertRecord a) s = .next (s.put a (E.setTarget t
        { Q.combTarget t with missed := (Q.combTarget t).missed + 1, missedFrame := (Q.combTarget t).missedFrame + 1 })))) ∧
    (∀ o rest, Q.comb.queue = .frame o :: rest →
      ∃ t, exec (.combFrameCloseMarker a) s = .next t ∧ t = s.put a (t.die a.die) ∧ (t.die a.die).comb.queue = rest ∧
        (t.die a.die).comb.frame = some o ∧
        (t.die a.die).comb.jobs = Q.comb.jobs ++
          (List.range 8).filterMap (fun n => (Q.combTarget n).building.map (fun k => .scatter n k)) ∧
        ∀ n k, n < 8 → k < 4 → (Q.combTarget n).building = some k → ((t.die a.die).combBuf n k).phase = .sorting) ∧
    (∀ t k rest, D.comb.jobs = .clear t k :: rest → D.gateClosed (cdOwner (D.combPlate t)) = false →
      (∀ x ∈ D.ins.scrubs, x.inst ≠ cdOwner (D.combPlate t)) → (D.combBuf t k).phase = .clearing →
      let E : DieState := { D with comb := { D.comb with jobs := rest } }
      let F := execM (clearBuffer { E.combBuf t k with desc := E.combDesc t }) E
      let G := F.onBuf t k (fun b => { b with phase := .free })
      exec (.combClearDone a) s = .next (s.put a
        (match G.comb.frame, (G.combTarget t).renewed with
         | some o, true => G.openComb t { o with partFrame := o.partFrame || decide (G.stp.frameAt < G.now) }
         | _, _ => G))) ∧
    (∀ t k rest, D.comb.jobs = .scatter t k :: rest → (D.combBuf t k).phase = .sorting →
      let E : DieState := { D with comb := { D.comb with jobs := rest } }
      let F := (execM (scatterPairs (D.combBuf t k)) E).onBuf t k (fun b => { b with phase := .closed })
      exec (.combScatterDone a) s = .next (s.put a (F.combSeal (field (F.combBuf t k).desc 100 4)))) ∧
    (∀ t k n rest, D.comb.jobs = .publish t k n :: rest → (D.combBuf t k).phase = .publishing →
      let E : DieState := { D with comb := { D.comb with jobs := rest } }
      exec (.combPublishDone a) s = .next (s.put a
        (match runM (publishComb (D.combBuf t k)) E with
         | (.ok _, D') =>
           let F := D'.onBuf t k (fun b => { b with phase := .published })
           (F.combSeal (field (F.combBuf t k).desc 104 4)).replyId n .ok
         | (.error f, D') => (D'.onBuf t k (fun b => { b with phase := .closed })).replyId n f.status))) ∧
    (let t := c.p 0 1
     let k := c.p 1 1
     let mine := t < 8 ∧ cdOwner (D.combPlate t) ≠ 0 ∧ cdOwner (D.combPlate t) = c.inst
     let named (ph : CombPhase) : Prop := mine ∧ k < 4 ∧ (D.combBuf t k).phase = ph ∧ (D.combBuf t k).gen = c.p 2 1
     (D.readyCmd 0x0425 id c → mine → exec (.combStatus a id) s = .next (s.put a (D.reply c .ok 0
       ((List.range 4).flatMap (fun k => toLE 1 (D.combBuf t k).phase.code ++ toLE 1 (D.combBuf t k).gen)
         ++ toLE 8 (min (D.combTarget t).missed (2 ^ 64 - 1)))))) ∧
     (D.readyCmd 0x0421 id c → ∃ E, exec (.combPublish a id) s = .next (s.put a E) ∧ D.EndsAs c (combPublish c) (fun d => d) E ∧
       ∀ pairs parts digits D1 D2 D3, named .closed →
         runM (readPairs (D.combBuf t k)) D = (.ok pairs, D1) → runM (readParts (D.combBuf t k)) D1 = (.ok parts, D2) →
         runM (buildDigits (D.combBuf t k)) D2 = (.ok digits, D3) →
         let F := (D3.started c.id).onBuf t k (fun b => { b with phase := .publishing })
         (sortOk pairs parts digits = true → E = { F with comb := { F.comb with jobs := F.comb.jobs ++ [.publish t k c.id] } }) ∧
         (sortOk pairs parts digits = false → E = D3.reply c .faultMetadata)) ∧
     (D.readyCmd 0x0422 id c → named .published →
       let E := (D.started c.id).onBuf t k (fun b => { b with phase := .clearing })
       let T := E.combTarget t
       exec (.combRelease a id) s =
         .next (s.put a (E.setTarget t { T with releases := T.releases ++ [(k, c.id)] }).settleReleases)) ∧
     (D.readyCmd 0x0423 id c → named .published → (bit (c.p 28 4) 24 = false ∨ refOk (c.p 28 4) = true) →
       zeros c.params 3 1 = true →
       (c.p 4 8 ≠ 0 ∨ cdV (D.combBuf t k).desc + 1 ≤ 14) → exec (.combDownsample a id) s =
         .next (s.put a { D.started c.id with comb := { D.comb with jobs := D.comb.jobs ++ [.build t c.id] } })) ∧
     (D.readyCmd 0x0424 id c → named .published → (bit (c.p 20 4) 24 = false ∨ refOk (c.p 20 4) = true) →
       cdPlane (D.combBuf t k).desc = true → cdV (D.combBuf t k).desc + c.p 3 1 ≤ 14 →
       c.p 4 4 + c.p 8 4 ≤ min (D.combBuf t k).points (cdPoints (D.combBuf t k).desc) → exec (.combTrilinear a id) s =
         .next (s.put a { D.started c.id with comb := { D.comb with jobs := D.comb.jobs ++ [.build t c.id] } })) ∧
     (D.readyCmd 0x0420 id c → ∃ E, exec (.combBuffers a id rivals) s = .next (s.put a E) ∧
       D.EndsAs c (combBuffers rivals c) some E ∧
       ∀ d D', runM (combBuffers rivals c) D = (.ok d, D') → d = [] ∧ mine ∧
         (D'.combTarget t).owned = padTo 44 (c.params.drop 4) ∧ (D'.combTarget t).building = none ∧
         (D'.combTarget t).renewed = true ∧
         ∀ j, j < field (padTo 44 (c.params.drop 4)) 32 1 → (D'.combBuf t j).phase = .clearing ∧ (D'.combBuf t j).base = field (padTo 44 (c.params.drop 4)) (8 * j) 8)) ∧
    (∀ t n rest x, D.comb.jobs = .build t n :: rest → D.cmdOf n = some x →
      let E : DieState := { D with comb := { D.comb with jobs := rest } }
      let b := D.combBuf t (x.p 1 1)
      let body : M Unit := if x.op = 0x0423
        then downsample (combCtx x.inst) (cdChannels b.desc) (if x.p 4 8 = 0 then b.base else x.p 4 8) (x.p 12 8) (x.p 20 8)
        else trilinear x b (x.p 3 1) (x.p 4 4) (x.p 8 4)
      let ref := x.p (if x.op = 0x0423 then 28 else 20) 4
      exec (.combJobComplete a) s = .next (s.put a
        (match runM body E with
         | (.ok _, D') => if D'.acked n = true then (D'.combSeal ref).reply x .ok else D'.finalReply n .ok [] ref
         | (.error f, D') => D'.reply x f.status)))

/-- The forager's tables (R344, R349-R363): a load that passes leaves its slot LOADING, and its end READY or ACTIVE; an
unload empties a READY slot; a lookup's batch is accepted and its bags are begun; a batch whose rows are all written
answers its counts; the drain of a table ends with the notices of its servers or at its timeout, with one record for each server
that did not answer (log entry 101). -/
def Obligations.TablesLoadLookUpAndDrain : Prop :=
  (∀ (s : State) (a : At) (id : Nat) (rivals : List Nat) (c : Cmd), s.up a →
    let D := s.dieAt a
    let t := c.p 0 2
    (D.readyCmd 0x0300 id c → ∃ E, exec (.tableLoad a id rivals) s = .next (s.put a E) ∧
      (∀ d D', runM (tableLoad rivals c) D = (.ok d, D') → E = D' ∧ (D'.slotOf t (c.p 2 1 == 1)).state = 1 ∧
        (D'.slotOf t (c.p 2 1 == 1)).load = some c.id ∧ (D'.slotOf t (c.p 2 1 == 1)).version = c.p 4 4) ∧
      (∀ f D', runM (tableLoad rivals c) D = (.error f, D') → f.need = none →
        E = (if f.status.isFault = true then D'.loadFailed c.inst t f.status else D').reply c f.status f.reason) ∧
      (∀ f D' g n, runM (tableLoad rivals c) D = (.error f, D') → f.need = some (g, n) → E = D.askParam c.id c.inst g n)) ∧
    (∀ k b far, (D.slotOf k b).state = 1 →
      let r := (s.put a D).hotRows a.die k (D.slotOf k b) far
      exec (.tableLoadDone a k b far) s = .next (r.1.onDie a.die (fun D => D.loadDone k b r.2))) ∧
    (D.readyCmd 0x0301 id c → t < 1024 → c.p 2 1 ≤ 1 → tbOwner (D.slotOf t (c.p 2 1 == 1)).desc = c.inst →
      (D.slotOf t (c.p 2 1 == 1)).state = 2 →
      let other (p : Prefetched) : Bool := !(p.table == t && p.slotB == (c.p 2 1 == 1))
      let E := D.onFgr (fun f => { f with prefetch := f.prefetch.filter other })
      exec (.tableUnload a id) s = .next (s.put a ((E.setSlot t (c.p 2 1 == 1) {}).reply c .ok 0 []))) ∧
    (D.poolWaits = true → exec (.tableLookup a id rivals) s = .next (s.put a D)) ∧
    (D.readyCmd 0x0302 id c → D.poolWaits = false →
      ∃ E, exec (.tableLookup a id rivals) s = .next (s.put a (E.goOn c.id)) ∧ D.EndsAs c (tableLookup rivals c) (fun d => d) E ∧
        ∀ d D', runM (tableLookup rivals c) D = (.ok d, D') → d = none ∧
          ∃ B, D'.fgr.batches = D.fgr.batches ++ [B] ∧ B.cmd = c.id ∧ B.inst = c.inst ∧ B.bags = []) ∧
    (∀ n B, D.batchOf n = some B →
      (∀ st, B.bad = some st → exec (.lookupBatchComplete a n) s = .next (s.put a (D.failBatch n st))) ∧
      (B.bad = none → (B.ready.length ≠ bdBags B.desc ∨ B.writes ≠ 0) →
        exec (.lookupBatchComplete a n) s = .next (s.put a D)) ∧
      (B.bad = none → B.ready.length = bdBags B.desc → B.writes = 0 →
        let E := if bit (bdSeal B.desc) 24 then D.jobSignal (bdSeal B.desc) 1 else D
        exec (.lookupBatchComplete a n) s = .next (s.put a ((E.removeBatch B).replyId n .ok 0
          (toLE 4 B.ready.length ++ toLE 4 B.defaulted ++ toLE 4 (b2n B.sat) ++ toLE 4 B.version))))) ∧
    (D.readyCmd 0x0303 id c → D.lookupWaits = false → D.updateWaits = false →
      ∃ E, exec (.tablePrefetch a id rivals) s = .next ((s.put a E).passPostings a.die) ∧
        D.EndsAs c (tablePrefetch rivals c) some E ∧ ∀ d D', runM (tablePrefetch rivals c) D = (.ok d, D') → d = []) ∧
    ((D.lookupWaits = true ∨ D.updateWaits = true) →
      exec (.tablePrefetch a id rivals) s = .next ((s.put a D).passPostings a.die)) ∧
    (D.readyCmd 0x0305 id c → t < 1024 → exec (.tableStatus a id) s = .next (s.put a (D.reply c .ok 0
      (toLE 1 (D.slotOf t false).state ++ toLE 1 (D.slotOf t true).state ++ toLE 2 0
        ++ toLE 4 (D.slotOf t false).version ++ toLE 4 (D.slotOf t true).version
        ++ toLE 2 (D.inflight t false) ++ toLE 2 (D.inflight t true))))) ∧
    (∀ k b, D.findSlot k (fun x => x.state == 4) = some b →
      let x := D.slotOf k b
      let missing := (tbServers x.desc x.serving).filter (fun n => !x.notices.contains n)
      x.switched + tbDrainMs x.desc * 1000000 ≤ D.now → exec (.drainTimeout a k) s = .next (s.put a
        ((missing.foldl (fun D n => D.event { cls := 9, code := 0x01, island := 26, inst := some (tbOwner x.desc), loc := k,
                                              ident := n, count := min missing.length 65535 })
          (D.cause B_FGR 1)).freeSlot k b))) ∧
    (∀ p E b, D.takePkt (· == pkDrain) = some (p, E) →
      E.findSlot (field p.body 0 4) (fun x => x.state != 0 && x.version == field p.body 4 4) = some b →
      let x := E.slotOf (field p.body 0 4) b
      let n := p.srcNode * 4 + p.srcDie
      exec (.drainNoticeReceive a) s = .next (s.put a ((E.setSlot (field p.body 0 4) b
        (if x.notices.contains n then x else { x with notices := x.notices ++ [n] })).settleSlot (field p.body 0 4) b)))) ∧
  (∀ (D : DieState) (k : Nat) (b : Bool) (far : List (List Byte)) (n : Nat), (D.slotOf k b).load = some n →
    (D.slotOf k b).state = 1 →
    let x := D.slotOf k b
    D.loadDone k b far =
      match runM (do loadCheck k b x; buildHot k b x far) D with
      | (.ok misses, D') =>
        let named := match D'.tableOf k with | some w => tbVersion w.1 == x.version | none => false
        (D'.setSlot k b { x with
          state := if named && (D'.activeSlot k).isNone then 3 else 2
          load := none
          hotMiss := misses }).replyId n .ok
      | (.error f, D') => ((D'.setSlot k b {}).loadFailed (tbOwner x.desc) k f.status).replyId n f.status f.reason)

/-- Requests, answers and updates between dies (R353, R365-R367, R444, R475, R494, R495, R499): a delivered request of
the die's epoch that the record does not hold is served, noted and taken from the inbox, and one of another epoch refused; a
write that the record holds is answered again; an answer whose tag stands
frees it and ends its request; a request that is not answered is sent again once, then ends; an update's records are
queued at their primary and applied, after the lookups that wait (R41). -/
def Obligations.RequestsAreServedAndTagged : Prop :=
  ∀ (s : State) (a : At) (id : Nat) (rivals : List Nat) (c : Cmd), s.up a →
    let D := s.dieAt a
    let A := if D.recordFull = true then D.ageServed else D
    let takes (k : Nat) (p : Packet) (E : DieState) : Prop := A.recordFull = false ∧ A.takePkt (· == k) = some (p, E)
    let serves (row : Instr) (k : Nat) (again : Bool) (serve : Packet → DieState → Nat × DieState) : Prop :=
      (∀ p E, takes k p E →
        (E.epochOk p = true → E.servedOf p = none →
          exec row s = .next (s.put a ((serve p E).2.noteServed p (serve p E).1))) ∧
        (E.epochOk p = false →
          exec row s = .next (s.put a ((E.count B_FAB FAB_QUAR_REFUSED).answerError p Status.refusedPlate.code))) ∧
        (∀ e, E.epochOk p = true → E.servedOf p = some e →
          let F := E.count B_FAB FAB_DUP_DROPPED
          exec row s = .next (s.put a (if again = true then (serve p F).2
            else if e.status = 0 then F.answer p pkWriteAck 0 [] else F.answerError p e.status)))) ∧
      ((A.recordFull = true ∨ A.takePkt (· == k) = none) → exec row s = .next (s.put a A))
    serves (.fabWriteReceive a) pkWrite false (fun p E => E.serveWrite p) ∧
    serves (.fabReadReceive a) pkRead true (fun p E => E.serveRead p) ∧
    serves (.poolReqReceive a) pkPoolReq true (fun p E => E.servePool p) ∧
    serves (.pushReceive a) pkPush false (fun p E => E.servePush p) ∧
    (∀ p E e b g k, D.takePkt (· == pkPoolReply) = some (p, E) → E.tagOf p = some e → p.instGen = E.gen p.inst →
      e.use = .pool b g k → exec (.poolReplyReceive a) s = .next (s.put a ((E.dropTag e).poolAnswer b g k p))) ∧
    (∀ p E e, D.takePkt (fun k => k == pkWriteAck || k == pkReadData || k == pkError) = some (p, E) → E.tagOf p = some e →
      p.instGen = E.gen p.inst →
      exec (.fabResponseReceive a) s = .next (s.put a ((E.dropTag e).endUse e
        (if p.kind = pkError then (if p.status = 0 then Status.faultTimeout.code else p.status) else 0) p.body)).settleWorks) ∧
    (∀ p E, D.takePkt (fun k => k == pkWriteAck || k == pkReadData || k == pkError) = some (p, E) → E.tagOf p = none →
      exec (.fabResponseReceive a) s = .next (s.put a (E.count B_FAB FAB_LATE_REPLIES)).settleWorks) ∧
    (∀ e tag, D.fab.tags.find? (fun x => x.num == tag && x.ring == false) = some e → e.sent + 200000 ≤ D.now →
      (e.pkt.instGen ≠ D.gen e.pkt.inst → exec (.tagTimeout a tag) s = .next (s.put a (D.bumpTag e)).settleWorks) ∧
      (e.pkt.instGen = D.gen e.pkt.inst → e.resent = false →
        exec (.tagTimeout a tag) s = .next (s.put a ((D.count B_FAB FAB_TAG_RETRIES).resend e)).settleWorks) ∧
      (e.pkt.instGen = D.gen e.pkt.inst → e.resent = true → exec (.tagTimeout a tag) s = .next (s.put a
        ((((D.bumpTag e).count B_FAB FAB_TAG_TIMEOUTS).cause B_FAB 6).endUse e Status.faultTimeout.code [])).settleWorks)) ∧
    (∀ e tag, D.fab.tags.find? (fun x => x.num == tag && x.ring == true) = some e → e.sent + 20000 ≤ D.now →
      e.pkt.instGen = D.gen e.pkt.inst →
      (e.resent = false → exec (.d2dRequestTimeout a tag) s = .next (s.put a (D.resend e)).settleWorks) ∧
      (e.resent = true → exec (.d2dRequestTimeout a tag) s = .next (s.put a
        (((D.bumpTag e).count B_D2D D2D_TIMEOUTS 1 e.via).endUse e Status.faultTimeout.code [])).settleWorks)) ∧
    (exec (.completionRecordAgeOut a) s = .next (s.put a { D with fab := { D.fab with
      served := D.fab.served.filter (fun e => decide (D.now < e.time + 400000)) } })) ∧
    (D.readyCmd 0x0304 id c → ∃ E, exec (.tableUpdate a id rivals) s = .next (s.put a E).shareWorks.settleWorks ∧
      D.EndsAs c (tableUpdate rivals c) (fun d => d) E ∧
      ∀ d D', runM (tableUpdate rivals c) D = (.ok d, D') → d = none ∧
        ∃ u, D'.fgr.updates = D.fgr.updates ++ [u] ∧ u.cmd = c.id ∧ u.table = c.p 0 2 ∧ u.sealRef = c.p 12 4) ∧
    (D.lookupWaits = true → exec (.updateRecordsApply a none) s = .next (s.put a D).settleWorks) ∧
    (∀ w, D.lookupWaits = false → D.fgr.works.find? (fun w => !w.applied) = some w →
      let x := D.slotOf w.table w.slotB
      let done (rows skipped : Nat) (bad : Option Status) (D : DieState) : DieState :=
        D.onFgr (fun f => { f with works := f.works.map (fun y => if y = w then
          { y with applied := true, rows := rows, skipped := skipped, bad := bad } else y) })
      exec (.updateRecordsApply a none) s = .next (s.put a
        (match runM (applyRecords w.table w.slotB x w w.records (seedLanes w.seed 512)) D with
         | (.ok (cs, rows, k), D') => cs.foldl (fun D c => s.pushCopy D w x.version c) ((done rows k none D').countDefaults k)
         | (.error f, D') => done 0 0 (some f.status) D')).settleWorks) ∧
    (D.lookupWaits = false → D.fgr.works.find? (fun w => !w.applied) = none →
      exec (.updateRecordsApply a none) s = .next (s.put a D).settleWorks) ∧
    (∀ cmd die rows skipped st, exec (.updateRecordsApply a (some (.answer cmd die rows skipped st))) s =
      .next (s.put a (D.farAnswer cmd die rows skipped st)).settleWorks) ∧
    (∀ die cmd inst t version shift sto seed recs,
      exec (.updateRecordsApply a (some (.records die cmd inst t version shift sto seed recs))) s =
        .next (s.put a (D.takeRecords die cmd inst t version shift sto seed recs)))

/-! ## The fabric, the ring and Ethernet (ch. 15, 17) -/

/-- The ports of the fabric (R472, R473, R480, R484-R486, R492): light starts the training of an enabled port, alignment
brings it UP and 20 ms without it leave it DARK; a failure leaves it FAILED with its cause and an event; a hold of 100 ms
in UP ends; a good frame brings its flits in; a packet to route here is delivered, and one past its hops is dropped; a
retrain write drops the link and trains it. -/
def Obligations.FabricPortsTrainFailAndForward : Prop :=
  ∀ (s : State) (a : At) (n : Nat) (r : Req) (v : Word), s.up a →
    let D := s.dieAt a
    let p := n % 2
    let x := D.port p
    (∀ rx tx : Int, (x.state = 1 ∨ x.state = 5) → D.portEnabled p = true → x.hot = false →
      exec (.portLightDetect a n rx tx) s = .next (s.put a (D.onPort p (fun x => { x with
        state := 2
        trainSince := D.now
        rxPower := wrapN 16 rx
        txPower := wrapN 16 tx
        powerOk := decide (-800 ≤ rx) })))) ∧
    (x.state = 2 → exec (.portTrainingDone a n) s =
      .next (s.put a (D.onPort p (fun x => { x with state := 3, upSince := D.now })))) ∧
    (x.state = 2 → x.trainSince + 20000000 ≤ D.now → exec (.portTrainingTimeout a n) s =
      .next (s.put a (D.onPort p (fun x => { x with state := 1 })))) ∧
    (∀ cause, (x.state = 3 ∨ x.state = 4) → 1 ≤ cause → cause ≤ 5 → (cause = 3 → 8 ≤ x.badFrames) →
      (cause = 5 → ∃ e ∈ x.replay, 4 ≤ e.resends) →
      let E := (D.linkGone p 5).onPort p (fun x => { x with cause := cause, hold := true })
      (E.port p).state = 5 ∧ (E.port p).replay = [] ∧ (E.port p).waiting = [] ∧
      exec (.portFail a n cause) s = .next (s.put a (((E.count32 B_FAB FAB_PORT_FAILS 1 p).cause B_FAB 0).event
        { cls := 10, code := 0x01, island := 36 + p, ident := 2 * D.num + p, cause := cause }))) ∧
    (x.state = 3 → x.hold = true → x.upSince + 100000000 ≤ D.now → exec (.portUpHoldExpire a n) s =
      .next (s.put a ((D.onPort p (fun x => { x with hold := false })).tryActive p))) ∧
    (∀ corr word flits, (x.state = 3 ∨ x.state = 4) → exec (.fecFrameReceive a n corr 0 word flits) s = .next (s.put a
      ((flits.take 5).foldl (fun (D : DieState) f => D.takeFlit p (padTo 256 f))
        (((D.count B_FAB FAB_PORT_FEC_CORR corr p).onPort p (fun x => { x with badFrames := 0 })).takeWord p word)))) ∧
    (∀ corr bad word flits, (x.state = 3 ∨ x.state = 4) → bad ≠ 0 →
      exec (.fecFrameReceive a n corr bad word flits) s = .next (s.put a
        (((D.count B_FAB FAB_PORT_FEC_CORR corr p).count B_FAB FAB_PORT_FEC_UNCORR bad p).onPort p (fun x =>
          { x with badFrames := x.badFrames + 1, nak := true })))) ∧
    (D.fab.transit = [] → exec (.fabPacketForward a) s = .next (s.put a D)) ∧
    (∀ i q rest, D.fab.transit = (i, q) :: rest →
      let E : DieState := { D with fab := { D.fab with transit := rest } }
      (D.fab.assigned = true → q.dstNode = D.fab.node → exec (.fabPacketForward a) s = .next (s.put a (E.deliverNode q))) ∧
      ((D.fab.assigned = false ∨ q.dstNode ≠ D.fab.node) →
        (D.fab.plate = none → exec (.fabPacketForward a) s = .next (s.put a (E.count B_FAB FAB_NOROUTE_DROPS))) ∧
        (∀ P, D.fab.plate = some P →
          (P.hopLimit ≤ q.hops → exec (.fabPacketForward a) s = .next (s.put a (E.count B_FAB FAB_HOP_DROPS))) ∧
          (q.hops < P.hopLimit → s.routeOf P E i q = none →
            exec (.fabPacketForward a) s = .next (s.put a (E.count B_FAB FAB_NOROUTE_DROPS))) ∧
          (∀ out floor again, q.hops < P.hopLimit → s.routeOf P E i q = some (out, floor, again) →
            let F := if again = true then E.cause B_FAB 2 else E
            let y := { q with lane := max q.lane floor, hops := q.hops + 1, rerouted := q.rerouted || again }
            exec (.fabPacketForward a) s = .next (s.put a (if out / 2 = D.num then F.portPut (out % 2) i y
              else (F.ringSend (out / 2) { cls := 5, pkt := y, egress := some out }).getD (F.count B_FAB FAB_NOROUTE_DROPS))))))) ∧
    (D.admits r B_FAB FAB_PORT_CTRL true → bit v.toNat 1 = true →
      let T := D.touchSession r
      let k := T.sel r.id B_FAB FAB_PORT_SEL % 2
      exec (.fabPortRetrain a r v) s = .next (s.put a ((T.setEnable k (bit v.toNat 0)).portRetrain k)))

/-- Plates and waggles (R473, R482, R483, R497-R503): a stage that passes the checks of R497 stages the image on every
running die, and one that fails them only answers; a switch is scheduled on a frame boundary of both plates and can be
aborted before it; at its time the plate becomes active; waggles go out once a millisecond and are noted; a pull goes on to
the next peer after 10 ms. -/
def Obligations.PlatesStageSwitchAndPull : Prop :=
  (∀ (s : State) (a : At) (id n : Nat) (c : Cmd), s.up a →
    let D := s.dieAt a
    let S := s.put a D
    (a.die ≠ 0 →
      (D.readyCmd 0x0600 id c → exec (.plateStage a id) s = .next (S.replyAt a.die c .refusedRole).settleFlash) ∧
      (D.readyCmd 0x0601 id c → exec (.plateSwitch a id) s = .next (S.replyAt a.die c .refusedRole).settleFlash) ∧
      (D.readyCmd 0x0602 id c → exec (.plateAbort a id) s = .next (S.replyAt a.die c .refusedRole).settleFlash)) ∧
    (a.die = 0 → D.readyCmd 0x0600 id c → 416 ≤ c.p 8 4 → c.p 8 4 ≤ 2 ^ 24 →
      exec (.plateStage a id) s = .next
        (match runM (paramRead id c.stacked c.ctx (c.p 0 8) (c.p 8 4)) D with
         | (.ok image, D') =>
           let T := s.put a D'
           (match T.plateCheck image false with
            | none => (T.stageImage image).replyAt a.die c .ok
            | some st => T.replyAt a.die c st)
         | (.error f, D') =>
           (match f.need with
            | some (g, n) => s.put a (D.askParam id c.inst g n)
            | none => (s.put a D').replyAt a.die c f.status f.reason)).settleFlash) ∧
    (a.die = 0 → D.readyCmd 0x0601 id c →
      (∀ P, D.fab.staged = some P → P.epoch = c.p 0 8 →
        (match D.fab.plate with | some Q => c.p 8 8 % (Q.frameMs * 1000000) = 0 | none => c.p 8 8 % 100000000 = 0) →
        c.p 8 8 % (P.frameMs * 1000000) = 0 → D.now + 2 * D.frameNs ≤ c.p 8 8 → c.p 8 8 ≤ D.now + 86400000000000 →
        exec (.plateSwitch a id) s = .next (((S.onRunning (fun D =>
          { D with fab := { D.fab with switchAt := some (c.p 8 8), rejoin := false, missed := false } })).replyAt a.die c .ok).settleFlash)) ∧
      ((∀ P, D.fab.staged = some P → P.epoch ≠ c.p 0 8) →
        exec (.plateSwitch a id) s = .next (S.replyAt a.die c .refusedPlate).settleFlash)) ∧
    (∀ P t0, a.die = 0 → D.readyCmd 0x0602 id c → D.fab.staged = some P → D.fab.switchAt = some t0 →
      (P.epoch = c.p 0 8 → D.now + D.frameNs < t0 → D.fab.rejoin = false → exec (.plateAbort a id) s = .next
        (((S.onRunning (fun D => { D with fab := { D.fab with switchAt := none } })).replyAt a.die c .ok).settleFlash)) ∧
      ((P.epoch ≠ c.p 0 8 ∨ t0 ≤ D.now + D.frameNs) →
        exec (.plateAbort a id) s = .next (S.replyAt a.die c .refusedPlate).settleFlash)) ∧
    (D.readyCmd 0x0603 id c → exec (.plateStatus a id) s = .next ((S.replyAt a.die c .ok 0
      (toLE 8 (plateEp D.fab.plate) ++ toLE 4 (plateEp D.fab.staged % 2 ^ 32) ++ toLE 1 D.plateState
        ++ toLE 1 S.activeMask ++ toLE 2 (D.fab.node + b2n D.fab.assigned * 32768))).settleFlash)) ∧
    (D.readyCmd 0x0604 id c → c.p 0 4 < 8 →
      let x := (quadGet S.dies (c.p 0 4 / 2)).port (c.p 0 4 % 2)
      exec (.portStatus a id) s = .next ((S.replyAt a.die c .ok 0
        (toLE 4 x.stateWord ++ toLE 4 x.peerWord ++ toLE 4 x.lengthWord ++ toLE 4 x.opticsWord)).settleFlash)) ∧
    (D.readyCmd 0x0605 id c → c.p 0 4 < 8 → c.p 4 4 ≤ 1 → (quadGet S.dies (c.p 0 4 / 2)).boot.held = false →
      let set (D : DieState) : DieState := D.setEnable (c.p 0 4 % 2) (c.p 4 4 == 1)
      let U : State := { S with dies := quadMod S.dies (c.p 0 4 / 2) set }
      exec (.portEnable a id) s = .next (U.replyAt a.die c .ok).settleFlash) ∧
    exec (.plateSwitchAtT a) s = .next (S.activateAll a.time) ∧
    (let x := D.port (n % 2)
     ((x.state = 3 ∨ x.state = 4) → x.lastWaggle + 990000 ≤ D.now → exec (.waggleSend a n) s = .next (s.put a
      ((D.onPort (n % 2) (fun x => { x with lastWaggle := D.now })).portPut (n % 2) 2
        (D.linkPacket (n % 2) pkWaggle (D.waggleBody (n % 2)))))) ∧
     (D.now < x.lastWaggle + 990000 → exec (.waggleSend a n) s = .next (s.put a D))) ∧
    (∀ p rx, D.fab.inbox.find? (fun p => p.kind == pkWaggle && p.arrival == 0x0C0 + n % 2) = some p →
      ((D.port (n % 2)).state = 3 ∨ (D.port (n % 2)).state = 4) →
      let E : DieState := { D with fab := { D.fab with inbox := D.fab.inbox.erase p } }
      ((p.body.length ≠ 128 ∨ field p.body 0 2 ≠ 1) → exec (.waggleReceive a n rx) s =
        .next (s.put a (E.onPort (n % 2) (fun x => { x with waggles := 0 })))) ∧
      (p.body.length = 128 → field p.body 0 2 = 1 →
        exec (.waggleReceive a n rx) s = .next (((s.put a (E.noteWaggle (n % 2) p.body rx)).comparePlate a (n % 2) p.body).onDie
          a.die (fun D =>
            let x := D.port (n % 2)
            if x.state = 4 ∧ (x.peerState ≠ 4 ∨ !x.wiringOk ∨ !x.lengthOk ∨ !x.powerOk) then D.backToUp (n % 2)
            else D.tryActive (n % 2))))) ∧
    (∀ p E, D.takePkt (· == pkPlate) = some (p, E) →
      (∀ P, field p.body 0 4 = 0 → E.fab.plate = some P → P.epoch = field p.body 8 8 → field p.body 4 4 < P.image.length →
        exec (.platePacketReceive a) s = .next (s.put a
          (E.portPut (p.arrival - 0x0C0) 2 (E.linkPacket (p.arrival - 0x0C0) pkPlate
            (plateBody 1 (field p.body 4 4) P.epoch ((P.image.drop (field p.body 4 4)).take 3056)))))) ∧
      (∀ u, field p.body 0 4 ≠ 0 → s.pkg.pull = some u → u.port = 2 * E.num + (p.arrival - 0x0C0) →
        u.epoch = field p.body 8 8 → field p.body 4 4 = u.bytes.length →
        let v : PlatePull := { u with bytes := u.bytes ++ p.body.drop 16, start := E.now }
        let T := s.put a E
        let T' : State := { T with pkg := { T.pkg with pull := some v } }
        exec (.platePacketReceive a) s = .next
          (if v.bytes.length < 8 ∨ v.bytes.length < field v.bytes 4 4 then T'.askChunk else T'))) ∧
    (∀ u, s.pkg.pull = some u →
      exec (.platePullTimeout a) s = .next (if a.time < u.start + 10000000 then S else S.startPull a.time (u.tried ++ [u.port]))) ∧
    (∀ u, s.pkg.pull = some u → 64 ≤ u.bytes.length → field u.bytes 4 4 ≤ u.bytes.length →
      let image := u.bytes.take (field u.bytes 4 4)
      let bad := plateEpoch image ≠ u.epoch ∨ (S.plateCheck image true).isSome = true
      (bad → exec (.platePullDone a) s = .next (S.startPull a.time (u.tried ++ [u.port]))) ∧
      (¬ bad → ((plateFor image a.die.val).bind plateNode).isSome = true →
        exec (.platePullDone a) s = .next ((S.stageImage image).scheduleRejoin a.time)))) ∧
  (∀ (D : DieState) (P : Plate) (t : Nat), (D.activate P t).fab.plate = some P ∧ (D.activate P t).fab.staged = none ∧
     (D.activate P t).fab.switchAt = none ∧ (D.activate P t).fab.quarantined = false ∧ (D.activate P t).fab.switched = some t)

/-- The package ring and injections on links (R23-R25, R504-R506, R570-R572): a trained module waits in HOLD; after 100 ms
it is ACTIVE; an active module sends its heartbeat every 10 µs; a failure takes its link down on every die; a message of a
neighbour crosses, past the injections of both dies; a retraining write takes the module down beside what its other bits do; an
injection is entered in service mode, stops by its ID, and ends at its time. -/
def Obligations.RingModulesTrainFailAndCarry : Prop :=
  ∀ (s : State) (a : At) (n id : Nat) (rivals : List Nat) (r : Req) (v : Word) (c : Cmd), s.up a →
    let D := s.dieAt a
    let S := s.put a D
    let m := n % 2
    let x := D.d2d.mod m
    (∀ tx rx, (x.state = 1 ∨ x.state = 4) → tx ≤ 4 → rx ≤ 4 →
      let E := D.onMod m (fun x => { x with state := 3, since := D.now, txRepaired := tx, rxRepaired := rx })
      exec (.ucieTrainingDone a n tx rx) s = .next (s.put a (if 0 < tx + rx then E.cause B_D2D 2 else E))) ∧
    (x.state = 3 → x.since + 100000000 ≤ D.now → exec (.ucieHoldExpire a n) s =
      .next ((s.put a ((D.onMod m (fun x => { x with state := 2 })).cause B_D2D 1)).linkOn a.die.val m)) ∧
    ((x.state = 2 ∨ x.state = 3) → x.beat + 10000 ≤ D.now → exec (.ucieHeartbeatSend a n) s =
      .next (s.put a ((D.onMod m (fun x => { x with beat := D.now })).out (.heartbeat m)))) ∧
    (∀ cause, (x.state = 2 ∨ x.state = 3) → 1 ≤ cause → cause ≤ 4 → exec (.ucieModuleFail a n cause) s =
      .next (((S.moduleDown a.die.val m 4 cause).onDie a.die (fun D => ((D.count32 B_D2D D2D_FAILS 1 m).cause B_D2D 0).event
        { cls := 11, code := 0x02, island := 34 + m, ident := m, cause := cause })).settleWorks)) ∧
    (let e := ringPeer a.die.val m
     let E := quadGet S.dies e
     ((E.d2d.mod (1 - m)).front = none → exec (.d2dPacketReceive a n) s = .next S) ∧
     (∀ g, (E.d2d.mod (1 - m)).front = some g →
       let sent := (E.onMod (1 - m) (fun x => { x with out := x.out.erase g })).linkPass 1 (modLink a.die.val m) true g.pkt
       exec (.d2dPacketReceive a n) s = .next (({ S with dies := quadSet S.dies e sent.2 } : State).onDie a.die (fun D =>
         sent.1.foldl (fun (D : DieState) q =>
           let got := D.linkPass 1 (modLink a.die.val m) false q.1
           got.1.foldl (fun (D : DieState) z =>
             let D := if q.2.isSome || z.2.isSome then D.count B_D2D D2D_RETRIES 1 m else D
             (D.count B_D2D D2D_FLITS_RX (ceilDiv (16 + z.1.body.length) 236) m).ringPacket m (some g) z.1) got.2) D)))) ∧
    (D.admits r B_D2D D2D_CTRL true → bit v.toNat 2 = true → 1 ≤ D.roleOf r →
      let k := D.sel r.id B_D2D D2D_MOD_SEL % 2
      let T := s.put a ((D.touchSession r).ctrlWrite r B_D2D v.toNat)
      exec (.d2dRetrain a r v) s =
        .next (if (D.d2d.mod k).state = 0 then T else (T.moduleDown a.die.val k 1 0).settleWorks)) ∧
    (D.readyCmd 0x0750 id c →
      let d := padTo 32 c.params
      linkDescOk d = true → (injectDies d).contains a.die.val = true →
      (c.role = 2 ∨ (c.role = 1 ∧ bit (field d 5 1) 0 = false)) →
      (∀ e ∈ injectDies d, (quadGet S.dies e).saf.service.isSome = true) →
      let free := (List.range 4).filter (fun k => (tabFind D.fab.injections k).isNone)
      exec (.linkInject a id rivals) s = .next
        (match runM (claim 13 209 free.length c.queue rivals) D, free.head? with
         | (.error f, _), _ => S.replyAt a.die c f.status f.reason
         | (.ok _, _), none => S.replyAt a.die c .refusedFull 13
         | (.ok _, E), some k =>
           let j : LinkInj := { id := D.log.nextInj, desc := d, start := D.now }
           let F : DieState := { E with
             log := { E.log with nextInj := D.log.nextInj + 1 }
             fab := { E.fab with injections := tabPut k j E.fab.injections, injStarted := E.fab.injStarted + 1 } }
           (s.put a (F.event { cls := 13, code := 0x01, island := 39, ident := D.log.nextInj })).replyAt a.die c .ok 0
             (toLE 4 D.log.nextInj)).settleFlash) ∧
    (D.readyCmd 0x0751 id c →
      exec (.linkInjectStop a id) s = .next (if D.fab.injections.any (fun e => e.2.id == c.p 0 4) = true
        then (S.endLinks a.die.val (fun x => x.id == c.p 0 4)).replyAt a.die c .ok
        else S.replyAt a.die c .faultStaleGeneration).settleFlash) ∧
    exec (.injectionExpire a) s = .next ((s.put a ((D.log.injections.filter (fun e => e.2.stop ≤ D.now || e.2.left == 0)).foldl
      (fun D e => D.endInjection e.1) D)).expireLinks a.die.val a.time)

/-- Ethernet and PTP (R562-R566, R598, R599): a frame with a bad FCS is counted and dropped, one of a wrong length, of another
destination or kind counted and dropped, and another goes where its kind belongs; a link that goes up or down
raises cause 0 of ETH and an event; 3 s without a Sync lose the lock; a 1PPS edge records its offset, and an event above 1 µs;
the loss of the Ethernet reference takes every link down. -/
def Obligations.EthernetFramesLinksAndTime : Prop :=
  (∀ (s : State) (a : At) (port : Nat), s.up a → port < 5 →
    let D := s.dieAt a
    let x := D.ethPort port
    (∀ corr bad f first ptp, x.link = false → exec (.ethFrameRx a port corr bad f first ptp) s = .next (s.put a D).settlePtp) ∧
    (∀ corr bad f first ptp, x.link = true →
      let E := if x.fec = true then (D.count B_ETH ETH_FEC_CORR corr port).count B_ETH ETH_FEC_UNCORR bad port else D
      let lost := x.fec && bad != 0
      (port = 4 → exec (.ethFrameRx a port corr bad f first ptp) s = .next (s.put a (E.checkFrame port f lost first ptp)).settlePtp) ∧
      (port < 4 →
        let r := E.linkPass 2 (4 * D.num + port) false { kind := 0, body := f.take (f.length - 4) }
        let whole (b : List Byte) : List Byte :=
          b ++ (if b = f.take (f.length - 4) then f.drop (f.length - 4) else toLE 4 (fcs b))
        exec (.ethFrameRx a port corr bad f first ptp) s = .next (s.put a (r.1.foldl (fun D q =>
          D.checkFrame port (match q.2 with | some k => flipBit (whole q.1.body) k | none => whole q.1.body) lost first ptp) r.2)).settlePtp)) ∧
    (∀ fec fault, bit (D.reg B_ETH ETH_PORT_CTRL port) 0 = true → D.clk.refEth = true →
      let E := D.onEth port (fun e => { e with link := true, fec := fec && port != 4, remoteFault := fault })
      exec (.ethLinkChange a port true fec fault) s = .next (s.put a (if x.link = true then E else
        (E.cause B_ETH 0).event { cls := 11, code := 0x03, island := if port = 4 then 33 else 32, ident := port, cause := 1 }))) ∧
    (∀ fec fault,
      let E := D.onEth port (fun e => { e with link := false, fec := false, remoteFault := fault })
      exec (.ethLinkChange a port false fec fault) s = .next (s.put a (if x.link = false then E else
        (E.cause B_ETH 0).event { cls := 11, code := 0x03, island := if port = 4 then 33 else 32, ident := port }))) ∧
    (∀ g, D.ptp.gm = some g → D.ptp.viaUcie = false → D.ptp.lastSync + 3000000000 ≤ D.now →
      exec (.ptpSyncTimeout a) s =
        .next (s.put a (({ D with ptp := { D.ptp with syncs := 0 } } : DieState).setLock false)).settlePtp) ∧
    (D.now < D.ptp.lastSync + 3000000000 → exec (.ptpSyncTimeout a) s = .next (s.put a D).settlePtp) ∧
    (∀ o : Int,
      let E := D.setReg B_ETH ETH_PPS_OFFSET (wrapN 32 o)
      exec (.ppsEdge a o) s = .next (s.put a (if 1000 < o.natAbs then
        (E.cause B_ETH 3).event { cls := 2, code := 0x07, loc := D.now } else E))) ∧
    (D.clk.refEth = true →
      let E : DieState := { D with clk := { D.clk with refEth := false } }
      let F := (E.cause B_CLK 0).event { cls := 2, code := 0x01, ident := 2 }
      let G := (List.range 5).foldl (fun D p => D.ethLink p false false false) F
      exec (.ethrefLoss a) s = .next (s.put a G) ∧
      (tabWf (fun _ => ({} : EthPort)) D.eth = true → (G.ethPort port).link = false))) ∧
  (∀ (D : DieState) (p : Nat) (f : List Byte) (bad : Bool) (first : Nat) (ptp : Option PtpIn),
    let E := D.count B_ETH ETH_RX_FRAMES 1 p
    let body := f.take (f.length - 4)
    let y := ethFrame body
    let whole := bad = false ∧ field f (f.length - 4) 4 = fcs body
    let fits := 64 ≤ f.length ∧ f.length ≤ 9216
    let mine := E.dstOk p y = true ∧ (∀ t, y.tag = some t → E.vidOk p (t % 4096) = true) ∧
      [0x0800, 0x86DD, 0x0806, 0x88F7, 0x88CC].contains y.kind = true
    (¬ whole → D.checkFrame p f bad first ptp = E.count B_ETH ETH_RX_FCS_ERR 1 p) ∧
    (whole → ¬ fits → D.checkFrame p f bad first ptp = E.count B_ETH ETH_RX_LEN_ERR 1 p) ∧
    (whole → fits → ¬ mine → D.checkFrame p f bad first ptp = E.count B_ETH ETH_RX_FILTERED 1 p) ∧
    (whole → fits → mine → D.checkFrame p f bad first ptp = E.routeFrame p y first ptp))

/-! ## Resets and boot (ch. 18) -/

/-- The pins and the resets (R600, R602, R603, R605, R640-R643): PWR_GOOD low and PKG_RESET# low put every die in reset, the
first with every field at its reset value but the levels of its pins, the second keeping the time base and the log's ring,
with bit 1 of GLB_RESET_CAUSE added; both high, each die whose rails are in range begins its boot at stage 0 and another is
held with error 10; the maker's package_reset bit does both; 10 ms after its cause a die reset ends and the die boots alone;
a trip threshold that a sample passes resets the die with the cause it latches. -/
def Obligations.ResetsHoldAndReleaseTheDies : Prop :=
  ∀ (s : State) (a : At) (bad : Nat) (test : Bool) (r : Req) (v : Word),
    let hold (D : DieState) (now : Nat) (l : LogState) (b : BootState) : DieState :=
      { num := D.num, now := now, fresh := D.fresh, outs := D.outs, log := l, mem := { host := D.mem.host }
        clk := { refA := D.clk.refA, refB := D.clk.refB, refEth := D.clk.refEth }, pcie := { perst := D.pcie.perst }, boot := b }
    let ring (D : DieState) : LogState :=
      { ring := D.log.ring, nextSeq := D.log.nextSeq, flushedSeq := D.log.flushedSeq, lost := D.log.lost, lastFlush := D.now }
    let starts (t : State) (d : Die) (alone : Bool) (slot : Nat) (orphan : Bool) : Prop :=
      (t.die d).boot = { held := false, alone := alone, released := (t.die d).now, slot := slot, orphan := orphan }
    let timed (d : Die) : DieState := if d = a.die then s.dieAt a else s.die d
    (s.pkg.pwrGood = true → ∃ t, exec (.pwrGoodFall a) s = .next t ∧
      t.pkg = { s.pkg with pwrGood := false, pull := none } ∧
      ∀ d, ∃ o, t.die d = { hold (s.die d) 0 {} { held := true } with outs := o }) ∧
    (s.pkg.pwrGood = true → s.pkg.resetLow = false → ∃ t, exec (.pkgResetAssert a) s = .next t ∧
      t.pkg = { s.pkg with resetLow := true, pull := none } ∧
      ∀ d, (s.die d).boot.dieReset = false →
        let D := timed d
        ∃ o, t.die d = { (hold D D.now (ring D) { held := true }).setReg B_GLB GLB_RESET_CAUSE
          (orN (D.reg B_GLB GLB_RESET_CAUSE) 2) with outs := o }) ∧
    (s.pkg.pwrGood = false → s.pkg.resetLow = false → ∃ t, exec (.powerOn a bad test) s = .next t ∧
      t.pkg = { s.pkg with pwrGood := true, test := test } ∧
      ∀ d, (s.die d).boot.held = true → (s.die d).boot.dieReset = false →
        (bit bad d.val = false → starts t d false (s.die d).boot.slot (s.die d).boot.orphan ∧ (t.die d).now = (s.die d).now) ∧
        (bit bad d.val = true → (t.die d).boot =
          { (s.die d).boot with dieReset := true, trip := false, error := 10, causeGone := none })) ∧
    (s.pkg.pwrGood = true → s.pkg.resetLow = true → ∃ t, exec (.pkgResetRelease a bad) s = .next t ∧
      t.pkg = { s.pkg with resetLow := false } ∧
      ∀ d, (s.die d).boot.held = true → (s.die d).boot.dieReset = false →
        (bit bad d.val = false → starts t d false (s.die d).boot.slot (s.die d).boot.orphan ∧ (t.die d).now = (timed d).now) ∧
        (bit bad d.val = true → (t.die d).boot =
          { (s.die d).boot with dieReset := true, trip := false, error := 10, causeGone := none })) ∧
    (s.up a → s.pkg.pwrGood = true → s.pkg.resetLow = false → (s.dieAt a).admits r B_GLB GLB_CTRL true →
      (s.dieAt a).roleOf r = 2 → bit v.toNat 2 = true → ∃ t, exec (.glbPackageReset a r v bad) s = .next t ∧
      t.pkg = { s.pkg with pull := none } ∧
      ∀ d, (s.die d).boot.held = false → bit bad d.val = false → starts t d false 0 false ∧ (t.die d).cmd = {} ∧
        (t.die d).reg B_GLB GLB_RESET_CAUSE = orN ((timed d).reg B_GLB GLB_RESET_CAUSE) 4 % 2 ^ 32) ∧
    (∀ t0, (s.die a.die).boot.causeGone = some t0 → (s.die a.die).boot.held = true → (s.die a.die).boot.dieReset = true →
      s.pkg.pwrGood = true → s.pkg.resetLow = false → t0 + 10000000 ≤ (s.dieAt a).now →
      ∃ t, exec (.dieResetRelease a) s = .next t ∧ starts t a.die true (s.die a.die).boot.slot (s.die a.die).boot.orphan ∧
        (t.die a.die).now = 0 ∧ t.pkg = s.pkg ∧ ∀ d, d ≠ a.die → t.die d = s.die d) ∧
    (∀ die opt0 opt1, s.up a → (s.dieAt a).log.injections = [] → overTrip die opt0 opt1 = true →
      ∃ t, exec (.dieTempSample a die opt0 opt1) s = .next t ∧ t.pkg.flash = s.pkg.flash ∧ (t.die a.die).boot.held = true ∧
        (t.die a.die).boot.dieReset = true ∧ (t.die a.die).boot.trip = true ∧ (t.die a.die).boot.error = 9 ∧
        bit ((t.die a.die).reg B_GLB GLB_RESET_CAUSE) 4 = true)

/-- The straps and the boot's stages (R27, R28, R601-R603): a die takes the strap values of dies that boot, and at 10 ms
closes the exchange, with a failure of code 1 where a value is not its position; each stage that is done leads to the
next one (stage 2 takes a reference in range, stage 3 the repaired rows, stage 4 the image of die 0 or of the slot), and a
failed one stops the boot with its code; a die that is not ready after 1.5 s fails with code 8; a die found lost is marked,
and a neighbour's module that leads to it goes down. -/
def Obligations.BootsAdvanceStageByStage : Prop :=
  ∀ (s : State) (a : At) (p : Die) (digestBad anchorsBad : Bool), s.up a →
    let D := s.dieAt a
    let S := s.put a D
    (p ≠ a.die → (s.die p).boot.held = false → 2 ≤ (s.die p).boot.stage → D.boot.closed = false →
      exec (.strapValueReceive a p) s =
        .next (s.put a { D with boot := { D.boot with straps := tabPut p.val (strapAt p.val) D.boot.straps } })) ∧
    (D.boot.closed = false → D.boot.alone = false → D.boot.released + 10000000 ≤ D.now → D.boot.error = 0 →
      let all := (D.num, strapAt D.num) :: D.boot.straps
      let silent := [0, 1, 2, 3].filter (fun d => d != D.num && (tabFind D.boot.straps d).isNone)
      ((∃ e ∈ all, e.1 ≠ e.2) → ∃ E, exec (.strapExchangeClose a) s = .next (s.put a E) ∧
        E.boot = { D.boot with closed := true, conflict := true, error := 1 }) ∧
      ((∀ e ∈ all, e.1 = e.2) → exec (.strapExchangeClose a) s = .next (s.put a
        (silent.foldl (fun E d => E.markLost d) { D with boot := { D.boot with closed := true } })))) ∧
    (D.boot.stage = 2 → D.boot.error = 0 → D.boot.alone = true → D.num = a.die.val →
      (strapAt a.die.val = a.die.val → (∀ e : Die, e ≠ a.die → strapAt e.val = e.val) →
        exec (.strapLateArrival a) s = .next ((S.onRunning (fun E => if E.num = a.die.val then E
          else { E with boot := { E.boot with lost := andNot E.boot.lost (2 ^ a.die.val) } })).onDie a.die
            (fun E => { E with boot := { E.boot with closed := true } }))) ∧
      (strapAt a.die.val ≠ a.die.val → exec (.strapLateArrival a) s = .next (s.put a (D.bootFail 1)))) ∧
    (D.boot.error = 0 →
      let goes (P : DieState → Prop) : Prop := ∃ t, exec (.bootStageAdvance a digestBad anchorsBad) s = .next t ∧ P (t.die a.die)
      let at_ (n : Nat) (E : DieState) : Prop := E.boot.stage = n
      let fails (n : Nat) (E : DieState) : Prop := E.boot = { D.boot with error := n }
      (D.boot.stage = 0 → s.pkg.test = false → goes (at_ 1)) ∧
      (D.boot.stage = 1 → goes (fun E =>
        (Config.fuseMapValid a.die = true → at_ 2 E) ∧ (Config.fuseMapValid a.die = false → fails 2 E))) ∧
      (D.boot.stage = 2 → D.clk.refA = false → D.clk.refB = false → goes (fails 7)) ∧
      (D.boot.stage = 2 → D.clk.refA = true → D.boot.closed = true → S.unwanted a.die.val = false → goes (fun E =>
        E = { D with boot := { D.boot with stage := 3 }, clk := { D.clk with selB := !D.clk.refA } })) ∧
      (D.boot.stage = 3 → (D.mem.s0.failed = true ∨ D.mem.s1.failed = true) → goes (fails 3)) ∧
      (D.boot.stage = 3 → D.mem.s0.failed = false → D.mem.s1.failed = false → D.mem.s0.ready = true → D.mem.s1.ready = true →
        goes (fun E => at_ 4 E ∧ E.mem = { D.mem with spared := sparedRows s.pkg.flash D.num })) ∧
      (D.boot.stage = 4 → a.die = 0 → D.boot.alone = false → goes (fun E =>
        (bootSlot s.pkg.flash s.pkg.flash.slot = none → fails 4 E) ∧
        ∀ n, bootSlot s.pkg.flash s.pkg.flash.slot = some n → at_ 5 E ∧ E.boot.slot = n ∧
          E.boot.image = if n = 0 then s.pkg.flash.image0 else s.pkg.flash.image1)) ∧
      (D.boot.stage = 4 → a.die ≠ 0 → s.dies.q0.boot.held = false → s.dies.q0.boot.error = 0 → 5 ≤ s.dies.q0.boot.stage →
        bit D.boot.lost 0 = false → goes (fun E =>
          (digestBad = false → at_ 5 E ∧ E.boot.slot = s.dies.q0.boot.slot ∧ E.boot.image = s.dies.q0.boot.image) ∧
          (digestBad = true → D.boot.badImage = false → E = { D with boot := { D.boot with badImage := true } }) ∧
          (digestBad = true → D.boot.badImage = true → fails 5 E))) ∧
      (D.boot.stage = 4 → a.die ≠ 0 → s.dies.q0.boot.held = true → D.boot.alone = false → goes (fails 6)) ∧
      (D.boot.stage = 5 → exec (.bootStageAdvance a digestBad anchorsBad) s = .next (S.bootFirmware a.die anchorsBad)) ∧
      (D.boot.stage = 6 → exec (.bootStageAdvance a digestBad anchorsBad) s = .next (S.bootConfig a.die)) ∧
      (D.boot.stage < 7 → D.boot.alone = false → D.boot.released + 1500000000 ≤ D.now → exec (.bootReadyTimeout a) s = .next
        (((s.put a (D.bootFail 8)).onRunning (fun E => if E.num = a.die.val then E else E.markLost a.die.val)).settleWorks))) ∧
    (p ≠ a.die → S.gone a.die.val p.val = true →
      let marked := s.put a (D.markLost p.val)
      let side (m : Nat) (t : State) : State := if ringPeer a.die.val m = p.val then t.dropModule a.die.val m else t
      exec (.dieLost a p) s = .next (side 1 (side 0 marked)).settleWorks)

/-! ## Every command -/

/-- Every command has an outcome in every state: a next state with the same waiting commands. No command faults and none
is refused. -/
def Obligations.EveryCommandAnswers : Prop :=
  ∀ (i : Instr) (s : State), ∃ t, exec i s = .next t ∧ t.pending = s.pending

/-- A die held in reset sees only its pins, its rails and its sensors: every other command leaves the package as it is
(R600). -/
def Obligations.HeldDiesIgnoreCommands : Prop :=
  ∀ (i : Instr) (s : State), i.isPin = false → (s.die i.at.die).boot.held = true → exec i s = .next s

/-- A command that is not one of the ring, of the flash, of a pin or of another die's memory changes its own die only. -/
def Obligations.CommandsStayOnTheirDie : Prop :=
  ∀ (i : Instr) (s : State), i.isWide = false → ∃ D, exec i s = .next (s.put i.at D)

/-! ## Reset and the invariants -/

/-- The machine after reset: nothing waits, PWR_GOOD is low and every die is held, no register differs from its reset value
(of the map where it gives one), the memories list nothing, and both invariants hold. The zeros of registers without a
field table, of unlisted bytes, and the pins are the model's choice (log entries 5, 4 and 162). -/
def Obligations.InvariantsHoldAtReset : Prop :=
  State.reset.pending = [] ∧ State.reset.pkg.pwrGood = false ∧ State.reset.PinsHoldDies ∧
  State.reset.pkg.flash.InOrder ∧
  ∀ d : Die, (State.reset.die d).num = d.val ∧ (State.reset.die d).boot.held = true ∧
    (∀ b off sel, b < 65536 → off < 65536 → (State.reset.die d).reg b off sel = regReset b off % 2 ^ 32) ∧
    (State.reset.die d).cmd.cmds = [] ∧ (State.reset.die d).mem.bytes = [] ∧
    ∀ c, (quadGet (State.reset.die d).clusters c).bytes = []

/-- A pin that is low holds every die in reset, after every step: no command releases a die while PWR_GOOD or PKG_RESET#
is low, and none that lowers a pin leaves a die running (R600, R640-R642). -/
def Obligations.PinsHoldDiesIsKept : Prop :=
  ∀ s t : State, s.PinsHoldDies → step s = .next t → t.PinsHoldDies

/-- The audit log stays a sequence within its area, and the event rings of the flash within theirs, after every step: no
command rewrites, reorders or overfills them (R461, R464, R620). -/
def Obligations.FlashInOrderIsKept : Prop :=
  ∀ s t : State, s.pkg.flash.InOrder → step s = .next t → t.pkg.flash.InOrder

/-! ## Shared arithmetic and counters -/

/-- Additions into an accumulator are modulo 2^32: the final value is the sum's residue in the I32 range, whatever the
order of the terms (R48). -/
def Obligations.AccumulatorsAddModulo : Prop :=
  ∀ (x : Int) (ss : List Int), wrap32 x = x →
    (-(2 ^ 31) ≤ (accAll false x ss).1 ∧ (accAll false x ss).1 < 2 ^ 31) ∧
    ((accAll false x ss).1 - (x + ss.sum)) % 2 ^ 32 = 0 ∧
    (∀ s, ((accAdd false x s).1 - (x + s)) % 2 ^ 32 = 0) ∧
    ∀ ss', ss.Perm ss' → (accAll false x ss').1 = (accAll false x ss).1

/-- Seeding a core sets lane l of engine e (1 DTE, 2 STE, 3 MVP, 4 VU) from its global index 64 e + l, and the forager's
update unit seeds lane l from 512 + l (R62). -/
def Obligations.GeneratorsAreSeeded : Prop :=
  let want (S i : Nat) : Nat :=
    let x := ((S % 2 ^ 16 + (i + 1) * 0x9E37) % 2 ^ 16) ^^^ (S / 2 ^ 16)
    if x = 0 then 0xACE1 else x
  (∀ (k : Core) (S e l : Nat), S < 2 ^ 32 → 1 ≤ e → e ≤ 4 → l < 64 →
    ((k.seedAll S).engine e).lanes.getD l 0 = want S (64 * e + l)) ∧
  ∀ S l : Nat, S < 2 ^ 32 → l < 64 → (seedLanes S 512).getD l 0 = want S (512 + l)

/-- A counter adds and stops at its largest value, while its block counts; a block that does not count keeps it. Every
other register keeps its word (R623, R13). -/
def Obligations.CountersSaturate : Prop :=
  ∀ (D : DieState) (b off n sel : Nat), tabWf regDefault D.csr.regs = true → b < 65536 → off + 4 < 65536 →
    (D.counts b = false → D.count b off n sel = D ∧ D.count32 b off n sel = D) ∧
    (D.counts b = true →
      (D.count b off n sel).reg64 b off sel = min (D.reg64 b off sel + n) (2 ^ 64 - 1) ∧
      (D.count32 b off n sel).reg b off sel = min (D.reg b off sel + n) (2 ^ 32 - 1)) ∧
    tabWf regDefault (D.count b off n sel).csr.regs = true ∧
    tabWf regDefault (D.count32 b off n sel).csr.regs = true ∧
    ∀ b' off' sel', b' < 65536 → off' < 65536 → ¬ (b' = b ∧ sel' = sel ∧ (off' = off ∨ off' = off + 4)) →
      (D.count b off n sel).reg b' off' sel' = D.reg b' off' sel' ∧
      (D.count32 b off n sel).reg b' off' sel' = D.reg b' off' sel'

/-- An event that finds the intake full is coalesced (R617): it writes no record, it adds 1 to the two counts of its class
and to the total, which saturate (R623), and its time is the first coalesced time when none has been coalesced since the
last summary; a later one leaves that time. -/
def Obligations.CoalescedEventsOnlyCount : Prop :=
  ∀ (D : DieState) (e : Event), D.log.isLost = false → 32 ≤ D.log.intake.length → e.cls < 16 →
    tabWf regDefault D.csr.regs = true → D.counts B_EVL = true →
    let E := D.event e
    let up (off sel : Nat) : Prop := E.reg64 B_EVL off sel = min (D.reg64 B_EVL off sel + 1) (2 ^ 64 - 1)
    E.log.ring = D.log.ring ∧ E.log.intake = D.log.intake ∧ E.log.nextSeq = D.log.nextSeq ∧
    up EVL_CLASS_COALESCED e.cls ∧ up EVL_CLASS_COUNT e.cls ∧ up EVL_COALESCED_TOTAL 0 ∧
    (D.log.coalFirst = none → E.log.coalFirst = some D.now) ∧
    (∀ t, D.log.coalFirst = some t → E.log.coalFirst = some t)

/-! ## Packed elements -/

/-- I4 elements, two to a byte (R45): the element of the lower index in bits 3:0, the next one in bits 7:4; the last byte
of an odd row has 0 above its element, and a reader takes no notice of what stands there. -/
def Obligations.NibblesArePackedLowFirst : Prop :=
  ∀ xs : List Int, (∀ x ∈ xs, -8 ≤ x ∧ x ≤ 7) →
    (packRow .i4 xs).length = (xs.length + 1) / 2 ∧
    (∀ j < xs.length, j % 2 = 0 → ((packRow .i4 xs).getD (j / 2) 0).toNat % 16 = wrapN 4 (xs.getD j 0)) ∧
    (∀ j < xs.length, j % 2 = 1 → ((packRow .i4 xs).getD (j / 2) 0).toNat / 16 = wrapN 4 (xs.getD j 0)) ∧
    (xs.length % 2 = 1 → ((packRow .i4 xs).getD (xs.length / 2) 0).toNat / 16 = 0) ∧
    rowElems .i4 xs.length (packRow .i4 xs) = xs ∧
    ∀ (row : List Byte) (b : Byte), xs.length % 2 = 1 → row.length = xs.length / 2 →
      b.toNat % 16 = ((packRow .i4 xs).getD (xs.length / 2) 0).toNat % 16 → row = (packRow .i4 xs).take (xs.length / 2) →
      rowElems .i4 xs.length (row ++ [b]) = xs
end

