-- ==== Sys2Proof/Laws/Actions.lean ====
section
/-! SUPPORT. Actions over a die: how a sequence of them runs, and what commands whose checks pass answer. -/

namespace Sys2Proof.Machine

variable {α β : Type}

@[simp] theorem runM_pure (x : α) (D : DieState) : runM (pure x) D = (.ok x, D) := rfl

@[simp] theorem runM_get (D : DieState) : runM get D = (.ok D, D) := rfl

@[simp] theorem runM_set (D' D : DieState) : runM (set D') D = (.ok (), D') := rfl

@[simp] theorem runM_onD (f : DieState → DieState) (D : DieState) : runM (onD f) D = (.ok (), f D) := rfl

@[simp] theorem runM_throw (e : Fail) (D : DieState) : runM (throw e : M α) D = (.error e, D) := rfl

@[simp] theorem runM_failWith (st : Status) (r : Nat) (D : DieState) :
    runM (failWith st r : M α) D = (.error { status := st, reason := r }, D) := rfl

/-- A sequence goes on after success and ends with the first failure. -/
theorem runM_bind (m : M α) (f : α → M β) (D : DieState) :
    runM (m >>= f) D = match runM m D with
      | (.ok x, D') => runM (f x) D'
      | (.error e, D') => (.error e, D') := by
  simp only [runM, bind, ExceptT.bind, ExceptT.mk, StateT.bind, ExceptT.bindCont]
  cases h : m D with
  | mk r D' => cases r <;> rfl

/-- A pure change of what an action answers. -/
theorem runM_map (g : α → β) (m : M α) (D : DieState) :
    runM (g <$> m) D = match runM m D with
      | (.ok x, D') => (.ok (g x), D')
      | (.error e, D') => (.error e, D') := by
  rw [← bind_pure_comp, runM_bind]
  simp

theorem runM_bind_ok (m : M α) (f : α → M β) (D D' : DieState) (x : α) (h : runM m D = (.ok x, D')) :
    runM (m >>= f) D = runM (f x) D' := by rw [runM_bind, h]

theorem runM_bind_error (m : M α) (f : α → M β) (D D' : DieState) (e : Fail) (h : runM m D = (.error e, D')) :
    runM (m >>= f) D = (.error e, D') := by rw [runM_bind, h]

/-- A check that holds changes nothing. -/
@[simp] theorem runM_guardS_true (st : Status) (r : Nat) (D : DieState) : runM (guardS true st r) D = (.ok (), D) :=
  rfl

@[simp] theorem runM_guardS_false (st : Status) (r : Nat) (D : DieState) :
    runM (guardS false st r) D = (.error { status := st, reason := r }, D) := rfl

/-- Two bodies that agree on a list's elements run alike over it. -/
theorem mapM_congr (f g : α → M β) (l : List α) (h : ∀ x ∈ l, f x = g x) : l.mapM f = l.mapM g := by
  induction l with
  | nil => rfl
  | cons a l ih =>
    rw [List.mapM_cons, List.mapM_cons, h a (List.mem_cons_self ..), ih (fun x hx => h x (List.mem_cons_of_mem _ hx))]

/-- A body that succeeds and keeps an invariant at every element succeeds over the list and keeps it. -/
theorem runM_mapM_inv (P : DieState → Prop) (f : α → M β) (g : α → β) (l : List α)
    (h : ∀ x ∈ l, ∀ D, P D → ∃ D', runM (f x) D = (.ok (g x), D') ∧ P D') (D : DieState) (hD : P D) :
    ∃ D', runM (l.mapM f) D = (.ok (l.map g), D') ∧ P D' := by
  induction l generalizing D with
  | nil => exact ⟨D, rfl, hD⟩
  | cons a l ih =>
    obtain ⟨E, hE, hP⟩ := h a (List.mem_cons_self ..) D hD
    obtain ⟨F, hF, hQ⟩ := ih (fun x hx => h x (List.mem_cons_of_mem _ hx)) E hP
    refine ⟨F, ?_, hQ⟩
    rw [List.mapM_cons, runM_bind_ok _ _ _ _ _ hE, runM_bind_ok _ _ _ _ _ hF]
    rfl

theorem runM_ite (p : Prop) [Decidable p] (m n : M α) (D : DieState) :
    runM (if p then m else n) D = if p then runM m D else runM n D := by
  split <;> rfl

@[simp] theorem runM_okField_true (o : Nat) (D : DieState) : runM (okField true o) D = (.ok (), D) := rfl

@[simp] theorem runM_okField_false (o : Nat) (D : DieState) :
    runM (okField false o) D = (.error { status := .faultFormat, reason := 16 + o }, D) := rfl

end Sys2Proof.Machine
end

