-- ==== Sys2Proof/Laws/Memory.lean ====
section
/-! SUPPORT. Stacked memory: which accesses are admitted, what a read of clean granules answers, and what accesses may
change: the counters and the memory they name. -/

namespace Sys2Proof.Machine

/-! ## Where an access lies, and whether it is admitted -/

/-- A stack holds 24 or 36 GiB (R2). -/
theorem stackGiB_range : 24 ≤ stackGiB ∧ stackGiB ≤ 36 := by unfold stackGiB; split <;> omega

/-- The first 24 GiB of stack 0's own view are there in every part (R7). -/
theorem place_view0 (x : Nat) (h0 : 0x0040_0000_0000 ≤ x) (h : x - 0x0040_0000_0000 < 24 * 2 ^ 30) :
    place x = .stack 0 (x - 0x0040_0000_0000) 1 := by
  have hs := stackGiB_range
  have h1 : ¬ (x / 2 ^ 30 < 2 * stackGiB) := by omega
  have h2 : 0x0040_0000_0000 ≤ x ∧ (x - 0x0040_0000_0000) / 2 ^ 30 < stackGiB := by omega
  unfold place placeFor
  rw [if_neg h1, if_pos h2]

/-- An access to stack 0's own view that the controller admits passes the checks and changes nothing. -/
theorem checkStack_view0 (cx : Ctx) (a n : Nat) (w : Bool) (D : DieState) (h0 : 0x0040_0000_0000 ≤ a)
    (h1 : a + (n - 1) - 0x0040_0000_0000 < 24 * 2 ^ 30) (hr : D.regionAdmits cx.inst 1 a n w = true) :
    runM (checkStack cx a n w) D = (.ok (), D) := by
  have p0 := place_view0 a h0 (Nat.lt_of_le_of_lt (Nat.sub_le_sub_right (Nat.le_add_right _ _) _) h1)
  have p1 := place_view0 (a + (n - 1)) (Nat.le_trans h0 (Nat.le_add_right _ _)) h1
  simp [checkStack, runM_bind, stackRange, viewOf, p0, p1, hr]

/-- What the controller admits depends on the instances alone. -/
theorem regionAdmits_congr (D E : DieState) (h : D.ins = E.ins) (i v a n : Nat) (w : Bool) :
    D.regionAdmits i v a n w = E.regionAdmits i v a n w := by
  unfold DieState.regionAdmits DieState.gateClosed DieState.scrubbing
  rw [h]

theorem covers_within (r : Region) (v A N a n : Nat) (h : r.covers v A N = true) (h0 : A ≤ a) (h1 : a + n ≤ A + N) :
    r.covers v a n = true := by
  simp only [Region.covers, Bool.and_eq_true, decide_eq_true_eq] at h ⊢
  exact ⟨⟨h.1.1, by omega⟩, by omega⟩

/-- An instance's own region admits every access inside one that it admits, while nothing is reset or zeroed. -/
theorem regionAdmits_within (D : DieState) (i v A N a n : Nat) (w : Bool) (hg : D.gateClosed i = false)
    (hs : D.ins.scrubs = []) (he : insEnabled D.ins.active i = true)
    (ho : (ownRegion D.ins.active i v A N (if w then 1 else 0)).isSome = true) (h0 : A ≤ a) (h1 : a + n ≤ A + N) :
    D.regionAdmits i v a n w = true := by
  have ho' : (ownRegion D.ins.active i v a n (if w then 1 else 0)).isSome = true := by
    unfold ownRegion at ho ⊢
    rw [List.find?_isSome] at ho ⊢
    obtain ⟨r, hr, hc⟩ := ho
    rw [Bool.and_eq_true] at hc
    exact ⟨r, hr, by rw [covers_within _ _ _ _ _ _ hc.1 h0 h1, hc.2]; rfl⟩
  simp [DieState.regionAdmits, DieState.scrubbing, hg, hs, he, ho']

/-! ## Reads -/

/-- Counting changes no more than the counters. -/
theorem count_only (D : DieState) (b off n i : Nat) : ∃ c, D.count b off n i = { D with csr := c } := by
  unfold DieState.count
  split
  · exact ⟨_, rfl⟩
  · exact ⟨_, rfl⟩

/-- Marking a block's work changes no more than that either. -/
theorem work_only (D : DieState) (b : Nat) : ∃ c, D.work b = { D with csr := c } := by
  unfold DieState.work
  split
  · exact ⟨_, rfl⟩
  · exact ⟨_, rfl⟩

theorem granState_clean (D : DieState) (h : D.mem.grans = []) (n off : Nat) : D.granState n off = .clean := by
  simp [DieState.granState, DieState.gran, h, tabGet, tabGetF]

/-- A read of a clean granule answers memory's bytes and changes counters only. -/
theorem readGran_clean (cx : Ctx) (n off k : Nat) (D : DieState) (h : D.mem.grans = []) :
    ∃ c, runM (readGran cx n off k) D = (.ok (memRead D.mem.bytes (stackKey n off) k), { D with csr := c }) := by
  obtain ⟨c, hc⟩ := count_only D (B_HBMn n) HBM_CLASS_BYTES k cx.cls
  refine ⟨c, ?_⟩
  simp only [readGran, runM_bind, runM_get, runM_onD, granState_clean D h, runM_pure, hc]

/-- A request for a line changes counters only. -/
theorem lineServed_only (D : DieState) (n off : Nat) : ∃ c, D.lineServed n off = { D with csr := c } := by
  obtain ⟨c, hc⟩ := count_only D (B_HBMn n) HBM_PC_REQUESTS 1 (pseudoChannel off)
  obtain ⟨c', hc'⟩ := work_only { D with csr := c } (B_HBMn n)
  exact ⟨c', by unfold DieState.lineServed; rw [hc, hc']⟩
theorem lineRead_only (D : DieState) (n off : Nat) : ∃ c, D.lineRead n off = { D with csr := c } := by
  obtain ⟨c, hc⟩ := count_only D (B_HBMn n) HBM_READS 1 0
  obtain ⟨c', hc'⟩ := lineServed_only { D with csr := c } n off
  exact ⟨c', by unfold DieState.lineRead; rw [hc, hc']⟩

theorem pieces_one (a n : Nat) (h : n ≠ 0) (h1 : a % 32 + n ≤ 32) : pieces a n = [(a, n)] := by
  obtain ⟨m, rfl⟩ := Nat.exists_eq_succ_of_ne_zero h
  have hm : min (m + 1) (32 - a % 32) = m + 1 := by omega
  have h2 : ∃ k, (m + 1) / 32 + 2 = k + 2 := ⟨(m + 1) / 32, rfl⟩
  obtain ⟨k, hk⟩ := h2
  simp [pieces, granPieces, hm]

/-- A read of up to a granule of stack 0's own view, admitted and clean, answers memory's bytes (R444, R388). -/
theorem stackRead_view0 (cx : Ctx) (a n : Nat) (D : DieState) (hn : n ≠ 0) (h1 : a % 32 + n ≤ 32)
    (h0 : 0x0040_0000_0000 ≤ a) (h2 : a + (n - 1) - 0x0040_0000_0000 < 24 * 2 ^ 30)
    (hr : D.regionAdmits cx.inst 1 a n false = true) (hg : D.mem.grans = []) :
    ∃ c, runM (stackRead cx a n) D =
      (.ok (memRead D.mem.bytes (stackKey 0 (a - 0x0040_0000_0000)) n), { D with csr := c }) := by
  have p0 := place_view0 a h0 (Nat.lt_of_le_of_lt (Nat.sub_le_sub_right (Nat.le_add_right _ _) _) h2)
  obtain ⟨c, hc⟩ := lineRead_only D 0 (a - 0x0040_0000_0000)
  obtain ⟨c', hc'⟩ := readGran_clean cx 0 (a - 0x0040_0000_0000) n { D with csr := c } hg
  refine ⟨c', ?_⟩
  unfold stackRead
  rw [if_neg hn, runM_bind_ok _ _ _ _ _ (checkStack_view0 cx a n false D h0 h2 hr)]
  simp only [rawStackRead, pieces_one a n hn h1, List.mapM_cons, List.mapM_nil, p0, true_or, if_true, runM_bind, runM_onD,
    hc, hc', runM_pure]
  simp

/-! ## Writes -/

/-- A write to a granule changes counters and memory only, and leaves clean granules clean. -/
theorem writeGran_only (cx : Ctx) (n off : Nat) (bs : List Byte) (D : DieState) (h : D.mem.grans = []) :
    ∃ c m, D.writeGran cx n off bs = { D with csr := c, mem := m } ∧ m.grans = [] := by
  unfold DieState.writeGran
  rw [granState_clean D h]
  obtain ⟨c1, h1⟩ := count_only
    ({ D with mem := { D.mem with bytes := memWrite D.mem.bytes (stackKey n off) bs } } : DieState) (B_HBMn n) HBM_WRITES 1 0
  dsimp only
  rw [h1]
  obtain ⟨c2, h2⟩ := count_only
    ({ D with csr := c1, mem := { D.mem with bytes := memWrite D.mem.bytes (stackKey n off) bs } } : DieState)
    (B_HBMn n) HBM_CLASS_BYTES bs.length cx.cls
  rw [h2]
  split
  · refine ⟨c2, _, rfl, ?_⟩
    simp [h, tabSet, tabSetF, tabDel]
  · exact ⟨c2, _, rfl, h⟩

/-- A write of any length changes counters and memory only, and leaves clean granules clean. -/
theorem writePieces_only (cx : Ctx) (a : Nat) (bs : List Byte) (D : DieState) (h : D.mem.grans = []) :
    ∃ c m, writePieces cx a bs D = { D with csr := c, mem := m } ∧ m.grans = [] := by
  unfold writePieces
  generalize pieces a bs.length = l
  suffices ∀ (l : List (Nat × Nat)) (E : DieState), (∃ c m, E = { D with csr := c, mem := m } ∧ m.grans = []) →
      ∃ c m, l.foldl (fun D p => match place p.1 with
        | .stack k off _ =>
          (if p.1 = a ∨ p.1 % 64 = 0 then D.lineServed k off else D).writeGran cx k off ((bs.drop (p.1 - a)).take p.2)
        | _ => D) E = { D with csr := c, mem := m } ∧ m.grans = [] from this l D ⟨D.csr, D.mem, rfl, h⟩
  intro l
  induction l with
  | nil => exact fun E hE => hE
  | cons p l ih =>
    intro E ⟨c, m, hE, hm⟩
    refine ih _ ?_
    dsimp only
    split
    · next k off _ _ =>
      subst hE
      have hq : ∃ q, (if p.1 = a ∨ p.1 % 64 = 0 then DieState.lineServed { D with csr := c, mem := m } k off
          else { D with csr := c, mem := m }) = { D with csr := q, mem := m } := by
        split
        · exact lineServed_only _ k off
        · exact ⟨c, rfl⟩
      obtain ⟨q, hq⟩ := hq
      rw [hq]
      obtain ⟨c', m', hw, hm'⟩ := writeGran_only cx k off ((bs.drop (p.1 - a)).take p.2) { D with csr := q, mem := m } hm
      exact ⟨c', m', hw, hm'⟩
    · exact ⟨c, m, hE, hm⟩

/-- An admitted write to stack 0's own view is carried out. -/
theorem stackWrite_view0 (cx : Ctx) (a : Nat) (bs : List Byte) (D : DieState) (h0 : 0x0040_0000_0000 ≤ a)
    (h1 : a + (bs.length - 1) - 0x0040_0000_0000 < 24 * 2 ^ 30) (hr : D.regionAdmits cx.inst 1 a bs.length true = true)
    (hb : bs ≠ []) : runM (stackWrite cx a bs) D = (.ok (), writePieces cx a bs D) := by
  unfold stackWrite
  rw [if_neg (by simpa using hb), runM_bind_ok _ _ _ _ _ (checkStack_view0 cx a bs.length true D h0 h1 hr), runM_onD]

/-! ## Sequences of accesses to one region -/

/-- Region 0x0040_0000_0000 ... + N of an instance may be accessed: it has rights to it, nothing is reset or zeroed, and
every granule is clean. -/
structure Accessible (D : DieState) (i N : Nat) (w : Bool) : Prop where
  open_ : D.gateClosed i = false
  settled : D.ins.scrubs = []
  enabled : insEnabled D.ins.active i = true
  own : (ownRegion D.ins.active i 1 0x0040_0000_0000 N (if w then 1 else 0)).isSome = true
  clean : D.mem.grans = []
  size : N ≤ 24 * 2 ^ 30

theorem Accessible.admits {D : DieState} {i N : Nat} {w : Bool} (h : Accessible D i N w) (E : DieState) (hE : E.ins = D.ins)
    (a n : Nat) (h0 : 0x0040_0000_0000 ≤ a) (h1 : a + n ≤ 0x0040_0000_0000 + N) : E.regionAdmits i 1 a n w = true := by
  rw [regionAdmits_congr E D hE]
  exact regionAdmits_within D i 1 _ N a n w h.open_ h.settled h.enabled h.own h0 h1

/-- Reads of an accessible region answer memory's bytes and change counters only. -/
theorem Accessible.read {D : DieState} {cx : Ctx} {N : Nat} (h : Accessible D cx.inst N false) (a n : Nat) (hn : n ≠ 0)
    (h1 : a % 32 + n ≤ 32) (h0 : 0x0040_0000_0000 ≤ a) (h2 : a + n ≤ 0x0040_0000_0000 + N) (E : DieState)
    (hE : ∃ c, E = { D with csr := c }) :
    ∃ E', runM (stackRead cx a n) E = (.ok (memRead D.mem.bytes (stackKey 0 (a - 0x0040_0000_0000)) n), E')
      ∧ ∃ c, E' = { D with csr := c } := by
  obtain ⟨c, rfl⟩ := hE
  have hs := h.size
  obtain ⟨c', hc⟩ := stackRead_view0 cx a n { D with csr := c } hn h1 h0 (by omega) (h.admits _ rfl a n h0 h2) h.clean
  exact ⟨_, hc, c', rfl⟩

/-- Writes to an accessible region are carried out; they change counters and memory only. -/
theorem Accessible.write {D : DieState} {cx : Ctx} {N : Nat} (h : Accessible D cx.inst N true) (a : Nat) (bs : List Byte)
    (hb : bs ≠ []) (h0 : 0x0040_0000_0000 ≤ a) (h2 : a + bs.length ≤ 0x0040_0000_0000 + N) (E : DieState)
    (hE : ∃ c m, E = { D with csr := c, mem := m } ∧ m.grans = []) :
    ∃ E', runM (stackWrite cx a bs) E = (.ok (), E') ∧ ∃ c m, E' = { D with csr := c, mem := m } ∧ m.grans = [] := by
  obtain ⟨c, m, rfl, hm⟩ := hE
  have hs := h.size
  have hl : bs.length ≠ 0 := fun h => hb (List.length_eq_zero_iff.mp h)
  obtain ⟨c', m', hw, hm'⟩ := writePieces_only cx a bs { D with csr := c, mem := m } hm
  refine ⟨_, stackWrite_view0 cx a bs _ h0 (by omega) (h.admits _ rfl a _ h0 h2) hb, c', m', hw, hm'⟩

end Sys2Proof.Machine
end

