-- ==== Sys2Proof/Laws/Tab.lean ====
section
/-! SUPPORT. Tables: what a key reads as after a change, and the canonical form that every change keeps. -/

namespace Sys2Proof.Machine

variable {α : Type}

theorem tabGetF_put_same (d : Nat → α) (k : Nat) (v : α) (t : List (Nat × α)) :
    tabGetF d (tabPut k v t) k = v := by
  induction t with
  | nil => simp [tabPut, tabGetF]
  | cons e t ih =>
    obtain ⟨k', v'⟩ := e
    unfold tabPut
    split
    · simp [tabGetF]
    · split
      · simp [tabGetF]
      · have h : ¬ k' = k := fun h => by omega
        simp [tabGetF, h, ih]

theorem tabGetF_put_other (d : Nat → α) (k j : Nat) (v : α) (t : List (Nat × α)) (h : j ≠ k) :
    tabGetF d (tabPut k v t) j = tabGetF d t j := by
  induction t with
  | nil => simp [tabPut, tabGetF, Ne.symm h]
  | cons e t ih =>
    obtain ⟨k', v'⟩ := e
    unfold tabPut
    split
    · simp [tabGetF, Ne.symm h]
    · split
      · next hk => subst hk; simp [tabGetF, Ne.symm h]
      · simp only [tabGetF, ih]

theorem tabGetF_del_other (d : Nat → α) (k j : Nat) (t : List (Nat × α)) (h : j ≠ k) :
    tabGetF d (tabDel k t) j = tabGetF d t j := by
  induction t with
  | nil => rfl
  | cons e t ih =>
    obtain ⟨k', v'⟩ := e
    unfold tabDel
    split
    · next hk => subst hk; simp [tabGetF, Ne.symm h]
    · simp only [tabGetF, ih]

/-- Keys of the table lie above lo, strictly rising, and no entry equals its default. -/
theorem tabWfFrom_cons [DecidableEq α] (d : Nat → α) (lo : Option Nat) (k : Nat) (v : α) (t : List (Nat × α)) :
    tabWfFrom d lo ((k, v) :: t) = true ↔
      (∀ l, lo = some l → l < k) ∧ v ≠ d k ∧ tabWfFrom d (some k) t = true := by
  cases lo <;> simp [tabWfFrom, and_assoc]

theorem tabWfFrom_mono [DecidableEq α] (d : Nat → α) (l : Nat) (lo : Option Nat) (t : List (Nat × α))
    (hl : ∀ m, lo = some m → m ≤ l) (h : tabWfFrom d (some l) t = true) : tabWfFrom d lo t = true := by
  cases t with
  | nil => cases lo <;> rfl
  | cons e t =>
    obtain ⟨k, v⟩ := e
    rw [tabWfFrom_cons] at h ⊢
    refine ⟨fun m hm => ?_, h.2⟩
    have := hl m hm
    have := h.1 l rfl
    omega

/-- A key below the lower bound of a canonical table is not listed. -/
theorem tabGetF_below [DecidableEq α] (d : Nat → α) (k l : Nat) (t : List (Nat × α)) (hk : k ≤ l)
    (h : tabWfFrom d (some l) t = true) : tabGetF d t k = d k := by
  induction t generalizing l with
  | nil => rfl
  | cons e t ih =>
    obtain ⟨k', v'⟩ := e
    rw [tabWfFrom_cons] at h
    have h1 := h.1 l rfl
    have h2 : ¬ k' = k := by omega
    simp only [tabGetF, h2, if_false]
    exact ih k' (by omega) h.2.2

theorem tabGetF_del_same [DecidableEq α] (d : Nat → α) (k : Nat) (lo : Option Nat) (t : List (Nat × α))
    (h : tabWfFrom d lo t = true) : tabGetF d (tabDel k t) k = d k := by
  induction t generalizing lo with
  | nil => rfl
  | cons e t ih =>
    obtain ⟨k', v'⟩ := e
    rw [tabWfFrom_cons] at h
    unfold tabDel
    split
    · next hk => subst hk; exact tabGetF_below d k k t (le_refl k) h.2.2
    · next hk =>
      have h2 : ¬ k' = k := fun e => hk e.symm
      simp only [tabGetF, h2, if_false]
      exact ih _ h.2.2

theorem tabWfFrom_put [DecidableEq α] (d : Nat → α) (k : Nat) (v : α) (lo : Option Nat) (t : List (Nat × α))
    (hv : v ≠ d k) (hlo : ∀ l, lo = some l → l < k) (h : tabWfFrom d lo t = true) :
    tabWfFrom d lo (tabPut k v t) = true := by
  induction t generalizing lo with
  | nil =>
    unfold tabPut
    rw [tabWfFrom_cons]
    exact ⟨hlo, hv, rfl⟩
  | cons e t ih =>
    obtain ⟨k', v'⟩ := e
    rw [tabWfFrom_cons] at h
    unfold tabPut
    split
    · next hk =>
      rw [tabWfFrom_cons, tabWfFrom_cons]
      exact ⟨hlo, hv, fun l hl => by cases hl; exact hk, h.2⟩
    · split
      · next hk =>
        subst hk
        rw [tabWfFrom_cons]
        exact ⟨hlo, hv, h.2.2⟩
      · rw [tabWfFrom_cons]
        exact ⟨h.1, h.2.1, ih _ (fun l hl => by cases hl; omega) h.2.2⟩

theorem tabWfFrom_del [DecidableEq α] (d : Nat → α) (k : Nat) (lo : Option Nat) (t : List (Nat × α))
    (h : tabWfFrom d lo t = true) : tabWfFrom d lo (tabDel k t) = true := by
  induction t generalizing lo with
  | nil => exact h
  | cons e t ih =>
    obtain ⟨k', v'⟩ := e
    rw [tabWfFrom_cons] at h
    unfold tabDel
    split
    · exact tabWfFrom_mono d k' lo t (fun m hm => le_of_lt (h.1 m hm)) h.2.2
    · rw [tabWfFrom_cons]
      exact ⟨h.1, h.2.1, ih _ h.2.2⟩

/-- A set keeps the canonical form. -/
theorem tabSetF_wf [DecidableEq α] (d : Nat → α) (k : Nat) (v : α) (t : List (Nat × α)) (h : tabWf d t = true) :
    tabWf d (tabSetF d k v t) = true := by
  unfold tabSetF
  split
  · exact tabWfFrom_del d k none t h
  · next hv => exact tabWfFrom_put d k v none t hv (fun l hl => by cases hl) h

/-- A set key reads as it was set, in a canonical table. -/
theorem tabGetF_setF_same [DecidableEq α] (d : Nat → α) (k : Nat) (v : α) (t : List (Nat × α))
    (h : tabWf d t = true) : tabGetF d (tabSetF d k v t) k = v := by
  unfold tabSetF
  split
  · next hv => rw [hv]; exact tabGetF_del_same d k none t h
  · exact tabGetF_put_same d k v t

/-- Every other key reads as before. -/
theorem tabGetF_setF_other [DecidableEq α] (d : Nat → α) (k j : Nat) (v : α) (t : List (Nat × α)) (h : j ≠ k) :
    tabGetF d (tabSetF d k v t) j = tabGetF d t j := by
  unfold tabSetF
  split
  · exact tabGetF_del_other d k j t h
  · exact tabGetF_put_other d k j v t h

theorem tabSet_wf [DecidableEq α] (d : α) (k : Nat) (v : α) (t : List (Nat × α))
    (h : tabWf (fun _ => d) t = true) : tabWf (fun _ => d) (tabSet d k v t) = true :=
  tabSetF_wf (fun _ => d) k v t h

theorem tabGet_set_same [DecidableEq α] (d : α) (k : Nat) (v : α) (t : List (Nat × α))
    (h : tabWf (fun _ => d) t = true) : tabGet d (tabSet d k v t) k = v :=
  tabGetF_setF_same (fun _ => d) k v t h

theorem tabGet_set_other [DecidableEq α] (d : α) (k j : Nat) (v : α) (t : List (Nat × α)) (h : j ≠ k) :
    tabGet d (tabSet d k v t) j = tabGet d t j :=
  tabGetF_setF_other (fun _ => d) k j v t h

/-- Entries can be dropped: the canonical form stays. -/
theorem tabWfFrom_filter [DecidableEq α] (d : Nat → α) (p : Nat × α → Bool) (lo : Option Nat) (t : List (Nat × α))
    (h : tabWfFrom d lo t = true) : tabWfFrom d lo (t.filter p) = true := by
  induction t generalizing lo with
  | nil => exact h
  | cons e t ih =>
    obtain ⟨k, v⟩ := e
    rw [tabWfFrom_cons] at h
    rw [List.filter_cons]
    split
    · rw [tabWfFrom_cons]
      exact ⟨h.1, h.2.1, ih _ h.2.2⟩
    · exact ih _ (tabWfFrom_mono d k lo t (fun m hm => le_of_lt (h.1 m hm)) h.2.2)

/-! ## Byte memories -/

theorem memSet_wf (m : List (Nat × Byte)) (a : Nat) (b : Byte) (h : memWf m = true) : memWf (memSet m a b) = true :=
  tabSet_wf 0 a b m h

/-- Writing bytes keeps the canonical form. -/
theorem memWrite_wf (m : List (Nat × Byte)) (a : Nat) (bs : List Byte) (h : memWf m = true) :
    memWf (memWrite m a bs) = true := by
  induction bs generalizing m a with
  | nil => exact h
  | cons b bs ih => exact ih _ _ (memSet_wf m a b h)

/-- Zeroing a range keeps the canonical form. -/
theorem memZero_wf (m : List (Nat × Byte)) (a n : Nat) (h : memWf m = true) : memWf (memZero m a n) = true :=
  tabWfFrom_filter _ _ none m h

/-- A byte outside the written range reads as before. -/
theorem memGet_write_other (m : List (Nat × Byte)) (a k : Nat) (bs : List Byte) (h : k < a ∨ a + bs.length ≤ k) :
    memGet (memWrite m a bs) k = memGet m k := by
  induction bs generalizing m a with
  | nil => rfl
  | cons b bs ih =>
    simp only [List.length_cons] at h
    rw [memWrite, ih _ _ (by omega)]
    exact tabGet_set_other 0 a k b m (by omega)

/-- A byte of the written range reads as written. -/
theorem memGet_write_same (m : List (Nat × Byte)) (a i : Nat) (bs : List Byte) (hm : memWf m = true)
    (h : i < bs.length) : memGet (memWrite m a bs) (a + i) = bs[i] := by
  induction bs generalizing m a i with
  | nil => simp at h
  | cons b bs ih =>
    cases i with
    | zero =>
      rw [memWrite, memGet_write_other _ _ _ _ (by omega)]
      exact tabGet_set_same 0 a b m hm
    | succ i =>
      rw [memWrite, show a + (i + 1) = a + 1 + i by omega, ih _ _ _ (memSet_wf m a b hm) (by simpa using h)]
      rfl

end Sys2Proof.Machine
end

