-- ==== Sys2Proof/Laws/State.lean ====
section
/-! SUPPORT. What the shared operations on a die change and leave alone, field by field: a die update, a register word,
a counter, an interrupt, an output, an event, a report of doubt. -/

namespace Sys2Proof.Machine


/-! The time base advances. -/

@[simp] theorem DieState.at_num (D : DieState) (t : Nat) : (D.at t).num = D.num := rfl
@[simp] theorem DieState.at_csr (D : DieState) (t : Nat) : (D.at t).csr = D.csr := rfl
@[simp] theorem DieState.at_log (D : DieState) (t : Nat) : (D.at t).log = D.log := rfl
@[simp] theorem DieState.at_ins (D : DieState) (t : Nat) : (D.at t).ins = D.ins := rfl
@[simp] theorem DieState.at_rol (D : DieState) (t : Nat) : (D.at t).rol = D.rol := rfl
@[simp] theorem DieState.at_cmd (D : DieState) (t : Nat) : (D.at t).cmd = D.cmd := rfl
@[simp] theorem DieState.at_mem (D : DieState) (t : Nat) : (D.at t).mem = D.mem := rfl
@[simp] theorem DieState.at_boot (D : DieState) (t : Nat) : (D.at t).boot = D.boot := rfl
@[simp] theorem DieState.at_clk (D : DieState) (t : Nat) : (D.at t).clk = D.clk := rfl
@[simp] theorem DieState.at_pwr (D : DieState) (t : Nat) : (D.at t).pwr = D.pwr := rfl
@[simp] theorem DieState.at_pcie (D : DieState) (t : Nat) : (D.at t).pcie = D.pcie := rfl
@[simp] theorem DieState.at_eth (D : DieState) (t : Nat) : (D.at t).eth = D.eth := rfl
@[simp] theorem DieState.at_ptp (D : DieState) (t : Nat) : (D.at t).ptp = D.ptp := rfl
@[simp] theorem DieState.at_d2d (D : DieState) (t : Nat) : (D.at t).d2d = D.d2d := rfl
@[simp] theorem DieState.at_saf (D : DieState) (t : Nat) : (D.at t).saf = D.saf := rfl
@[simp] theorem DieState.at_stp (D : DieState) (t : Nat) : (D.at t).stp = D.stp := rfl
@[simp] theorem DieState.at_comb (D : DieState) (t : Nat) : (D.at t).comb = D.comb := rfl
@[simp] theorem DieState.at_foe (D : DieState) (t : Nat) : (D.at t).foe = D.foe := rfl
@[simp] theorem DieState.at_fgr (D : DieState) (t : Nat) : (D.at t).fgr = D.fgr := rfl
@[simp] theorem DieState.at_fab (D : DieState) (t : Nat) : (D.at t).fab = D.fab := rfl
@[simp] theorem DieState.at_clusters (D : DieState) (t : Nat) : (D.at t).clusters = D.clusters := rfl
@[simp] theorem DieState.at_doubts (D : DieState) (t : Nat) : (D.at t).doubts = D.doubts := rfl
@[simp] theorem DieState.at_task (D : DieState) (t : Nat) : (D.at t).task = D.task := rfl
@[simp] theorem DieState.at_toFlash (D : DieState) (t : Nat) : (D.at t).toFlash = D.toFlash := rfl
@[simp] theorem DieState.at_outs (D : DieState) (t : Nat) : (D.at t).outs = D.outs := rfl
@[simp] theorem DieState.at_fresh (D : DieState) (t : Nat) : (D.at t).fresh = D.fresh := rfl
@[simp] theorem DieState.at_now (D : DieState) (t : Nat) : (D.at t).now = max D.now t := rfl

/-! An output. -/

@[simp] theorem DieState.out_num (D : DieState) (o : Output) : (D.out o).num = D.num := rfl
@[simp] theorem DieState.out_now (D : DieState) (o : Output) : (D.out o).now = D.now := rfl
@[simp] theorem DieState.out_csr (D : DieState) (o : Output) : (D.out o).csr = D.csr := rfl
@[simp] theorem DieState.out_log (D : DieState) (o : Output) : (D.out o).log = D.log := rfl
@[simp] theorem DieState.out_ins (D : DieState) (o : Output) : (D.out o).ins = D.ins := rfl
@[simp] theorem DieState.out_rol (D : DieState) (o : Output) : (D.out o).rol = D.rol := rfl
@[simp] theorem DieState.out_cmd (D : DieState) (o : Output) : (D.out o).cmd = D.cmd := rfl
@[simp] theorem DieState.out_mem (D : DieState) (o : Output) : (D.out o).mem = D.mem := rfl
@[simp] theorem DieState.out_boot (D : DieState) (o : Output) : (D.out o).boot = D.boot := rfl
@[simp] theorem DieState.out_clk (D : DieState) (o : Output) : (D.out o).clk = D.clk := rfl
@[simp] theorem DieState.out_pwr (D : DieState) (o : Output) : (D.out o).pwr = D.pwr := rfl
@[simp] theorem DieState.out_pcie (D : DieState) (o : Output) : (D.out o).pcie = D.pcie := rfl
@[simp] theorem DieState.out_eth (D : DieState) (o : Output) : (D.out o).eth = D.eth := rfl
@[simp] theorem DieState.out_ptp (D : DieState) (o : Output) : (D.out o).ptp = D.ptp := rfl
@[simp] theorem DieState.out_d2d (D : DieState) (o : Output) : (D.out o).d2d = D.d2d := rfl
@[simp] theorem DieState.out_saf (D : DieState) (o : Output) : (D.out o).saf = D.saf := rfl
@[simp] theorem DieState.out_stp (D : DieState) (o : Output) : (D.out o).stp = D.stp := rfl
@[simp] theorem DieState.out_comb (D : DieState) (o : Output) : (D.out o).comb = D.comb := rfl
@[simp] theorem DieState.out_foe (D : DieState) (o : Output) : (D.out o).foe = D.foe := rfl
@[simp] theorem DieState.out_fgr (D : DieState) (o : Output) : (D.out o).fgr = D.fgr := rfl
@[simp] theorem DieState.out_fab (D : DieState) (o : Output) : (D.out o).fab = D.fab := rfl
@[simp] theorem DieState.out_clusters (D : DieState) (o : Output) : (D.out o).clusters = D.clusters := rfl
@[simp] theorem DieState.out_doubts (D : DieState) (o : Output) : (D.out o).doubts = D.doubts := rfl
@[simp] theorem DieState.out_task (D : DieState) (o : Output) : (D.out o).task = D.task := rfl
@[simp] theorem DieState.out_toFlash (D : DieState) (o : Output) : (D.out o).toFlash = D.toFlash := rfl
@[simp] theorem DieState.out_fresh (D : DieState) (o : Output) : (D.out o).fresh = D.fresh := rfl
@[simp] theorem DieState.out_outs (D : DieState) (o : Output) : (D.out o).outs = D.outs ++ [o] := rfl

/-! A report of doubt. -/

@[simp] theorem DieState.doubt_num (D : DieState) (k c : Nat) : (D.doubt k c).num = D.num := rfl
@[simp] theorem DieState.doubt_now (D : DieState) (k c : Nat) : (D.doubt k c).now = D.now := rfl
@[simp] theorem DieState.doubt_csr (D : DieState) (k c : Nat) : (D.doubt k c).csr = D.csr := rfl
@[simp] theorem DieState.doubt_log (D : DieState) (k c : Nat) : (D.doubt k c).log = D.log := rfl
@[simp] theorem DieState.doubt_ins (D : DieState) (k c : Nat) : (D.doubt k c).ins = D.ins := rfl
@[simp] theorem DieState.doubt_rol (D : DieState) (k c : Nat) : (D.doubt k c).rol = D.rol := rfl
@[simp] theorem DieState.doubt_cmd (D : DieState) (k c : Nat) : (D.doubt k c).cmd = D.cmd := rfl
@[simp] theorem DieState.doubt_mem (D : DieState) (k c : Nat) : (D.doubt k c).mem = D.mem := rfl
@[simp] theorem DieState.doubt_boot (D : DieState) (k c : Nat) : (D.doubt k c).boot = D.boot := rfl
@[simp] theorem DieState.doubt_clk (D : DieState) (k c : Nat) : (D.doubt k c).clk = D.clk := rfl
@[simp] theorem DieState.doubt_pwr (D : DieState) (k c : Nat) : (D.doubt k c).pwr = D.pwr := rfl
@[simp] theorem DieState.doubt_pcie (D : DieState) (k c : Nat) : (D.doubt k c).pcie = D.pcie := rfl
@[simp] theorem DieState.doubt_eth (D : DieState) (k c : Nat) : (D.doubt k c).eth = D.eth := rfl
@[simp] theorem DieState.doubt_ptp (D : DieState) (k c : Nat) : (D.doubt k c).ptp = D.ptp := rfl
@[simp] theorem DieState.doubt_d2d (D : DieState) (k c : Nat) : (D.doubt k c).d2d = D.d2d := rfl
@[simp] theorem DieState.doubt_saf (D : DieState) (k c : Nat) : (D.doubt k c).saf = D.saf := rfl
@[simp] theorem DieState.doubt_stp (D : DieState) (k c : Nat) : (D.doubt k c).stp = D.stp := rfl
@[simp] theorem DieState.doubt_comb (D : DieState) (k c : Nat) : (D.doubt k c).comb = D.comb := rfl
@[simp] theorem DieState.doubt_foe (D : DieState) (k c : Nat) : (D.doubt k c).foe = D.foe := rfl
@[simp] theorem DieState.doubt_fgr (D : DieState) (k c : Nat) : (D.doubt k c).fgr = D.fgr := rfl
@[simp] theorem DieState.doubt_fab (D : DieState) (k c : Nat) : (D.doubt k c).fab = D.fab := rfl
@[simp] theorem DieState.doubt_clusters (D : DieState) (k c : Nat) : (D.doubt k c).clusters = D.clusters := rfl
@[simp] theorem DieState.doubt_task (D : DieState) (k c : Nat) : (D.doubt k c).task = D.task := rfl
@[simp] theorem DieState.doubt_toFlash (D : DieState) (k c : Nat) : (D.doubt k c).toFlash = D.toFlash := rfl
@[simp] theorem DieState.doubt_outs (D : DieState) (k c : Nat) : (D.doubt k c).outs = D.outs := rfl
@[simp] theorem DieState.doubt_fresh (D : DieState) (k c : Nat) : (D.doubt k c).fresh = D.fresh := rfl
@[simp] theorem DieState.doubt_doubts (D : DieState) (k c : Nat) : (D.doubt k c).doubts = D.doubts ++ [(k, c)] := rfl

/-! A free value is used. -/

@[simp] theorem DieState.tick_num (D : DieState) : (D.tick).num = D.num := rfl
@[simp] theorem DieState.tick_now (D : DieState) : (D.tick).now = D.now := rfl
@[simp] theorem DieState.tick_csr (D : DieState) : (D.tick).csr = D.csr := rfl
@[simp] theorem DieState.tick_log (D : DieState) : (D.tick).log = D.log := rfl
@[simp] theorem DieState.tick_ins (D : DieState) : (D.tick).ins = D.ins := rfl
@[simp] theorem DieState.tick_rol (D : DieState) : (D.tick).rol = D.rol := rfl
@[simp] theorem DieState.tick_cmd (D : DieState) : (D.tick).cmd = D.cmd := rfl
@[simp] theorem DieState.tick_mem (D : DieState) : (D.tick).mem = D.mem := rfl
@[simp] theorem DieState.tick_boot (D : DieState) : (D.tick).boot = D.boot := rfl
@[simp] theorem DieState.tick_clk (D : DieState) : (D.tick).clk = D.clk := rfl
@[simp] theorem DieState.tick_pwr (D : DieState) : (D.tick).pwr = D.pwr := rfl
@[simp] theorem DieState.tick_pcie (D : DieState) : (D.tick).pcie = D.pcie := rfl
@[simp] theorem DieState.tick_eth (D : DieState) : (D.tick).eth = D.eth := rfl
@[simp] theorem DieState.tick_ptp (D : DieState) : (D.tick).ptp = D.ptp := rfl
@[simp] theorem DieState.tick_d2d (D : DieState) : (D.tick).d2d = D.d2d := rfl
@[simp] theorem DieState.tick_saf (D : DieState) : (D.tick).saf = D.saf := rfl
@[simp] theorem DieState.tick_stp (D : DieState) : (D.tick).stp = D.stp := rfl
@[simp] theorem DieState.tick_comb (D : DieState) : (D.tick).comb = D.comb := rfl
@[simp] theorem DieState.tick_foe (D : DieState) : (D.tick).foe = D.foe := rfl
@[simp] theorem DieState.tick_fgr (D : DieState) : (D.tick).fgr = D.fgr := rfl
@[simp] theorem DieState.tick_fab (D : DieState) : (D.tick).fab = D.fab := rfl
@[simp] theorem DieState.tick_clusters (D : DieState) : (D.tick).clusters = D.clusters := rfl
@[simp] theorem DieState.tick_doubts (D : DieState) : (D.tick).doubts = D.doubts := rfl
@[simp] theorem DieState.tick_task (D : DieState) : (D.tick).task = D.task := rfl
@[simp] theorem DieState.tick_toFlash (D : DieState) : (D.tick).toFlash = D.toFlash := rfl
@[simp] theorem DieState.tick_outs (D : DieState) : (D.tick).outs = D.outs := rfl
@[simp] theorem DieState.tick_fresh (D : DieState) : D.tick.fresh = D.fresh + 1 := rfl

/-! A register word is set. -/

@[simp] theorem DieState.setReg_num (D : DieState) (b off v i : Nat) : (D.setReg b off v i).num = D.num := rfl
@[simp] theorem DieState.setReg_now (D : DieState) (b off v i : Nat) : (D.setReg b off v i).now = D.now := rfl
@[simp] theorem DieState.setReg_log (D : DieState) (b off v i : Nat) : (D.setReg b off v i).log = D.log := rfl
@[simp] theorem DieState.setReg_ins (D : DieState) (b off v i : Nat) : (D.setReg b off v i).ins = D.ins := rfl
@[simp] theorem DieState.setReg_rol (D : DieState) (b off v i : Nat) : (D.setReg b off v i).rol = D.rol := rfl
@[simp] theorem DieState.setReg_cmd (D : DieState) (b off v i : Nat) : (D.setReg b off v i).cmd = D.cmd := rfl
@[simp] theorem DieState.setReg_mem (D : DieState) (b off v i : Nat) : (D.setReg b off v i).mem = D.mem := rfl
@[simp] theorem DieState.setReg_boot (D : DieState) (b off v i : Nat) : (D.setReg b off v i).boot = D.boot := rfl
@[simp] theorem DieState.setReg_clk (D : DieState) (b off v i : Nat) : (D.setReg b off v i).clk = D.clk := rfl
@[simp] theorem DieState.setReg_pwr (D : DieState) (b off v i : Nat) : (D.setReg b off v i).pwr = D.pwr := rfl
@[simp] theorem DieState.setReg_pcie (D : DieState) (b off v i : Nat) : (D.setReg b off v i).pcie = D.pcie := rfl
@[simp] theorem DieState.setReg_eth (D : DieState) (b off v i : Nat) : (D.setReg b off v i).eth = D.eth := rfl
@[simp] theorem DieState.setReg_ptp (D : DieState) (b off v i : Nat) : (D.setReg b off v i).ptp = D.ptp := rfl
@[simp] theorem DieState.setReg_d2d (D : DieState) (b off v i : Nat) : (D.setReg b off v i).d2d = D.d2d := rfl
@[simp] theorem DieState.setReg_saf (D : DieState) (b off v i : Nat) : (D.setReg b off v i).saf = D.saf := rfl
@[simp] theorem DieState.setReg_stp (D : DieState) (b off v i : Nat) : (D.setReg b off v i).stp = D.stp := rfl
@[simp] theorem DieState.setReg_comb (D : DieState) (b off v i : Nat) : (D.setReg b off v i).comb = D.comb := rfl
@[simp] theorem DieState.setReg_foe (D : DieState) (b off v i : Nat) : (D.setReg b off v i).foe = D.foe := rfl
@[simp] theorem DieState.setReg_fgr (D : DieState) (b off v i : Nat) : (D.setReg b off v i).fgr = D.fgr := rfl
@[simp] theorem DieState.setReg_fab (D : DieState) (b off v i : Nat) : (D.setReg b off v i).fab = D.fab := rfl
@[simp] theorem DieState.setReg_clusters (D : DieState) (b off v i : Nat) : (D.setReg b off v i).clusters = D.clusters := rfl
@[simp] theorem DieState.setReg_doubts (D : DieState) (b off v i : Nat) : (D.setReg b off v i).doubts = D.doubts := rfl
@[simp] theorem DieState.setReg_task (D : DieState) (b off v i : Nat) : (D.setReg b off v i).task = D.task := rfl
@[simp] theorem DieState.setReg_toFlash (D : DieState) (b off v i : Nat) : (D.setReg b off v i).toFlash = D.toFlash := rfl
@[simp] theorem DieState.setReg_outs (D : DieState) (b off v i : Nat) : (D.setReg b off v i).outs = D.outs := rfl
@[simp] theorem DieState.setReg_fresh (D : DieState) (b off v i : Nat) : (D.setReg b off v i).fresh = D.fresh := rfl

/-! Both halves of a register are set. -/

@[simp] theorem DieState.setReg64_num (D : DieState) (b off v i : Nat) : (D.setReg64 b off v i).num = D.num := rfl
@[simp] theorem DieState.setReg64_now (D : DieState) (b off v i : Nat) : (D.setReg64 b off v i).now = D.now := rfl
@[simp] theorem DieState.setReg64_log (D : DieState) (b off v i : Nat) : (D.setReg64 b off v i).log = D.log := rfl
@[simp] theorem DieState.setReg64_ins (D : DieState) (b off v i : Nat) : (D.setReg64 b off v i).ins = D.ins := rfl
@[simp] theorem DieState.setReg64_rol (D : DieState) (b off v i : Nat) : (D.setReg64 b off v i).rol = D.rol := rfl
@[simp] theorem DieState.setReg64_cmd (D : DieState) (b off v i : Nat) : (D.setReg64 b off v i).cmd = D.cmd := rfl
@[simp] theorem DieState.setReg64_mem (D : DieState) (b off v i : Nat) : (D.setReg64 b off v i).mem = D.mem := rfl
@[simp] theorem DieState.setReg64_boot (D : DieState) (b off v i : Nat) : (D.setReg64 b off v i).boot = D.boot := rfl
@[simp] theorem DieState.setReg64_clk (D : DieState) (b off v i : Nat) : (D.setReg64 b off v i).clk = D.clk := rfl
@[simp] theorem DieState.setReg64_pwr (D : DieState) (b off v i : Nat) : (D.setReg64 b off v i).pwr = D.pwr := rfl
@[simp] theorem DieState.setReg64_pcie (D : DieState) (b off v i : Nat) : (D.setReg64 b off v i).pcie = D.pcie := rfl
@[simp] theorem DieState.setReg64_eth (D : DieState) (b off v i : Nat) : (D.setReg64 b off v i).eth = D.eth := rfl
@[simp] theorem DieState.setReg64_ptp (D : DieState) (b off v i : Nat) : (D.setReg64 b off v i).ptp = D.ptp := rfl
@[simp] theorem DieState.setReg64_d2d (D : DieState) (b off v i : Nat) : (D.setReg64 b off v i).d2d = D.d2d := rfl
@[simp] theorem DieState.setReg64_saf (D : DieState) (b off v i : Nat) : (D.setReg64 b off v i).saf = D.saf := rfl
@[simp] theorem DieState.setReg64_stp (D : DieState) (b off v i : Nat) : (D.setReg64 b off v i).stp = D.stp := rfl
@[simp] theorem DieState.setReg64_comb (D : DieState) (b off v i : Nat) : (D.setReg64 b off v i).comb = D.comb := rfl
@[simp] theorem DieState.setReg64_foe (D : DieState) (b off v i : Nat) : (D.setReg64 b off v i).foe = D.foe := rfl
@[simp] theorem DieState.setReg64_fgr (D : DieState) (b off v i : Nat) : (D.setReg64 b off v i).fgr = D.fgr := rfl
@[simp] theorem DieState.setReg64_fab (D : DieState) (b off v i : Nat) : (D.setReg64 b off v i).fab = D.fab := rfl
@[simp] theorem DieState.setReg64_clusters (D : DieState) (b off v i : Nat) : (D.setReg64 b off v i).clusters = D.clusters := rfl
@[simp] theorem DieState.setReg64_doubts (D : DieState) (b off v i : Nat) : (D.setReg64 b off v i).doubts = D.doubts := rfl
@[simp] theorem DieState.setReg64_task (D : DieState) (b off v i : Nat) : (D.setReg64 b off v i).task = D.task := rfl
@[simp] theorem DieState.setReg64_toFlash (D : DieState) (b off v i : Nat) : (D.setReg64 b off v i).toFlash = D.toFlash := rfl
@[simp] theorem DieState.setReg64_outs (D : DieState) (b off v i : Nat) : (D.setReg64 b off v i).outs = D.outs := rfl
@[simp] theorem DieState.setReg64_fresh (D : DieState) (b off v i : Nat) : (D.setReg64 b off v i).fresh = D.fresh := rfl

/-! A 64-bit counter. -/

theorem DieState.count_frame (D : DieState) (b off n i : Nat) :
    D.count b off n i = { D with csr := (D.count b off n i).csr } := by
  unfold DieState.count
  split <;> rfl

@[simp] theorem DieState.count_num (D : DieState) (b off n i : Nat) : (D.count b off n i).num = D.num := by rw [DieState.count_frame]
@[simp] theorem DieState.count_now (D : DieState) (b off n i : Nat) : (D.count b off n i).now = D.now := by rw [DieState.count_frame]
@[simp] theorem DieState.count_log (D : DieState) (b off n i : Nat) : (D.count b off n i).log = D.log := by rw [DieState.count_frame]
@[simp] theorem DieState.count_ins (D : DieState) (b off n i : Nat) : (D.count b off n i).ins = D.ins := by rw [DieState.count_frame]
@[simp] theorem DieState.count_rol (D : DieState) (b off n i : Nat) : (D.count b off n i).rol = D.rol := by rw [DieState.count_frame]
@[simp] theorem DieState.count_cmd (D : DieState) (b off n i : Nat) : (D.count b off n i).cmd = D.cmd := by rw [DieState.count_frame]
@[simp] theorem DieState.count_mem (D : DieState) (b off n i : Nat) : (D.count b off n i).mem = D.mem := by rw [DieState.count_frame]
@[simp] theorem DieState.count_boot (D : DieState) (b off n i : Nat) : (D.count b off n i).boot = D.boot := by rw [DieState.count_frame]
@[simp] theorem DieState.count_clk (D : DieState) (b off n i : Nat) : (D.count b off n i).clk = D.clk := by rw [DieState.count_frame]
@[simp] theorem DieState.count_pwr (D : DieState) (b off n i : Nat) : (D.count b off n i).pwr = D.pwr := by rw [DieState.count_frame]
@[simp] theorem DieState.count_pcie (D : DieState) (b off n i : Nat) : (D.count b off n i).pcie = D.pcie := by rw [DieState.count_frame]
@[simp] theorem DieState.count_eth (D : DieState) (b off n i : Nat) : (D.count b off n i).eth = D.eth := by rw [DieState.count_frame]
@[simp] theorem DieState.count_ptp (D : DieState) (b off n i : Nat) : (D.count b off n i).ptp = D.ptp := by rw [DieState.count_frame]
@[simp] theorem DieState.count_d2d (D : DieState) (b off n i : Nat) : (D.count b off n i).d2d = D.d2d := by rw [DieState.count_frame]
@[simp] theorem DieState.count_saf (D : DieState) (b off n i : Nat) : (D.count b off n i).saf = D.saf := by rw [DieState.count_frame]
@[simp] theorem DieState.count_stp (D : DieState) (b off n i : Nat) : (D.count b off n i).stp = D.stp := by rw [DieState.count_frame]
@[simp] theorem DieState.count_comb (D : DieState) (b off n i : Nat) : (D.count b off n i).comb = D.comb := by rw [DieState.count_frame]
@[simp] theorem DieState.count_foe (D : DieState) (b off n i : Nat) : (D.count b off n i).foe = D.foe := by rw [DieState.count_frame]
@[simp] theorem DieState.count_fgr (D : DieState) (b off n i : Nat) : (D.count b off n i).fgr = D.fgr := by rw [DieState.count_frame]
@[simp] theorem DieState.count_fab (D : DieState) (b off n i : Nat) : (D.count b off n i).fab = D.fab := by rw [DieState.count_frame]
@[simp] theorem DieState.count_clusters (D : DieState) (b off n i : Nat) : (D.count b off n i).clusters = D.clusters := by rw [DieState.count_frame]
@[simp] theorem DieState.count_doubts (D : DieState) (b off n i : Nat) : (D.count b off n i).doubts = D.doubts := by rw [DieState.count_frame]
@[simp] theorem DieState.count_task (D : DieState) (b off n i : Nat) : (D.count b off n i).task = D.task := by rw [DieState.count_frame]
@[simp] theorem DieState.count_toFlash (D : DieState) (b off n i : Nat) : (D.count b off n i).toFlash = D.toFlash := by rw [DieState.count_frame]
@[simp] theorem DieState.count_outs (D : DieState) (b off n i : Nat) : (D.count b off n i).outs = D.outs := by rw [DieState.count_frame]
@[simp] theorem DieState.count_fresh (D : DieState) (b off n i : Nat) : (D.count b off n i).fresh = D.fresh := by rw [DieState.count_frame]

/-! A 32-bit counter. -/

theorem DieState.count32_frame (D : DieState) (b off n i : Nat) :
    D.count32 b off n i = { D with csr := (D.count32 b off n i).csr } := by
  unfold DieState.count32
  split <;> rfl

@[simp] theorem DieState.count32_num (D : DieState) (b off n i : Nat) : (D.count32 b off n i).num = D.num := by rw [DieState.count32_frame]
@[simp] theorem DieState.count32_now (D : DieState) (b off n i : Nat) : (D.count32 b off n i).now = D.now := by rw [DieState.count32_frame]
@[simp] theorem DieState.count32_log (D : DieState) (b off n i : Nat) : (D.count32 b off n i).log = D.log := by rw [DieState.count32_frame]
@[simp] theorem DieState.count32_ins (D : DieState) (b off n i : Nat) : (D.count32 b off n i).ins = D.ins := by rw [DieState.count32_frame]
@[simp] theorem DieState.count32_rol (D : DieState) (b off n i : Nat) : (D.count32 b off n i).rol = D.rol := by rw [DieState.count32_frame]
@[simp] theorem DieState.count32_cmd (D : DieState) (b off n i : Nat) : (D.count32 b off n i).cmd = D.cmd := by rw [DieState.count32_frame]
@[simp] theorem DieState.count32_mem (D : DieState) (b off n i : Nat) : (D.count32 b off n i).mem = D.mem := by rw [DieState.count32_frame]
@[simp] theorem DieState.count32_boot (D : DieState) (b off n i : Nat) : (D.count32 b off n i).boot = D.boot := by rw [DieState.count32_frame]
@[simp] theorem DieState.count32_clk (D : DieState) (b off n i : Nat) : (D.count32 b off n i).clk = D.clk := by rw [DieState.count32_frame]
@[simp] theorem DieState.count32_pwr (D : DieState) (b off n i : Nat) : (D.count32 b off n i).pwr = D.pwr := by rw [DieState.count32_frame]
@[simp] theorem DieState.count32_pcie (D : DieState) (b off n i : Nat) : (D.count32 b off n i).pcie = D.pcie := by rw [DieState.count32_frame]
@[simp] theorem DieState.count32_eth (D : DieState) (b off n i : Nat) : (D.count32 b off n i).eth = D.eth := by rw [DieState.count32_frame]
@[simp] theorem DieState.count32_ptp (D : DieState) (b off n i : Nat) : (D.count32 b off n i).ptp = D.ptp := by rw [DieState.count32_frame]
@[simp] theorem DieState.count32_d2d (D : DieState) (b off n i : Nat) : (D.count32 b off n i).d2d = D.d2d := by rw [DieState.count32_frame]
@[simp] theorem DieState.count32_saf (D : DieState) (b off n i : Nat) : (D.count32 b off n i).saf = D.saf := by rw [DieState.count32_frame]
@[simp] theorem DieState.count32_stp (D : DieState) (b off n i : Nat) : (D.count32 b off n i).stp = D.stp := by rw [DieState.count32_frame]
@[simp] theorem DieState.count32_comb (D : DieState) (b off n i : Nat) : (D.count32 b off n i).comb = D.comb := by rw [DieState.count32_frame]
@[simp] theorem DieState.count32_foe (D : DieState) (b off n i : Nat) : (D.count32 b off n i).foe = D.foe := by rw [DieState.count32_frame]
@[simp] theorem DieState.count32_fgr (D : DieState) (b off n i : Nat) : (D.count32 b off n i).fgr = D.fgr := by rw [DieState.count32_frame]
@[simp] theorem DieState.count32_fab (D : DieState) (b off n i : Nat) : (D.count32 b off n i).fab = D.fab := by rw [DieState.count32_frame]
@[simp] theorem DieState.count32_clusters (D : DieState) (b off n i : Nat) : (D.count32 b off n i).clusters = D.clusters := by rw [DieState.count32_frame]
@[simp] theorem DieState.count32_doubts (D : DieState) (b off n i : Nat) : (D.count32 b off n i).doubts = D.doubts := by rw [DieState.count32_frame]
@[simp] theorem DieState.count32_task (D : DieState) (b off n i : Nat) : (D.count32 b off n i).task = D.task := by rw [DieState.count32_frame]
@[simp] theorem DieState.count32_toFlash (D : DieState) (b off n i : Nat) : (D.count32 b off n i).toFlash = D.toFlash := by rw [DieState.count32_frame]
@[simp] theorem DieState.count32_outs (D : DieState) (b off n i : Nat) : (D.count32 b off n i).outs = D.outs := by rw [DieState.count32_frame]
@[simp] theorem DieState.count32_fresh (D : DieState) (b off n i : Nat) : (D.count32 b off n i).fresh = D.fresh := by rw [DieState.count32_frame]

/-! An MSI-X message. -/

theorem DieState.msix_frame (D : DieState) (fn v : Nat) :
    D.msix fn v = { D with pcie := (D.msix fn v).pcie, outs := (D.msix fn v).outs } := by
  unfold DieState.msix
  split <;> (try split) <;> rfl

@[simp] theorem DieState.msix_num (D : DieState) (fn v : Nat) : (D.msix fn v).num = D.num := by rw [DieState.msix_frame]
@[simp] theorem DieState.msix_now (D : DieState) (fn v : Nat) : (D.msix fn v).now = D.now := by rw [DieState.msix_frame]
@[simp] theorem DieState.msix_csr (D : DieState) (fn v : Nat) : (D.msix fn v).csr = D.csr := by rw [DieState.msix_frame]
@[simp] theorem DieState.msix_log (D : DieState) (fn v : Nat) : (D.msix fn v).log = D.log := by rw [DieState.msix_frame]
@[simp] theorem DieState.msix_ins (D : DieState) (fn v : Nat) : (D.msix fn v).ins = D.ins := by rw [DieState.msix_frame]
@[simp] theorem DieState.msix_rol (D : DieState) (fn v : Nat) : (D.msix fn v).rol = D.rol := by rw [DieState.msix_frame]
@[simp] theorem DieState.msix_cmd (D : DieState) (fn v : Nat) : (D.msix fn v).cmd = D.cmd := by rw [DieState.msix_frame]
@[simp] theorem DieState.msix_mem (D : DieState) (fn v : Nat) : (D.msix fn v).mem = D.mem := by rw [DieState.msix_frame]
@[simp] theorem DieState.msix_boot (D : DieState) (fn v : Nat) : (D.msix fn v).boot = D.boot := by rw [DieState.msix_frame]
@[simp] theorem DieState.msix_clk (D : DieState) (fn v : Nat) : (D.msix fn v).clk = D.clk := by rw [DieState.msix_frame]
@[simp] theorem DieState.msix_pwr (D : DieState) (fn v : Nat) : (D.msix fn v).pwr = D.pwr := by rw [DieState.msix_frame]
@[simp] theorem DieState.msix_eth (D : DieState) (fn v : Nat) : (D.msix fn v).eth = D.eth := by rw [DieState.msix_frame]
@[simp] theorem DieState.msix_ptp (D : DieState) (fn v : Nat) : (D.msix fn v).ptp = D.ptp := by rw [DieState.msix_frame]
@[simp] theorem DieState.msix_d2d (D : DieState) (fn v : Nat) : (D.msix fn v).d2d = D.d2d := by rw [DieState.msix_frame]
@[simp] theorem DieState.msix_saf (D : DieState) (fn v : Nat) : (D.msix fn v).saf = D.saf := by rw [DieState.msix_frame]
@[simp] theorem DieState.msix_stp (D : DieState) (fn v : Nat) : (D.msix fn v).stp = D.stp := by rw [DieState.msix_frame]
@[simp] theorem DieState.msix_comb (D : DieState) (fn v : Nat) : (D.msix fn v).comb = D.comb := by rw [DieState.msix_frame]
@[simp] theorem DieState.msix_foe (D : DieState) (fn v : Nat) : (D.msix fn v).foe = D.foe := by rw [DieState.msix_frame]
@[simp] theorem DieState.msix_fgr (D : DieState) (fn v : Nat) : (D.msix fn v).fgr = D.fgr := by rw [DieState.msix_frame]
@[simp] theorem DieState.msix_fab (D : DieState) (fn v : Nat) : (D.msix fn v).fab = D.fab := by rw [DieState.msix_frame]
@[simp] theorem DieState.msix_clusters (D : DieState) (fn v : Nat) : (D.msix fn v).clusters = D.clusters := by rw [DieState.msix_frame]
@[simp] theorem DieState.msix_doubts (D : DieState) (fn v : Nat) : (D.msix fn v).doubts = D.doubts := by rw [DieState.msix_frame]
@[simp] theorem DieState.msix_task (D : DieState) (fn v : Nat) : (D.msix fn v).task = D.task := by rw [DieState.msix_frame]
@[simp] theorem DieState.msix_toFlash (D : DieState) (fn v : Nat) : (D.msix fn v).toFlash = D.toFlash := by rw [DieState.msix_frame]
@[simp] theorem DieState.msix_fresh (D : DieState) (fn v : Nat) : (D.msix fn v).fresh = D.fresh := by rw [DieState.msix_frame]

/-! A cause bit, with its interrupt. -/

theorem DieState.cause_frame (D : DieState) (b k : Nat) :
    D.cause b k = { D with csr := (D.cause b k).csr, pcie := (D.cause b k).pcie, outs := (D.cause b k).outs } := by
  unfold DieState.cause
  dsimp only
  split
  · rfl
  · split
    · rw [DieState.msix_frame]; rfl
    · rfl

@[simp] theorem DieState.cause_num (D : DieState) (b k : Nat) : (D.cause b k).num = D.num := by rw [DieState.cause_frame]
@[simp] theorem DieState.cause_now (D : DieState) (b k : Nat) : (D.cause b k).now = D.now := by rw [DieState.cause_frame]
@[simp] theorem DieState.cause_log (D : DieState) (b k : Nat) : (D.cause b k).log = D.log := by rw [DieState.cause_frame]
@[simp] theorem DieState.cause_ins (D : DieState) (b k : Nat) : (D.cause b k).ins = D.ins := by rw [DieState.cause_frame]
@[simp] theorem DieState.cause_rol (D : DieState) (b k : Nat) : (D.cause b k).rol = D.rol := by rw [DieState.cause_frame]
@[simp] theorem DieState.cause_cmd (D : DieState) (b k : Nat) : (D.cause b k).cmd = D.cmd := by rw [DieState.cause_frame]
@[simp] theorem DieState.cause_mem (D : DieState) (b k : Nat) : (D.cause b k).mem = D.mem := by rw [DieState.cause_frame]
@[simp] theorem DieState.cause_boot (D : DieState) (b k : Nat) : (D.cause b k).boot = D.boot := by rw [DieState.cause_frame]
@[simp] theorem DieState.cause_clk (D : DieState) (b k : Nat) : (D.cause b k).clk = D.clk := by rw [DieState.cause_frame]
@[simp] theorem DieState.cause_pwr (D : DieState) (b k : Nat) : (D.cause b k).pwr = D.pwr := by rw [DieState.cause_frame]
@[simp] theorem DieState.cause_eth (D : DieState) (b k : Nat) : (D.cause b k).eth = D.eth := by rw [DieState.cause_frame]
@[simp] theorem DieState.cause_ptp (D : DieState) (b k : Nat) : (D.cause b k).ptp = D.ptp := by rw [DieState.cause_frame]
@[simp] theorem DieState.cause_d2d (D : DieState) (b k : Nat) : (D.cause b k).d2d = D.d2d := by rw [DieState.cause_frame]
@[simp] theorem DieState.cause_saf (D : DieState) (b k : Nat) : (D.cause b k).saf = D.saf := by rw [DieState.cause_frame]
@[simp] theorem DieState.cause_stp (D : DieState) (b k : Nat) : (D.cause b k).stp = D.stp := by rw [DieState.cause_frame]
@[simp] theorem DieState.cause_comb (D : DieState) (b k : Nat) : (D.cause b k).comb = D.comb := by rw [DieState.cause_frame]
@[simp] theorem DieState.cause_foe (D : DieState) (b k : Nat) : (D.cause b k).foe = D.foe := by rw [DieState.cause_frame]
@[simp] theorem DieState.cause_fgr (D : DieState) (b k : Nat) : (D.cause b k).fgr = D.fgr := by rw [DieState.cause_frame]
@[simp] theorem DieState.cause_fab (D : DieState) (b k : Nat) : (D.cause b k).fab = D.fab := by rw [DieState.cause_frame]
@[simp] theorem DieState.cause_clusters (D : DieState) (b k : Nat) : (D.cause b k).clusters = D.clusters := by rw [DieState.cause_frame]
@[simp] theorem DieState.cause_doubts (D : DieState) (b k : Nat) : (D.cause b k).doubts = D.doubts := by rw [DieState.cause_frame]
@[simp] theorem DieState.cause_task (D : DieState) (b k : Nat) : (D.cause b k).task = D.task := by rw [DieState.cause_frame]
@[simp] theorem DieState.cause_toFlash (D : DieState) (b k : Nat) : (D.cause b k).toFlash = D.toFlash := by rw [DieState.cause_frame]
@[simp] theorem DieState.cause_fresh (D : DieState) (b k : Nat) : (D.cause b k).fresh = D.fresh := by rw [DieState.cause_frame]

/-! A coalesced event. -/

theorem DieState.coalesce_frame (D : DieState) (e : Event) :
    D.coalesce e = { D with csr := (D.coalesce e).csr, log := (D.coalesce e).log, pcie := (D.coalesce e).pcie, outs := (D.coalesce e).outs } := by
  unfold DieState.coalesce
  dsimp only
  rw [DieState.cause_frame, DieState.count_frame, DieState.count_frame]

@[simp] theorem DieState.coalesce_num (D : DieState) (e : Event) : (D.coalesce e).num = D.num := by rw [DieState.coalesce_frame]
@[simp] theorem DieState.coalesce_now (D : DieState) (e : Event) : (D.coalesce e).now = D.now := by rw [DieState.coalesce_frame]
@[simp] theorem DieState.coalesce_ins (D : DieState) (e : Event) : (D.coalesce e).ins = D.ins := by rw [DieState.coalesce_frame]
@[simp] theorem DieState.coalesce_rol (D : DieState) (e : Event) : (D.coalesce e).rol = D.rol := by rw [DieState.coalesce_frame]
@[simp] theorem DieState.coalesce_cmd (D : DieState) (e : Event) : (D.coalesce e).cmd = D.cmd := by rw [DieState.coalesce_frame]
@[simp] theorem DieState.coalesce_mem (D : DieState) (e : Event) : (D.coalesce e).mem = D.mem := by rw [DieState.coalesce_frame]
@[simp] theorem DieState.coalesce_boot (D : DieState) (e : Event) : (D.coalesce e).boot = D.boot := by rw [DieState.coalesce_frame]
@[simp] theorem DieState.coalesce_clk (D : DieState) (e : Event) : (D.coalesce e).clk = D.clk := by rw [DieState.coalesce_frame]
@[simp] theorem DieState.coalesce_pwr (D : DieState) (e : Event) : (D.coalesce e).pwr = D.pwr := by rw [DieState.coalesce_frame]
@[simp] theorem DieState.coalesce_eth (D : DieState) (e : Event) : (D.coalesce e).eth = D.eth := by rw [DieState.coalesce_frame]
@[simp] theorem DieState.coalesce_ptp (D : DieState) (e : Event) : (D.coalesce e).ptp = D.ptp := by rw [DieState.coalesce_frame]
@[simp] theorem DieState.coalesce_d2d (D : DieState) (e : Event) : (D.coalesce e).d2d = D.d2d := by rw [DieState.coalesce_frame]
@[simp] theorem DieState.coalesce_saf (D : DieState) (e : Event) : (D.coalesce e).saf = D.saf := by rw [DieState.coalesce_frame]
@[simp] theorem DieState.coalesce_stp (D : DieState) (e : Event) : (D.coalesce e).stp = D.stp := by rw [DieState.coalesce_frame]
@[simp] theorem DieState.coalesce_comb (D : DieState) (e : Event) : (D.coalesce e).comb = D.comb := by rw [DieState.coalesce_frame]
@[simp] theorem DieState.coalesce_foe (D : DieState) (e : Event) : (D.coalesce e).foe = D.foe := by rw [DieState.coalesce_frame]
@[simp] theorem DieState.coalesce_fgr (D : DieState) (e : Event) : (D.coalesce e).fgr = D.fgr := by rw [DieState.coalesce_frame]
@[simp] theorem DieState.coalesce_fab (D : DieState) (e : Event) : (D.coalesce e).fab = D.fab := by rw [DieState.coalesce_frame]
@[simp] theorem DieState.coalesce_clusters (D : DieState) (e : Event) : (D.coalesce e).clusters = D.clusters := by rw [DieState.coalesce_frame]
@[simp] theorem DieState.coalesce_doubts (D : DieState) (e : Event) : (D.coalesce e).doubts = D.doubts := by rw [DieState.coalesce_frame]
@[simp] theorem DieState.coalesce_task (D : DieState) (e : Event) : (D.coalesce e).task = D.task := by rw [DieState.coalesce_frame]
@[simp] theorem DieState.coalesce_toFlash (D : DieState) (e : Event) : (D.coalesce e).toFlash = D.toFlash := by rw [DieState.coalesce_frame]
@[simp] theorem DieState.coalesce_fresh (D : DieState) (e : Event) : (D.coalesce e).fresh = D.fresh := by rw [DieState.coalesce_frame]

/-! An event. -/

theorem DieState.event_frame (D : DieState) (e : Event) :
    D.event e = { D with csr := (D.event e).csr, log := (D.event e).log, pcie := (D.event e).pcie, outs := (D.event e).outs } := by
  unfold DieState.event
  dsimp only
  split
  · rw [DieState.coalesce_frame]; rw [DieState.count_frame]; rfl
  · split
    · rw [DieState.count_frame]; rfl
    · rw [DieState.coalesce_frame]; rw [DieState.count_frame]; rfl

@[simp] theorem DieState.event_num (D : DieState) (e : Event) : (D.event e).num = D.num := by rw [DieState.event_frame]
@[simp] theorem DieState.event_now (D : DieState) (e : Event) : (D.event e).now = D.now := by rw [DieState.event_frame]
@[simp] theorem DieState.event_ins (D : DieState) (e : Event) : (D.event e).ins = D.ins := by rw [DieState.event_frame]
@[simp] theorem DieState.event_rol (D : DieState) (e : Event) : (D.event e).rol = D.rol := by rw [DieState.event_frame]
@[simp] theorem DieState.event_cmd (D : DieState) (e : Event) : (D.event e).cmd = D.cmd := by rw [DieState.event_frame]
@[simp] theorem DieState.event_mem (D : DieState) (e : Event) : (D.event e).mem = D.mem := by rw [DieState.event_frame]
@[simp] theorem DieState.event_boot (D : DieState) (e : Event) : (D.event e).boot = D.boot := by rw [DieState.event_frame]
@[simp] theorem DieState.event_clk (D : DieState) (e : Event) : (D.event e).clk = D.clk := by rw [DieState.event_frame]
@[simp] theorem DieState.event_pwr (D : DieState) (e : Event) : (D.event e).pwr = D.pwr := by rw [DieState.event_frame]
@[simp] theorem DieState.event_eth (D : DieState) (e : Event) : (D.event e).eth = D.eth := by rw [DieState.event_frame]
@[simp] theorem DieState.event_ptp (D : DieState) (e : Event) : (D.event e).ptp = D.ptp := by rw [DieState.event_frame]
@[simp] theorem DieState.event_d2d (D : DieState) (e : Event) : (D.event e).d2d = D.d2d := by rw [DieState.event_frame]
@[simp] theorem DieState.event_saf (D : DieState) (e : Event) : (D.event e).saf = D.saf := by rw [DieState.event_frame]
@[simp] theorem DieState.event_stp (D : DieState) (e : Event) : (D.event e).stp = D.stp := by rw [DieState.event_frame]
@[simp] theorem DieState.event_comb (D : DieState) (e : Event) : (D.event e).comb = D.comb := by rw [DieState.event_frame]
@[simp] theorem DieState.event_foe (D : DieState) (e : Event) : (D.event e).foe = D.foe := by rw [DieState.event_frame]
@[simp] theorem DieState.event_fgr (D : DieState) (e : Event) : (D.event e).fgr = D.fgr := by rw [DieState.event_frame]
@[simp] theorem DieState.event_fab (D : DieState) (e : Event) : (D.event e).fab = D.fab := by rw [DieState.event_frame]
@[simp] theorem DieState.event_clusters (D : DieState) (e : Event) : (D.event e).clusters = D.clusters := by rw [DieState.event_frame]
@[simp] theorem DieState.event_doubts (D : DieState) (e : Event) : (D.event e).doubts = D.doubts := by rw [DieState.event_frame]
@[simp] theorem DieState.event_task (D : DieState) (e : Event) : (D.event e).task = D.task := by rw [DieState.event_frame]
@[simp] theorem DieState.event_toFlash (D : DieState) (e : Event) : (D.event e).toFlash = D.toFlash := by rw [DieState.event_frame]
@[simp] theorem DieState.event_fresh (D : DieState) (e : Event) : (D.event e).fresh = D.fresh := by rw [DieState.event_frame]

/-! ## Register words -/

theorem regKey_inj (b off i b' off' i' : Nat) (h1 : off < 65536) (h2 : off' < 65536) (h3 : b < 65536) (h4 : b' < 65536) :
    regKey b off i = regKey b' off' i' ↔ b = b' ∧ off = off' ∧ i = i' := by
  unfold regKey
  omega

/-- A register reads what was written to it, modulo 2^32. -/
theorem DieState.reg_setReg_same (D : DieState) (b off v i : Nat) (h : tabWf regDefault D.csr.regs = true) :
    (D.setReg b off v i).reg b off i = v % 2 ^ 32 := by
  simp [DieState.reg, DieState.setReg, tabGetF_setF_same _ _ _ _ h]

/-- A write to a register leaves every other register alone. -/
theorem DieState.reg_setReg_other (D : DieState) (b off v i b' off' i' : Nat)
    (h : regKey b' off' i' ≠ regKey b off i) : (D.setReg b off v i).reg b' off' i' = D.reg b' off' i' := by
  simp [DieState.reg, DieState.setReg, tabGetF_setF_other _ _ _ _ _ h]

/-- Registers keep their canonical form. -/
theorem DieState.setReg_wf (D : DieState) (b off v i : Nat) (h : tabWf regDefault D.csr.regs = true) :
    tabWf regDefault (D.setReg b off v i).csr.regs = true := tabSetF_wf _ _ _ _ h

end Sys2Proof.Machine
end

