-- ==== Sys2Proof/Laws/Shape.lean ====
section
/-! SUPPORT. The shape of a command: the die it acts on, the dies it leaves alone, and how a row carries out an
accepted command or an admitted register access. -/

namespace Sys2Proof.Machine

@[simp] theorem quadGet_set_same {α : Type} (q : Quad α) (i : Die) (x : α) : quadGet (quadSet q i.val x) i.val = x := by
  match i with
  | 0 => rfl
  | 1 => rfl
  | 2 => rfl
  | 3 => rfl

theorem quadGet_set_other {α : Type} (q : Quad α) (i j : Die) (x : α) (h : j ≠ i) :
    quadGet (quadSet q i.val x) j.val = quadGet q j.val := by
  match i, j, h with
  | 0, 0, h => exact absurd rfl h
  | 0, 1, _ => rfl
  | 0, 2, _ => rfl
  | 0, 3, _ => rfl
  | 1, 0, _ => rfl
  | 1, 1, h => exact absurd rfl h
  | 1, 2, _ => rfl
  | 1, 3, _ => rfl
  | 2, 0, _ => rfl
  | 2, 1, _ => rfl
  | 2, 2, h => exact absurd rfl h
  | 2, 3, _ => rfl
  | 3, 0, _ => rfl
  | 3, 1, _ => rfl
  | 3, 2, _ => rfl
  | 3, 3, h => exact absurd rfl h

@[simp] theorem State.die_onDie_same (s : State) (d : Die) (f : DieState → DieState) :
    (s.onDie d f).die d = f (s.die d) := quadGet_set_same s.dies d _

theorem State.die_onDie_other (s : State) (d e : Die) (f : DieState → DieState) (h : e ≠ d) :
    (s.onDie d f).die e = s.die e := quadGet_set_other s.dies d e _ h

@[simp] theorem State.onDie_pending (s : State) (d : Die) (f : DieState → DieState) :
    (s.onDie d f).pending = s.pending := rfl

@[simp] theorem State.onDie_pkg (s : State) (d : Die) (f : DieState → DieState) : (s.onDie d f).pkg = s.pkg := rfl

@[simp] theorem State.die_put (s : State) (a : At) (D : DieState) : (s.put a D).die a.die = D :=
  State.die_onDie_same s a.die _

theorem State.die_put_other (s : State) (a : At) (D : DieState) (e : Die) (h : e ≠ a.die) :
    (s.put a D).die e = s.die e := State.die_onDie_other s a.die e _ h

/-- A command of one die acts on the die it finds. -/
theorem onDie_up (a : At) (s : State) (f : DieState → DieState) (h : s.up a) :
    onDie a s f = .next (s.put a (f (s.dieAt a))) := by
  unfold onDie
  rw [show (s.die a.die).boot.held = false from h]
  rfl

/-- A command of one die leaves a held die alone. -/
theorem onDie_held (a : At) (s : State) (f : DieState → DieState) (h : (s.die a.die).boot.held = true) :
    onDie a s f = .next s := by
  unfold onDie
  rw [h]
  rfl

/-- Whatever a command of one die does: nothing on a held die, one change of that die otherwise. -/
theorem onDie_cases (a : At) (s : State) (f : DieState → DieState) :
    onDie a s f = .next s ∨ (s.up a ∧ onDie a s f = .next (s.put a (f (s.dieAt a)))) := by
  cases h : (s.die a.die).boot.held with
  | true => exact .inl (onDie_held a s f h)
  | false => exact .inr ⟨h, onDie_up a s f h⟩

/-- A row carries out the command that is ready for it. -/
theorem DieState.runCmd_ready (D : DieState) (op id : Nat) (c : Cmd) (body : Cmd → DieState → DieState)
    (h : D.readyCmd op id c) : D.runCmd op id body = body c D := by
  obtain ⟨h1, h2, h3, h4, _⟩ := h
  simp [DieState.runCmd, h1, h2, h3, h4]

/-- An action that needs no answer from elsewhere ends with what it gives. -/
theorem DieState.withParams_ok {α : Type} (D D' : DieState) (id inst : Nat) (m : M α) (r : α)
    (fin : Except Fail α → DieState → DieState) (h : runM m D = (.ok r, D')) :
    D.withParams id inst m fin = fin (.ok r) D' := by
  unfold DieState.withParams
  rw [h]

/-- An action that fails, other than for want of an answer, ends with its failure. -/
theorem DieState.withParams_error {α : Type} (D D' : DieState) (id inst : Nat) (m : M α) (f : Fail)
    (fin : Except Fail α → DieState → DieState) (h : runM m D = (.error f, D')) (hn : f.need = none) :
    D.withParams id inst m fin = fin (.error f) D' := by
  unfold DieState.withParams
  rw [h]
  simp only [hn]

/-- An action that waits for the answer to a read elsewhere sends the READ and leaves no other trace. -/
theorem DieState.withParams_need {α : Type} (D D' : DieState) (id inst : Nat) (m : M α) (f : Fail) (g n : Nat)
    (fin : Except Fail α → DieState → DieState) (h : runM m D = (.error f, D')) (hn : f.need = some (g, n)) :
    D.withParams id inst m fin = D.askParam id inst g n := by
  unfold DieState.withParams
  rw [h]
  simp only [hn]

/-- A command whose action succeeds, with no write to another die outstanding, is answered OK with the action's detail. -/
theorem DieState.replyM_ok (D D' : DieState) (c : Cmd) (m : M (List Byte)) (d : List Byte)
    (h : runM m D = (.ok d, D')) (ha : D'.acked c.id = true) : D.replyM c m = D'.reply c .ok 0 d := by
  unfold DieState.replyM
  rw [D.withParams_ok D' c.id c.inst m d _ h]
  simp only [DieState.replyDone, ha, if_true]

theorem DieState.replyOpt_some (D D' : DieState) (c : Cmd) (m : M (Option (List Byte))) (d : List Byte)
    (h : runM m D = (.ok (some d), D')) (ha : D'.acked c.id = true) : D.replyOpt c m = D'.reply c .ok 0 d := by
  unfold DieState.replyOpt
  rw [D.withParams_ok D' c.id c.inst m (some d) _ h]
  simp only [DieState.replyDone, ha, if_true]

/-- A command that waits has its effect and no reply yet. -/
theorem DieState.replyOpt_none (D D' : DieState) (c : Cmd) (m : M (Option (List Byte)))
    (h : runM m D = (.ok none, D')) : D.replyOpt c m = D' := by
  unfold DieState.replyOpt
  rw [D.withParams_ok D' c.id c.inst m none _ h]

/-- A command ends as its action does. -/
theorem DieState.replyM_endsAs (D : DieState) (c : Cmd) (m : M (List Byte)) : D.EndsAs c m some (D.replyM c m) := by
  refine ⟨fun x D' d h hd ha => ?_, fun x D' _ hd => by simp at hd, fun f D' h hn => ?_, fun f D' g n h hn => ?_⟩
  · obtain rfl : x = d := by simpa using hd
    exact D.replyM_ok D' c m x h ha
  · unfold DieState.replyM
    rw [D.withParams_error D' c.id c.inst m f _ h hn]
  · unfold DieState.replyM
    rw [D.withParams_need D' c.id c.inst m f g n _ h hn]

theorem DieState.replyOpt_endsAs (D : DieState) (c : Cmd) (m : M (Option (List Byte))) :
    D.EndsAs c m id (D.replyOpt c m) := by
  refine ⟨fun x D' d h hd ha => ?_, fun x D' h hd => ?_, fun f D' h hn => ?_, fun f D' g n h hn => ?_⟩
  · obtain rfl : x = some d := hd
    exact D.replyOpt_some D' c m d h ha
  · obtain rfl : x = none := hd
    exact D.replyOpt_none D' c m h
  · unfold DieState.replyOpt
    rw [D.withParams_error D' c.id c.inst m f _ h hn]
  · unfold DieState.replyOpt
    rw [D.withParams_need D' c.id c.inst m f g n _ h hn]

/-- An admitted register write has its effect. -/
theorem DieState.csrDo_admitted (D : DieState) (r : Req) (b off : Nat) (body : DieState → DieState)
    (h : D.admits r b off true) : D.csrDo r b off body = body (D.touchSession r) := by
  unfold DieState.csrDo
  simp [h.1, h.2]

end Sys2Proof.Machine
end

