-- ==== Sys2Proof/WellFormed.lean ====
section
/-! DEFINITION. Which commands are well formed: operands that number things of the package stay in their ranges. Dies
and register values are bounded by their types. -/

namespace Sys2Proof

/-- A requester ID has 12 bits and an instance number 3 (R440). -/
def Req.wf (r : Req) : Bool := decide (r.id < 4096) && decide (r.inst < 8)

/-- Operands in range: 4 clusters, 16 cores, engine codes 1 to 7 (R19), 40 islands in 8 groups (R582, R589), 64
segments (R167), 2 HBM stacks, 2 UCIe modules, 2 fabric ports and 5 Ethernet ports of a die (R9), 8 instances (R437),
4,096 queues (R413), 65,536 tags (R494), 1,024 tables (R335), 256 streams (R71), and blocks and doorbell pages in units of 64 KiB (R29). -/
def Instr.wf : Instr → Bool
  | .csrWrite _ r block off _ => r.wf && decide (block < 4096) && decide (off < 65536)
  | .csrMisalignedAccess _ r block off size _ => r.wf && decide (block < 4096) && decide (off < 65536) && decide (size < 9)
  | .reg64LowRead _ r block off => r.wf && decide (block < 4096) && decide (off < 65536)
  | .reg64HighRead _ r block off => r.wf && decide (block < 4096) && decide (off < 65536)
  | .reg64LowWrite _ r block off _ => r.wf && decide (block < 4096) && decide (off < 65536)
  | .reg64HighWrite _ r block off _ => r.wf && decide (block < 4096) && decide (off < 65536)
  | .heldHalfExpire _ => true
  | .selectionWrite _ r block off _ => r.wf && decide (block < 4096) && decide (off < 65536)
  | .clearCounters _ r block _ => r.wf && decide (block < 4096)
  | .powerOn _ bad _ => decide (bad < 16)
  | .pwrGoodFall _ => true
  | .pkgResetAssert _ => true
  | .pkgResetRelease _ bad => decide (bad < 16)
  | .glbPackageReset _ r _ bad => r.wf && decide (bad < 16)
  | .bootStageAdvance _ _ _ => true
  | .bootReadyTimeout _ => true
  | .strapValueReceive _ _ => true
  | .strapExchangeClose _ => true
  | .strapLateArrival _ => true
  | .dieLost _ _ => true
  | .dieResetRelease _ => true
  | .railSample _ _ _ => true
  | .dieTempSample _ _ _ _ => true
  | .refclkLoss _ input => decide (input < 2)
  | .ethrefLoss _ => true
  | .setOp _ _ => true
  | .freqChangeDone _ group => decide (group < 8)
  | .freqChangeTimeout _ group => decide (group < 8)
  | .freqMonitorFault _ island => decide (island < 40)
  | .powerCluster _ _ => true
  | .powerSegments _ _ => true
  | .powerCore _ _ => true
  | .powerStatus _ _ => true
  | .powerDownDrainExpire _ unit => decide (unit < 20)
  | .powerDownComplete _ unit => decide (unit < 20)
  | .powerUpComplete _ unit => decide (unit < 20)
  | .cstSegOnWrite _ r cluster value => r.wf && decide (cluster < 4) && decide (value < 2 ^ 64)
  | .segmentReady _ cluster segment => decide (cluster < 4) && decide (segment < 64)
  | .commandPacketFetch _ rivals => rivals.all (fun x => decide (x < 8192))
  | .packetAgePromote _ q => decide (q < 4096)
  | .budgetReevaluate _ => true
  | .nop _ _ => true
  | .queueCreate _ _ rivals => rivals.all (fun x => decide (x < 8192))
  | .queueDestroy _ _ => true
  | .queueDestroyComplete _ q => decide (q < 4096)
  | .queueReset _ _ => true
  | .queueStatus _ _ => true
  | .queuePush _ _ rivals => rivals.all (fun x => decide (x < 8192))
  | .queuePop _ _ rivals => rivals.all (fun x => decide (x < 8192))
  | .qdbTailWrite _ r q _ => r.wf && decide (q < 4096)
  | .qdbHeadWrite _ r q _ => r.wf && decide (q < 4096)
  | .cmdAdminCfgWrite _ r _ => r.wf
  | .sealAlloc _ _ rivals => rivals.all (fun x => decide (x < 8192))
  | .sealFree _ _ => true
  | .sealReset _ _ => true
  | .sealSignal _ _ => true
  | .sealWait _ _ rivals => rivals.all (fun x => decide (x < 8192))
  | .sealArm _ _ => true
  | .sealQuery _ _ => true
  | .sealSignalApply _ => true
  | .sealWaitTimeout _ => true
  | .taskLaunch _ _ rivals => rivals.all (fun x => decide (x < 8192))
  | .taskStatus _ _ => true
  | .taskQueryCore _ _ => true
  | .taskStart _ core => decide (core < 16)
  | .opDispatch _ core => decide (core < 16)
  | .engineOpStart _ core engine => decide (core < 16) && decide (1 ≤ engine ∧ engine < 8)
  | .opComplete _ core engine => decide (core < 16) && decide (1 ≤ engine ∧ engine < 8)
  | .taskLimitExpire _ _ => true
  | .opRerun _ core engine => decide (core < 16) && decide (1 ≤ engine ∧ engine < 8)
  | .seqNop _ core => decide (core < 16)
  | .seqEnd _ core => decide (core < 16)
  | .loopSet _ core => decide (core < 16)
  | .loopBranch _ core => decide (core < 16)
  | .seqSealWait _ core => decide (core < 16)
  | .seqSealSignal _ core => decide (core < 16)
  | .patchSet _ core => decide (core < 16)
  | .patchAdd _ core => decide (core < 16)
  | .patchLoop _ core => decide (core < 16)
  | .reseed _ core => decide (core < 16)
  | .seqDrain _ core => decide (core < 16)
  | .cbEntryTimeout _ cluster => decide (cluster < 4)
  | .fillForcedGrant _ cluster => decide (cluster < 4)
  | .scrubRangeDone _ cluster => decide (cluster < 4)
  | .dmaCopy _ core => decide (core < 16)
  | .dmaGather _ core => decide (core < 16)
  | .dmaScatter _ core => decide (core < 16)
  | .dmaTranspose _ core => decide (core < 16)
  | .dmaFill _ core => decide (core < 16)
  | .remoteAccessArrive _ cluster srcNode srcDie r off _ _ _ => decide (cluster < 4) && decide (srcNode < 4096) && decide (srcDie < 4) && r.wf && decide (off < 2 ^ 48)
  | .rwinOpen _ _ rivals => rivals.all (fun x => decide (x < 8192))
  | .rwinClose _ _ => true
  | .rwinList _ _ => true
  | .dteGemmW _ core _ => decide (core < 16)
  | .dteGemmS _ core _ => decide (core < 16)
  | .dteConvG _ core _ => decide (core < 16)
  | .dteMulW16 _ core _ => decide (core < 16)
  | .dteGemmW4 _ core _ => decide (core < 16)
  | .dteGemmS4 _ core _ => decide (core < 16)
  | .dteConvG4 _ core _ => decide (core < 16)
  | .steGemmW _ core _ => decide (core < 16)
  | .steGemmS _ core _ => decide (core < 16)
  | .steConvG _ core _ => decide (core < 16)
  | .steUnpack _ core => decide (core < 16)
  | .stePack _ core _ => decide (core < 16)
  | .mvpMv _ core _ => decide (core < 16)
  | .mvpThin _ core _ => decide (core < 16)
  | .vuEltwise _ core _ => decide (core < 16)
  | .vuRowmax _ core _ => decide (core < 16)
  | .vuRowsum _ core _ => decide (core < 16)
  | .vuSoftmax _ core _ => decide (core < 16)
  | .vuNorm _ core _ => decide (core < 16)
  | .selTopk _ core _ _ => decide (core < 16)
  | .selKth _ core _ _ => decide (core < 16)
  | .selUnique _ core _ _ => decide (core < 16)
  | .selOrderedUnique _ core _ _ => decide (core < 16)
  | .selSplit _ core _ _ => decide (core < 16)
  | .hpuTileHash _ core => decide (core < 16)
  | .hpuNmap _ core => decide (core < 16)
  | .hpuLower _ core => decide (core < 16)
  | .ethFrameRx _ port _ _ _ _ _ => decide (port < 5)
  | .ethLinkChange _ port _ _ _ => decide (port < 5)
  | .ptpSyncTimeout _ => true
  | .ppsEdge _ _ => true
  | .stipplePacketParse _ => true
  | .streamTimeout _ stream => decide (stream < 256)
  | .streamPose _ _ => true
  | .stipplePoseTake _ => true
  | .hostfeedSubmit _ _ => true
  | .hostfeedPacketAdmit _ _ => true
  | .stpTblRead _ r _ => r.wf
  | .stpTblWrite _ r _ => r.wf
  | .stpReplayWrite _ r _ _ => r.wf
  | .stpFrameClose _ r _ _ => r.wf
  | .stpSliceClose _ r _ => r.wf
  | .frameBoundary _ => true
  | .sliceBoundary _ => true
  | .combInsertRecord _ => true
  | .combFrameCloseMarker _ => true
  | .combScatterDone _ => true
  | .combClearDone _ => true
  | .combBuffers _ _ rivals => rivals.all (fun x => decide (x < 8192))
  | .combPublish _ _ => true
  | .combPublishDone _ => true
  | .combRelease _ _ => true
  | .combDownsample _ _ => true
  | .combTrilinear _ _ => true
  | .combStatus _ _ => true
  | .combJobComplete _ => true
  | .foePointRecord _ => true
  | .foeSliceClose _ => true
  | .foeEvalDone _ => true
  | .safetyMerge _ => true
  | .resultSealNotice _ => true
  | .networkResultReceive _ => true
  | .doubtRaise _ _ => true
  | .doubtClearTimer _ => true
  | .cpWatchdogExpire _ => true
  | .cpRestartDone _ => true
  | .proofPassStart _ => true
  | .proofCrcDone _ => true
  | .proofWindowExpire _ => true
  | .safetyIslandFault _ => true
  | .safetyIslandRestart _ => true
  | .sdoTestPulse _ output => decide (output < 2)
  | .sdoPulseEnd _ output => decide (output < 2)
  | .sdoOutputFault _ output _ => decide (output < 2)
  | .safetyServiceEnter _ _ => true
  | .safetyServiceExit _ _ => true
  | .serviceModeExpire _ => true
  | .safetyOutputClear _ _ => true
  | .safetyLatchClear _ _ => true
  | .safetyStatus _ _ => true
  | .tableLoad _ _ rivals => rivals.all (fun x => decide (x < 8192))
  | .tableLoadDone _ table _ _ => decide (table < 1024)
  | .tableUnload _ _ => true
  | .tableLookup _ _ rivals => rivals.all (fun x => decide (x < 8192))
  | .lookupBatchComplete _ _ => true
  | .tablePrefetch _ _ rivals => rivals.all (fun x => decide (x < 8192))
  | .tableUpdate _ _ rivals => rivals.all (fun x => decide (x < 8192))
  | .updateRecordsApply _ _ => true
  | .tableStatus _ _ => true
  | .drainTimeout _ table => decide (table < 1024)
  | .fabWriteReceive _ => true
  | .fabReadReceive _ => true
  | .poolReqReceive _ => true
  | .pushReceive _ => true
  | .fabResponseReceive _ => true
  | .poolReplyReceive _ => true
  | .drainNoticeReceive _ => true
  | .platePacketReceive _ => true
  | .fabPacketForward _ => true
  | .fecFrameReceive _ port _ _ word flits => decide (port < 2) && decide (word < 2 ^ 64) && decide (flits.length ≤ 5)
  | .portLightDetect _ port _ _ => decide (port < 2)
  | .portTrainingDone _ port => decide (port < 2)
  | .portTrainingTimeout _ port => decide (port < 2)
  | .portFail _ port _ => decide (port < 2)
  | .portUpHoldExpire _ port => decide (port < 2)
  | .waggleSend _ port => decide (port < 2)
  | .waggleReceive _ port _ => decide (port < 2)
  | .tagTimeout _ tag => decide (tag < 65536)
  | .plateStage _ _ => true
  | .plateSwitch _ _ => true
  | .plateSwitchAtT _ => true
  | .plateAbort _ _ => true
  | .plateStatus _ _ => true
  | .portStatus _ _ => true
  | .portEnable _ _ => true
  | .fabPortRetrain _ r _ => r.wf
  | .platePullTimeout _ => true
  | .platePullDone _ => true
  | .linkInject _ _ rivals => rivals.all (fun x => decide (x < 8192))
  | .linkInjectStop _ _ => true
  | .injectionExpire _ => true
  | .d2dPacketReceive _ m => decide (m < 2)
  | .ucieModuleFail _ m _ => decide (m < 2)
  | .ucieHeartbeatSend _ m => decide (m < 2)
  | .ucieHoldExpire _ m => decide (m < 2)
  | .d2dRequestTimeout _ tag => decide (tag < 65536)
  | .d2dRetrain _ r _ => r.wf
  | .pcieApertureAccess _ fn off _ _ => decide (fn < 9) && decide (off < 2 ^ 48)
  | .flrReceive _ fn => decide (fn < 9)
  | .perstAssert _ => true
  | .perstDeassert _ => true
  | .pcieLinkChange _ _ link cfg => decide (link < 2 ^ 15 ∧ cfg.vfs < 512 ∧ 28 ≤ cfg.bar2 ∧ cfg.bar2 ≤ 36 ∧ cfg.msix < 512 ∧ cfg.ide < 16)
  | .atsInvalidation _ => true
  | .i3cIndexWrite _ _ => true
  | .hbmTrainingDone _ stack _ => decide (stack < 2)
  | .hbmRequestAged _ => true
  | .patrolScrubRead _ stack => decide (stack < 2)
  | .hbmScrubRestart _ r stack _ => r.wf && decide (stack < 2)
  | .hbmTempSample _ stack _ => decide (stack < 2)
  | .insCommit _ r _ => r.wf
  | .instanceReset _ r _ => r.wf
  | .instanceResetComplete _ inst => decide (inst < 8)
  | .regionScrubDone _ inst _ => decide (inst < 8)
  | .rolNonceRead _ r => r.wf
  | .rolAuthOpen _ r _ => r.wf
  | .sessionAuthDone _ _ => true
  | .rolAuthEnd _ r _ => r.wf
  | .sessionTimeout _ => true
  | .nonceExpire _ => true
  | .lockoutExpire _ => true
  | .rolLockOpen _ r _ => r.wf
  | .rolLockCommit _ r _ => r.wf
  | .auditTrim _ r _ => r.wf
  | .auditRecordDurable _ => true
  | .fwStage _ _ => true
  | .fwActivate _ _ => true
  | .repairEdit _ _ => true
  | .fuseDump _ _ => true
  | .safetyInject _ _ rivals => rivals.all (fun x => decide (x < 8192))
  | .rfaCapture _ _ => true
  | .anchorSet _ _ => true
  | .eventWrite _ nack => nack.all (fun c => decide (c < 2))
  | .evlFlushStart _ => true
  | .evlFlushNow _ r _ => r.wf
  | .evlCopyScrub _ _ => true
  | .eventRead _ _ => true
  | .eventMark _ _ => true
  | .faultInject _ _ rivals => rivals.all (fun x => decide (x < 8192))
  | .faultInjectStop _ _ => true
  | .pcieCompletionTimeout _ q => decide (q < 4096)
  | .cmdHeartbeatIncrement _ => true
  | .ucieTrainingDone _ m _ _ => decide (m < 2)
  | .referenceInputReturn _ input => decide (input < 3)
  | .completionRecordAgeOut _ => true
  | .evlFlushComplete _ _ => true
  | .voltageStepComplete _ group => decide (group < 8)

end Sys2Proof
end

