-- ==== Sys2Proof/Tests/Slice0.lean ====
section
/-! SUPPORT. Tests: ill-formed commands are refused; values the spec states; and, for every statement with hypotheses, a state and
operands that meet all of them. A witness has the shape: from the statement, the outcome it gives there. -/

open Sys2Proof Sys2Proof.Machine

set_option Elab.async false

/-! ## Well-formedness -/

/-- A moment at die 0, and a requester in range. -/
def a0 : At := { die := 0, time := 0 }
def r0 : Req := { id := 4095, inst := 7 }

/-- Each command has one operand outside its range, and is refused. -/
theorem test_ill_formed_1 : [
    .csrWrite a0 { r0 with id := 4096 } 1 1 0,
    .csrWrite a0 { r0 with inst := 8 } 1 1 0,
    .csrWrite a0 r0 4096 1 0,
    .csrWrite a0 r0 1 65536 0,
    .csrMisalignedAccess a0 { r0 with id := 4096 } 1 1 1 false,
    .csrMisalignedAccess a0 { r0 with inst := 8 } 1 1 1 false,
    .csrMisalignedAccess a0 r0 4096 1 1 false,
    .csrMisalignedAccess a0 r0 1 65536 1 false,
    .csrMisalignedAccess a0 r0 1 1 9 false,
    .reg64LowRead a0 { r0 with id := 4096 } 1 1,
    .reg64LowRead a0 { r0 with inst := 8 } 1 1,
    .reg64LowRead a0 r0 4096 1].all (fun i : Instr => !i.wf) = true := by decide +kernel

/-- Each command has one operand outside its range, and is refused. -/
theorem test_ill_formed_2 : [
    .reg64LowRead a0 r0 1 65536,
    .reg64HighRead a0 { r0 with id := 4096 } 1 1,
    .reg64HighRead a0 { r0 with inst := 8 } 1 1,
    .reg64HighRead a0 r0 4096 1,
    .reg64HighRead a0 r0 1 65536,
    .reg64LowWrite a0 { r0 with id := 4096 } 1 1 0,
    .reg64LowWrite a0 { r0 with inst := 8 } 1 1 0,
    .reg64LowWrite a0 r0 4096 1 0,
    .reg64LowWrite a0 r0 1 65536 0,
    .reg64HighWrite a0 { r0 with id := 4096 } 1 1 0,
    .reg64HighWrite a0 { r0 with inst := 8 } 1 1 0,
    .reg64HighWrite a0 r0 4096 1 0].all (fun i : Instr => !i.wf) = true := by decide +kernel

/-- Each command has one operand outside its range, and is refused. -/
theorem test_ill_formed_3 : [
    .reg64HighWrite a0 r0 1 65536 0,
    .selectionWrite a0 { r0 with id := 4096 } 1 1 0,
    .selectionWrite a0 { r0 with inst := 8 } 1 1 0,
    .selectionWrite a0 r0 4096 1 0,
    .selectionWrite a0 r0 1 65536 0,
    .clearCounters a0 { r0 with id := 4096 } 1 0,
    .clearCounters a0 { r0 with inst := 8 } 1 0,
    .clearCounters a0 r0 4096 0,
    .powerOn a0 16 false,
    .pkgResetRelease a0 16,
    .glbPackageReset a0 { r0 with id := 4096 } 0 1,
    .glbPackageReset a0 { r0 with inst := 8 } 0 1].all (fun i : Instr => !i.wf) = true := by decide +kernel

/-- Each command has one operand outside its range, and is refused. -/
theorem test_ill_formed_4 : [
    .glbPackageReset a0 r0 0 16,
    .refclkLoss a0 2,
    .freqChangeDone a0 8,
    .freqChangeTimeout a0 8,
    .freqMonitorFault a0 40,
    .powerDownDrainExpire a0 20,
    .powerDownComplete a0 20,
    .powerUpComplete a0 20,
    .cstSegOnWrite a0 { r0 with id := 4096 } 1 1,
    .cstSegOnWrite a0 { r0 with inst := 8 } 1 1,
    .cstSegOnWrite a0 r0 4 1,
    .cstSegOnWrite a0 r0 1 (2 ^ 64)].all (fun i : Instr => !i.wf) = true := by decide +kernel

/-- Each command has one operand outside its range, and is refused. -/
theorem test_ill_formed_5 : [
    .segmentReady a0 4 1,
    .segmentReady a0 1 64,
    .packetAgePromote a0 4096,
    .queueCreate a0 1 [8192],
    .queueDestroyComplete a0 4096,
    .qdbTailWrite a0 { r0 with id := 4096 } 1 0,
    .qdbTailWrite a0 { r0 with inst := 8 } 1 0,
    .qdbTailWrite a0 r0 4096 0,
    .qdbHeadWrite a0 { r0 with id := 4096 } 1 0,
    .qdbHeadWrite a0 { r0 with inst := 8 } 1 0,
    .qdbHeadWrite a0 r0 4096 0,
    .cmdAdminCfgWrite a0 { r0 with id := 4096 } 0].all (fun i : Instr => !i.wf) = true := by decide +kernel

/-- Each command has one operand outside its range, and is refused. -/
theorem test_ill_formed_6 : [
    .cmdAdminCfgWrite a0 { r0 with inst := 8 } 0,
    .sealAlloc a0 1 [8192],
    .taskLaunch a0 1 [8192],
    .taskStart a0 16,
    .opDispatch a0 16,
    .engineOpStart a0 16 1,
    .engineOpStart a0 1 0,
    .engineOpStart a0 1 8,
    .opComplete a0 16 1,
    .opComplete a0 1 0,
    .opComplete a0 1 8,
    .opRerun a0 16 1].all (fun i : Instr => !i.wf) = true := by decide +kernel

/-- Each command has one operand outside its range, and is refused. -/
theorem test_ill_formed_7 : [
    .opRerun a0 1 0,
    .opRerun a0 1 8,
    .seqNop a0 16,
    .seqEnd a0 16,
    .loopSet a0 16,
    .loopBranch a0 16,
    .seqSealWait a0 16,
    .seqSealSignal a0 16,
    .patchSet a0 16,
    .patchAdd a0 16,
    .patchLoop a0 16,
    .reseed a0 16].all (fun i : Instr => !i.wf) = true := by decide +kernel

/-- Each command has one operand outside its range, and is refused. -/
theorem test_ill_formed_8 : [
    .seqDrain a0 16,
    .cbEntryTimeout a0 4,
    .fillForcedGrant a0 4,
    .scrubRangeDone a0 4,
    .dmaCopy a0 16,
    .dmaGather a0 16,
    .dmaScatter a0 16,
    .dmaTranspose a0 16,
    .dmaFill a0 16,
    .remoteAccessArrive a0 4 1 1 r0 1 1 none false,
    .remoteAccessArrive a0 1 4096 1 r0 1 1 none false,
    .remoteAccessArrive a0 1 1 4 r0 1 1 none false].all (fun i : Instr => !i.wf) = true := by decide +kernel

/-- Each command has one operand outside its range, and is refused. -/
theorem test_ill_formed_9 : [
    .remoteAccessArrive a0 1 1 1 { r0 with id := 4096 } 1 1 none false,
    .remoteAccessArrive a0 1 1 1 { r0 with inst := 8 } 1 1 none false,
    .remoteAccessArrive a0 1 1 1 r0 (2 ^ 48) 1 none false,
    .rwinOpen a0 1 [8192],
    .dteGemmW a0 16 .none,
    .dteGemmS a0 16 .none,
    .dteConvG a0 16 .none,
    .dteMulW16 a0 16 .none,
    .dteGemmW4 a0 16 .none,
    .dteGemmS4 a0 16 .none,
    .dteConvG4 a0 16 .none,
    .steGemmW a0 16 .none].all (fun i : Instr => !i.wf) = true := by decide +kernel

/-- Each command has one operand outside its range, and is refused. -/
theorem test_ill_formed_10 : [
    .steGemmS a0 16 .none,
    .steConvG a0 16 .none,
    .steUnpack a0 16,
    .stePack a0 16 .none,
    .mvpMv a0 16 .none,
    .mvpThin a0 16 .none,
    .vuEltwise a0 16 .none,
    .vuRowmax a0 16 .none,
    .vuRowsum a0 16 .none,
    .vuSoftmax a0 16 .none,
    .vuNorm a0 16 .none,
    .selTopk a0 16 false none].all (fun i : Instr => !i.wf) = true := by decide +kernel

/-- Each command has one operand outside its range, and is refused. -/
theorem test_ill_formed_11 : [
    .selKth a0 16 false none,
    .selUnique a0 16 false none,
    .selOrderedUnique a0 16 false none,
    .selSplit a0 16 false none,
    .hpuTileHash a0 16,
    .hpuNmap a0 16,
    .hpuLower a0 16,
    .ethFrameRx a0 5 1 1 [] 1 none,
    .ethLinkChange a0 5 false false false,
    .streamTimeout a0 256,
    .stpTblRead a0 { r0 with id := 4096 } 0,
    .stpTblRead a0 { r0 with inst := 8 } 0].all (fun i : Instr => !i.wf) = true := by decide +kernel

/-- Each command has one operand outside its range, and is refused. -/
theorem test_ill_formed_12 : [
    .stpTblWrite a0 { r0 with id := 4096 } 0,
    .stpTblWrite a0 { r0 with inst := 8 } 0,
    .stpReplayWrite a0 { r0 with id := 4096 } 0 1,
    .stpReplayWrite a0 { r0 with inst := 8 } 0 1,
    .stpFrameClose a0 { r0 with id := 4096 } 0 1,
    .stpFrameClose a0 { r0 with inst := 8 } 0 1,
    .stpSliceClose a0 { r0 with id := 4096 } 0,
    .stpSliceClose a0 { r0 with inst := 8 } 0,
    .sdoTestPulse a0 2,
    .sdoPulseEnd a0 2,
    .sdoOutputFault a0 2 false,
    .tableLoad a0 1 [8192]].all (fun i : Instr => !i.wf) = true := by decide +kernel

/-- Each command has one operand outside its range, and is refused. -/
theorem test_ill_formed_13 : [
    .tableLoadDone a0 1024 false [],
    .tableLookup a0 1 [8192],
    .tablePrefetch a0 1 [8192],
    .tableUpdate a0 1 [8192],
    .drainTimeout a0 1024,
    .fecFrameReceive a0 2 1 1 1 [],
    .fecFrameReceive a0 1 1 1 (2 ^ 64) [],
    .fecFrameReceive a0 1 1 1 1 (List.replicate 6 []),
    .portLightDetect a0 2 0 0,
    .portTrainingDone a0 2,
    .portTrainingTimeout a0 2,
    .portFail a0 2 1].all (fun i : Instr => !i.wf) = true := by decide +kernel

/-- Each command has one operand outside its range, and is refused. -/
theorem test_ill_formed_14 : [
    .portUpHoldExpire a0 2,
    .waggleSend a0 2,
    .waggleReceive a0 2 0,
    .tagTimeout a0 65536,
    .fabPortRetrain a0 { r0 with id := 4096 } 0,
    .fabPortRetrain a0 { r0 with inst := 8 } 0,
    .d2dPacketReceive a0 2,
    .ucieModuleFail a0 2 1,
    .ucieHeartbeatSend a0 2,
    .ucieHoldExpire a0 2,
    .d2dRequestTimeout a0 65536,
    .d2dRetrain a0 { r0 with id := 4096 } 0].all (fun i : Instr => !i.wf) = true := by decide +kernel

/-- Each command has one operand outside its range, and is refused. -/
theorem test_ill_formed_15 : [
    .d2dRetrain a0 { r0 with inst := 8 } 0,
    .pcieApertureAccess a0 9 1 1 none,
    .pcieApertureAccess a0 1 (2 ^ 48) 1 none,
    .flrReceive a0 9,
    .hbmTrainingDone a0 2 false,
    .patrolScrubRead a0 2,
    .hbmScrubRestart a0 { r0 with id := 4096 } 1 0,
    .hbmScrubRestart a0 { r0 with inst := 8 } 1 0,
    .hbmScrubRestart a0 r0 2 0,
    .hbmTempSample a0 2 none,
    .insCommit a0 { r0 with id := 4096 } 0,
    .insCommit a0 { r0 with inst := 8 } 0].all (fun i : Instr => !i.wf) = true := by decide +kernel

/-- Each command has one operand outside its range, and is refused. -/
theorem test_ill_formed_16 : [
    .instanceReset a0 { r0 with id := 4096 } 0,
    .instanceReset a0 { r0 with inst := 8 } 0,
    .instanceResetComplete a0 8,
    .regionScrubDone a0 8 1,
    .rolNonceRead a0 { r0 with id := 4096 },
    .rolNonceRead a0 { r0 with inst := 8 },
    .rolAuthOpen a0 { r0 with id := 4096 } 0,
    .rolAuthOpen a0 { r0 with inst := 8 } 0,
    .rolAuthEnd a0 { r0 with id := 4096 } 0,
    .rolAuthEnd a0 { r0 with inst := 8 } 0,
    .rolLockOpen a0 { r0 with id := 4096 } 0,
    .rolLockOpen a0 { r0 with inst := 8 } 0].all (fun i : Instr => !i.wf) = true := by decide +kernel

/-- Each command has one operand outside its range, and is refused. -/
theorem test_ill_formed_17 : [
    .rolLockCommit a0 { r0 with id := 4096 } 0,
    .rolLockCommit a0 { r0 with inst := 8 } 0,
    .auditTrim a0 { r0 with id := 4096 } 0,
    .auditTrim a0 { r0 with inst := 8 } 0,
    .evlFlushNow a0 { r0 with id := 4096 } 0,
    .evlFlushNow a0 { r0 with inst := 8 } 0,
    .pcieCompletionTimeout a0 4096,
    .ucieTrainingDone a0 2 1 1,
    .referenceInputReturn a0 3,
    .voltageStepComplete a0 8,
    .commandPacketFetch a0 [8192],
    .queuePush a0 1 [8192]].all (fun i : Instr => !i.wf) = true := by decide +kernel

/-- Each command has one operand outside its range, and is refused. -/
theorem test_ill_formed_18 : [
    .queuePop a0 1 [8192],
    .sealWait a0 1 [8192],
    .combBuffers a0 1 [8192],
    .linkInject a0 1 [8192],
    .safetyInject a0 1 [8192],
    .faultInject a0 1 [8192],
    .pcieLinkChange a0 true (2 ^ 15) {},
    .pcieLinkChange a0 true 0 { vfs := 512 },
    .pcieLinkChange a0 true 0 { bar2 := 27 },
    .pcieLinkChange a0 true 0 { bar2 := 37 },
    .pcieLinkChange a0 true 0 { msix := 512 },
    .pcieLinkChange a0 true 0 { ide := 16 }].all (fun i : Instr => !i.wf) = true := by decide +kernel

/-- Each command has one operand outside its range, and is refused. -/
theorem test_ill_formed_19 : [
    .eventWrite a0 [2]].all (fun i : Instr => !i.wf) = true := by decide +kernel

/-- The same commands with every operand in range are well formed. -/
theorem test_well_formed_1 : [
    .csrWrite a0 r0 1 1 0,
    .csrMisalignedAccess a0 r0 1 1 1 false,
    .reg64LowRead a0 r0 1 1,
    .reg64HighRead a0 r0 1 1,
    .reg64LowWrite a0 r0 1 1 0,
    .reg64HighWrite a0 r0 1 1 0,
    .selectionWrite a0 r0 1 1 0,
    .clearCounters a0 r0 1 0,
    .powerOn a0 1 false,
    .pkgResetRelease a0 1,
    .glbPackageReset a0 r0 0 1,
    .refclkLoss a0 1].all (fun i : Instr => i.wf) = true := by decide +kernel

/-- The same commands with every operand in range are well formed. -/
theorem test_well_formed_2 : [
    .freqChangeDone a0 1,
    .freqChangeTimeout a0 1,
    .freqMonitorFault a0 1,
    .powerDownDrainExpire a0 1,
    .powerDownComplete a0 1,
    .powerUpComplete a0 1,
    .cstSegOnWrite a0 r0 1 1,
    .segmentReady a0 1 1,
    .packetAgePromote a0 1,
    .queueCreate a0 1 [],
    .queueDestroyComplete a0 1,
    .qdbTailWrite a0 r0 1 0].all (fun i : Instr => i.wf) = true := by decide +kernel

/-- The same commands with every operand in range are well formed. -/
theorem test_well_formed_3 : [
    .qdbHeadWrite a0 r0 1 0,
    .cmdAdminCfgWrite a0 r0 0,
    .sealAlloc a0 1 [],
    .taskLaunch a0 1 [],
    .taskStart a0 1,
    .opDispatch a0 1,
    .engineOpStart a0 1 1,
    .opComplete a0 1 1,
    .opRerun a0 1 1,
    .seqNop a0 1,
    .seqEnd a0 1,
    .loopSet a0 1].all (fun i : Instr => i.wf) = true := by decide +kernel

/-- The same commands with every operand in range are well formed. -/
theorem test_well_formed_4 : [
    .loopBranch a0 1,
    .seqSealWait a0 1,
    .seqSealSignal a0 1,
    .patchSet a0 1,
    .patchAdd a0 1,
    .patchLoop a0 1,
    .reseed a0 1,
    .seqDrain a0 1,
    .cbEntryTimeout a0 1,
    .fillForcedGrant a0 1,
    .scrubRangeDone a0 1,
    .dmaCopy a0 1].all (fun i : Instr => i.wf) = true := by decide +kernel

/-- The same commands with every operand in range are well formed. -/
theorem test_well_formed_5 : [
    .dmaGather a0 1,
    .dmaScatter a0 1,
    .dmaTranspose a0 1,
    .dmaFill a0 1,
    .remoteAccessArrive a0 1 1 1 r0 1 1 none false,
    .rwinOpen a0 1 [],
    .dteGemmW a0 1 .none,
    .dteGemmS a0 1 .none,
    .dteConvG a0 1 .none,
    .dteMulW16 a0 1 .none,
    .dteGemmW4 a0 1 .none,
    .dteGemmS4 a0 1 .none].all (fun i : Instr => i.wf) = true := by decide +kernel

/-- The same commands with every operand in range are well formed. -/
theorem test_well_formed_6 : [
    .dteConvG4 a0 1 .none,
    .steGemmW a0 1 .none,
    .steGemmS a0 1 .none,
    .steConvG a0 1 .none,
    .steUnpack a0 1,
    .stePack a0 1 .none,
    .mvpMv a0 1 .none,
    .mvpThin a0 1 .none,
    .vuEltwise a0 1 .none,
    .vuRowmax a0 1 .none,
    .vuRowsum a0 1 .none,
    .vuSoftmax a0 1 .none].all (fun i : Instr => i.wf) = true := by decide +kernel

/-- The same commands with every operand in range are well formed. -/
theorem test_well_formed_7 : [
    .vuNorm a0 1 .none,
    .selTopk a0 1 false none,
    .selKth a0 1 false none,
    .selUnique a0 1 false none,
    .selOrderedUnique a0 1 false none,
    .selSplit a0 1 false none,
    .hpuTileHash a0 1,
    .hpuNmap a0 1,
    .hpuLower a0 1,
    .ethFrameRx a0 1 1 1 [] 1 none,
    .ethLinkChange a0 1 false false false,
    .streamTimeout a0 1].all (fun i : Instr => i.wf) = true := by decide +kernel

/-- The same commands with every operand in range are well formed. -/
theorem test_well_formed_8 : [
    .stpTblRead a0 r0 0,
    .stpTblWrite a0 r0 0,
    .stpReplayWrite a0 r0 0 1,
    .stpFrameClose a0 r0 0 1,
    .stpSliceClose a0 r0 0,
    .sdoTestPulse a0 1,
    .sdoPulseEnd a0 1,
    .sdoOutputFault a0 1 false,
    .tableLoad a0 1 [],
    .tableLoadDone a0 1 false [],
    .tableLookup a0 1 [],
    .tablePrefetch a0 1 []].all (fun i : Instr => i.wf) = true := by decide +kernel

/-- The same commands with every operand in range are well formed. -/
theorem test_well_formed_9 : [
    .tableUpdate a0 1 [],
    .drainTimeout a0 1,
    .fecFrameReceive a0 1 1 1 1 [],
    .portLightDetect a0 1 0 0,
    .portTrainingDone a0 1,
    .portTrainingTimeout a0 1,
    .portFail a0 1 1,
    .portUpHoldExpire a0 1,
    .waggleSend a0 1,
    .waggleReceive a0 1 0,
    .tagTimeout a0 1,
    .fabPortRetrain a0 r0 0].all (fun i : Instr => i.wf) = true := by decide +kernel

/-- The same commands with every operand in range are well formed. -/
theorem test_well_formed_10 : [
    .d2dPacketReceive a0 1,
    .ucieModuleFail a0 1 1,
    .ucieHeartbeatSend a0 1,
    .ucieHoldExpire a0 1,
    .d2dRequestTimeout a0 1,
    .d2dRetrain a0 r0 0,
    .pcieApertureAccess a0 1 1 1 none,
    .flrReceive a0 1,
    .hbmTrainingDone a0 1 false,
    .patrolScrubRead a0 1,
    .hbmScrubRestart a0 r0 1 0,
    .hbmTempSample a0 1 none].all (fun i : Instr => i.wf) = true := by decide +kernel

/-- The same commands with every operand in range are well formed. -/
theorem test_well_formed_11 : [
    .insCommit a0 r0 0,
    .instanceReset a0 r0 0,
    .instanceResetComplete a0 1,
    .regionScrubDone a0 1 1,
    .rolNonceRead a0 r0,
    .rolAuthOpen a0 r0 0,
    .rolAuthEnd a0 r0 0,
    .rolLockOpen a0 r0 0,
    .rolLockCommit a0 r0 0,
    .auditTrim a0 r0 0,
    .evlFlushNow a0 r0 0,
    .pcieCompletionTimeout a0 1].all (fun i : Instr => i.wf) = true := by decide +kernel

/-- The same commands with every operand in range are well formed. -/
theorem test_well_formed_12 : [
    .ucieTrainingDone a0 1 1 1,
    .referenceInputReturn a0 1,
    .voltageStepComplete a0 1,
    .commandPacketFetch a0 [8191],
    .queuePush a0 1 [8191],
    .queuePop a0 1 [8191],
    .sealWait a0 1 [8191],
    .combBuffers a0 1 [8191],
    .linkInject a0 1 [8191],
    .safetyInject a0 1 [8191],
    .faultInject a0 1 [8191],
    .pcieLinkChange a0 true (2 ^ 15 - 1) { vfs := 511, bar2 := 36, msix := 511, ide := 15 }].all (fun i : Instr => i.wf) = true := by decide +kernel

/-- The same commands with every operand in range are well formed. -/
theorem test_well_formed_13 : [
    .eventWrite a0 [0, 1]].all (fun i : Instr => i.wf) = true := by decide +kernel

/-! ## Values the spec states in its worked examples -/

/-- The block number form of R32, for an engine block. -/
theorem test_engine_block_number : B_ENG 3 2 1 = 0x2E1 := by decide +kernel

/-- The seed example after R63. -/
theorem test_lane_seed : laneSeed 0x1234 64 = 0x3E2B ∧ lfsrStep 0x3E2B = 0x7C57 := by decide +kernel

/-- The I16 × I8 example after R65. -/
theorem test_byte_split : highByte (-1000) = -4 ∧ lowByte (-1000) = 24 := by decide +kernel

/-- The sine table values of R80. -/
theorem test_sine_table : sineQ 0 = 0 ∧ sineQ 8192 = 759250125 ∧ sineQ 16384 = 1073741824 := by decide +kernel

/-- The deskew example after R88. -/
theorem test_deskew : deskew (List.replicate 36 0 ++ [1024000, 71680, 1024].flatMap (toLE 4) ++ List.replicate 8 0
    ++ [5498, 0, 0, 110].flatMap (toLE 4)) ⟨1044480, 81920, 2048⟩ 40000000 = ⟨1044644, 82002, 2048⟩ := by
  decide +kernel

/-- The key example after R112, at levels 0 and 1. -/
theorem test_voxel_key : [voxelCoord 7 1031844, voxelCoord 7 (-44306), voxelCoord 7 512] = [1056637, 1048229, 1048580]
    ∧ morton 1056637 1048229 1048580 = 0x54924936D94593C3
    ∧ morton (1056637 / 2) (1048229 / 2) (1048580 / 2) = 0x0A924926DB28B278 := by decide +kernel

/-- The weights of the trilinear example after R141. -/
theorem test_trilinear_weights :
    (triBag 7 0 ([1031844, 2 ^ 32 - 44306, 512].flatMap (toLE 4) ++ List.replicate 12 0)).drop 64
      = [2296, 8200, 1288, 4600, 2296, 8200, 1288, 4600].flatMap (toLE 2) := by decide +kernel

/-- The bank example of R146. -/
theorem test_store_bank : storeBank 0x00123440 = 50 ∧ storeLine 0x00123440 = 0x123 := by decide +kernel

/-- The code word example of R250: eight codes, the first in the lowest nibble. -/
theorem test_code_word : codeWord [0xD, 0x8, 0xE, 0x4, 9, 9, 9, 9] 0 = 0x99994E8D := by decide +kernel

/-- The zero-run example after R266. -/
theorem test_zero_run_tokens :
    (rowTokens ((List.range 40).map (fun i => if i = 3 then 7 else if i = 24 then 0xFD else 0))).map tokenWord
      = [0x073, 0x00F, 0xFD5, 0x006, 0x007] := by decide +kernel

/-- The stage example of the epilogue chain: 12,000 with scale (0x5A00, -5) saturates to 127. -/
theorem test_requantisation : requant 12000 0x00FB5A00 .rne .i8 0 = (127, true) := by decide +kernel

/-- The rounding of the pooled example after R356. -/
theorem test_bag_rounding : rnd 118095872 19 .rne 0 = 225 := by decide +kernel

/-- The update example after R368. -/
theorem test_update_element : laneSeed 0x1234 512 = 0x1E6B ∧ updElem .i8 8 true 0x1E6B 45 (-300) = (43, false) := by
  decide +kernel

/-! ## States for the witnesses -/

/-- Die 0 at 1 ms. -/
def at0 : At := { die := 0, time := 1000000 }

/-- A running die. -/
def upDie (n : Nat) : DieState := { num := n, boot := { held := false, stage := 7 }, cmd := { ready := true } }

/-- Four running dies, the state of die 0 given. -/
def upState (D : DieState) : State :=
  { dies := { q0 := D, q1 := upDie 1, q2 := upDie 2, q3 := upDie 3 }, pkg := { pwrGood := true } }

/-- A host requester of instance 0, and a session of a role that it holds. -/
def host : Req := { id := 0x0A0, inst := 0 }
def session (role : Nat) : Session :=
  { role := role, req := 0x0A0, queue := none, anchor := 0, serial := 0, opened := 0, lastUse := 0, notAfter := 2 ^ 60 }
def roleDie (role : Nat) : DieState := { upDie 0 with rol := { sessions := [(0, session role)] } }

/-- The die with an accepted command of instance 0 and 64-bit little-endian parameter words. -/
def cmdOf (op : Nat) (params : List Byte) : Cmd := { id := 1, queue := 0, op := op, params := params, rq := 1, result := some (.ok, 0) }
def withCmd (D : DieState) (c : Cmd) : DieState := { D with cmd := { D.cmd with cmds := [c] } }

/-- Does an action succeed? -/
def passes {α : Type} (m : M α) (D : DieState) : Bool := match (runM m D).1 with | .ok _ => true | .error _ => false
def answered {α : Type} [Inhabited α] (m : M α) (D : DieState) : α := match (runM m D).1 with | .ok x => x | .error _ => default
theorem run_ok {α : Type} [Inhabited α] (m : M α) (D : DieState) (h : passes m D = true) :
    runM m D = (.ok (answered m D), (runM m D).2) := by
  unfold passes at h
  unfold answered
  generalize hr : runM m D = r at *
  obtain ⟨x, D'⟩ := r
  cases x with
  | ok x => rfl
  | error e => simp at h
theorem run_unit (m : M Unit) (D : DieState) (h : passes m D = true) : runM m D = (.ok (), (runM m D).2) := run_ok m D h

/-- An instance entry: instance 0 owns all clusters, 1,024 seals, 64 queues, wide budgets and 4 GiB of stack 0's view. -/
def bank : Tab Byte :=
  memWrite [] 0 ([1, 15, 0, 0, 0, 4, 64, 0, 100, 0, 200, 0, 0, 4, 0, 0, 0, 8, 0, 0, 64, 0, 128, 0] ++ List.replicate 44 0
    ++ [64, 0, 0, 0, 0, 16, 0, 0, 1, 3])

/-- A running die with that bank, its host link up, and Seloth running. -/
def hostDie : DieState := { roleDie 1 with ins := { active := bank, staged := bank }, pcie := { up := true } }
def hostState : State := upState hostDie

/-- hostState with an accepted command of instance 0 and these parameters. -/
def cmdState (op : Nat) (params : List Byte) (D : DieState := hostDie) : State := upState (withCmd D (cmdOf op params))

/-- hostDie with every segment of its stores ready. -/
def readyDie : DieState :=
  { hostDie with clusters := quadMap (fun C => { C with segReady := 2 ^ 64 - 1 }) hostDie.clusters }

/-- A task descriptor (R181): window 0 is 16 KiB of the store with all rights, four ops at 0, four descriptors at 64,
core 0, no chain window, seal slot 0 in use; a limit in µs. -/
def taskDesc (limit : Nat) : List Byte :=
  [0, 0, 0xFF, 0] ++ toLE 4 0 ++ toLE 4 4 ++ toLE 4 64 ++ toLE 2 4 ++ toLE 2 1 ++ toLE 8 0 ++ List.replicate 4 0
    ++ toLE 4 0x1234 ++ List.replicate 8 1 ++ toLE 4 limit ++ [5, 0, 2, 1] ++ List.replicate 76 0
    ++ toLE 8 0 ++ toLE 8 16384 ++ [0, 7, 0] ++ List.replicate 237 0

/-- An op word (R189). -/
def opWordOf (e code da db dout imm : Nat) : Nat :=
  e * 2 ^ 124 + code * 2 ^ 116 + da * 2 ^ 80 + db * 2 ^ 64 + dout * 2 ^ 48 + 0xFFFF * 2 ^ 32 + imm

def taskOne (limit : Nat) : Task := { id := 1, cmd := 1, desc := taskDesc limit, inst := 0, stages := [(0, .running)], started := some 0 }

/-- readyDie with task 1 running on core 0. -/
def coreDie (k : Core) : DieState :=
  { readyDie with
    cmd := { readyDie.cmd with seals := [(5, { alloc := true, counter := 3, gen := 2 })] }
    task := { cores := [(0, { k with task := some 1 })], tasks := [taskOne 1] } }

/-- The result of an op that succeeds, and how an action that fails fails. -/
def answeredOp (m : M OpResult) (D : DieState) : OpResult := @answered OpResult ⟨{}⟩ m D
theorem run_op (m : M OpResult) (D : DieState) (h : passes m D = true) :
    runM m D = (.ok (answeredOp m D), (runM m D).2) := @run_ok OpResult ⟨{}⟩ m D h
def failOf {α : Type} (m : M α) (D : DieState) : Fail := match (runM m D).1 with | .ok _ => { status := .ok } | .error f => f
theorem run_err {α : Type} (m : M α) (D : DieState) (h : passes m D = false) :
    runM m D = (.error (failOf m D), (runM m D).2) := by
  unfold passes at h
  unfold failOf
  generalize hr : runM m D = r at *
  obtain ⟨x, D'⟩ := r
  cases x with
  | ok x => simp at h
  | error e => rfl

theorem run_val {α : Type} [Inhabited α] [DecidableEq α] (m : M α) (D : DieState) (x : α)
    (h : (passes m D && decide (answered m D = x)) = true) : runM m D = (.ok x, (runM m D).2) := by
  rw [Bool.and_eq_true, decide_eq_true_eq] at h
  rw [run_ok m D h.1, h.2]

/-- The statement of two outcomes: one of them holds. -/
theorem ite_exists {p : Prop} [Decidable p] {a b : Prop} (h : if p then a else b) : a ∨ b := by
  split at h
  · exact .inl h
  · exact .inr h

/-- A case of StepRunsTheFrontCommand. -/
theorem test_step_idle (h : Obligations.StepRunsTheFrontCommand) : step State.reset = .next State.reset :=
  h.2 State.reset rfl

def makerState : State := upState (roleDie 2)

/-- A die with values in registers, its copies of selections, a held half and the high half of an earlier read. -/
def wideDie : DieState :=
  { roleDie 2 with
    csr := { sels := [{ req := 0x0A0, block := B_CMD, vals := [(CMD_ADMIN_SEL, 1)] }]
             halves := [{ req := 0x0A0, block := B_CMD, off := CMD_ADMIN_CQ_BASE, low := 7, time := 5 }]
             shadows := [{ req := 0x0A0, block := B_CMD, off := CMD_ADMIN_CQ_BASE, high := 9 }] } }
def wide : State := upState wideDie
/-- The same with the admin pair of the selected instance in use. -/
def pairState : State := upState { wideDie with csr := { wideDie.csr with regs := [(regKey B_CMD CMD_ADMIN_CFG 1, 64)] } }

/-- A case of CsrWriteFollowsTheAccessCodes. -/
theorem test_csrWrite_hole (h : Obligations.CsrWriteFollowsTheAccessCodes) : ∃ t, exec (.csrWrite at0 host B_GLB 0x0FFC 5) makerState = .next t := by
  refine ⟨_, (h makerState at0 host B_GLB 0x0FFC 5 rfl ?_ ?_ ?_ ?_).1 ?_⟩ <;> decide +kernel

/-- A case of CsrWriteFollowsTheAccessCodes. -/
theorem test_csrWrite_rw (h : Obligations.CsrWriteFollowsTheAccessCodes) : ∃ t, exec (.csrWrite at0 host B_GLB GLB_INT_ENABLE 5) makerState = .next t := by
  refine ⟨_, ((h makerState at0 host B_GLB GLB_INT_ENABLE 5 rfl ?_ ?_ ?_ ?_).2 _ rfl ?_ ?_ ?_).1 ?_⟩ <;> decide +kernel

/-- A case of CsrWriteFollowsTheAccessCodes. -/
theorem test_csrWrite_w1c (h : Obligations.CsrWriteFollowsTheAccessCodes) : ∃ t, exec (.csrWrite at0 host B_GLB GLB_INT_STATUS 5) makerState = .next t := by
  refine ⟨_, ((h makerState at0 host B_GLB GLB_INT_STATUS 5 rfl ?_ ?_ ?_ ?_).2 _ rfl ?_ ?_ ?_).2.1 ?_ ?_⟩ <;> decide +kernel

/-- A case of CsrWriteFollowsTheAccessCodes. -/
theorem test_csrWrite_committed (h : Obligations.CsrWriteFollowsTheAccessCodes) : ∃ t, exec (.csrWrite at0 host B_PWR PWR_TEMP_THRESH 5) makerState = .next t := by
  refine ⟨_, (((h makerState at0 host B_PWR PWR_TEMP_THRESH 5 rfl ?_ ?_ ?_ ?_).2 _ rfl ?_ ?_ ?_).2.2 ?_ ?_).2⟩ <;> decide +kernel

/-- A case of WideRegistersCommitAndReadTogether. -/
theorem test_lowWrite (h : Obligations.WideRegistersCommitAndReadTogether) : ∃ t, exec (.reg64LowWrite at0 host B_CMD CMD_ADMIN_CQ_BASE 5) wide = .next t := by
  refine ⟨_, ((h.1 wide at0 host B_CMD CMD_ADMIN_CQ_BASE 5 _ rfl).1 rfl ?_ ?_ ?_).1 ?_⟩ <;> decide +kernel

/-- A case of WideRegistersCommitAndReadTogether. -/
theorem test_lowWrite_committed (h : Obligations.WideRegistersCommitAndReadTogether) : ∃ t, exec (.reg64LowWrite at0 host B_PCI PCI_BAR2_BASE 5) wide = .next t := by
  refine ⟨_, ((h.1 wide at0 host B_PCI PCI_BAR2_BASE 5 _ rfl).1 rfl ?_ ?_ ?_).2 ?_ ?_⟩ <;> decide +kernel

/-- A case of WideRegistersCommitAndReadTogether. -/
theorem test_highWrite (h : Obligations.WideRegistersCommitAndReadTogether) : ∃ t, exec (.reg64HighWrite at0 host B_CMD (CMD_ADMIN_CQ_BASE + 4) 5) wide = .next t := by
  refine ⟨_, ((h.1 wide at0 host B_CMD (CMD_ADMIN_CQ_BASE + 4) 5 _ rfl).2.1 rfl ?_ ?_ ?_ ?_).1 ?_ ?_⟩ <;> decide +kernel

/-- A case of WideRegistersCommitAndReadTogether. -/
theorem test_highWrite_committed (h : Obligations.WideRegistersCommitAndReadTogether) : ∃ t, exec (.reg64HighWrite at0 host B_PCI (PCI_BAR2_BASE + 4) 5) wide = .next t := by
  refine ⟨_, ((h.1 wide at0 host B_PCI (PCI_BAR2_BASE + 4) 5 _ rfl).2.1 rfl ?_ ?_ ?_ ?_).2.1 ?_ ?_ ?_⟩ <;> decide +kernel

/-- A case of WideRegistersCommitAndReadTogether. -/
theorem test_highWrite_inUse (h : Obligations.WideRegistersCommitAndReadTogether) : ∃ t, exec (.reg64HighWrite at0 host B_CMD (CMD_ADMIN_CQ_BASE + 4) 5) pairState = .next t := by
  refine ⟨_, ((h.1 pairState at0 host B_CMD (CMD_ADMIN_CQ_BASE + 4) 5 _ rfl).2.1 rfl ?_ ?_ ?_ ?_).2.2 ?_⟩ <;> decide +kernel

/-- A case of WideRegistersCommitAndReadTogether. -/
theorem test_halfExpire (h : Obligations.WideRegistersCommitAndReadTogether) : ∃ t, exec (.heldHalfExpire at0) wide = .next t :=
  (h.1 wide at0 host B_CMD CMD_ADMIN_CQ_BASE 5 { off := 0, words := 1 } rfl).2.2.imp fun _ h => h.1

/-- A case of WideRegistersCommitAndReadTogether. -/
theorem test_lowRead (h : Obligations.WideRegistersCommitAndReadTogether) : ∃ t, exec (.reg64LowRead at0 host B_CMD CMD_ADMIN_CQ_BASE) makerState = .next t := by
  refine ⟨_, (h.2 makerState at0 host B_CMD CMD_ADMIN_CQ_BASE rfl ?_ ?_).1 _ rfl ?_ ?_⟩ <;> decide +kernel

/-- A case of WideRegistersCommitAndReadTogether: a register of one word. -/
theorem test_lowRead_word (h : Obligations.WideRegistersCommitAndReadTogether) : ∃ t, exec (.reg64LowRead at0 host B_GLB GLB_CTRL) makerState = .next t :=
  ⟨_, (h.2 makerState at0 host B_GLB GLB_CTRL rfl (by decide +kernel) (by decide +kernel)).2.1
    (fun d hd => .inl (by cases (show regDesc B_GLB GLB_CTRL = some _ from rfl).symm.trans hd; rfl))⟩

/-- A case of WideRegistersCommitAndReadTogether. -/
theorem test_highRead_shadow (h : Obligations.WideRegistersCommitAndReadTogether) : ∃ t, exec (.reg64HighRead at0 host B_CMD (CMD_ADMIN_CQ_BASE + 4)) wide = .next t := by
  refine ⟨_, (h.2 wide at0 host B_CMD (CMD_ADMIN_CQ_BASE + 4) rfl ?_ ?_).2.2.1 _ rfl⟩ <;> decide +kernel

/-- A case of WideRegistersCommitAndReadTogether. -/
theorem test_highRead_live (h : Obligations.WideRegistersCommitAndReadTogether) : ∃ t, exec (.reg64HighRead at0 host B_CMD (CMD_ADMIN_CQ_BASE + 4)) makerState = .next t := by
  refine ⟨_, (h.2 makerState at0 host B_CMD (CMD_ADMIN_CQ_BASE + 4) rfl ?_ ?_).2.2.2 rfl⟩ <;> decide +kernel

/-- A case of MisalignedAccessesHaveNoEffect. -/
theorem test_misaligned_write (h : Obligations.MisalignedAccessesHaveNoEffect) : ∃ t, exec (.csrMisalignedAccess at0 host B_GLB 2 4 true) makerState = .next t := by
  refine ⟨_, (h makerState at0 host B_GLB 2 4 rfl ?_).1⟩
  decide +kernel

/-- A case of MisalignedAccessesHaveNoEffect. -/
theorem test_misaligned_read (h : Obligations.MisalignedAccessesHaveNoEffect) : ∃ t, exec (.csrMisalignedAccess at0 host 0x3F0 0 4 false) makerState = .next t := by
  refine ⟨_, (h makerState at0 host 0x3F0 0 4 rfl ?_).2⟩
  decide +kernel

/-- A case of SelectionsAreTheRequestersOwn. -/
theorem test_selectionWrite (h : Obligations.SelectionsAreTheRequestersOwn) : ∃ t, exec (.selectionWrite at0 host B_ETH 0x40 3) makerState = .next t := by
  refine ⟨_, (h makerState at0 host B_ETH 0x40 3 _ rfl ?_ rfl ?_ ?_ ?_).1⟩ <;> decide +kernel

/-- A case of ControlWritesHaveTheirEffect. -/
theorem test_clearCounters (h : Obligations.ControlWritesHaveTheirEffect) : ∃ t, exec (.clearCounters at0 host B_ETH 3) makerState = .next t := by
  refine ⟨_, ((h.1 makerState at0 host B_ETH 3 _ rfl rfl ?_ ?_ ?_ ?_).1 ?_ ?_).1⟩ <;> decide +kernel

def serviceState : State := upState { roleDie 1 with saf := { service := some 0 } }

/-- A case of ControlWritesHaveTheirEffect. -/
theorem test_clearCounters_refused (h : Obligations.ControlWritesHaveTheirEffect) : ∃ t, exec (.clearCounters at0 host B_SAF 2) serviceState = .next t := by
  refine ⟨_, (h.1 serviceState at0 host B_SAF 2 _ rfl rfl ?_ ?_ ?_ ?_).2 ?_⟩ <;> decide +kernel

/-- A case of ControlWritesHaveTheirEffect. -/
theorem test_csrWrite_insData (h : Obligations.ControlWritesHaveTheirEffect) : ∃ t, exec (.csrWrite at0 host B_INS INS_DATA 3) makerState = .next t := by
  refine ⟨_, (h.2 makerState at0 host 3 rfl).1 INS_DATA _ ?_ rfl rfl ?_ ?_⟩ <;> decide +kernel

/-- A case of ControlWritesHaveTheirEffect. -/
theorem test_csrWrite_portCtrl (h : Obligations.ControlWritesHaveTheirEffect) : ∃ t, exec (.csrWrite at0 host B_FAB FAB_PORT_CTRL 1) makerState = .next t := by
  refine ⟨_, (h.2 makerState at0 host 1 rfl).2.1 ?_⟩
  decide +kernel

/-- A case of ControlWritesHaveTheirEffect. -/
theorem test_csrWrite_stpCtrl (h : Obligations.ControlWritesHaveTheirEffect) : ∃ t, exec (.csrWrite at0 host B_STP STP_CTRL 1) makerState = .next t := by
  refine ⟨_, (h.2 makerState at0 host 1 rfl).2.2 ?_⟩
  decide +kernel

def ring (kind head tail : Nat) : Queue := { state := .active, base := 4096, log2 := 4, kind := kind, head := head, tail := tail }

def queueDie (kind head tail : Nat) : DieState := { hostDie with cmd := { hostDie.cmd with queues := [(16, ring kind head tail)] } }

/-- Queue 0 holds one packet of opcode op in the host memory; n commands of the instance are in flight, whose budget is 1 to 2. -/
def fetchDie (op : Byte) (n : Nat) : DieState :=
  { hostDie with
    cmd := { hostDie.cmd with
      queues := [(0, { ring 0 0 1 with headSince := some 0 }), (1, ring 1 0 0)]
      cmds := (List.range n).map (fun i => { cmdOf 0 [] with id := 100 + i }) }
    ins := { active := memWrite bank 8 [1, 0, 2, 0], staged := bank }
    mem := { host := memWrite [] 4096 [op, 0, 0, 0, 7, 0, 0, 0, 0, 0, 4, 0, 1, 0, 0, 0, 5] } }
def fetchState : State := upState (fetchDie 0 0)
/-- The host link is down: the packet's slots cannot be read. -/
def lostState : State := upState { fetchDie 0 0 with pcie := {} }

/-- A case of PacketsAreTakenFromTheQueues. -/
theorem test_packetFetch (h : Obligations.PacketsAreTakenFromTheQueues) : ∃ E X, exec (.commandPacketFetch at0 []) fetchState = .next (fetchState.put at0 E) ∧ E = X := by
  refine ((h fetchState at0 [] 0 rfl).1 ?_).elim fun E e => ⟨E, _, e.1, ((e.2.2 _ _ (run_ok _ _ ?_)).2 ?_).2.1 ?_⟩ <;> decide +kernel

/-- A case of PacketsAreTakenFromTheQueues. -/
theorem test_packetFetch_refused (h : Obligations.PacketsAreTakenFromTheQueues) : ∃ E X, exec (.commandPacketFetch at0 []) (upState (fetchDie 0xFF 0)) = .next ((upState (fetchDie 0xFF 0)).put at0 E) ∧ E = X := by
  refine ((h (upState (fetchDie 0xFF 0)) at0 [] 0 rfl).1 ?_).elim fun E e => ⟨E, _, e.1, (e.2.2 _ _ (run_ok _ _ ?_)).1 .faultFormat 0 ?_⟩ <;> decide +kernel

/-- A case of PacketsAreTakenFromTheQueues. -/
theorem test_packetFetch_limit (h : Obligations.PacketsAreTakenFromTheQueues) : ∃ E X, exec (.commandPacketFetch at0 []) (upState (fetchDie 0 2)) = .next ((upState (fetchDie 0 2)).put at0 E) ∧ E = X := by
  refine ((h (upState (fetchDie 0 2)) at0 [] 0 rfl).1 ?_).elim fun E e => ⟨E, _, e.1, ((e.2.2 _ _ (run_ok _ _ ?_)).2 ?_).1 1 ?_⟩ <;> decide +kernel

/-- A case of PacketsAreTakenFromTheQueues. -/
theorem test_packetFetch_delayed (h : Obligations.PacketsAreTakenFromTheQueues) : ∃ E X, exec (.commandPacketFetch at0 []) (upState (fetchDie 0 1)) = .next ((upState (fetchDie 0 1)).put at0 E) ∧ E = X := by
  refine ((h (upState (fetchDie 0 1)) at0 [] 0 rfl).1 ?_).elim fun E e => ⟨E, _, e.1, ((e.2.2 _ _ (run_ok _ _ ?_)).2 ?_).2.2 1 [] ?_ ?_⟩ <;> decide +kernel

/-- A case of PacketsAreTakenFromTheQueues. -/
theorem test_packetFetch_unread (h : Obligations.PacketsAreTakenFromTheQueues) : ∃ E X, exec (.commandPacketFetch at0 []) lostState = .next (lostState.put at0 E) ∧ E = X := by
  refine ((h lostState at0 [] 0 rfl).1 ?_).elim fun E e => ⟨E, _, e.1, e.2.1 _ _ (run_err _ _ ?_)⟩ <;> decide +kernel

/-- A case of PacketsAreTakenFromTheQueues. -/
theorem test_packetAge (h : Obligations.PacketsAreTakenFromTheQueues) : ∃ t, exec (.packetAgePromote at0 0) fetchState = .next t := by
  refine ⟨_, (h fetchState at0 [] 0 rfl).2.1 0 rfl ?_⟩
  decide +kernel

/-- A case of PacketsAreTakenFromTheQueues. -/
theorem test_budget (h : Obligations.PacketsAreTakenFromTheQueues) : ∃ t, exec (.budgetReevaluate at0) fetchState = .next t := by
  refine ⟨_, (h fetchState at0 [] 0 rfl).2.2 ?_⟩
  decide +kernel

/-- A case of QueueCommandsAnswer. -/
theorem test_nop (h : Obligations.QueueCommandsAnswer) : ∃ t, exec (.nop at0 1) (cmdState 0x0000 [1, 2]) = .next t := by
  refine ⟨_, (h.1 (cmdState 0x0000 [1, 2]) at0 1 (cmdOf 0x0000 [1, 2]) rfl).1 ?_⟩
  decide +kernel

/-- A case of QueueCommandsAnswer. -/
theorem test_queueStatus (h : Obligations.QueueCommandsAnswer) : ∃ t, exec (.queueStatus at0 1) (cmdState 0x0004 [16, 0] (queueDie 0 3 5)) = .next t := by
  refine ⟨_, ((h.1 (cmdState 0x0004 [16, 0] (queueDie 0 3 5)) at0 1 (cmdOf 0x0004 [16, 0]) rfl).2.1 ?_ ?_ ?_).1 ?_⟩ <;> decide +kernel

/-- A case of QueueCommandsAnswer. -/
theorem test_queueReset (h : Obligations.QueueCommandsAnswer) : ∃ t, exec (.queueReset at0 1) (cmdState 0x0003 [16, 0] (queueDie 0 3 5)) = .next t := by
  refine ⟨_, (((h.1 (cmdState 0x0003 [16, 0] (queueDie 0 3 5)) at0 1 (cmdOf 0x0003 [16, 0]) rfl).2.1 ?_ ?_ ?_).2.1 ?_ ?_ ?_).1 ?_⟩ <;> decide +kernel

def bellDie : DieState :=
  { hostDie with
    cmd := { hostDie.cmd with
      queues := [(16, { ring 2 3 5 with doorbell := some 5 })]
      seals := [(5, { alloc := true, counter := 5, gen := 2, door := some 16 })] } }

/-- A case of QueueCommandsAnswer. -/
theorem test_queueReset_bell (h : Obligations.QueueCommandsAnswer) : ∃ t, exec (.queueReset at0 1) (cmdState 0x0003 [16, 0] bellDie) = .next t := by
  refine ⟨_, (((h.1 (cmdState 0x0003 [16, 0] bellDie) at0 1 (cmdOf 0x0003 [16, 0]) rfl).2.1 ?_ ?_ ?_).2.1 ?_ ?_ ?_).2 5 ?_⟩ <;> decide +kernel

/-- A case of QueueCommandsAnswer. -/
theorem test_queueDestroy (h : Obligations.QueueCommandsAnswer) : ∃ t, exec (.queueDestroy at0 1) (cmdState 0x0002 [16, 0] (queueDie 0 3 5)) = .next t := by
  refine ⟨_, ((h.1 (cmdState 0x0002 [16, 0] (queueDie 0 3 5)) at0 1 (cmdOf 0x0002 [16, 0]) rfl).2.1 ?_ ?_ ?_).2.2 ?_ ?_ ?_ ?_⟩ <;> decide +kernel

def destroyDie : DieState := { hostDie with cmd := { hostDie.cmd with queues := [(16, { ring 0 3 5 with state := .destroying, destroyer := some (1, 2) })] } }

/-- A case of QueueCommandsAnswer. -/
theorem test_queueDestroyComplete (h : Obligations.QueueCommandsAnswer) : ∃ t, exec (.queueDestroyComplete at0 16) (cmdState 0x0002 [16, 0] destroyDie) = .next t := by
  refine ⟨_, (h.1 (cmdState 0x0002 [16, 0] destroyDie) at0 1 (cmdOf 0x0002 [16, 0]) rfl).2.2 2 16 rfl rfl ?_⟩
  decide +kernel

def createParams : List Byte := [0, 16, 0, 0, 0, 0, 0, 0, 4, 1, 0, 0, 0xFF, 0xFF, 0xFF, 0xFF] ++ List.replicate 16 0

/-- A case of QueueCommandsAnswer. -/
theorem test_queueCreate (h : Obligations.QueueCommandsAnswer) : ∃ E X, exec (.queueCreate at0 1 []) (cmdState 0x0001 createParams) = .next ((cmdState 0x0001 createParams).put at0 E) ∧ E = X := by
  refine (h.2 (cmdState 0x0001 createParams) at0 1 [] (cmdOf 0x0001 createParams) rfl ?_).elim fun E e => ⟨E, _, e.1, (e.2.2 _ _ (run_ok _ _ ?_)).1⟩ <;> decide +kernel

def pushParams : List Byte := [16, 0] ++ List.replicate 10 0 ++ [9, 9]
def fullQueue : DieState := { hostDie with cmd := { hostDie.cmd with queues := [(16, { ring 2 3 19 with fullMode := true })] } }
def emptyQueue (mode : Bool) : DieState := { hostDie with cmd := { hostDie.cmd with queues := [(16, { ring 2 5 5 with emptyMode := mode })] } }

/-- A case of MessageQueuesPassEntries. -/
theorem test_queuePush (h : Obligations.MessageQueuesPassEntries) : ∃ t, exec (.queuePush at0 1 []) (cmdState 0x0005 pushParams (queueDie 2 3 5)) = .next t := by
  refine ⟨_, ((h (cmdState 0x0005 pushParams (queueDie 2 3 5)) at0 1 [] (cmdOf 0x0005 pushParams) rfl ?_ ?_ ?_ ?_).1 ?_ ?_ ?_).1 _ ?_ ?_ rfl ?_⟩ <;> decide +kernel

/-- A case of MessageQueuesPassEntries. -/
theorem test_queuePush_full (h : Obligations.MessageQueuesPassEntries) : ∃ t, exec (.queuePush at0 1 []) (cmdState 0x0005 pushParams fullQueue) = .next t := by
  refine ⟨_, ((h (cmdState 0x0005 pushParams fullQueue) at0 1 [] (cmdOf 0x0005 pushParams) rfl ?_ ?_ ?_ ?_).1 ?_ ?_ ?_).2 ?_ ?_ ?_⟩ <;> decide +kernel

/-- A case of MessageQueuesPassEntries. -/
theorem test_queuePop_empty (h : Obligations.MessageQueuesPassEntries) : ∃ t, exec (.queuePop at0 1 []) (cmdState 0x0006 [16, 0] (emptyQueue true)) = .next t := by
  refine ⟨_, ((h (cmdState 0x0006 [16, 0] (emptyQueue true)) at0 1 [] (cmdOf 0x0006 [16, 0]) rfl ?_ ?_ ?_ ?_).2 ?_ ?_).1 ?_ ?_⟩ <;> decide +kernel

/-- A case of MessageQueuesPassEntries. -/
theorem test_queuePop_waits (h : Obligations.MessageQueuesPassEntries) : ∃ t, exec (.queuePop at0 1 []) (cmdState 0x0006 [16, 0] (emptyQueue false)) = .next t := by
  refine ⟨_, ((h (cmdState 0x0006 [16, 0] (emptyQueue false)) at0 1 [] (cmdOf 0x0006 [16, 0]) rfl ?_ ?_ ?_ ?_).2 ?_ ?_).2.1 ?_ ?_ ?_⟩ <;> decide +kernel

/-- A case of MessageQueuesPassEntries. -/
theorem test_queuePop (h : Obligations.MessageQueuesPassEntries) : ∃ t, exec (.queuePop at0 1 []) (cmdState 0x0006 [16, 0] (queueDie 2 3 5)) = .next t := by
  refine ⟨_, ((h (cmdState 0x0006 [16, 0] (queueDie 2 3 5)) at0 1 [] (cmdOf 0x0006 [16, 0]) rfl ?_ ?_ ?_ ?_).2 ?_ ?_).2.2 _ _ _ ?_ ?_ (run_ok _ _ ?_) (run_ok _ _ ?_) ?_⟩ <;> decide +kernel

/-- A case of DoorbellsMoveTheRing. -/
theorem test_tailWrite (h : Obligations.DoorbellsMoveTheRing) : ∃ t, exec (.qdbTailWrite at0 host 16 6) (upState (queueDie 0 3 5)) = .next t := by
  refine ⟨_, ((((h (upState (queueDie 0 3 5)) at0 host 16 6 rfl).1 ?_).1 ?_).2 ?_).1 ?_ ?_⟩ <;> decide +kernel

/-- A case of DoorbellsMoveTheRing. -/
theorem test_tailWrite_full (h : Obligations.DoorbellsMoveTheRing) : ∃ t, exec (.qdbTailWrite at0 host 16 19) (upState (queueDie 0 3 5)) = .next t := by
  refine ⟨_, ((((h (upState (queueDie 0 3 5)) at0 host 16 19 rfl).1 ?_).1 ?_).2 ?_).1 ?_ ?_⟩ <;> decide +kernel

/-- A case of DoorbellsMoveTheRing. -/
theorem test_tailWrite_over (h : Obligations.DoorbellsMoveTheRing) : ∃ t, exec (.qdbTailWrite at0 host 16 20) (upState (queueDie 0 3 5)) = .next t := by
  refine ⟨_, ((((h (upState (queueDie 0 3 5)) at0 host 16 20 rfl).1 ?_).1 ?_).2 ?_).2 ?_⟩ <;> decide +kernel

/-- A case of DoorbellsMoveTheRing. -/
theorem test_tailWrite_destroying (h : Obligations.DoorbellsMoveTheRing) : ∃ t, exec (.qdbTailWrite at0 host 16 6) (upState destroyDie) = .next t := by
  refine ⟨_, (((h (upState destroyDie) at0 host 16 6 rfl).1 ?_).1 ?_).1 ?_⟩ <;> decide +kernel

/-- A case of DoorbellsMoveTheRing. -/
theorem test_headWrite (h : Obligations.DoorbellsMoveTheRing) : ∃ t, exec (.qdbHeadWrite at0 host 16 5) (upState (queueDie 1 3 5)) = .next t := by
  refine ⟨_, ((((h (upState (queueDie 1 3 5)) at0 host 16 5 rfl).1 ?_).2.1 ?_).2 ?_).1 ?_⟩ <;> decide +kernel

/-- A case of DoorbellsMoveTheRing. -/
theorem test_headWrite_over (h : Obligations.DoorbellsMoveTheRing) : ∃ t, exec (.qdbHeadWrite at0 host 16 6) (upState (queueDie 1 3 5)) = .next t := by
  refine ⟨_, ((((h (upState (queueDie 1 3 5)) at0 host 16 6 rfl).1 ?_).2.1 ?_).2 ?_).2 ?_⟩ <;> decide +kernel

def errorDie : DieState := { hostDie with cmd := { hostDie.cmd with queues := [(16, { ring 1 3 5 with state := .error })] } }

/-- A case of DoorbellsMoveTheRing. -/
theorem test_headWrite_error (h : Obligations.DoorbellsMoveTheRing) : ∃ t, exec (.qdbHeadWrite at0 host 16 5) (upState errorDie) = .next t := by
  refine ⟨_, (((h (upState errorDie) at0 host 16 5 rfl).1 ?_).2.1 ?_).1 ?_⟩ <;> decide +kernel

/-- A case of DoorbellsMoveTheRing. -/
theorem test_tailWrite_refused (h : Obligations.DoorbellsMoveTheRing) : ∃ t, exec (.qdbTailWrite at0 host 16 6) (upState (queueDie 1 3 5)) = .next t := by
  refine ⟨_, ((h (upState (queueDie 1 3 5)) at0 host 16 6 rfl).1 ?_).2.2.1 ?_⟩ <;> decide +kernel

/-- A case of DoorbellsMoveTheRing. -/
theorem test_headWrite_refused (h : Obligations.DoorbellsMoveTheRing) : ∃ t, exec (.qdbHeadWrite at0 host 16 6) (upState (queueDie 0 3 5)) = .next t := by
  refine ⟨_, ((h (upState (queueDie 0 3 5)) at0 host 16 6 rfl).1 ?_).2.2.2 ?_⟩ <;> decide +kernel

def guest : Req := { id := 0x0A0, inst := 1 }

def adminState : State := upState { hostDie with csr := { sels := [{ req := 0x0A0, block := B_CMD, vals := [(CMD_ADMIN_SEL, 1)] }] } }

/-- A case of DoorbellsMoveTheRing. -/
theorem test_adminCfg (h : Obligations.DoorbellsMoveTheRing) : ∃ t, exec (.cmdAdminCfgWrite at0 guest 0x44) adminState = .next t := by
  refine ⟨_, (h adminState at0 guest 16 0x44 rfl).2.1 ?_⟩
  decide +kernel

/-- A case of DoorbellsMoveTheRing. -/
theorem test_adminCfg_pair (h : Obligations.DoorbellsMoveTheRing) : ((((adminState.dieAt at0).touchSession guest).writeAdminCfg 1 0x44).queue 2).state = .active := by
  refine ((h adminState at0 guest 16 0x44 rfl).2.2 ?_ ?_ ?_ ?_ ?_ ?_).1 <;> decide +kernel

def sealDie (n gen : Nat) : DieState := { hostDie with cmd := { hostDie.cmd with seals := [(5, { alloc := true, counter := n, gen := gen })] } }

def sealRefBytes : List Byte := [5, 0, 2, 1]

/-- hostDie whose instance 0 owns no seals. -/
def noSeals : DieState := { hostDie with ins := { active := memWrite bank 4 [0, 0], staged := bank } }

/-- A case of SealCommandsAnswer. -/
theorem test_sealAlloc (h : Obligations.SealCommandsAnswer) : ∃ t, exec (.sealAlloc at0 1 []) (cmdState 0x0010 []) = .next t := by
  refine ⟨_, (h.1 (cmdState 0x0010 []) at0 1 [] (cmdOf 0x0010 []) rfl).1 0 ?_ ?_ rfl (fun j _ hj => absurd hj (Nat.not_lt_zero j)) (.inl rfl)⟩ <;> decide +kernel

/-- A case of SealCommandsAnswer. -/
theorem test_sealAlloc_none (h : Obligations.SealCommandsAnswer) : ∃ t, exec (.sealAlloc at0 1 []) (cmdState 0x0010 [] noSeals) = .next t := by
  refine ⟨_, (h.1 (cmdState 0x0010 [] noSeals) at0 1 [] (cmdOf 0x0010 []) rfl).2.1 ?_ (fun k hk => absurd (Nat.lt_of_le_of_lt hk.1 hk.2) ?_) ?_⟩ <;> decide +kernel

/-- A case of SealCommandsAnswer. -/
theorem test_sealFree (h : Obligations.SealCommandsAnswer) : ∃ t, exec (.sealFree at0 1) (cmdState 0x0011 sealRefBytes (sealDie 3 2)) = .next t := by
  refine ⟨_, (((h.1 (cmdState 0x0011 sealRefBytes (sealDie 3 2)) at0 1 [] (cmdOf 0x0011 sealRefBytes) rfl).2.2.1 ?_ ?_).1 ?_ ?_ ?_).1 ?_ ?_⟩ <;> decide +kernel

/-- A case of SealCommandsAnswer. -/
theorem test_sealReset (h : Obligations.SealCommandsAnswer) : ∃ t, exec (.sealReset at0 1) (cmdState 0x0012 sealRefBytes (sealDie 3 2)) = .next t := by
  refine ⟨_, (((h.1 (cmdState 0x0012 sealRefBytes (sealDie 3 2)) at0 1 [] (cmdOf 0x0012 sealRefBytes) rfl).2.2.1 ?_ ?_).1 ?_ ?_ ?_).2 ?_ ?_⟩ <;> decide +kernel

/-- A case of SealCommandsAnswer. -/
theorem test_sealSignal (h : Obligations.SealCommandsAnswer) : ∃ t, exec (.sealSignal at0 1) (cmdState 0x0013 (sealRefBytes ++ [1, 0, 0, 0]) (sealDie 3 2)) = .next t := by
  refine ⟨_, ((h.1 (cmdState 0x0013 (sealRefBytes ++ [1, 0, 0, 0]) (sealDie 3 2)) at0 1 [] (cmdOf 0x0013 (sealRefBytes ++ [1, 0, 0, 0])) rfl).2.2.1 ?_ ?_).2 ?_⟩ <;> decide +kernel

/-- A case of SealCommandsAnswer. -/
theorem test_sealQuery (h : Obligations.SealCommandsAnswer) : ∃ t, exec (.sealQuery at0 1) (cmdState 0x0016 [5, 0] (sealDie 3 2)) = .next t := by
  refine ⟨_, (h.1 (cmdState 0x0016 [5, 0] (sealDie 3 2)) at0 1 [] (cmdOf 0x0016 [5, 0]) rfl).2.2.2 ?_ ?_⟩ <;> decide +kernel

/-- A case of SealCommandsAnswer. -/
theorem test_sealWait_met (h : Obligations.SealCommandsAnswer) : ∃ t, exec (.sealWait at0 1 []) (cmdState 0x0014 (sealRefBytes ++ [3, 0, 0, 0]) (sealDie 3 2)) = .next t := by
  refine ⟨_, ((h.2 (cmdState 0x0014 (sealRefBytes ++ [3, 0, 0, 0]) (sealDie 3 2)) at0 1 [] (cmdOf 0x0014 (sealRefBytes ++ [3, 0, 0, 0])) rfl ?_).1 ?_ ?_ ?_ ?_ ?_ ?_).1 ?_⟩ <;> decide +kernel

/-- A case of SealCommandsAnswer. -/
theorem test_sealWait_below (h : Obligations.SealCommandsAnswer) : ∃ t, exec (.sealWait at0 1 []) (cmdState 0x0014 (sealRefBytes ++ [4, 0, 0, 0]) (sealDie 3 2)) = .next t := by
  refine ⟨_, ((h.2 (cmdState 0x0014 (sealRefBytes ++ [4, 0, 0, 0]) (sealDie 3 2)) at0 1 [] (cmdOf 0x0014 (sealRefBytes ++ [4, 0, 0, 0])) rfl ?_).1 ?_ ?_ ?_ ?_ ?_ ?_).2 ?_ ?_⟩ <;> decide +kernel

def armBytes : List Byte := sealRefBytes ++ [4, 0, 0, 0, 0xFF, 0xFF, 0xFF, 0xFF]

/-- A case of SealCommandsAnswer. -/
theorem test_sealArm (h : Obligations.SealCommandsAnswer) : ∃ t, exec (.sealArm at0 1) (cmdState 0x0015 armBytes (sealDie 3 2)) = .next t := by
  refine ⟨_, (h.2 (cmdState 0x0015 armBytes (sealDie 3 2)) at0 1 [] (cmdOf 0x0015 armBytes) rfl ?_).2 ?_ ?_ ?_ ?_ ?_ ?_ ?_ ?_⟩ <;> decide +kernel

def signalDie : DieState := { sealDie 3 2 with cmd := { (sealDie 3 2).cmd with intake := [{ num := 5, gen := 2, add := 4, src := .job }] } }

def timeoutDie : DieState := { sealDie 3 2 with cmd := { (sealDie 3 2).cmd with waits := [{ who := .seq 3, num := 5, target := 9, deadline := some 1000000 }] } }

/-- A case of SealCyclesApplySignalsAndTimeouts. -/
theorem test_sealSignalApply (h : Obligations.SealCyclesApplySignalsAndTimeouts) : ∃ t, exec (.sealSignalApply at0) (upState signalDie) = .next t := by
  refine ((h (upState signalDie) at0 rfl rfl rfl).1 _ rfl rfl rfl ?_ ?_ ?_ ?_ ?_ ?_).imp fun _ h => h.1 <;> decide +kernel

/-- A case of SealCyclesApplySignalsAndTimeouts. -/
theorem test_sealWaitTimeout (h : Obligations.SealCyclesApplySignalsAndTimeouts) : ∃ t, exec (.sealWaitTimeout at0) (upState timeoutDie) = .next t := by
  refine ⟨_, (h (upState timeoutDie) at0 rfl rfl rfl).2 _ _ _ rfl rfl ?_⟩
  decide +kernel

def launchState : State := cmdState 0x0200 (toLE 8 4096) { readyDie with mem := { host := memWrite [] 4096 (taskDesc 0) } }

/-- A case of TasksLaunchStartAndExpire. -/
theorem test_taskLaunch (h : Obligations.TasksLaunchStartAndExpire) : ∃ E X, exec (.taskLaunch at0 1 []) launchState = .next (launchState.put at0 E) ∧ E = X := by
  refine ((h.1 launchState at0 1 [] (cmdOf 0x0200 (toLE 8 4096)) rfl).1 ?_).elim fun E e => ⟨E, _, e.1, (e.2.2 _ (run_unit _ _ ?_)).1⟩ <;> decide +kernel

/-- A case of TasksLaunchStartAndExpire. -/
theorem test_taskStatus (h : Obligations.TasksLaunchStartAndExpire) : ∃ t, exec (.taskStatus at0 1) (cmdState 0x0201 [1, 0, 0, 0] (coreDie {})) = .next t := by
  refine ⟨_, (h.1 (cmdState 0x0201 [1, 0, 0, 0] (coreDie {})) at0 1 [] (cmdOf 0x0201 [1, 0, 0, 0]) rfl).2.1 (taskOne 1) ?_ ?_ ?_⟩ <;> decide +kernel

/-- A case of TasksLaunchStartAndExpire. -/
theorem test_taskQueryCore (h : Obligations.TasksLaunchStartAndExpire) : ∃ t, exec (.taskQueryCore at0 1) (cmdState 0x0202 [15, 0, 0, 0] (coreDie {})) = .next t := by
  refine ⟨_, (h.1 (cmdState 0x0202 [15, 0, 0, 0] (coreDie {})) at0 1 [] (cmdOf 0x0202 [15, 0, 0, 0]) rfl).2.2 ?_ ?_ ?_⟩ <;> decide +kernel

def queuedTask : Task := { taskOne 0 with stages := [(0, .queued)], started := none }

def startDie : DieState := { readyDie with task := { cores := [(0, { launch := [1] })], tasks := [queuedTask] } }
def startState : State := upState startDie
/-- Its segments have no power; or its first line is still to be filled. -/
def darkStart : State := upState { startDie with clusters := hostDie.clusters }
def scrubStart : State :=
  upState { startDie with clusters := quadMap (fun (C : Cluster) => { C with fills := [{ lo := 0, len := 64 }] }) startDie.clusters }

/-- A case of TasksLaunchStartAndExpire. -/
theorem test_taskStart (h : Obligations.TasksLaunchStartAndExpire) : ∃ E X, exec (.taskStart at0 0) startState = .next (startState.put at0 E) ∧ E = X := by
  refine ((h.2 startState at0 0 queuedTask rfl).1 1 [] ?_ ?_ ?_).elim fun E e => ⟨E, _, e.1, e.2.2.2 _ _ ?_ (run_ok _ _ ?_)⟩ <;> decide +kernel

/-- A case of TasksLaunchStartAndExpire. -/
theorem test_taskStart_fails (h : Obligations.TasksLaunchStartAndExpire) : ∃ E X, exec (.taskStart at0 0) darkStart = .next (darkStart.put at0 E) ∧ E = X := by
  refine ((h.2 darkStart at0 0 queuedTask rfl).1 1 [] ?_ ?_ ?_).elim fun E e => ⟨E, _, e.1, e.2.2.1 .refusedDomainOff ?_⟩ <;> decide +kernel

/-- A case of TasksLaunchStartAndExpire. -/
theorem test_taskStart_waits (h : Obligations.TasksLaunchStartAndExpire) : ∃ E X, exec (.taskStart at0 0) scrubStart = .next (scrubStart.put at0 E) ∧ E = X := by
  refine ((h.2 scrubStart at0 0 queuedTask rfl).1 1 [] ?_ ?_ ?_).elim fun E e => ⟨E, _, e.1, e.2.1 ?_⟩ <;> decide +kernel

def withOps (words : List Nat) (k : Core) : State :=
  upState { coreDie k with clusters := quadMap (fun (C : Cluster) => { C with bytes := memWrite [] 0 (words.flatMap (toLE 16)) }) readyDie.clusters }

/-- A SEQ op, one that waits on a token, an engine op, and one that makes a chain row. -/
def seqWord : Nat := opWordOf 0 0 0xFFFF 0xFFFF 0xFFFF 0
def waitWord : Nat := seqWord + 2 ^ 108
def vuWord : Nat := opWordOf 4 1 0 1 2 0
def busyVu : Core := { engines := [(4, { run := [{ op := { idx := 0, word := vuWord } }] })] }

/-- A case of TasksLaunchStartAndExpire. -/
theorem test_opDispatch_seq (h : Obligations.TasksLaunchStartAndExpire) : ∃ t, exec (.opDispatch at0 0) (withOps [seqWord] {}) = .next t := by
  refine ⟨_, ((h.2 (withOps [seqWord] {}) at0 0 (taskOne 1) rfl).2.1 seqWord ?_ ?_ ?_ ?_ ?_ ?_).2.1 ?_ ?_ ?_⟩ <;> decide +kernel

/-- A case of TasksLaunchStartAndExpire. -/
theorem test_opDispatch_held (h : Obligations.TasksLaunchStartAndExpire) : ∃ t, exec (.opDispatch at0 0) (withOps [waitWord] busyVu) = .next t := by
  refine ⟨_, ((h.2 (withOps [waitWord] busyVu) at0 0 (taskOne 1) rfl).2.1 waitWord ?_ ?_ ?_ ?_ ?_ ?_).2.2.1 ?_ ?_ ?_⟩ <;> decide +kernel

/-- A case of TasksLaunchStartAndExpire. -/
theorem test_opDispatch_deadlock (h : Obligations.TasksLaunchStartAndExpire) : ∃ t, exec (.opDispatch at0 0) (withOps [waitWord] {}) = .next t := by
  refine ⟨_, ((h.2 (withOps [waitWord] {}) at0 0 (taskOne 1) rfl).2.1 waitWord ?_ ?_ ?_ ?_ ?_ ?_).1 ?_⟩ <;> decide +kernel

/-- A case of TasksLaunchStartAndExpire. -/
theorem test_opDispatch_engine (h : Obligations.TasksLaunchStartAndExpire) : ∃ t, exec (.opDispatch at0 0) (withOps [vuWord] { tokens := [1, 1, 1, 1, 1, 1, 1, 1] }) = .next t := by
  refine ⟨_, ((h.2 (withOps [vuWord] { tokens := [1, 1, 1, 1, 1, 1, 1, 1] }) at0 0 (taskOne 1) rfl).2.1 vuWord ?_ ?_ ?_ ?_ ?_ ?_).2.2.2 ?_ ?_ ?_ ?_ ?_⟩ <;> decide +kernel

/-- A case of TasksLaunchStartAndExpire. -/
theorem test_taskLimitExpire (h : Obligations.TasksLaunchStartAndExpire) : ∃ t, exec (.taskLimitExpire at0 1) (upState (coreDie {})) = .next t := by
  refine ⟨_, (h.2 (upState (coreDie {})) at0 0 (taskOne 1) rfl).2.2 1 0 ?_ ?_ ?_ ?_⟩ <;> decide +kernel

def flight (op : OpEntry) (r : Option OpResult) : Core := { engines := [(4, { run := [{ op := op, result := r }] })] }
def queued (gate : Nat) : State := upState (coreDie { engines := [(4, { queue := [{ idx := 0, word := vuWord, gate := gate }] })] })
def remoteFlight : Core := { engines := [(4, { run := [{ op := { idx := 0, word := vuWord }, result := some {}, remote := 1 }] })] }

/-- A case of EngineOpsStartRerunAndComplete. -/
theorem test_engineOpStart (h : Obligations.EngineOpsStartRerunAndComplete) : ∃ t, exec (.engineOpStart at0 0 4) (queued 0) = .next t := by
  refine ⟨_, ((h (queued 0) at0 0 4 (taskOne 1) rfl).1 { idx := 0, word := vuWord, gate := 6 } ?_ ?_).1 ?_ ?_ ?_ ?_ (fun _ hk => nomatch hk)⟩ <;> decide +kernel

/-- A case of EngineOpsStartRerunAndComplete. -/
theorem test_engineOpStart_gated (h : Obligations.EngineOpsStartRerunAndComplete) : ∃ t, exec (.engineOpStart at0 0 4) (queued 1) = .next t := by
  refine ⟨_, ((h (queued 1) at0 0 4 (taskOne 1) rfl).1 { idx := 0, word := vuWord, gate := 1 } ?_ ?_).2.1 ?_⟩ <;> decide +kernel

/-- A case of EngineOpsStartRerunAndComplete. -/
theorem test_engineOpStart_late (h : Obligations.EngineOpsStartRerunAndComplete) : ∃ t, exec (.engineOpStart at0 0 4) (queued 4) = .next t := by
  refine ⟨_, ((h (queued 4) at0 0 4 (taskOne 1) rfl).1 { idx := 0, word := vuWord, gate := 4 } ?_ ?_).2.2.1 ?_⟩ <;> decide +kernel

/-- A case of EngineOpsStartRerunAndComplete. -/
theorem test_engineOpStart_stale (h : Obligations.EngineOpsStartRerunAndComplete) : ∃ t, exec (.engineOpStart at0 0 4) (queued 5) = .next t := by
  refine ⟨_, ((h (queued 5) at0 0 4 (taskOne 1) rfl).1 { idx := 0, word := vuWord, gate := 5 } ?_ ?_).2.2.2 ?_⟩ <;> decide +kernel

/-- A case of EngineOpsStartRerunAndComplete. -/
theorem test_opRerun (h : Obligations.EngineOpsStartRerunAndComplete) : ∃ t, exec (.opRerun at0 0 4) (upState (coreDie (flight { idx := 0, word := vuWord, lines := [3] } none))) = .next t := by
  refine ⟨_, (h (upState (coreDie (flight { idx := 0, word := vuWord, lines := [3] } none))) at0 0 4 (taskOne 1) rfl).2.1 _ _ rfl ?_ ?_⟩ <;> decide +kernel

/-- A case of EngineOpsStartRerunAndComplete. -/
theorem test_opComplete (h : Obligations.EngineOpsStartRerunAndComplete) : ∃ t, exec (.opComplete at0 0 4) (upState (coreDie (flight { idx := 0, word := vuWord } (some {})))) = .next t := by
  refine ⟨_, (((h (upState (coreDie (flight { idx := 0, word := vuWord } (some {})))) at0 0 4 (taskOne 1) rfl).2.2 _ _ {} ?_ rfl ?_).2 ?_ ?_).1 ?_⟩ <;> decide +kernel

/-- A case of EngineOpsStartRerunAndComplete. -/
theorem test_opComplete_fails (h : Obligations.EngineOpsStartRerunAndComplete) : ∃ t, exec (.opComplete at0 0 4) (upState (coreDie (flight { idx := 0, word := vuWord } (some { status := .faultBounds })))) = .next t := by
  refine ⟨_, (((h (upState (coreDie (flight { idx := 0, word := vuWord } (some { status := .faultBounds })))) at0 0 4 (taskOne 1) rfl).2.2 _ _ { status := .faultBounds } ?_ rfl ?_).2 ?_ ?_).2.1 ?_ ?_⟩ <;> decide +kernel

/-- A case of EngineOpsStartRerunAndComplete. -/
theorem test_opComplete_parity (h : Obligations.EngineOpsStartRerunAndComplete) : ∃ t, exec (.opComplete at0 0 4) (upState (coreDie (flight { idx := 0, word := vuWord } (some { status := .faultParityPersistent })))) = .next t := by
  refine ⟨_, (((h (upState (coreDie (flight { idx := 0, word := vuWord } (some { status := .faultParityPersistent })))) at0 0 4 (taskOne 1) rfl).2.2 _ _ { status := .faultParityPersistent } ?_ rfl ?_).2 ?_ ?_).2.2 ?_⟩ <;> decide +kernel

/-- A case of EngineOpsStartRerunAndComplete. -/
theorem test_opComplete_remote (h : Obligations.EngineOpsStartRerunAndComplete) : ∃ t, exec (.opComplete at0 0 4) (upState (coreDie remoteFlight)) = .next t := by
  refine ⟨_, ((h (upState (coreDie remoteFlight)) at0 0 4 (taskOne 1) rfl).2.2 _ _ {} ?_ rfl ?_).1 ?_⟩ <;> decide +kernel

def seqOp (code da db imm : Nat) : OpEntry := { idx := 2, word := opWordOf 0 code da db 0xFFFF imm }

def seqCore (code da db imm : Nat) (loops : List Nat := [0, 0, 0, 0]) : Core :=
  { seq := some (seqOp code da db imm), loops := loops, descs := [List.replicate 64 0] }
def seqState (code da db imm : Nat) (loops : List Nat := [0, 0, 0, 0]) : State := upState (coreDie (seqCore code da db imm loops))
def chainedEnd : State := upState (coreDie { seqCore 1 0xFFFF 0xFFFF 0 with chained := [0] })
/-- A SEAL_WAIT that the seal unit waits for, or has ended. -/
def waitState (r : Nat) : State := upState (coreDie { seqCore 4 0 0 3 with sealWait := some r })

/-- A case of SequencerOpsMoveOn. -/
theorem test_seqNop (h : Obligations.SequencerOpsMoveOn) : ∃ t, exec (.seqNop at0 0) (seqState 0 0xFFFF 0xFFFF 0) = .next t := by
  refine ⟨_, (h.1 (seqState 0 0xFFFF 0xFFFF 0) at0 0 (taskOne 1) (seqOp 0 0xFFFF 0xFFFF 0) rfl ?_ ?_).1 ?_⟩ <;> decide +kernel

/-- A case of SequencerOpsMoveOn. -/
theorem test_seqEnd (h : Obligations.SequencerOpsMoveOn) : ∃ t, exec (.seqEnd at0 0) (seqState 1 0xFFFF 0xFFFF 0) = .next t := by
  refine ⟨_, (h.1 (seqState 1 0xFFFF 0xFFFF 0) at0 0 (taskOne 1) (seqOp 1 0xFFFF 0xFFFF 0) rfl ?_ ?_).2.1 ?_ ?_⟩ <;> decide +kernel

/-- A case of SequencerOpsMoveOn. -/
theorem test_seqEnd_chained (h : Obligations.SequencerOpsMoveOn) : ∃ t, exec (.seqEnd at0 0) chainedEnd = .next t := by
  refine ⟨_, (h.1 chainedEnd at0 0 (taskOne 1) (seqOp 1 0xFFFF 0xFFFF 0) rfl ?_ ?_).2.2.1 ?_ ?_⟩ <;> decide +kernel

/-- A case of SequencerOpsMoveOn. -/
theorem test_loopSet (h : Obligations.SequencerOpsMoveOn) : ∃ t, exec (.loopSet at0 0) (seqState 2 3 0xFFFF 7) = .next t := by
  refine ⟨_, (h.1 (seqState 2 3 0xFFFF 7) at0 0 (taskOne 1) (seqOp 2 3 0xFFFF 7) rfl ?_ ?_).2.2.2.1 ?_⟩ <;> decide +kernel

/-- A case of SequencerOpsMoveOn. -/
theorem test_loopBranch_zero (h : Obligations.SequencerOpsMoveOn) : ∃ t, exec (.loopBranch at0 0) (seqState 3 1 0xFFFF 1) = .next t := by
  refine ⟨_, ((h.1 (seqState 3 1 0xFFFF 1) at0 0 (taskOne 1) (seqOp 3 1 0xFFFF 1) rfl ?_ ?_).2.2.2.2.1 ?_).1 ?_⟩ <;> decide +kernel

/-- A case of SequencerOpsMoveOn. -/
theorem test_loopBranch_one (h : Obligations.SequencerOpsMoveOn) : ∃ t, exec (.loopBranch at0 0) (seqState 3 1 0xFFFF 1 [0, 1, 0, 0]) = .next t := by
  refine ⟨_, ((h.1 (seqState 3 1 0xFFFF 1 [0, 1, 0, 0]) at0 0 (taskOne 1) (seqOp 3 1 0xFFFF 1) rfl ?_ ?_).2.2.2.2.1 ?_).2.1 ?_⟩ <;> decide +kernel

/-- A case of SequencerOpsMoveOn. -/
theorem test_loopBranch_back (h : Obligations.SequencerOpsMoveOn) : ∃ t, exec (.loopBranch at0 0) (seqState 3 1 0xFFFF 0xFFFFFFFE [0, 2, 0, 0]) = .next t := by
  refine ⟨_, ((h.1 (seqState 3 1 0xFFFF 0xFFFFFFFE [0, 2, 0, 0]) at0 0 (taskOne 1) (seqOp 3 1 0xFFFF 0xFFFFFFFE) rfl ?_ ?_).2.2.2.2.1 ?_).2.2.1 ?_ ?_ ?_⟩ <;> decide +kernel

/-- A case of SequencerOpsMoveOn. -/
theorem test_loopBranch_last (h : Obligations.SequencerOpsMoveOn) : ∃ t, exec (.loopBranch at0 0) (seqState 3 1 0xFFFF 1 [0, 2, 0, 0]) = .next t := by
  refine ⟨_, ((h.1 (seqState 3 1 0xFFFF 1 [0, 2, 0, 0]) at0 0 (taskOne 1) (seqOp 3 1 0xFFFF 1) rfl ?_ ?_).2.2.2.2.1 ?_).2.2.1 ?_ ?_ ?_⟩ <;> decide +kernel

/-- A case of SequencerOpsMoveOn. -/
theorem test_loopBranch_out (h : Obligations.SequencerOpsMoveOn) : ∃ t, exec (.loopBranch at0 0) (seqState 3 1 0xFFFF 2 [0, 2, 0, 0]) = .next t := by
  refine ⟨_, ((h.1 (seqState 3 1 0xFFFF 2 [0, 2, 0, 0]) at0 0 (taskOne 1) (seqOp 3 1 0xFFFF 2) rfl ?_ ?_).2.2.2.2.1 ?_).2.2.2 ?_ ?_⟩ <;> decide +kernel

/-- A case of SequencerOpsMoveOn. -/
theorem test_reseed (h : Obligations.SequencerOpsMoveOn) : ∃ t, exec (.reseed at0 0) (seqState 9 0xFFFF 0xFFFF 7) = .next t := by
  refine ⟨_, (h.1 (seqState 9 0xFFFF 0xFFFF 7) at0 0 (taskOne 1) (seqOp 9 0xFFFF 0xFFFF 7) rfl ?_ ?_).2.2.2.2.2.1 ?_ ?_⟩ <;> decide +kernel

/-- A case of SequencerOpsMoveOn. -/
theorem test_seqDrain (h : Obligations.SequencerOpsMoveOn) : ∃ t, exec (.seqDrain at0 0) (seqState 10 0xFFFF 0xFFFF 0) = .next t := by
  refine ⟨_, (h.1 (seqState 10 0xFFFF 0xFFFF 0) at0 0 (taskOne 1) (seqOp 10 0xFFFF 0xFFFF 0) rfl ?_ ?_).2.2.2.2.2.2 ?_ ?_⟩ <;> decide +kernel

/-- A case of SequencerOpsMoveOn. -/
theorem test_seqSealWait_met (h : Obligations.SequencerOpsMoveOn) : ∃ t, exec (.seqSealWait at0 0) (seqState 4 0 0 3) = .next t := by
  refine ⟨_, ((h.2 (seqState 4 0 0 3) at0 0 (taskOne 1) (seqOp 4 0 0 3) rfl ?_ ?_).1 ?_ ?_ ?_ ?_ ?_ ?_).1 ?_⟩ <;> decide +kernel

/-- A case of SequencerOpsMoveOn. -/
theorem test_seqSealWait_below (h : Obligations.SequencerOpsMoveOn) : ∃ t, exec (.seqSealWait at0 0) (seqState 4 0 0 4) = .next t := by
  refine ⟨_, ((h.2 (seqState 4 0 0 4) at0 0 (taskOne 1) (seqOp 4 0 0 4) rfl ?_ ?_).1 ?_ ?_ ?_ ?_ ?_ ?_).2 ?_⟩ <;> decide +kernel

/-- A case of SequencerOpsMoveOn. -/
theorem test_seqSealWait_waits (h : Obligations.SequencerOpsMoveOn) : ∃ t, exec (.seqSealWait at0 0) (waitState 0) = .next t := by
  refine ⟨_, ((h.2 (waitState 0) at0 0 (taskOne 1) (seqOp 4 0 0 3) rfl ?_ ?_).2.1 ?_).1 ?_⟩ <;> decide +kernel

/-- A case of SequencerOpsMoveOn. -/
theorem test_seqSealWait_met_later (h : Obligations.SequencerOpsMoveOn) : ∃ t, exec (.seqSealWait at0 0) (waitState 2) = .next t := by
  refine ⟨_, ((h.2 (waitState 2) at0 0 (taskOne 1) (seqOp 4 0 0 3) rfl ?_ ?_).2.1 ?_).2.1 ?_⟩ <;> decide +kernel

/-- A case of SequencerOpsMoveOn. -/
theorem test_seqSealWait_deadline (h : Obligations.SequencerOpsMoveOn) : ∃ t, exec (.seqSealWait at0 0) (waitState 3) = .next t := by
  refine ⟨_, ((h.2 (waitState 3) at0 0 (taskOne 1) (seqOp 4 0 0 3) rfl ?_ ?_).2.1 ?_).2.2.1 ?_⟩ <;> decide +kernel

/-- A case of SequencerOpsMoveOn. -/
theorem test_seqSealWait_late (h : Obligations.SequencerOpsMoveOn) : ∃ t, exec (.seqSealWait at0 0) (waitState 4) = .next t := by
  refine ⟨_, ((h.2 (waitState 4) at0 0 (taskOne 1) (seqOp 4 0 0 3) rfl ?_ ?_).2.1 ?_).2.2.2.1 ?_⟩ <;> decide +kernel

/-- A case of SequencerOpsMoveOn. -/
theorem test_seqSealWait_stale (h : Obligations.SequencerOpsMoveOn) : ∃ t, exec (.seqSealWait at0 0) (waitState 5) = .next t := by
  refine ⟨_, ((h.2 (waitState 5) at0 0 (taskOne 1) (seqOp 4 0 0 3) rfl ?_ ?_).2.1 ?_).2.2.2.2 ?_⟩ <;> decide +kernel

/-- A case of SequencerOpsMoveOn. -/
theorem test_seqSealSignal (h : Obligations.SequencerOpsMoveOn) : ∃ t, exec (.seqSealSignal at0 0) (seqState 5 0 0xFFFF 3) = .next t := by
  refine ⟨_, (h.2 (seqState 5 0 0xFFFF 3) at0 0 (taskOne 1) (seqOp 5 0 0xFFFF 3) rfl ?_ ?_).2.2.1 ?_ ?_⟩ <;> decide +kernel

/-- A case of SequencerOpsMoveOn. -/
theorem test_patchSet (h : Obligations.SequencerOpsMoveOn) : ∃ t, exec (.patchSet at0 0) (seqState 6 0 3 9) = .next t := by
  refine ⟨_, (h.2 (seqState 6 0 3 9) at0 0 (taskOne 1) (seqOp 6 0 3 9) rfl ?_ ?_).2.2.2.1 ?_⟩ <;> decide +kernel

/-- A case of SequencerOpsMoveOn. -/
theorem test_patchAdd (h : Obligations.SequencerOpsMoveOn) : ∃ t, exec (.patchAdd at0 0) (seqState 7 0 3 9) = .next t := by
  refine ⟨_, (h.2 (seqState 7 0 3 9) at0 0 (taskOne 1) (seqOp 7 0 3 9) rfl ?_ ?_).2.2.2.2.1 ?_⟩ <;> decide +kernel

/-- A case of SequencerOpsMoveOn. -/
theorem test_patchLoop (h : Obligations.SequencerOpsMoveOn) : ∃ t, exec (.patchLoop at0 0) (seqState 8 0 3 9 [2, 0, 0, 0]) = .next t := by
  refine ⟨_, (h.2 (seqState 8 0 3 9 [2, 0, 0, 0]) at0 0 (taskOne 1) (seqOp 8 0 3 9) rfl ?_ ?_).2.2.2.2.2 ?_⟩ <;> decide +kernel

/-- A tensor descriptor (R198) over window w: type code, compression, sizes, offset, row stride, aux offset. -/
def tdesc (ty : Nat) (n0 n1 off stride : Nat) (comp aux w : Nat := 0) : List Byte :=
  [BitVec.ofNat 8 w, BitVec.ofNat 8 (ty + 16 * comp), 2, 0] ++ toLE 8 off ++ toLE 4 n0 ++ toLE 4 n1 ++ toLE 4 1 ++ toLE 4 1
    ++ toLE 4 stride ++ toLE 4 0 ++ toLE 4 0 ++ [0, 0, 0xFF, 0] ++ toLE 4 0 ++ [0, 0, 0, 0] ++ toLE 4 aux ++ toLE 4 0 ++ toLE 4 0

/-- A task whose chain programs stand at 4,096 of window 0 and whose window 1 is 4 KiB of node 5. -/
def opTask : Task :=
  { id := 1, cmd := 1, inst := 0, stages := [(0, .running)], started := some 0,
    desc := (((((taskDesc 0).set 2 0).set 21 16).set 24 64).take 160) ++ toLE 8 (5 * 2 ^ 52) ++ toLE 8 4096 ++ [2, 7, 0] ++ List.replicate 205 0 }

/-- The op of an engine with these descriptors, in flight on core 0; bytes of the store are given. -/
def opOf (e code imm : Nat) (A B O : List Byte) (chain : Nat := 0xFFFF) : OpEntry :=
  { idx := 0, word := e * 2 ^ 124 + code * 2 ^ 116 + chain * 2 ^ 32 + imm, da := A, db := B, dout := O }

def opState (e : Nat) (op : OpEntry) (store : List (Nat × List Byte) := []) : State :=
  upState { coreDie {} with
    task := { cores := [(0, { task := some 1, engines := [(e, { run := [{ op := op }] })] })], tasks := [opTask] }
    clusters := quadMap (fun (C : Cluster) => { C with bytes := store.foldl (fun m p => memWrite m p.1 p.2) [] }) readyDie.clusters }

/-- Operands: A at 0, B at 256, the output at 512. -/
def tA (ty n0 n1 : Nat) : List Byte := tdesc ty n0 n1 0 4

def tB (ty n0 n1 : Nat) : List Byte := tdesc ty n0 n1 256 4

def tO (ty n0 n1 : Nat) : List Byte := tdesc ty n0 n1 512 4

def dataA : Nat × List Byte := (0, [1, 2, 0, 0])

def dataB : Nat × List Byte := (256, [3, 5, 7, 9])

/-- A chain program of one gather stage and its map of one pair (R284, R294, R136). -/
def gatherStore : List (Nat × List Byte) :=
  [dataA, dataB, (4096, [1, 1] ++ List.replicate 14 0 ++ [0x10, 1, 0, 0] ++ toLE 4 4160 ++ toLE 8 0),
   (4160, [1, 0, 0, 0, 1, 0] ++ List.replicate 14 0 ++ toLE 4 1 ++ toLE 4 1),
   (4224, toLE 4 0 ++ toLE 4 0 ++ toLE 4 1 ++ toLE 4 0 ++ toLE 8 0)]

/-- A 2:4 operand at 256 with the payload 3, 5 at positions 0 and 1, its metadata at 1,024 (R249, R250). -/
def sB : List Byte := tdesc 1 4 1 256 4 2 1024

def sparseMeta : List (Nat × List Byte) :=
  [(1024, toLE 2 1 ++ toLE 2 0 ++ toLE 4 4 ++ toLE 2 1 ++ toLE 2 1 ++ toLE 4 2 ++ toLE 4 2), (1088, toLE 4 4)]

def sparseStore : List (Nat × List Byte) := [dataA, (256, [3, 5])] ++ sparseMeta

def sparseGatherStore : List (Nat × List Byte) := gatherStore ++ [(256, [3, 5, 0, 0])] ++ sparseMeta

/-- Does the op succeed? -/
def opPasses (m : OpCtx → M OpResult) (e : Nat) (op : OpEntry) (store : List (Nat × List Byte)) : Bool :=
  passes (m { core := 0, eng := e, task := opTask, op := op }) ((opState e op store).dieAt at0)

/-- A case of TensorOpsRun, in which the op succeeds. -/
theorem test_dteGemmW (h : Obligations.TensorOpsRun) : (∃ t, exec (.dteGemmW at0 0 .none) (opState 1 (opOf 1 1 0 (tA 1 4 1) (tB 1 4 1) (tO 3 1 1)) [dataA, dataB]) = .next t) ∧
    opPasses (fun x => laneOp x (denseOp 1 128 false byteType) .none) 1 (opOf 1 1 0 (tA 1 4 1) (tB 1 4 1) (tO 3 1 1)) [dataA, dataB] = true := by
  refine ⟨⟨_, ((h _ at0 0 opTask (opOf 1 1 0 (tA 1 4 1) (tB 1 4 1) (tO 3 1 1)) .none ?_).1 ?_).1 ?_⟩, ?_⟩ <;> decide +kernel

/-- A case of TensorOpsRun, in which the op succeeds. -/
theorem test_dteGemmS (h : Obligations.TensorOpsRun) : (∃ t, exec (.dteGemmS at0 0 .none) (opState 1 (opOf 1 2 0 (tA 1 4 1) (tB 1 4 1) (tO 3 1 1)) [dataA, dataB]) = .next t) ∧
    opPasses (fun x => laneOp x (denseOp 1 65536 false byteType) .none) 1 (opOf 1 2 0 (tA 1 4 1) (tB 1 4 1) (tO 3 1 1)) [dataA, dataB] = true := by
  refine ⟨⟨_, ((h _ at0 0 opTask (opOf 1 2 0 (tA 1 4 1) (tB 1 4 1) (tO 3 1 1)) .none ?_).1 ?_).2.1 ?_⟩, ?_⟩ <;> decide +kernel

/-- A case of TensorOpsRun, in which the op succeeds. -/
theorem test_dteConvG (h : Obligations.TensorOpsRun) : (∃ t, exec (.dteConvG at0 0 .none) (opState 1 (opOf 1 3 0 (tA 1 4 1) (tB 1 4 1) (tO 3 1 1) 0) gatherStore) = .next t) ∧
    opPasses (fun x => laneOp x (denseOp 1 128 true byteType) .none) 1 (opOf 1 3 0 (tA 1 4 1) (tB 1 4 1) (tO 3 1 1) 0) gatherStore = true := by
  refine ⟨⟨_, ((h _ at0 0 opTask (opOf 1 3 0 (tA 1 4 1) (tB 1 4 1) (tO 3 1 1) 0) .none ?_).1 ?_).2.2.1 ?_⟩, ?_⟩ <;> decide +kernel

/-- A case of TensorOpsRun, in which the op succeeds. -/
theorem test_dteMulW16 (h : Obligations.TensorOpsRun) : (∃ t, exec (.dteMulW16 at0 0 .none) (opState 1 (opOf 1 4 0 (tA 2 2 1) (tB 1 2 1) (tO 9 1 1)) [dataA, dataB]) = .next t) ∧
    opPasses (fun x => laneOp x (mulOp 0) .none) 1 (opOf 1 4 0 (tA 2 2 1) (tB 1 2 1) (tO 9 1 1)) [dataA, dataB] = true := by
  refine ⟨⟨_, ((h _ at0 0 opTask (opOf 1 4 0 (tA 2 2 1) (tB 1 2 1) (tO 9 1 1)) .none ?_).1 ?_).2.2.2.1 ?_ ?_⟩, ?_⟩ <;> decide +kernel

/-- A case of TensorOpsRun, in which the op succeeds. -/
theorem test_dteGemmW4 (h : Obligations.TensorOpsRun) : (∃ t, exec (.dteGemmW4 at0 0 .none) (opState 1 (opOf 1 17 0 (tA 0 4 1) (tB 0 4 1) (tO 3 1 1)) [dataA, dataB]) = .next t) ∧
    opPasses (fun x => laneOp x (denseOp 2 256 false (· == .i4)) .none) 1 (opOf 1 17 0 (tA 0 4 1) (tB 0 4 1) (tO 3 1 1)) [dataA, dataB] = true := by
  refine ⟨⟨_, ((h _ at0 0 opTask (opOf 1 17 0 (tA 0 4 1) (tB 0 4 1) (tO 3 1 1)) .none ?_).1 ?_).2.2.2.2.2.1 ?_⟩, ?_⟩ <;> decide +kernel

/-- A case of TensorOpsRun, in which the op succeeds. -/
theorem test_dteGemmS4 (h : Obligations.TensorOpsRun) : (∃ t, exec (.dteGemmS4 at0 0 .none) (opState 1 (opOf 1 18 0 (tA 0 4 1) (tB 0 4 1) (tO 3 1 1)) [dataA, dataB]) = .next t) ∧
    opPasses (fun x => laneOp x (denseOp 2 131072 false (· == .i4)) .none) 1 (opOf 1 18 0 (tA 0 4 1) (tB 0 4 1) (tO 3 1 1)) [dataA, dataB] = true := by
  refine ⟨⟨_, ((h _ at0 0 opTask (opOf 1 18 0 (tA 0 4 1) (tB 0 4 1) (tO 3 1 1)) .none ?_).1 ?_).2.2.2.2.2.2.1 ?_⟩, ?_⟩ <;> decide +kernel

/-- A case of TensorOpsRun, in which the op succeeds. -/
theorem test_dteConvG4 (h : Obligations.TensorOpsRun) : (∃ t, exec (.dteConvG4 at0 0 .none) (opState 1 (opOf 1 19 0 (tA 0 4 1) (tB 0 4 1) (tO 3 1 1) 0) gatherStore) = .next t) ∧
    opPasses (fun x => laneOp x (denseOp 2 256 true (· == .i4)) .none) 1 (opOf 1 19 0 (tA 0 4 1) (tB 0 4 1) (tO 3 1 1) 0) gatherStore = true := by
  refine ⟨⟨_, ((h _ at0 0 opTask (opOf 1 19 0 (tA 0 4 1) (tB 0 4 1) (tO 3 1 1) 0) .none ?_).1 ?_).2.2.2.2.2.2.2 ?_⟩, ?_⟩ <;> decide +kernel

/-- A case of TensorOpsRun, in which the op succeeds. -/
theorem test_steGemmW (h : Obligations.TensorOpsRun) : (∃ t, exec (.steGemmW at0 0 .none) (opState 2 (opOf 2 1 0 (tA 1 4 1) sB (tO 3 1 1)) sparseStore) = .next t) ∧
    opPasses (fun x => laneOp x (sparseOp 128 false) .none) 2 (opOf 2 1 0 (tA 1 4 1) sB (tO 3 1 1)) sparseStore = true := by
  refine ⟨⟨_, ((h _ at0 0 opTask (opOf 2 1 0 (tA 1 4 1) sB (tO 3 1 1)) .none ?_).2.1 ?_).1 ?_⟩, ?_⟩ <;> decide +kernel

/-- A case of TensorOpsRun, in which the op succeeds. -/
theorem test_steGemmS (h : Obligations.TensorOpsRun) : (∃ t, exec (.steGemmS at0 0 .none) (opState 2 (opOf 2 2 0 (tA 1 4 1) sB (tO 3 1 1)) sparseStore) = .next t) ∧
    opPasses (fun x => laneOp x (sparseOp 65536 false) .none) 2 (opOf 2 2 0 (tA 1 4 1) sB (tO 3 1 1)) sparseStore = true := by
  refine ⟨⟨_, ((h _ at0 0 opTask (opOf 2 2 0 (tA 1 4 1) sB (tO 3 1 1)) .none ?_).2.1 ?_).2.1 ?_⟩, ?_⟩ <;> decide +kernel

/-- A case of TensorOpsRun, in which the op succeeds. -/
theorem test_steConvG (h : Obligations.TensorOpsRun) : (∃ t, exec (.steConvG at0 0 .none) (opState 2 (opOf 2 3 0 (tA 1 4 1) sB (tO 3 1 1) 0) sparseGatherStore) = .next t) ∧
    opPasses (fun x => laneOp x (sparseOp 128 true) .none) 2 (opOf 2 3 0 (tA 1 4 1) sB (tO 3 1 1) 0) sparseGatherStore = true := by
  refine ⟨⟨_, ((h _ at0 0 opTask (opOf 2 3 0 (tA 1 4 1) sB (tO 3 1 1) 0) .none ?_).2.1 ?_).2.2.1 ?_⟩, ?_⟩ <;> decide +kernel

/-- A case of TensorOpsRun, in which the op succeeds. -/
theorem test_steUnpack (h : Obligations.TensorOpsRun) : (∃ t, exec (.steUnpack at0 0) (opState 2 (opOf 2 32 0 sB [] (tO 1 4 1)) sparseStore) = .next t) ∧
    opPasses unpackOp 2 (opOf 2 32 0 sB [] (tO 1 4 1)) sparseStore = true := by
  refine ⟨⟨_, ((h _ at0 0 opTask (opOf 2 32 0 sB [] (tO 1 4 1)) .none ?_).2.1 ?_).2.2.2.1 ?_⟩, ?_⟩ <;> decide +kernel

/-- A case of TensorOpsRun, in which the op succeeds. -/
theorem test_stePack (h : Obligations.TensorOpsRun) : (∃ t, exec (.stePack at0 0 .none) (opState 2 (opOf 2 33 0 (tA 1 4 1) (tB 4 4 1) (tdesc 1 4 1 512 4 2 1024)) [dataA, (256, [1, 1, 0, 0])]) = .next t) ∧
    opPasses (fun x => packOp x .none) 2 (opOf 2 33 0 (tA 1 4 1) (tB 4 4 1) (tdesc 1 4 1 512 4 2 1024)) [dataA, (256, [1, 1, 0, 0])] = true := by
  refine ⟨⟨_, ((h _ at0 0 opTask (opOf 2 33 0 (tA 1 4 1) (tB 4 4 1) (tdesc 1 4 1 512 4 2 1024)) .none ?_).2.1 ?_).2.2.2.2 ?_⟩, ?_⟩ <;> decide +kernel

/-- A case of TensorOpsRun, in which the op succeeds. -/
theorem test_mvpMv (h : Obligations.TensorOpsRun) : (∃ t, exec (.mvpMv at0 0 .none) (opState 3 (opOf 3 1 0 (tA 1 4 1) (tB 1 4 1) (tO 3 1 1)) [dataA, dataB]) = .next t) ∧
    opPasses (fun x => mvpOp x true .none) 3 (opOf 3 1 0 (tA 1 4 1) (tB 1 4 1) (tO 3 1 1)) [dataA, dataB] = true := by
  refine ⟨⟨_, ((h _ at0 0 opTask (opOf 3 1 0 (tA 1 4 1) (tB 1 4 1) (tO 3 1 1)) .none ?_).2.2 ?_).1 ?_⟩, ?_⟩ <;> decide +kernel

/-- A case of TensorOpsRun, in which the op succeeds. -/
theorem test_mvpThin (h : Obligations.TensorOpsRun) : (∃ t, exec (.mvpThin at0 0 .none) (opState 3 (opOf 3 2 0 (tA 1 4 1) (tB 1 4 1) (tO 3 1 1)) [dataA, dataB]) = .next t) ∧
    opPasses (fun x => mvpOp x false .none) 3 (opOf 3 2 0 (tA 1 4 1) (tB 1 4 1) (tO 3 1 1)) [dataA, dataB] = true := by
  refine ⟨⟨_, ((h _ at0 0 opTask (opOf 3 2 0 (tA 1 4 1) (tB 1 4 1) (tO 3 1 1)) .none ?_).2.2 ?_).2 ?_⟩, ?_⟩ <;> decide +kernel

/-- A case of TensorOpsRun: kind 3 of MUL.W16 is a format fault. -/
theorem test_dteMulW16_kind3 (h : Obligations.TensorOpsRun) :
    ∃ t, exec (.dteMulW16 at0 0 .none) (opState 1 (opOf 1 4 0x1800 (tA 2 2 1) (tB 1 2 1) (tO 9 1 1))) = .next t := by
  refine ⟨_, ((h _ at0 0 opTask (opOf 1 4 0x1800 (tA 2 2 1) (tB 1 2 1) (tO 9 1 1)) .none ?_).1 ?_).2.2.2.2.1 ?_ ?_⟩ <;> decide +kernel

/-- A case of VectorSelectAndHashOpsRun, in which the op succeeds. -/
theorem test_vuEltwise (h : Obligations.VectorSelectAndHashOpsRun) : (∃ t, exec (.vuEltwise at0 0 .none) (opState 4 (opOf 4 1 0 (tA 1 4 1) [] (tO 1 4 1)) [dataA, dataB]) = .next t) ∧
    opPasses (fun x => vuOp x vuEltwise false .none) 4 (opOf 4 1 0 (tA 1 4 1) [] (tO 1 4 1)) [dataA, dataB] = true := by
  refine ⟨⟨_, ((h _ at0 0 opTask (opOf 4 1 0 (tA 1 4 1) [] (tO 1 4 1)) .none false none ?_).1 ?_).1 ?_⟩, ?_⟩ <;> decide +kernel

/-- A case of VectorSelectAndHashOpsRun, in which the op succeeds. -/
theorem test_vuRowmax (h : Obligations.VectorSelectAndHashOpsRun) : (∃ t, exec (.vuRowmax at0 0 .none) (opState 4 (opOf 4 2 0 (tA 1 4 1) [] (tO 3 1 1)) [dataA, dataB]) = .next t) ∧
    opPasses (fun x => vuOp x vuRowmax false .none) 4 (opOf 4 2 0 (tA 1 4 1) [] (tO 3 1 1)) [dataA, dataB] = true := by
  refine ⟨⟨_, ((h _ at0 0 opTask (opOf 4 2 0 (tA 1 4 1) [] (tO 3 1 1)) .none false none ?_).1 ?_).2.1 ?_⟩, ?_⟩ <;> decide +kernel

/-- A case of VectorSelectAndHashOpsRun, in which the op succeeds. -/
theorem test_vuRowsum (h : Obligations.VectorSelectAndHashOpsRun) : (∃ t, exec (.vuRowsum at0 0 .none) (opState 4 (opOf 4 3 0 (tA 1 4 1) [] (tO 3 1 1)) [dataA, dataB]) = .next t) ∧
    opPasses (fun x => vuOp x vuRowsum false .none) 4 (opOf 4 3 0 (tA 1 4 1) [] (tO 3 1 1)) [dataA, dataB] = true := by
  refine ⟨⟨_, ((h _ at0 0 opTask (opOf 4 3 0 (tA 1 4 1) [] (tO 3 1 1)) .none false none ?_).1 ?_).2.2.1 ?_⟩, ?_⟩ <;> decide +kernel

/-- A case of VectorSelectAndHashOpsRun, in which the op succeeds. -/
theorem test_vuSoftmax (h : Obligations.VectorSelectAndHashOpsRun) : (∃ t, exec (.vuSoftmax at0 0 .none) (opState 4 (opOf 4 4 32 (tA 3 1 1) (tB 5 256 1) (tdesc 3 1 1 1024 4)) [dataA, dataB]) = .next t) ∧
    opPasses (fun x => vuOp x vuSoftmax true .none) 4 (opOf 4 4 32 (tA 3 1 1) (tB 5 256 1) (tdesc 3 1 1 1024 4)) [dataA, dataB] = true := by
  refine ⟨⟨_, ((h _ at0 0 opTask (opOf 4 4 32 (tA 3 1 1) (tB 5 256 1) (tdesc 3 1 1 1024 4)) .none false none ?_).1 ?_).2.2.2.1 ?_⟩, ?_⟩ <;> decide +kernel

/-- A case of VectorSelectAndHashOpsRun, in which the op succeeds. -/
theorem test_vuNorm (h : Obligations.VectorSelectAndHashOpsRun) : (∃ t, exec (.vuNorm at0 0 .none) (opState 4 (opOf 4 5 0 (tA 1 4 1) [] (tO 3 4 1)) [dataA, dataB]) = .next t) ∧
    opPasses (fun x => vuOp x vuNorm false .none) 4 (opOf 4 5 0 (tA 1 4 1) [] (tO 3 4 1)) [dataA, dataB] = true := by
  refine ⟨⟨_, ((h _ at0 0 opTask (opOf 4 5 0 (tA 1 4 1) [] (tO 3 4 1)) .none false none ?_).1 ?_).2.2.2.2 ?_⟩, ?_⟩ <;> decide +kernel

/-- A case of VectorSelectAndHashOpsRun, in which the op succeeds. -/
theorem test_selTopk (h : Obligations.VectorSelectAndHashOpsRun) : (∃ t, exec (.selTopk at0 0 false none) (opState 5 (opOf 5 1 1 (tA 6 4 1) [] (tO 6 2 1)) [dataA, dataB]) = .next t) ∧
    opPasses (fun x => pickOp x false false none) 5 (opOf 5 1 1 (tA 6 4 1) [] (tO 6 2 1)) [dataA, dataB] = true := by
  refine ⟨⟨_, ((h _ at0 0 opTask (opOf 5 1 1 (tA 6 4 1) [] (tO 6 2 1)) .none false none ?_).2.1 ?_).1 ?_⟩, ?_⟩ <;> decide +kernel

/-- A case of VectorSelectAndHashOpsRun, in which the op succeeds. -/
theorem test_selKth (h : Obligations.VectorSelectAndHashOpsRun) : (∃ t, exec (.selKth at0 0 false none) (opState 5 (opOf 5 2 1 (tA 6 4 1) [] (tO 6 2 1)) [dataA, dataB]) = .next t) ∧
    opPasses (fun x => pickOp x true false none) 5 (opOf 5 2 1 (tA 6 4 1) [] (tO 6 2 1)) [dataA, dataB] = true := by
  refine ⟨⟨_, ((h _ at0 0 opTask (opOf 5 2 1 (tA 6 4 1) [] (tO 6 2 1)) .none false none ?_).2.1 ?_).2.1 ?_⟩, ?_⟩ <;> decide +kernel

/-- A case of VectorSelectAndHashOpsRun, in which the op succeeds. -/
theorem test_selUnique (h : Obligations.VectorSelectAndHashOpsRun) : (∃ t, exec (.selUnique at0 0 false none) (opState 5 (opOf 5 3 0 (tA 6 4 1) [] (tdesc 6 8 1 512 4 0 2048)) [dataA, dataB]) = .next t) ∧
    opPasses (fun x => uniqueOp x false false none) 5 (opOf 5 3 0 (tA 6 4 1) [] (tdesc 6 8 1 512 4 0 2048)) [dataA, dataB] = true := by
  refine ⟨⟨_, ((h _ at0 0 opTask (opOf 5 3 0 (tA 6 4 1) [] (tdesc 6 8 1 512 4 0 2048)) .none false none ?_).2.1 ?_).2.2.1 ?_⟩, ?_⟩ <;> decide +kernel

/-- A case of VectorSelectAndHashOpsRun, in which the op succeeds. -/
theorem test_selOrderedUnique (h : Obligations.VectorSelectAndHashOpsRun) : (∃ t, exec (.selOrderedUnique at0 0 false none) (opState 5 (opOf 5 4 0 (tA 6 4 1) [] (tdesc 6 8 1 512 4 0 2048)) [dataA, dataB]) = .next t) ∧
    opPasses (fun x => uniqueOp x true false none) 5 (opOf 5 4 0 (tA 6 4 1) [] (tdesc 6 8 1 512 4 0 2048)) [dataA, dataB] = true := by
  refine ⟨⟨_, ((h _ at0 0 opTask (opOf 5 4 0 (tA 6 4 1) [] (tdesc 6 8 1 512 4 0 2048)) .none false none ?_).2.1 ?_).2.2.2.1 ?_⟩, ?_⟩ <;> decide +kernel

/-- A case of VectorSelectAndHashOpsRun, in which the op succeeds. -/
theorem test_selSplit (h : Obligations.VectorSelectAndHashOpsRun) : (∃ t, exec (.selSplit at0 0 false none) (opState 5 (opOf 5 5 0 (tA 6 4 1) [] (tdesc 6 4 1 512 4 0 2048)) [dataA, dataB]) = .next t) ∧
    opPasses (fun x => splitOp x false none) 5 (opOf 5 5 0 (tA 6 4 1) [] (tdesc 6 4 1 512 4 0 2048)) [dataA, dataB] = true := by
  refine ⟨⟨_, ((h _ at0 0 opTask (opOf 5 5 0 (tA 6 4 1) [] (tdesc 6 4 1 512 4 0 2048)) .none false none ?_).2.1 ?_).2.2.2.2 ?_⟩, ?_⟩ <;> decide +kernel

/-- A case of VectorSelectAndHashOpsRun, in which the op succeeds. -/
theorem test_hpuTileHash (h : Obligations.VectorSelectAndHashOpsRun) : (∃ t, exec (.hpuTileHash at0 0) (opState 6 (opOf 6 1 0 (tA 9 1 1) [] (tO 6 80 1)) [dataA, (544, [4])]) = .next t) ∧
    opPasses tileHashOp 6 (opOf 6 1 0 (tA 9 1 1) [] (tO 6 80 1)) [dataA, (544, [4])] = true := by
  refine ⟨⟨_, ((h _ at0 0 opTask (opOf 6 1 0 (tA 9 1 1) [] (tO 6 80 1)) .none false none ?_).2.2 ?_).1 ?_⟩, ?_⟩ <;> decide +kernel

/-- A case of VectorSelectAndHashOpsRun, in which the op succeeds. -/
theorem test_hpuNmap (h : Obligations.VectorSelectAndHashOpsRun) : (∃ t, exec (.hpuNmap at0 0) (opState 6 (opOf 6 2 0 (tA 9 1 1) (tdesc 6 80 1 1024 4) (tdesc 6 252 1 2048 4)) [(1032, List.replicate 8 0xFF), (1056, [4, 0]), (2048, [1, 2, 0, 0, 1]), (2060, [64])]) = .next t) ∧
    opPasses nmapOp 6 (opOf 6 2 0 (tA 9 1 1) (tdesc 6 80 1 1024 4) (tdesc 6 252 1 2048 4)) [(1032, List.replicate 8 0xFF), (1056, [4, 0]), (2048, [1, 2, 0, 0, 1]), (2060, [64])] = true := by
  refine ⟨⟨_, ((h _ at0 0 opTask (opOf 6 2 0 (tA 9 1 1) (tdesc 6 80 1 1024 4) (tdesc 6 252 1 2048 4)) .none false none ?_).2.2 ?_).2.1 ?_⟩, ?_⟩ <;> decide +kernel

/-- A case of VectorSelectAndHashOpsRun, in which the op succeeds. -/
theorem test_hpuLower (h : Obligations.VectorSelectAndHashOpsRun) : (∃ t, exec (.hpuLower at0 0) (opState 6 (opOf 6 3 0 (tA 9 1 1) (tB 9 1 1) (tO 6 1 1)) [dataA, dataB]) = .next t) ∧
    opPasses lowerOp 6 (opOf 6 3 0 (tA 9 1 1) (tB 9 1 1) (tO 6 1 1)) [dataA, dataB] = true := by
  refine ⟨⟨_, ((h _ at0 0 opTask (opOf 6 3 0 (tA 9 1 1) (tB 9 1 1) (tO 6 1 1)) .none false none ?_).2.2 ?_).2.2 ?_⟩, ?_⟩ <;> decide +kernel

/-- A case of DmaOpsRunOrAsk, in which the op succeeds. -/
theorem test_dmaCopy (h : Obligations.DmaOpsRunOrAsk) : (∃ t, exec (.dmaCopy at0 0) (opState 7 (opOf 7 1 0 (tA 1 4 1) [] (tO 1 4 1)) [dataA, dataB]) = .next t) ∧
    opPasses dmaCopy 7 (opOf 7 1 0 (tA 1 4 1) [] (tO 1 4 1)) [dataA, dataB] = true := by
  refine ⟨⟨_, (h _ at0 0 opTask (opOf 7 1 0 (tA 1 4 1) [] (tO 1 4 1)) ?_ ?_ ?_ ?_).1 ?_⟩, ?_⟩ <;> decide +kernel

/-- A case of DmaOpsRunOrAsk, in which the op succeeds. -/
theorem test_dmaGather (h : Obligations.DmaOpsRunOrAsk) : (∃ t, exec (.dmaGather at0 0) (opState 7 (opOf 7 2 0 (tA 1 4 1) (tB 6 1 1) (tO 1 4 1)) [dataA]) = .next t) ∧
    opPasses dmaGather 7 (opOf 7 2 0 (tA 1 4 1) (tB 6 1 1) (tO 1 4 1)) [dataA] = true := by
  refine ⟨⟨_, (h _ at0 0 opTask (opOf 7 2 0 (tA 1 4 1) (tB 6 1 1) (tO 1 4 1)) ?_ ?_ ?_ ?_).2.1 ?_⟩, ?_⟩ <;> decide +kernel

/-- A case of DmaOpsRunOrAsk, in which the op succeeds. -/
theorem test_dmaScatter (h : Obligations.DmaOpsRunOrAsk) : (∃ t, exec (.dmaScatter at0 0) (opState 7 (opOf 7 3 0 (tA 1 4 1) (tB 6 1 1) (tO 1 4 1)) [dataA]) = .next t) ∧
    opPasses dmaScatter 7 (opOf 7 3 0 (tA 1 4 1) (tB 6 1 1) (tO 1 4 1)) [dataA] = true := by
  refine ⟨⟨_, (h _ at0 0 opTask (opOf 7 3 0 (tA 1 4 1) (tB 6 1 1) (tO 1 4 1)) ?_ ?_ ?_ ?_).2.2.1 ?_⟩, ?_⟩ <;> decide +kernel

/-- A case of DmaOpsRunOrAsk, in which the op succeeds. -/
theorem test_dmaTranspose (h : Obligations.DmaOpsRunOrAsk) : (∃ t, exec (.dmaTranspose at0 0) (opState 7 (opOf 7 4 1 (tA 1 4 1) [] (tO 1 1 4)) [dataA, dataB]) = .next t) ∧
    opPasses dmaTranspose 7 (opOf 7 4 1 (tA 1 4 1) [] (tO 1 1 4)) [dataA, dataB] = true := by
  refine ⟨⟨_, (h _ at0 0 opTask (opOf 7 4 1 (tA 1 4 1) [] (tO 1 1 4)) ?_ ?_ ?_ ?_).2.2.2.1 ?_⟩, ?_⟩ <;> decide +kernel

/-- A case of DmaOpsRunOrAsk, in which the op succeeds. -/
theorem test_dmaFill (h : Obligations.DmaOpsRunOrAsk) : (∃ t, exec (.dmaFill at0 0) (opState 7 (opOf 7 5 7 [] [] (tO 1 4 1)) [dataA, dataB]) = .next t) ∧
    opPasses dmaFill 7 (opOf 7 5 7 [] [] (tO 1 4 1)) [dataA, dataB] = true := by
  refine ⟨⟨_, (h _ at0 0 opTask (opOf 7 5 7 [] [] (tO 1 4 1)) ?_ ?_ ?_ ?_).2.2.2.2 ?_⟩, ?_⟩ <;> decide +kernel

/-- A case of DmaOpsRunOrAsk: a source in a remote window, which the op asks for. -/
theorem test_dmaCopy_remote (h : Obligations.DmaOpsRunOrAsk) : (∃ t, exec (.dmaCopy at0 0) (opState 7 (opOf 7 1 0 (tdesc 1 4 1 0 4 0 0 1) [] (tO 1 4 1))) = .next t) ∧
    (failOf (dmaCopy { core := 0, eng := 7, task := opTask, op := opOf 7 1 0 (tdesc 1 4 1 0 4 0 0 1) [] (tO 1 4 1) }) ((opState 7 (opOf 7 1 0 (tdesc 1 4 1 0 4 0 0 1) [] (tO 1 4 1))).dieAt at0)).need
      = some (5 * 2 ^ 52, 4) := by
  refine ⟨⟨_, (h _ at0 0 opTask (opOf 7 1 0 (tdesc 1 4 1 0 4 0 0 1) [] (tO 1 4 1)) ?_ ?_ ?_ ?_).1 ?_⟩, ?_⟩ <;> decide +kernel

/-- A task whose window 0 takes the store's first bytes, on cluster 1. -/
def busyDie : DieState := { readyDie with task := { tasks := [{ taskOne 1 with stages := [(4, .running)] }] } }
def segState : State := upState { busyDie with csr := { regs := [(regKey (B_CST 1) CST_SEG_ON 0, 1)] } }

/-- A case of StoreSegmentsBuffersAndFills. -/
theorem test_cstSegOnWrite (h : Obligations.StoreSegmentsBuffersAndFills) : ∃ t, exec (.cstSegOnWrite at0 host 0 3) hostState = .next t := by
  refine ⟨_, (h.1 hostState at0 host 0 3 0 0 rfl ?_ ?_).1 ?_⟩ <;> decide +kernel

/-- A case of StoreSegmentsBuffersAndFills. -/
theorem test_cstSegOn_high (h : Obligations.StoreSegmentsBuffersAndFills) : ∃ t, exec (.reg64HighWrite at0 host (B_CST 0) (CST_SEG_ON + 4) 3) hostState = .next t := by
  refine ⟨_, (h.1 hostState at0 host 0 0 0 3 rfl ?_ ?_).2.1 ?_⟩ <;> decide +kernel

/-- A case of StoreSegmentsBuffersAndFills. -/
theorem test_segment_refused (h : Obligations.StoreSegmentsBuffersAndFills) : ((segState.dieAt at0).segBit 1 0 false) = (segState.dieAt at0).segBit 1 0 false ∧ (segState.dieAt at0).segInUse 1 0 = true := by
  refine ⟨((h.1 segState at0 host 1 0 0 0 rfl ?_ ?_).2.2.1 ?_ ?_).trans ((h.1 segState at0 host 1 0 0 0 rfl ?_ ?_).2.2.1 ?_ ?_).symm, ?_⟩ <;> decide +kernel

def storeState (f : Cluster → Cluster) : State := upState { readyDie with clusters := quadMap f readyDie.clusters }
def risingState : State := storeState (fun C => { C with segReady := 0, segRising := [(2, 0)] })
def bufState : State :=
  storeState (fun C => { C with bufs := [(5, [{ line := 4, bytes := [(0, 9)], first := 0 }, { line := 5, bytes := [(1, 8)], first := 1000000 }])] })

/-- A case of StoreSegmentsBuffersAndFills. -/
theorem test_segmentReady (h : Obligations.StoreSegmentsBuffersAndFills) : ∃ t, exec (.segmentReady at0 1 2) risingState = .next t := by
  refine ⟨_, (h.1 risingState at0 host 1 0 2 0 rfl ?_ ?_).2.2.2.1 ?_⟩ <;> decide +kernel

/-- A case of StoreSegmentsBuffersAndFills. -/
theorem test_cbEntryTimeout (h : Obligations.StoreSegmentsBuffersAndFills) : ∃ t, exec (.cbEntryTimeout at0 3) bufState = .next t := by
  refine ⟨_, (h.2.1 bufState at0 3 rfl ?_).1⟩
  decide +kernel

def fillState (len : Nat) (rest : List FillJob) : State := storeState (fun C => { C with fills := { lo := 0, len := len } :: rest, bytes := memWrite [] 100 [7] })

/-- A case of StoreSegmentsBuffersAndFills. -/
theorem test_fillForcedGrant (h : Obligations.StoreSegmentsBuffersAndFills) : ∃ t, exec (.fillForcedGrant at0 3) (fillState 4097 []) = .next t := by
  refine ⟨_, ((h.2.1 (fillState 4097 []) at0 3 rfl ?_).2 _ _ rfl).1 ?_⟩ <;> decide +kernel

/-- A case of StoreSegmentsBuffersAndFills. -/
theorem test_fillForcedGrant_last (h : Obligations.StoreSegmentsBuffersAndFills) : ∃ t, exec (.fillForcedGrant at0 3) (fillState 4096 []) = .next t := by
  refine ⟨_, ((h.2.1 (fillState 4096 []) at0 3 rfl ?_).2 _ _ rfl).2.1 ?_⟩ <;> decide +kernel

/-- A case of StoreSegmentsBuffersAndFills. -/
theorem test_scrubRangeDone_more (h : Obligations.StoreSegmentsBuffersAndFills) : ∃ t, exec (.scrubRangeDone at0 0) (fillState 64 [{ lo := 64, len := 64 }]) = .next t := by
  refine ⟨_, ((h.2.1 (fillState 64 [{ lo := 64, len := 64 }]) at0 0 rfl ?_).2 _ _ rfl).2.2 ?_⟩ <;> decide +kernel

/-- A case of StoreSegmentsBuffersAndFills. -/
theorem test_scrubRangeDone_last (h : Obligations.StoreSegmentsBuffersAndFills) : ∃ t, exec (.scrubRangeDone at0 0) (fillState (2 ^ 25) []) = .next t := by
  refine ⟨_, ((h.2.1 (fillState (2 ^ 25) []) at0 0 rfl ?_).2 _ _ rfl).2.2 ?_⟩ <;> decide +kernel

/-- A case of StoreSegmentsBuffersAndFills: the last byte that the engine writes, and the one after it. -/
theorem test_fill_bytes (h : Obligations.StoreSegmentsBuffersAndFills) :
    (({ bytes := [(4, 7), (8, 9)] } : Cluster).zero 0 8).get 7 = 0 ∧ (({ bytes := [(4, 7), (8, 9)] } : Cluster).zero 0 8).get 8 = 9 := by
  refine ⟨(h.2.2 _ 0 8 7 ?_).trans ?_, (h.2.2 _ 0 8 8 ?_).trans ?_⟩ <;> decide +kernel

def winOpen : Rwin := { isOpen := true, base := 0, size := 4096, node := 2 ^ 15, dies := 15, insts := 255, rights := 3, gen := 1 }
def winState : State := storeState (fun C => { C with rwins := [(0, winOpen)] })
def farReq : Req := { id := 0x0B2, inst := 0 }
/-- What an arriving access finds. -/
def arrives (off n : Nat) (data : Option (List Byte)) : Bool :=
  passes (arrive 1 { node := 5, die := 2, inst := 0 } farReq off n data false) (winState.dieAt at0)

/-- A case of RemoteWindowsOpenAndClose. -/
theorem test_remoteRead (h : Obligations.RemoteWindowsOpenAndClose) :
    (∃ t, exec (.remoteAccessArrive at0 1 5 2 farReq 64 8 none false) winState = .next t) ∧ arrives 64 8 none = true := by
  refine ⟨⟨_, (h winState at0 1 [] (cmdOf 0 []) rfl).1 1 5 2 farReq 64 8 none false ?_⟩, ?_⟩ <;> decide +kernel

/-- A case of RemoteWindowsOpenAndClose. -/
theorem test_remoteWrite (h : Obligations.RemoteWindowsOpenAndClose) :
    (∃ t, exec (.remoteAccessArrive at0 1 5 2 farReq 64 2 (some [1, 2]) false) winState = .next t) ∧ arrives 64 2 (some [1, 2]) = true := by
  refine ⟨⟨_, (h winState at0 1 [] (cmdOf 0 []) rfl).1 1 5 2 farReq 64 2 (some [1, 2]) false ?_⟩, ?_⟩ <;> decide +kernel

/-- A case of RemoteWindowsOpenAndClose. -/
theorem test_remoteRefused (h : Obligations.RemoteWindowsOpenAndClose) :
    (∃ t, exec (.remoteAccessArrive at0 1 5 2 farReq 4090 8 none false) winState = .next t) ∧ arrives 4090 8 none = false := by
  refine ⟨⟨_, (h winState at0 1 [] (cmdOf 0 []) rfl).1 1 5 2 farReq 4090 8 none false ?_⟩, ?_⟩ <;> decide +kernel

def rwinOpenParams : List Byte := [2, 0, 0, 0] ++ toLE 4 4096 ++ toLE 4 64 ++ [5, 0, 15, 1, 3, 0, 0, 0, 0, 0, 0, 0]

def winCmd (op : Nat) (ps : List Byte) : State := cmdState op ps { readyDie with clusters := quadMap (fun C => { C with rwins := [(63, winOpen)] }) readyDie.clusters }

/-- A case of RemoteWindowsOpenAndClose. -/
theorem test_rwinOpen (h : Obligations.RemoteWindowsOpenAndClose) : ∃ t, exec (.rwinOpen at0 1 []) (cmdState 0x0110 rwinOpenParams) = .next t := by
  refine ⟨_, ((h (cmdState 0x0110 rwinOpenParams) at0 1 [] (cmdOf 0x0110 rwinOpenParams) rfl).2 ?_ ?_ ?_).1 0 ?_ ?_ ?_ ?_ ?_ ?_ ?_ ?_ ?_ (.inl ?_) ?_ ?_ ?_ (fun m hm => absurd hm (Nat.not_lt_zero m)) (.inl rfl)⟩ <;> decide +kernel

/-- A case of RemoteWindowsOpenAndClose. -/
theorem test_rwinClose (h : Obligations.RemoteWindowsOpenAndClose) : ∃ t, exec (.rwinClose at0 1) (winCmd 0x0111 [3, 0, 0, 0, 63, 1, 0, 0]) = .next t := by
  refine ⟨_, ((h (winCmd 0x0111 [3, 0, 0, 0, 63, 1, 0, 0]) at0 1 [] (cmdOf 0x0111 [3, 0, 0, 0, 63, 1, 0, 0]) rfl).2 ?_ ?_ ?_).2.1 ?_ ?_ ?_ ?_ ?_⟩ <;> decide +kernel

/-- A case of RemoteWindowsOpenAndClose. -/
theorem test_rwinList (h : Obligations.RemoteWindowsOpenAndClose) : ∃ t, exec (.rwinList at0 1) (winCmd 0x0112 [3, 0, 0, 0]) = .next t := by
  refine ⟨_, ((h (winCmd 0x0112 [3, 0, 0, 0]) at0 1 [] (cmdOf 0x0112 [3, 0, 0, 0]) rfl).2 ?_ ?_ ?_).2.2 ?_⟩ <;> decide +kernel

def onOff (u on : Nat) : List Byte := toLE 4 u ++ toLE 4 on

def offDie : DieState :=
  { readyDie with
    clusters := quadMap (fun C => { C with powered := false }) readyDie.clusters
    saf := { service := some 9 }
    task := { cores := (List.range 16).map (fun i => (i, { powered := false })) } }
def serviceDie : DieState := { readyDie with saf := { service := some 9 } }
/-- Core 15 and cluster 3 on their way down; cluster 3 with an open window. -/
def downDie : DieState :=
  { offDie with pwr := { offDie.pwr with changes := [{ unit := 3, on := false, start := 0, cmd := 9 }, { unit := 19, on := false, start := 0, cmd := 9 }] } }
def usedDie : DieState := { readyDie with clusters := quadMap (fun C => { C with rwins := [(0, winOpen)] }) readyDie.clusters }

/-- A case of PowerChangesStartAndComplete. -/
theorem test_powerCluster_up (h : Obligations.PowerChangesStartAndComplete) : ∃ E X, exec (.powerCluster at0 1) (cmdState 0x0800 (onOff 3 1) offDie) = .next ((cmdState 0x0800 (onOff 3 1) offDie).put at0 E) ∧ E = X := by
  refine ((h.1 (cmdState 0x0800 (onOff 3 1) offDie) at0 1 (cmdOf 0x0800 (onOff 3 1)) rfl).1 ?_ ?_ ?_ ?_).elim fun E e => ⟨E, _, e.1, (e.2.2.1 ?_ ?_).2 ?_⟩ <;> decide +kernel

/-- A case of PowerChangesStartAndComplete. -/
theorem test_powerCluster_same (h : Obligations.PowerChangesStartAndComplete) : ∃ E X, exec (.powerCluster at0 1) (cmdState 0x0800 (onOff 3 1) readyDie) = .next ((cmdState 0x0800 (onOff 3 1) readyDie).put at0 E) ∧ E = X := by
  refine ((h.1 (cmdState 0x0800 (onOff 3 1) readyDie) at0 1 (cmdOf 0x0800 (onOff 3 1)) rfl).1 ?_ ?_ ?_ ?_).elim fun E e => ⟨E, _, e.1, (e.2.2.1 ?_ ?_).1 ?_⟩ <;> decide +kernel

/-- A case of PowerChangesStartAndComplete. -/
theorem test_powerCluster_after (h : Obligations.PowerChangesStartAndComplete) : ∃ E X, exec (.powerCluster at0 1) (cmdState 0x0800 (onOff 3 1) downDie) = .next ((cmdState 0x0800 (onOff 3 1) downDie).put at0 E) ∧ E = X := by
  refine ((h.1 (cmdState 0x0800 (onOff 3 1) downDie) at0 1 (cmdOf 0x0800 (onOff 3 1)) rfl).1 ?_ ?_ ?_ ?_).elim fun E e => ⟨E, _, e.1, e.2.1 ?_⟩ <;> decide +kernel

/-- A case of PowerChangesStartAndComplete. -/
theorem test_powerCluster_off (h : Obligations.PowerChangesStartAndComplete) : ∃ E X, exec (.powerCluster at0 1) (cmdState 0x0800 (onOff 3 0) offDie) = .next ((cmdState 0x0800 (onOff 3 0) offDie).put at0 E) ∧ E = X := by
  refine ((h.1 (cmdState 0x0800 (onOff 3 0) offDie) at0 1 (cmdOf 0x0800 (onOff 3 0)) rfl).1 ?_ ?_ ?_ ?_).elim fun E e => ⟨E, _, e.1, (e.2.2.2 ?_ ?_).1 ?_⟩ <;> decide +kernel

/-- A case of PowerChangesStartAndComplete. -/
theorem test_powerCluster_down (h : Obligations.PowerChangesStartAndComplete) : ∃ E X, exec (.powerCluster at0 1) (cmdState 0x0800 (onOff 3 0) serviceDie) = .next ((cmdState 0x0800 (onOff 3 0) serviceDie).put at0 E) ∧ E = X := by
  refine ((h.1 (cmdState 0x0800 (onOff 3 0) serviceDie) at0 1 (cmdOf 0x0800 (onOff 3 0)) rfl).1 ?_ ?_ ?_ ?_).elim fun E e => ⟨E, _, e.1, (e.2.2.2 ?_ ?_).2.2.2 ?_ ?_ ?_⟩ <;> decide +kernel

/-- A case of PowerChangesStartAndComplete. -/
theorem test_powerCluster_service (h : Obligations.PowerChangesStartAndComplete) : ∃ E X, exec (.powerCluster at0 1) (cmdState 0x0800 (onOff 3 0) readyDie) = .next ((cmdState 0x0800 (onOff 3 0) readyDie).put at0 E) ∧ E = X := by
  refine ((h.1 (cmdState 0x0800 (onOff 3 0) readyDie) at0 1 (cmdOf 0x0800 (onOff 3 0)) rfl).1 ?_ ?_ ?_ ?_).elim fun E e => ⟨E, _, e.1, (e.2.2.2 ?_ ?_).2.2.1 ?_ ?_ ?_ ?_⟩ <;> decide +kernel

/-- A case of PowerChangesStartAndComplete. -/
theorem test_powerCore_up (h : Obligations.PowerChangesStartAndComplete) : ∃ E X, exec (.powerCore at0 1) (cmdState 0x0802 (onOff 15 1) offDie) = .next ((cmdState 0x0802 (onOff 15 1) offDie).put at0 E) ∧ E = X := by
  refine ((h.1 (cmdState 0x0802 (onOff 15 1) offDie) at0 1 (cmdOf 0x0802 (onOff 15 1)) rfl).2.1 ?_ ?_ ?_ ?_).elim fun E e => ⟨E, _, e.1, (e.2.2.1 ?_ ?_).2 ?_⟩ <;> decide +kernel

/-- A case of PowerChangesStartAndComplete. -/
theorem test_powerCore_same (h : Obligations.PowerChangesStartAndComplete) : ∃ E X, exec (.powerCore at0 1) (cmdState 0x0802 (onOff 15 1) readyDie) = .next ((cmdState 0x0802 (onOff 15 1) readyDie).put at0 E) ∧ E = X := by
  refine ((h.1 (cmdState 0x0802 (onOff 15 1) readyDie) at0 1 (cmdOf 0x0802 (onOff 15 1)) rfl).2.1 ?_ ?_ ?_ ?_).elim fun E e => ⟨E, _, e.1, (e.2.2.1 ?_ ?_).1 ?_⟩ <;> decide +kernel

/-- A case of PowerChangesStartAndComplete. -/
theorem test_powerCore_after (h : Obligations.PowerChangesStartAndComplete) : ∃ E X, exec (.powerCore at0 1) (cmdState 0x0802 (onOff 15 1) downDie) = .next ((cmdState 0x0802 (onOff 15 1) downDie).put at0 E) ∧ E = X := by
  refine ((h.1 (cmdState 0x0802 (onOff 15 1) downDie) at0 1 (cmdOf 0x0802 (onOff 15 1)) rfl).2.1 ?_ ?_ ?_ ?_).elim fun E e => ⟨E, _, e.1, e.2.1 ?_⟩ <;> decide +kernel

/-- A case of PowerChangesStartAndComplete. -/
theorem test_powerCore_off (h : Obligations.PowerChangesStartAndComplete) : ∃ E X, exec (.powerCore at0 1) (cmdState 0x0802 (onOff 15 0) offDie) = .next ((cmdState 0x0802 (onOff 15 0) offDie).put at0 E) ∧ E = X := by
  refine ((h.1 (cmdState 0x0802 (onOff 15 0) offDie) at0 1 (cmdOf 0x0802 (onOff 15 0)) rfl).2.1 ?_ ?_ ?_ ?_).elim fun E e => ⟨E, _, e.1, (e.2.2.2 ?_ ?_).1 ?_⟩ <;> decide +kernel

/-- A case of PowerChangesStartAndComplete. -/
theorem test_powerCore_down (h : Obligations.PowerChangesStartAndComplete) : ∃ E X, exec (.powerCore at0 1) (cmdState 0x0802 (onOff 15 0) serviceDie) = .next ((cmdState 0x0802 (onOff 15 0) serviceDie).put at0 E) ∧ E = X := by
  refine ((h.1 (cmdState 0x0802 (onOff 15 0) serviceDie) at0 1 (cmdOf 0x0802 (onOff 15 0)) rfl).2.1 ?_ ?_ ?_ ?_).elim fun E e => ⟨E, _, e.1, (e.2.2.2 ?_ ?_).2.2.2 ?_ ?_ ?_⟩ <;> decide +kernel

/-- A case of PowerChangesStartAndComplete. -/
theorem test_powerCore_service (h : Obligations.PowerChangesStartAndComplete) : ∃ E X, exec (.powerCore at0 1) (cmdState 0x0802 (onOff 15 0) readyDie) = .next ((cmdState 0x0802 (onOff 15 0) readyDie).put at0 E) ∧ E = X := by
  refine ((h.1 (cmdState 0x0802 (onOff 15 0) readyDie) at0 1 (cmdOf 0x0802 (onOff 15 0)) rfl).2.1 ?_ ?_ ?_ ?_).elim fun E e => ⟨E, _, e.1, (e.2.2.2 ?_ ?_).2.2.1 ?_ ?_ ?_ ?_⟩ <;> decide +kernel

/-- A case of PowerChangesStartAndComplete. -/
theorem test_powerCluster_used (h : Obligations.PowerChangesStartAndComplete) : ∃ E X, exec (.powerCluster at0 1) (cmdState 0x0800 (onOff 3 0) usedDie) = .next ((cmdState 0x0800 (onOff 3 0) usedDie).put at0 E) ∧ E = X := by
  refine ((h.1 (cmdState 0x0800 (onOff 3 0) usedDie) at0 1 (cmdOf 0x0800 (onOff 3 0)) rfl).1 ?_ ?_ ?_ ?_).elim fun E e => ⟨E, _, e.1, (e.2.2.2 ?_ ?_).2.1 ?_ ?_⟩ <;> decide +kernel

def segParams (k : Nat) : List Byte := toLE 4 k ++ toLE 8 (2 ^ 64 - 1)

/-- A case of PowerChangesStartAndComplete. -/
theorem test_powerSegments_now (h : Obligations.PowerChangesStartAndComplete) : ∃ E X, exec (.powerSegments at0 1) (cmdState 0x0801 (toLE 4 3 ++ toLE 8 0)) = .next ((cmdState 0x0801 (toLE 4 3 ++ toLE 8 0)).put at0 E) ∧ E = X := by
  refine ((h.1 (cmdState 0x0801 (toLE 4 3 ++ toLE 8 0)) at0 1 (cmdOf 0x0801 (toLE 4 3 ++ toLE 8 0)) rfl).2.2.1 ?_ ?_ ?_ ?_).elim fun E e => ⟨E, _, e.1, e.2.1 ?_ ?_⟩ <;> decide +kernel

/-- A case of PowerChangesStartAndComplete. -/
theorem test_powerSegments_later (h : Obligations.PowerChangesStartAndComplete) : ∃ E X, exec (.powerSegments at0 1) (cmdState 0x0801 (segParams 3)) = .next ((cmdState 0x0801 (segParams 3)).put at0 E) ∧ E = X := by
  refine ((h.1 (cmdState 0x0801 (segParams 3)) at0 1 (cmdOf 0x0801 (segParams 3)) rfl).2.2.1 ?_ ?_ ?_ ?_).elim fun E e => ⟨E, _, e.1, e.2.2 ?_⟩ <;> decide +kernel

/-- A case of PowerChangesStartAndComplete. -/
theorem test_powerStatus (h : Obligations.PowerChangesStartAndComplete) : ∃ t, exec (.powerStatus at0 1) (cmdState 0x0804 []) = .next t := by
  refine ⟨_, (h.1 (cmdState 0x0804 []) at0 1 (cmdOf 0x0804 []) rfl).2.2.2 ?_⟩
  decide +kernel

def change (u : Nat) (on : Bool) : PwrChange := { unit := u, on := on, start := 0, cmd := 1 }

def changeState (u : Nat) (on : Bool) : State := cmdState 0x0800 (onOff u (b2n on)) { offDie with pwr := { offDie.pwr with changes := [change u on] } }

/-- A case of PowerChangesStartAndComplete. -/
theorem test_powerDownDrain (h : Obligations.PowerChangesStartAndComplete) : ∃ t, exec (.powerDownDrainExpire at0 3) (changeState 3 false) = .next t := by
  refine ⟨_, (h.2 (changeState 3 false) at0 3 (change 3 false) rfl).1 ?_ ?_ ?_⟩ <;> decide +kernel

/-- A case of PowerChangesStartAndComplete. -/
theorem test_powerDownComplete_core (h : Obligations.PowerChangesStartAndComplete) : ∃ t, exec (.powerDownComplete at0 19) (changeState 19 false) = .next t := by
  refine ⟨_, (h.2 (changeState 19 false) at0 19 (change 19 false) rfl).2.1 ?_ ?_⟩ <;> decide +kernel

/-- A case of PowerChangesStartAndComplete. -/
theorem test_powerDownComplete_cluster (h : Obligations.PowerChangesStartAndComplete) : ∃ t, exec (.powerDownComplete at0 3) (changeState 3 false) = .next t := by
  refine ⟨_, (h.2 (changeState 3 false) at0 3 (change 3 false) rfl).2.2.1 ?_ ?_⟩ <;> decide +kernel

/-- A case of PowerChangesStartAndComplete. -/
theorem test_powerUpComplete (h : Obligations.PowerChangesStartAndComplete) : ∃ t, exec (.powerUpComplete at0 3) (changeState 3 true) = .next t := by
  refine ⟨_, (h.2 (changeState 3 true) at0 3 (change 3 true) rfl).2.2.2.1 ?_⟩
  decide +kernel

/-- A case of ClocksChangeAndFail. -/
theorem test_setOp (h : Obligations.ClocksChangeAndFail) : ∃ t, exec (.setOp at0 1) (cmdState 0x0803 (toLE 4 7 ++ toLE 4 0)) = .next t := by
  refine ⟨_, (h.1 (cmdState 0x0803 (toLE 4 7 ++ toLE 4 0)) at0 1 (cmdOf 0x0803 (toLE 4 7 ++ toLE 4 0)) 7 { group := 0, point := 0, raising := false, stage := 0 } rfl).1 ?_ ?_ ?_⟩ <;> decide +kernel

def opChange (g p stage : Nat) : OpChange := { group := g, point := p, raising := true, stage := stage, bridgeSince := 997000, cmd := some 1 }

def clkState (g p stage : Nat) : State := cmdState 0x0803 (toLE 4 g ++ toLE 4 p) { hostDie with clk := { changes := [opChange g p stage], bridge := groupIslands g } }

/-- A case of ClocksChangeAndFail. -/
theorem test_voltageStep_up (h : Obligations.ClocksChangeAndFail) : ∃ t, exec (.voltageStepComplete at0 0) (clkState 0 3 0) = .next t :=
  ⟨_, (h.1 (clkState 0 3 0) at0 1 (cmdOf 0x0803 []) 0 (opChange 0 3 0) rfl).2.1 rfl rfl⟩

/-- A case of ClocksChangeAndFail. -/
theorem test_freqChangeDone_up (h : Obligations.ClocksChangeAndFail) : ∃ t, exec (.freqChangeDone at0 3) (clkState 3 3 1) = .next t :=
  ⟨_, (h.1 (clkState 3 3 1) at0 1 (cmdOf 0x0803 []) 3 (opChange 3 3 1) rfl).2.2.1 rfl rfl⟩

/-- A case of ClocksChangeAndFail. -/
theorem test_freqChangeDone_down (h : Obligations.ClocksChangeAndFail) : ∃ t, exec (.freqChangeDone at0 3) (clkState 3 0 1) = .next t :=
  ⟨_, (h.1 (clkState 3 0 1) at0 1 (cmdOf 0x0803 []) 3 (opChange 3 0 1) rfl).2.2.1 rfl rfl⟩

/-- A case of ClocksChangeAndFail. -/
theorem test_voltageStep_down (h : Obligations.ClocksChangeAndFail) : ∃ t, exec (.voltageStepComplete at0 3) (clkState 3 0 2) = .next t :=
  ⟨_, (h.1 (clkState 3 0 2) at0 1 (cmdOf 0x0803 []) 3 (opChange 3 0 2) rfl).2.2.2.1 rfl rfl⟩

/-- A case of ClocksChangeAndFail. -/
theorem test_freqChangeTimeout (h : Obligations.ClocksChangeAndFail) : ∃ t, exec (.freqChangeTimeout at0 7) (clkState 7 0 1) = .next t := by
  refine ⟨_, (h.1 (clkState 7 0 1) at0 1 (cmdOf 0x0803 []) 7 (opChange 7 0 1) rfl).2.2.2.2 ?_ ?_ ?_⟩ <;> decide +kernel

def clkOnly (k : ClkState) : State := upState { hostDie with clk := k }

/-- A case of ClocksChangeAndFail. -/
theorem test_freqMonitorFault (h : Obligations.ClocksChangeAndFail) : ∃ t, exec (.freqMonitorFault at0 39) hostState = .next t := by
  refine ⟨_, (h.2 hostState at0 39 rfl).1 ?_ ?_⟩ <;> decide +kernel

/-- A case of ClocksChangeAndFail. -/
theorem test_freqMonitorFault_changing (h : Obligations.ClocksChangeAndFail) : ∃ t, exec (.freqMonitorFault at0 38) (clkOnly { changes := [opChange 7 0 1] }) = .next t := by
  refine ⟨_, (h.2 (clkOnly { changes := [opChange 7 0 1] }) at0 38 rfl).2.1 (opChange 7 0 1) ?_ ?_⟩ <;> decide +kernel

/-- A case of ClocksChangeAndFail. -/
theorem test_refclkLoss_switch (h : Obligations.ClocksChangeAndFail) : ∃ t, exec (.refclkLoss at0 0) hostState = .next t := by
  refine ⟨_, ((h.2 hostState at0 0 rfl).2.2.1 ?_ ?_).1 ?_⟩ <;> decide +kernel

/-- A case of ClocksChangeAndFail. -/
theorem test_refclkLoss_last (h : Obligations.ClocksChangeAndFail) : ∃ t, exec (.refclkLoss at0 1) (clkOnly { refA := false }) = .next t := by
  refine ⟨_, ((h.2 (clkOnly { refA := false }) at0 1 rfl).2.2.1 ?_ ?_).2 ?_⟩ <;> decide +kernel

/-- A case of ClocksChangeAndFail. -/
theorem test_refclkLoss_again (h : Obligations.ClocksChangeAndFail) : ∃ t, exec (.refclkLoss at0 0) (clkOnly { refA := false }) = .next t := by
  refine ⟨_, (h.2 (clkOnly { refA := false }) at0 0 rfl).2.2.2.1 ?_ ?_⟩ <;> decide +kernel

/-- A case of ClocksChangeAndFail. -/
theorem test_referenceReturn (h : Obligations.ClocksChangeAndFail) : ∃ t, exec (.referenceInputReturn at0 0) (clkOnly { refA := false, refB := false, osc := true }) = .next t := by
  refine ⟨_, (h.2 (clkOnly { refA := false, refB := false, osc := true }) at0 0 rfl).2.2.2.2.1 ?_ ?_⟩ <;> decide +kernel

/-- A case of ClocksChangeAndFail. -/
theorem test_referenceReturn_eth (h : Obligations.ClocksChangeAndFail) : ∃ t, exec (.referenceInputReturn at0 2) hostState = .next t :=
  ⟨_, (h.2 hostState at0 0 rfl).2.2.2.2.2⟩

def heldState : State := upState { hostDie with boot := { held := true, dieReset := true } }

/-- A case of SamplesAreJudged. -/
theorem test_railSample (h : Obligations.SamplesAreJudged) : ∃ t, exec (.railSample at0 [(0, 800, 7)] 7) hostState = .next t := by
  refine ⟨_, (h.1 hostState at0 [(0, 800, 7)] 7).1 ?_⟩
  decide +kernel

/-- A case of SamplesAreJudged. -/
theorem test_railSample_held (h : Obligations.SamplesAreJudged) : ∃ t, exec (.railSample at0 [(0, 800, 7)] 7) heldState = .next t := by
  refine ⟨_, (h.1 heldState at0 [(0, 800, 7)] 7).2 ?_⟩
  decide +kernel

/-- A case of SamplesAreJudged. -/
theorem test_dieTempSample (h : Obligations.SamplesAreJudged) : ∃ t, exec (.dieTempSample at0 (some 60) none none) hostState = .next t := by
  refine ⟨_, ((h.2.1 hostState at0 (some 60) none none).1 ?_ ?_).2 ?_⟩ <;> decide +kernel

/-- A case of SamplesAreJudged. -/
theorem test_dieTempSample_trip (h : Obligations.SamplesAreJudged) : ∃ t, exec (.dieTempSample at0 (some 116) none none) hostState = .next t := by
  refine ⟨_, ((h.2.1 hostState at0 (some 116) none none).1 ?_ ?_).1 ?_⟩ <;> decide +kernel

/-- A case of SamplesAreJudged. -/
theorem test_dieTempSample_held (h : Obligations.SamplesAreJudged) : ∃ t, exec (.dieTempSample at0 (some 60) none none) heldState = .next t := by
  refine ⟨_, (h.2.1 heldState at0 (some 60) none none).2 ?_⟩
  decide +kernel

/-- A case of SamplesAreJudged. -/
theorem test_hbmTemp_warm (h : Obligations.SamplesAreJudged) : ∃ t, exec (.hbmTempSample at0 1 (some 95)) hostState = .next t := by
  refine ⟨_, h.2.2.1 hostState at0 1 (some 95) rfl ?_⟩
  decide +kernel

/-- A case of SamplesAreJudged. -/
theorem test_hbmTemp_critical (h : Obligations.SamplesAreJudged) : ∃ t, exec (.hbmTempSample at0 1 (some 96)) hostState = .next t := by
  refine ⟨_, h.2.2.1 hostState at0 1 (some 96) rfl ?_⟩
  decide +kernel

/-- Cases of SamplesAreJudged at the thresholds: 86 is warm, 85 is not, and 100 ms at 82 end it. -/
theorem test_sample_edges (h : Obligations.SamplesAreJudged) :
    (({} : TempState).sample 5 (some 86) 85 95).warm = true ∧ (({} : TempState).sample 5 (some 85) 85 95).warm = false ∧
    (({ warm := true, warmBelow := some 0 } : TempState).sample 100000000 (some 82) 85 95).warm = false ∧
    (({ warm := true, value := some 90, lastValid := 1 } : TempState).sample 3000000 none 85 95).value = some 90 ∧
    (({ value := some 90, lastValid := 1 } : TempState).sample 3000001 none 85 95).value = none := by
  refine ⟨(h.2.2.2 _ 5 85 95 86).2.1 ?_, (h.2.2.2 _ 5 85 95 85).2.2.2.1 ?_ ?_, ((h.2.2.2 _ 100000000 85 95 82).2.2.2.2.2.2.1 ?_).trans ?_,
    ((h.2.2.2 _ 3000000 85 95 0).2.2.2.2.2.2.2.1 ?_).1, ((h.2.2.2 _ 3000001 85 95 0).2.2.2.2.2.2.2.2 ?_).1⟩ <;> decide +kernel

def trainState : State := upState { hostDie with boot := { held := false, stage := 3 }, mem := { bytes := [(3, 7), (2 ^ 36, 9)] } }

/-- A case of StacksTrainAndScrub. -/
theorem test_hbmTrainingDone (h : Obligations.StacksTrainAndScrub) : ∃ t, exec (.hbmTrainingDone at0 1 true) trainState = .next t :=
  (((h trainState at0 host 1 0 rfl (by decide)).1 rfl rfl rfl).1).imp fun _ h => h.1

/-- A case of StacksTrainAndScrub. -/
theorem test_hbmTrainingFails (h : Obligations.StacksTrainAndScrub) : ∃ t, exec (.hbmTrainingDone at0 1 false) trainState = .next t := by
  refine ⟨_, ((h trainState at0 host 1 0 rfl ?_).1 rfl rfl rfl).2⟩
  decide +kernel

/-- A case of StacksTrainAndScrub. -/
theorem test_hbmRequestAged (h : Obligations.StacksTrainAndScrub) : ∃ t, exec (.hbmRequestAged at0) hostState = .next t := by
  refine ⟨_, (h hostState at0 host 1 0 rfl ?_).2.1⟩
  decide +kernel

def scrubState (l : Nat) : State := upState { hostDie with mem := { s0 := { ready := true, scrubPos := l }, s1 := { ready := true, scrubPos := l } } }

/-- A case of StacksTrainAndScrub. -/
theorem test_patrolScrub_line (h : Obligations.StacksTrainAndScrub) : ∃ t, exec (.patrolScrubRead at0 1) (scrubState 5) = .next t :=
  ⟨_, ((h (scrubState 5) at0 host 1 0 rfl (by decide)).2.2.1 (by decide +kernel) rfl).1
    (by have := stackGiB_range; show 5 + 1 < _; omega)⟩

/-- A case of StacksTrainAndScrub. -/
theorem test_patrolScrub_pass (h : Obligations.StacksTrainAndScrub) : ∃ t, exec (.patrolScrubRead at0 1) (scrubState (36 * 2 ^ 24 - 1)) = .next t :=
  ⟨_, ((h (scrubState (36 * 2 ^ 24 - 1)) at0 host 1 0 rfl (by decide)).2.2.1 (by decide +kernel) rfl).2
    (by have := stackGiB_range; show stackGiB * 2 ^ 24 ≤ 36 * 2 ^ 24 - 1 + 1; omega)⟩

/-- A case of StacksTrainAndScrub. -/
theorem test_hbmScrubRestart (h : Obligations.StacksTrainAndScrub) : ∃ t, exec (.hbmScrubRestart at0 host 1 5) (upState (roleDie 2)) = .next t := by
  refine ⟨_, (h (upState (roleDie 2)) at0 host 1 5 rfl ?_).2.2.2 ?_ ?_⟩ <;> decide +kernel

def pcieUp : PcieState := { hostDie.pcie with perst := false, config := true, link := 9 }

def pcieState : State := upState { hostDie with pcie := pcieUp }

/-- A case of PcieLinkAndPins. -/
theorem test_perstAssert (h : Obligations.PcieLinkAndPins) : ∃ t, exec (.perstAssert at0) pcieState = .next t :=
  (h.1 pcieState at0 0 0 {} 0 rfl).1.imp fun _ h => h.1

/-- A case of PcieLinkAndPins. -/
theorem test_perstDeassert (h : Obligations.PcieLinkAndPins) : ∃ t, exec (.perstDeassert at0) (upState { hostDie with pcie := {} }) = .next t :=
  ⟨_, (h.1 (upState { hostDie with pcie := {} }) at0 0 0 {} 0 rfl).2.1 rfl⟩

/-- A case of PcieLinkAndPins. -/
theorem test_linkUp (h : Obligations.PcieLinkAndPins) : ∃ t, exec (.pcieLinkChange at0 true 32768 {}) (upState { hostDie with pcie := { perst := false } }) = .next t :=
  ⟨_, (h.1 (upState { hostDie with pcie := { perst := false } }) at0 0 32768 {} 0 rfl).2.2.1 rfl rfl⟩

/-- A case of PcieLinkAndPins. -/
theorem test_linkConfig (h : Obligations.PcieLinkAndPins) : ∃ t, exec (.pcieLinkChange at0 true 1 { msix := 1, masked := [2048] }) pcieState = .next t :=
  ⟨_, (h.1 pcieState at0 0 1 { msix := 1, masked := [2048] } 0 rfl).2.2.2.1 rfl rfl⟩

/-- A case of PcieLinkAndPins. -/
theorem test_linkDown (h : Obligations.PcieLinkAndPins) : ∃ t, exec (.pcieLinkChange at0 false 0 {}) pcieState = .next t :=
  ⟨_, (h.1 pcieState at0 0 0 {} 0 rfl).2.2.2.2.1 rfl⟩

def hostQueueState : State := upState { hostDie with cmd := { hostDie.cmd with queues := [(16, { state := .active, base := 4096, log2 := 4, head := 0, tail := 1 })] } }

/-- A case of PcieLinkAndPins. -/
theorem test_completionTimeout (h : Obligations.PcieLinkAndPins) : ∃ t, exec (.pcieCompletionTimeout at0 16) hostQueueState = .next t := by
  refine ⟨_, (h.1 hostQueueState at0 16 0 {} 0 rfl).2.2.2.2.2.1 ?_ ?_⟩ <;> decide +kernel

/-- A case of PcieLinkAndPins. -/
theorem test_atsInvalidation (h : Obligations.PcieLinkAndPins) : ∃ t, exec (.atsInvalidation at0) hostState = .next t :=
  ⟨_, (h.1 hostState at0 16 0 {} 0 rfl).2.2.2.2.2.2.1⟩

/-- A case of PcieLinkAndPins. -/
theorem test_i3cIndexWrite (h : Obligations.PcieLinkAndPins) : ∃ t, exec (.i3cIndexWrite at0 0xFF) hostState = .next t :=
  ⟨_, (h.1 hostState at0 16 0 {} 0xFF rfl).2.2.2.2.2.2.2 rfl⟩

/-- A case of PcieLinkAndPins: one message that waits leaves, and one whose vector is masked stays. -/
theorem test_hostConfig (h : Obligations.PcieLinkAndPins) :
    let E := DieState.hostConfig { hostDie with pcie := { hostDie.pcie with waiting := [5, 6] } } { msix := 1, masked := [6] }
    .msix 0 5 ∈ E.outs ∧ 6 ∈ E.pcie.waiting ∧ E.pcie.bar2 = 28 := by
  refine ⟨(h.2 _ _).2.2.2.2.2.2.2 5 ?_ ?_, (h.2 _ _).2.2.2.2.2.2.1 6 ?_ (.inr ?_), (h.2 _ _).2.2.2.2.1 ?_ ?_⟩ <;> decide +kernel

theorem place_first : place 0x0040_0000_0000 = .stack 0 0 1 := place_view0 _ (by omega) (by omega)

theorem place_fourth : place 0x0040_0000_0003 = .stack 0 3 1 := place_view0 _ (by omega) (by omega)

/-- The aperture of instance 0's function lies at the start of stack 0's view. -/
def apertureDie : DieState := DieState.setReg64 hostDie B_PCI PCI_VF_BAR2_BASE 0x0040_0000_0000 1

def apertureState : State := upState apertureDie

def apertureCtx : Ctx := { inst := 0, req := 0x0A1, cls := 3 }

theorem aperture_check (D : DieState) (w : Bool) (hr : D.regionAdmits 0 1 0x0040_0000_0000 4 w = true) :
    runM (checkStack apertureCtx 0x0040_0000_0000 4 w) D = (.ok (), D) := by
  simp [checkStack, runM_bind, stackRange, viewOf, place_first, place_fourth, apertureCtx, hr]

theorem aperture_read (D : DieState) (b : List Byte) (D' : DieState) (hr : D.regionAdmits 0 1 0x0040_0000_0000 4 false = true)
    (h1 : D.apertureBase 1 = 0x0040_0000_0000) (h2 : D.apertureSize 1 = 2 ^ 32) (h3 : D.fnInst 1 = 0)
    (hg : runM (readGran apertureCtx 0 0 4) (D.lineRead 0 0) = (.ok b, D')) :
    runM (apertureAccess 1 0 4 none) D = (.ok b, D') := by
  have hs : runM (stackRead apertureCtx 0x0040_0000_0000 4) D = (.ok b, D') := by
    simp [stackRead, runM_bind, aperture_check D false hr, rawStackRead, pieces, granPieces, place_first, hg]
  simp [apertureAccess, runM_bind, DieState.apertureOk, h1, h2, h3, viewOf, place_first]
  exact hs

theorem aperture_write (D : DieState) (hr : D.regionAdmits 0 1 0x0040_0000_0000 4 true = true)
    (h1 : D.apertureBase 1 = 0x0040_0000_0000) (h2 : D.apertureSize 1 = 2 ^ 32) (h3 : D.fnInst 1 = 0) :
    runM (apertureAccess 1 0 4 (some [1, 2, 3, 4])) D =
      (.ok [], writePieces apertureCtx 0x0040_0000_0000 [1, 2, 3, 4] D) := by
  have hs : runM (stackWrite apertureCtx 0x0040_0000_0000 [1, 2, 3, 4]) D =
      (.ok (), writePieces apertureCtx 0x0040_0000_0000 [1, 2, 3, 4] D) := by
    simp [stackWrite, runM_bind, aperture_check D true hr]
  simp [apertureAccess, runM_bind, DieState.apertureOk, h1, h2, h3, viewOf, place_first, runM_map]
  exact hs.symm ▸ rfl

/-- The aperture's base is below the die's stacks: an access is dropped. -/
def lowAperture : State := upState (DieState.setReg64 hostDie B_PCI PCI_VF_BAR2_BASE 1 1)

/-- A case of ApertureAccessesComplete. -/
theorem test_apertureRead (h : Obligations.ApertureAccessesComplete) : ∃ E X, exec (.pcieApertureAccess at0 1 0 4 none) apertureState = .next (apertureState.put at0 E) ∧ E = X := by
  refine ((h apertureState at0 1 0 4 [1, 2, 3, 4] rfl ?_ rfl).1).elim fun E e => ⟨E, _, e.1, e.2.1 _ _ (aperture_read _ (answered (readGran apertureCtx 0 0 4) (((apertureState.dieAt at0).count B_PCI PCI_RX_TLPS).lineRead 0 0)) _ ?_ ?_ ?_ ?_ (run_ok _ _ ?_))⟩ <;> decide +kernel

/-- A case of ApertureAccessesComplete. -/
theorem test_apertureRead_fails (h : Obligations.ApertureAccessesComplete) : ∃ E X, exec (.pcieApertureAccess at0 1 0 4 none) lowAperture = .next (lowAperture.put at0 E) ∧ E = X := by
  refine ((h lowAperture at0 1 0 4 [1, 2, 3, 4] rfl ?_ rfl).1).elim fun E e => ⟨E, _, e.1, e.2.2 _ _ (run_err _ _ ?_)⟩ <;> decide +kernel

/-- A case of ApertureAccessesComplete. -/
theorem test_apertureWrite (h : Obligations.ApertureAccessesComplete) : ∃ E X, exec (.pcieApertureAccess at0 1 0 4 (some [1, 2, 3, 4])) apertureState = .next (apertureState.put at0 E) ∧ E = X := by
  refine ((h apertureState at0 1 0 4 [1, 2, 3, 4] rfl ?_ rfl).2.1).elim fun E e => ⟨E, _, e.1, e.2.1 _ _ (aperture_write _ ?_ ?_ ?_ ?_)⟩ <;> decide +kernel

/-- A case of ApertureAccessesComplete. -/
theorem test_apertureDropped (h : Obligations.ApertureAccessesComplete) : ∃ E X, exec (.pcieApertureAccess at0 1 0 4 (some [1, 2, 3, 4])) lowAperture = .next (lowAperture.put at0 E) ∧ E = X := by
  refine ((h lowAperture at0 1 0 4 [1, 2, 3, 4] rfl ?_ rfl).2.1).elim fun E e => ⟨E, _, e.1, e.2.2 _ _ (run_err _ _ ?_)⟩ <;> decide +kernel

/-- A case of ApertureAccessesComplete: an access past the aperture's end. -/
theorem test_aperturePast (h : Obligations.ApertureAccessesComplete) :
    ∃ f D', runM (apertureAccess 1 (2 ^ 32) 1 none) ((apertureState.dieAt at0).count B_PCI PCI_RX_TLPS) = (.error f, D') ∧
      f.status = .faultBounds := by
  refine (h apertureState at0 1 (2 ^ 32) 1 [] rfl ?_ rfl).2.2 (.inr ?_) none <;> decide +kernel

def anEvent : Event := { cls := 4, code := 1, sev := 3, time := 7 }

def logDie (l : LogState) : DieState := { roleDie 2 with log := l, pcie := { up := true } }

/-- Cases of EventsAreLoggedAndFlushed: the last entry of the intake, and one more event. -/
theorem test_eventAdmitted (h : Obligations.EventsAreLoggedAndFlushed) : (DieState.event (logDie { intake := List.replicate 31 anEvent }) anEvent).log.coalCount = 0 := by
  refine ((h.1 hostState at0 anEvent (logDie { intake := List.replicate 31 anEvent })).1 ?_ ?_).elim (fun _ h => h.2.2.2.2.2.2.2.2) <;> decide +kernel
theorem test_eventCoalesced (h : Obligations.EventsAreLoggedAndFlushed) : (DieState.event (logDie { intake := List.replicate 32 anEvent }) anEvent).log.coalCount = 1 := by
  refine ((h.1 hostState at0 anEvent (logDie { intake := List.replicate 32 anEvent })).2.1 ?_ ?_).2 <;> decide +kernel

/-- Cases of EventsAreLoggedAndFlushed: a record, and a summary before it. -/
theorem test_writeEvent (h : Obligations.EventsAreLoggedAndFlushed) :
    (logDie { intake := [anEvent, anEvent] }).writeEvent.log.nextSeq = 1 ∧
    (logDie { intake := [anEvent], coalCount := 3 }).writeEvent.log.coalCount = 0 := by
  refine ⟨((h.1 hostState at0 anEvent (logDie { intake := [anEvent, anEvent] })).2.2.1 rfl rfl _ rfl).elim fun _ h => h.2.2.2.2.1,
    ((h.1 hostState at0 anEvent (logDie { intake := [anEvent], coalCount := 3 })).2.2.2.1 rfl ?_).elim fun _ h => h.2.2.2.2.2.2.1⟩
  decide

/-- A case of EventsAreLoggedAndFlushed. -/
theorem test_eventWrite (h : Obligations.EventsAreLoggedAndFlushed) : ∃ t, exec (.eventWrite at0 [1]) (upState (logDie { intake := [anEvent, anEvent] })) = .next t :=
  ⟨_, (h.1 (upState (logDie { intake := [anEvent, anEvent] })) at0 anEvent hostDie).2.2.2.2 rfl [1]⟩

/-- A case of EventsAreLoggedAndFlushed. -/
theorem test_evlFlushStart (h : Obligations.EventsAreLoggedAndFlushed) : ∃ t, exec (.evlFlushStart at0) (upState (logDie { nextSeq := 2048 })) = .next t := by
  refine ⟨_, (h.2 (upState (logDie { nextSeq := 2048 })) at0 host 4 rfl).1 ?_ rfl ?_⟩ <;> decide +kernel

/-- A case of EventsAreLoggedAndFlushed. -/
theorem test_evlFlushNow (h : Obligations.EventsAreLoggedAndFlushed) : ∃ t, exec (.evlFlushNow at0 host 4) (upState (logDie {})) = .next t := by
  refine ⟨_, (h.2 (upState (logDie {})) at0 host 4 rfl).2.1 ?_ ?_⟩ <;> decide +kernel

/-- A flush of the second of two records is in progress. -/
def flushDie (lost : Nat) : DieState :=
  logDie { nextSeq := 2, flushedSeq := 1, flushing := some 2, lost := lost, ring := [{ seq := 0, ev := anEvent }, { seq := 1, ev := anEvent }] }

/-- A case of EventsAreLoggedAndFlushed. -/
theorem test_evlFlushComplete_0 (h : Obligations.EventsAreLoggedAndFlushed) : ∃ t, exec (.evlFlushComplete at0 true) (upState (flushDie 0)) = .next t :=
  ((h.2 (upState (flushDie 0)) at0 host 4 rfl).2.2.1 2 rfl).1.elim fun t e => ⟨t, e.choose_spec.1⟩

/-- A case of EventsAreLoggedAndFlushed. -/
theorem test_evlFlushComplete_3 (h : Obligations.EventsAreLoggedAndFlushed) : ∃ t, exec (.evlFlushComplete at0 true) (upState (flushDie 3)) = .next t :=
  ((h.2 (upState (flushDie 3)) at0 host 4 rfl).2.2.1 2 rfl).1.elim fun t e => ⟨t, e.choose_spec.1⟩

/-- A case of EventsAreLoggedAndFlushed. -/
theorem test_evlFlushFails (h : Obligations.EventsAreLoggedAndFlushed) : ∃ t, exec (.evlFlushComplete at0 false) (upState (flushDie 0)) = .next t :=
  ⟨_, ((h.2 (upState (flushDie 0)) at0 host 4 rfl).2.2.1 2 rfl).2⟩

/-- A case of EventsAreLoggedAndFlushed. -/
theorem test_evlCopyScrub (h : Obligations.EventsAreLoggedAndFlushed) : ∃ t, exec (.evlCopyScrub at0 [(1, 4095)]) (upState (logDie {})) = .next t :=
  ⟨_, (h.2 (upState (logDie {})) at0 host 4 rfl).2.2.2.1 [(1, 4095)]⟩

/-- Cases of EventsAreLoggedAndFlushed: a place of the copies that is bad once, and again. -/
theorem test_copyError (h : Obligations.EventsAreLoggedAndFlushed) :
    (logDie { rewritten := [(1, 7)] }).copyError (1, 7) = (logDie { rewritten := [(1, 7)] }).failCopy 1 ∧
    ((logDie {}).copyError (1, 7)).log = { rewritten := [(1, 7)] } := by
  refine ⟨((h.2 hostState at0 host 4 rfl).2.2.2.2 _ (1, 7) rfl).2 ?_,
    (congrArg (·.log) (((h.2 hostState at0 host 4 rfl).2.2.2.2 (logDie {}) (1, 7) rfl).1 ?_)).trans ?_⟩ <;> decide +kernel

def readParams : List Byte := toLE 4 0 ++ toLE 2 4096 ++ [0, 0] ++ toLE 8 4096

def logState (l : LogState) (op : Nat) (ps : List Byte) : State := upState (withCmd (logDie l) { cmdOf op ps with role := 2 })

def oneRecord : LogState := { nextSeq := 2, ring := [{ seq := 1, ev := anEvent }] }

/-- A case of DiagnosticsCommandsAnswer. -/
theorem test_eventRead_none (h : Obligations.DiagnosticsCommandsAnswer) : ∃ E X, exec (.eventRead at0 1) (logState {} 0x0702 readParams) = .next ((logState {} 0x0702 readParams).put at0 E) ∧ E = X := by
  refine ((h (logState {} 0x0702 readParams) at0 1 [] { cmdOf 0x0702 readParams with role := 2 } rfl).1 ?_).elim fun E e => ⟨E, _, e.1, e.2.2.2 ?_ ?_ ?_ ?_⟩ <;> decide +kernel

/-- A case of DiagnosticsCommandsAnswer: one record, with the range of sequence numbers held. -/
theorem test_eventRead (h : Obligations.DiagnosticsCommandsAnswer) : (∃ t, exec (.eventRead at0 1) (logState oneRecord 0x0702 readParams) = .next t) ∧
    answered (eventRead { cmdOf 0x0702 readParams with role := 2 }) ((logState oneRecord 0x0702 readParams).dieAt at0) = toLE 4 1 ++ toLE 4 1 ++ toLE 4 2 := by
  refine ⟨((h (logState oneRecord 0x0702 readParams) at0 1 [] { cmdOf 0x0702 readParams with role := 2 } rfl).1 ?_).elim fun _ e => ⟨_, e.1⟩, ((h (logState oneRecord 0x0702 readParams) at0 1 [] { cmdOf 0x0702 readParams with role := 2 } rfl).1 ?_).elim fun _ e => (e.2.2.1 _ _ (run_ok _ _ ?_)).trans ?_⟩ <;> decide +kernel

/-- A case of DiagnosticsCommandsAnswer. -/
theorem test_eventMark (h : Obligations.DiagnosticsCommandsAnswer) : ∃ t, exec (.eventMark at0 1) (logState { marks := [(0, (0, 999))] } 0x0703 (List.replicate 16 1)) = .next t := by
  refine ⟨_, ((h (logState { marks := [(0, (0, 999))] } 0x0703 (List.replicate 16 1)) at0 1 [] { cmdOf 0x0703 (List.replicate 16 1) with role := 2 } rfl).2.1 ?_).1 ?_⟩ <;> decide +kernel

/-- A case of DiagnosticsCommandsAnswer. -/
theorem test_eventMark_quota (h : Obligations.DiagnosticsCommandsAnswer) : ∃ t, exec (.eventMark at0 1) (logState { marks := [(0, (0, 1000))] } 0x0703 (List.replicate 16 1)) = .next t := by
  refine ⟨_, ((h (logState { marks := [(0, (0, 1000))] } 0x0703 (List.replicate 16 1)) at0 1 [] { cmdOf 0x0703 (List.replicate 16 1) with role := 2 } rfl).2.1 ?_).2 ?_⟩ <;> decide +kernel

def injectParams : List Byte := [4, 0, 0, 0] ++ toLE 8 0 ++ toLE 4 5 ++ toLE 4 3 ++ toLE 4 1000

/-- A case of DiagnosticsCommandsAnswer: the first injection's ID. -/
theorem test_faultInject (h : Obligations.DiagnosticsCommandsAnswer) : (∃ t, exec (.faultInject at0 1 []) (logState {} 0x0700 injectParams) = .next t) ∧
    answered (faultInject { cmdOf 0x0700 injectParams with role := 2 } []) ((logState {} 0x0700 injectParams).dieAt at0) = toLE 4 1 := by
  refine ⟨((h (logState {} 0x0700 injectParams) at0 1 [] { cmdOf 0x0700 injectParams with role := 2 } rfl).2.2.1 ?_).elim fun _ e => ⟨_, e.1⟩, ((h (logState {} 0x0700 injectParams) at0 1 [] { cmdOf 0x0700 injectParams with role := 2 } rfl).2.2.1 ?_).elim fun _ e => (e.2.2 _ _ (run_ok _ _ ?_)).1.trans ?_⟩ <;> decide +kernel

def injection : Injection := { id := 9, kind := 4, target := 0, param := 5, left := 3, stop := 2 ^ 40 }

/-- A case of DiagnosticsCommandsAnswer. -/
theorem test_faultInjectStop (h : Obligations.DiagnosticsCommandsAnswer) : ∃ t, exec (.faultInjectStop at0 1) (logState { injections := [(3, injection)] } 0x0701 (toLE 4 9)) = .next t := by
  refine ⟨_, ((h (logState { injections := [(3, injection)] } 0x0701 (toLE 4 9)) at0 1 [] { cmdOf 0x0701 (toLE 4 9) with role := 2 } rfl).2.2.2 ?_).1 (3, injection) ?_⟩ <;> decide +kernel

/-- A case of DiagnosticsCommandsAnswer. -/
theorem test_faultInjectStop_unknown (h : Obligations.DiagnosticsCommandsAnswer) : ∃ t, exec (.faultInjectStop at0 1) (logState { injections := [(3, injection)] } 0x0701 (toLE 4 8)) = .next t := by
  refine ⟨_, ((h (logState { injections := [(3, injection)] } 0x0701 (toLE 4 8)) at0 1 [] { cmdOf 0x0701 (toLE 4 8) with role := 2 } rfl).2.2.2 ?_).2 ?_⟩ <;> decide +kernel

def rolState (f : RolState → RolState) : State := upState { roleDie 2 with rol := f (roleDie 2).rol, pcie := { up := true } }

def plainState : State := rolState id

def oper : Req := { id := 0x0A0, inst := 3 }

def operState : State := upState { hostDie with rol := {} }

/-- A case of NoncesAndSessionsOpenAndEnd. -/
theorem test_rolNonceRead (h : Obligations.NoncesAndSessionsOpenAndEnd) : ∃ t, exec (.rolNonceRead at0 host) plainState = .next t := by
  refine ((h.1 plainState at0 host rfl).1 ?_ ?_).imp fun _ h => h.1 <;> decide +kernel

/-- A case of NoncesAndSessionsOpenAndEnd. -/
theorem test_nonceExpire (h : Obligations.NoncesAndSessionsOpenAndEnd) : ∃ t, exec (.nonceExpire at0) plainState = .next t :=
  (h.1 plainState at0 host rfl).2.1.imp fun _ h => h.1

/-- A case of NoncesAndSessionsOpenAndEnd. -/
theorem test_lockoutExpire (h : Obligations.NoncesAndSessionsOpenAndEnd) : ∃ t, exec (.lockoutExpire at0) plainState = .next t :=
  (h.1 plainState at0 host rfl).2.2.imp fun _ h => h.1

/-- A case of NoncesAndSessionsOpenAndEnd. -/
theorem test_rolAuthOpen (h : Obligations.NoncesAndSessionsOpenAndEnd) : ∃ t, exec (.rolAuthOpen at0 host 1) plainState = .next t := by
  refine ⟨_, ((h.2.1 plainState at0 host 1 rfl).1 ?_).1 ?_⟩ <;> decide +kernel

/-- A case of NoncesAndSessionsOpenAndEnd. -/
theorem test_rolAuthEnd (h : Obligations.NoncesAndSessionsOpenAndEnd) : ∃ t, exec (.rolAuthEnd at0 host 2) plainState = .next t := by
  refine ⟨_, ((h.2.1 plainState at0 host 2 rfl).1 ?_).2 ?_⟩ <;> decide +kernel

/-- Instance 0 presents the 512 bytes at the start of stack 0's view. -/
def authState : State := upState { hostDie with rol := { pend := [(0x0A0, 0, 0x0040_0000_0000)] }, mem := { bytes := [(0, 2)] } }

/-- A case of NoncesAndSessionsOpenAndEnd. -/
theorem test_sessionAuthDone (h : Obligations.NoncesAndSessionsOpenAndEnd) : ∃ t, exec (.sessionAuthDone at0 host.id) authState = .next t := by
  refine ⟨_, (h.2.1 authState at0 host 1 rfl).2.1 (0x0A0, 0, 0x0040_0000_0000) ?_⟩
  decide +kernel

/-- A case of NoncesAndSessionsOpenAndEnd. -/
theorem test_sessionTimeout (h : Obligations.NoncesAndSessionsOpenAndEnd) : ∃ t, exec (.sessionTimeout { at0 with time := 900000000000 }) plainState = .next t :=
  ⟨_, (h.2.1 plainState { at0 with time := 900000000000 } host 1 rfl).2.2⟩

/-- A case of NoncesAndSessionsOpenAndEnd: a session that ends gives up its slot. -/
theorem test_endSession (h : Obligations.NoncesAndSessionsOpenAndEnd) : tabFind ((roleDie 2).endSession 0).rol.sessions 0 = none := by
  refine (h.2.2 (roleDie 2) 0 (session 2) ?_ ?_).1 <;> decide +kernel

def lockDie : DieState := { roleDie 2 with csr := { sels := [{ req := 0x0A0, block := B_ROL, vals := [(ROL_LOCK_SEL, 0x090)] }] } }
def lockState : State := upState lockDie

/-- A case of LocksAndAuditAreRecorded. -/
theorem test_rolLockOpen (h : Obligations.LocksAndAuditAreRecorded) : ∃ t, exec (.rolLockOpen at0 host 1) lockState = .next t := by
  refine ⟨_, ((h.1 lockState at0 host 1 rfl).1 ?_).1 ?_⟩ <;> decide +kernel

/-- A case of LocksAndAuditAreRecorded. -/
theorem test_rolLockCommit (h : Obligations.LocksAndAuditAreRecorded) : ∃ t, exec (.rolLockCommit at0 host 2) lockState = .next t := by
  refine ⟨_, ((h.1 lockState at0 host 2 rfl).1 ?_).2 ?_⟩ <;> decide +kernel

/-- A case of LocksAndAuditAreRecorded. -/
theorem test_auditTrim (h : Obligations.LocksAndAuditAreRecorded) : ∃ t, exec (.auditTrim at0 host 1) plainState = .next t := by
  refine ⟨_, (h.1 plainState at0 host 1 rfl).2.1 ?_ ?_⟩ <;> decide +kernel

def durableState (lost : Nat) : State :=
  upState { roleDie 2 with
    rol := { (roleDie 2).rol with auditQ := [{ record := { kind := 3 }, act := .none }] }
    pcie := { up := true }, boot := { held := false, stage := 7, lost := lost } }

/-- A case of LocksAndAuditAreRecorded. -/
theorem test_auditRecordDurable (h : Obligations.LocksAndAuditAreRecorded) : ∃ t, exec (.auditRecordDurable at0) (durableState 0) = .next t := by
  refine ⟨_, ((h.1 (durableState 0) at0 host 1 rfl).2.2.1 _ _ rfl).1 ?_ ?_⟩ <;> decide +kernel

/-- A case of LocksAndAuditAreRecorded. -/
theorem test_auditRecordDurable_denied (h : Obligations.LocksAndAuditAreRecorded) : ∃ t, exec (.auditRecordDurable at0) (durableState 1) = .next t := by
  refine ⟨_, ((h.1 (durableState 1) at0 host 1 rfl).2.2.1 _ _ rfl).2 (.inl ?_)⟩
  decide +kernel

/-- A case of LocksAndAuditAreRecorded. -/
theorem test_auditRecordDurable_none (h : Obligations.LocksAndAuditAreRecorded) : ∃ t, exec (.auditRecordDurable at0) plainState = .next t :=
  ⟨_, (h.1 plainState at0 host 1 rfl).2.2.2 rfl⟩

/-- Cases of LocksAndAuditAreRecorded: a record, and the checkpoint after the 256th. -/
theorem test_auditAdd (h : Obligations.LocksAndAuditAreRecorded) :
    (({ auditSeq := 254 } : Flash).auditAdd { kind := 3 }).auditSeq = 255 ∧ (({ auditSeq := 255 } : Flash).auditAdd { kind := 3 }).auditSeq = 257 := by
  refine ⟨(h.2.1 { auditSeq := 254 } { kind := 3 }).elim fun _ e => (e.2.2.2.2.2.1 ?_).2,
    (h.2.1 { auditSeq := 255 } { kind := 3 }).elim fun _ e => (e.2.2.2.2.2.2 ?_ ?_).elim fun _ z => z.2.2.2⟩ <;> decide +kernel

def makerDie : DieState := { hostDie with rol := (roleDie 2).rol, mem := { host := memWrite [] 4096 [1, 2, 3, 4] } }

def makerCmd (op : Nat) (ps : List Byte) : State := upState (withCmd makerDie { cmdOf op ps with role := 2 })

/-- A case of MakerCommandsAnswer; an image whose signature fails is refused. -/
theorem test_fwStage (h : Obligations.MakerCommandsAnswer) : ∃ t, exec (.fwStage at0 1) (makerCmd 0x0F00 (toLE 8 4096 ++ toLE 4 4 ++ toLE 4 1)) = .next t := by
  refine ((h (makerCmd 0x0F00 (toLE 8 4096 ++ toLE 4 4 ++ toLE 4 1)) at0 1 [] { cmdOf 0x0F00 (toLE 8 4096 ++ toLE 4 4 ++ toLE 4 1) with role := 2 } rfl).1 ?_).elim fun _ e => ⟨_, e.1⟩
  decide +kernel

/-- A case of MakerCommandsAnswer. -/
theorem test_fwActivate (h : Obligations.MakerCommandsAnswer) : ∃ t, exec (.fwActivate at0 1) (makerCmd 0x0F01 (toLE 4 1)) = .next t := by
  refine ⟨_, (h (makerCmd 0x0F01 (toLE 4 1)) at0 1 [] { cmdOf 0x0F01 (toLE 4 1) with role := 2 } rfl).2.1 ?_ ?_⟩ <;> decide +kernel

/-- A case of MakerCommandsAnswer. -/
theorem test_repairEdit_0 (h : Obligations.MakerCommandsAnswer) : ∃ t, exec (.repairEdit at0 1) (makerCmd 0x0F02 (toLE 4 0 ++ toLE 4 3 ++ toLE 8 0x7FFF ++ toLE 4 1)) = .next t := by
  refine ⟨_, (h (makerCmd 0x0F02 (toLE 4 0 ++ toLE 4 3 ++ toLE 8 0x7FFF ++ toLE 4 1)) at0 1 [] { cmdOf 0x0F02 (toLE 4 0 ++ toLE 4 3 ++ toLE 8 0x7FFF ++ toLE 4 1) with role := 2 } rfl).2.2.1 ?_ ?_ ?_ ?_ ?_⟩ <;> decide +kernel

/-- A case of MakerCommandsAnswer. -/
theorem test_repairEdit_1 (h : Obligations.MakerCommandsAnswer) : ∃ t, exec (.repairEdit at0 1) (makerCmd 0x0F02 (toLE 4 1 ++ toLE 4 3 ++ toLE 8 0x8000 ++ toLE 4 1)) = .next t := by
  refine ⟨_, (h (makerCmd 0x0F02 (toLE 4 1 ++ toLE 4 3 ++ toLE 8 0x8000 ++ toLE 4 1)) at0 1 [] { cmdOf 0x0F02 (toLE 4 1 ++ toLE 4 3 ++ toLE 8 0x8000 ++ toLE 4 1) with role := 2 } rfl).2.2.1 ?_ ?_ ?_ ?_ ?_⟩ <;> decide +kernel

/-- A case of MakerCommandsAnswer. -/
theorem test_fuseDump (h : Obligations.MakerCommandsAnswer) : ∃ E X, exec (.fuseDump at0 1) (makerCmd 0x0F03 (toLE 8 4096)) = .next ((makerCmd 0x0F03 (toLE 8 4096)).put at0 E) ∧ E = X := by
  refine ((h (makerCmd 0x0F03 (toLE 8 4096)) at0 1 [] { cmdOf 0x0F03 (toLE 8 4096) with role := 2 } rfl).2.2.2.1 ?_).elim fun E e => ⟨E, _, e.1, e.2.1 _ _ [] (run_unit _ _ ?_) rfl ?_⟩ <;> decide +kernel

/-- A case of MakerCommandsAnswer. -/
theorem test_safetyInject (h : Obligations.MakerCommandsAnswer) : (∃ t, exec (.safetyInject at0 1 []) (makerCmd 0x0F04 injectParams) = .next t) ∧
    answered (safetyInject { cmdOf 0x0F04 injectParams with role := 2 } []) ((makerCmd 0x0F04 injectParams).dieAt at0) = toLE 4 1 := by
  refine ⟨((h (makerCmd 0x0F04 injectParams) at0 1 [] { cmdOf 0x0F04 injectParams with role := 2 } rfl).2.2.2.2.1 ?_).elim fun _ e => ⟨_, e.1⟩, ((h (makerCmd 0x0F04 injectParams) at0 1 [] { cmdOf 0x0F04 injectParams with role := 2 } rfl).2.2.2.2.1 ?_).elim fun _ e => (e.2.2 _ _ (run_ok _ _ ?_)).trans ?_⟩ <;> decide +kernel

/-- A case of MakerCommandsAnswer. -/
theorem test_rfaCapture (h : Obligations.MakerCommandsAnswer) : ∃ E X, exec (.rfaCapture at0 1) (makerCmd 0x0F05 (toLE 8 4096 ++ toLE 4 4)) = .next ((makerCmd 0x0F05 (toLE 8 4096 ++ toLE 4 4)).put at0 E) ∧ E = X := by
  refine ((h (makerCmd 0x0F05 (toLE 8 4096 ++ toLE 4 4)) at0 1 [] { cmdOf 0x0F05 (toLE 8 4096 ++ toLE 4 4) with role := 2 } rfl).2.2.2.2.2.1 ?_).elim fun E e => ⟨E, _, e.choose_spec.1, e.choose_spec.2.1.1 _ _ _ (run_ok _ _ ?_) rfl ?_⟩ <;> decide +kernel

/-- A case of MakerCommandsAnswer. -/
theorem test_anchorSet (h : Obligations.MakerCommandsAnswer) : ∃ t, exec (.anchorSet at0 1) (makerCmd 0x0F06 (toLE 4 7)) = .next t := by
  refine ⟨_, (h (makerCmd 0x0F06 (toLE 4 7)) at0 1 [] { cmdOf 0x0F06 (toLE 4 7) with role := 2 } rfl).2.2.2.2.2.2 ?_ ?_ ?_⟩ <;> decide +kernel

/-- Banks for a commit: one whose entry 0 is out of range, and one of instance 0 without regions. -/
def badBank : Tab Byte := memWrite [] 0 [1, 31]

def goodBank : Tab Byte := bank.filter (fun e => e.1 < 64)

def commitState (staged : Tab Byte) : State := upState { roleDie 1 with ins := { active := goodBank, staged := staged } }

/-- A case of InstancesCommitAndReset. -/
theorem test_insCommit_fails (h : Obligations.InstancesCommitAndReset) : ∃ t, exec (.insCommit at0 host 4) (commitState badBank) = .next t := by
  refine ⟨_, (h.1 (commitState badBank) at0 host 4 rfl ?_ ?_).1 1 0 0 ?_⟩ <;> decide +kernel

/-- A case of InstancesCommitAndReset. -/
theorem test_insCommit (h : Obligations.InstancesCommitAndReset) : ∃ t, exec (.insCommit at0 host 4) (commitState goodBank) = .next t := by
  refine ⟨_, (h.1 (commitState goodBank) at0 host 4 rfl ?_ ?_).2 ?_⟩ <;> decide +kernel

/-- A case of InstancesCommitAndReset. -/
theorem test_instanceReset_installer (h : Obligations.InstancesCommitAndReset) : ∃ t, exec (.instanceReset at0 host 0xFF) hostState = .next t := by
  refine ⟨_, (h.2.1 hostState at0 host 0xFF 0 0 rfl).1 ?_ ?_⟩ <;> decide +kernel

/-- A case of InstancesCommitAndReset. -/
theorem test_instanceReset_8 (h : Obligations.InstancesCommitAndReset) : ∃ t, exec (.instanceReset at0 oper 8) operState = .next t := by
  refine ⟨_, (h.2.1 operState at0 oper 8 0 0 rfl).2.1 ?_ ?_⟩ <;> decide +kernel

/-- A case of InstancesCommitAndReset. -/
theorem test_instanceReset_12 (h : Obligations.InstancesCommitAndReset) : ∃ t, exec (.instanceReset at0 oper 12) operState = .next t := by
  refine ⟨_, (h.2.1 operState at0 oper 12 0 0 rfl).2.1 ?_ ?_⟩ <;> decide +kernel

def scrubbing : DieState :=
  { hostDie with ins := { scrubs := [{ inst := 2, index := 15, base := 0x0040_0000_0000, size := 64, view := 1 }] }, mem := { bytes := [(0, 9), (64, 9)] } }

/-- A case of InstancesCommitAndReset. -/
theorem test_regionScrubDone (h : Obligations.InstancesCommitAndReset) : ∃ t, exec (.regionScrubDone at0 2 15) (upState scrubbing) = .next t :=
  ((h.2.1 (upState scrubbing) at0 oper 8 2 15 rfl).2.2 _ rfl).elim fun _ e => ⟨_, e.1⟩

/-- Cases of InstancesCommitAndReset: the extents of a region of each view. -/
theorem test_extents (h : Obligations.InstancesCommitAndReset) (hp : ({ base := 0x1000, size := 0x2000, view := 0, rights := 3, shared := 0 } : Region).populated = true) :
    ({ base := 0x1000, size := 0x2000, view := 0, rights := 3, shared := 0 } : Region).extents = [(0, 0x800, 0x1000), (1, 0x800, 0x1000)] :=
  (h.2.2 _ hp).2.2 rfl (by decide)

/-- The die with its island running and these island fields. -/
def safDie (x : SafState) : DieState := { hostDie with saf := { x with running := true } }

def outDie (x : Sdo) : DieState := safDie { sdoA := x, sdoB := x }

/-- A case of OutputsPulseLatchAndClear. -/
theorem test_sdoTestPulse (h : Obligations.OutputsPulseLatchAndClear) : ∃ t, exec (.sdoTestPulse { at0 with time := 100000000 } 3) (upState (outDie { on := true })) = .next t := by
  refine ⟨_, (h (upState (outDie { on := true })) { at0 with time := 100000000 } 3 1 true (cmdOf 0 []) rfl).2.1 ?_ ?_ ?_⟩ <;> decide +kernel

/-- A case of OutputsPulseLatchAndClear. -/
theorem test_sdoTestPulse_early (h : Obligations.OutputsPulseLatchAndClear) : ∃ t, exec (.sdoTestPulse at0 3) (upState (outDie { on := true })) = .next t := by
  refine ⟨_, (h (upState (outDie { on := true })) at0 3 1 true (cmdOf 0 []) rfl).1 ?_⟩
  decide +kernel

/-- A case of OutputsPulseLatchAndClear. -/
theorem test_sdoPulseEnd (h : Obligations.OutputsPulseLatchAndClear) : ∃ t, exec (.sdoPulseEnd at0 0) (upState (outDie { on := true, pulse := some 600000, edge := 600000 })) = .next t := by
  refine ⟨_, (h (upState (outDie { on := true, pulse := some 600000, edge := 600000 })) at0 0 1 true (cmdOf 0 []) rfl).2.2.1 600000 ?_ ?_⟩ <;> decide +kernel

/-- A case of OutputsPulseLatchAndClear. -/
theorem test_sdoReadback_same (h : Obligations.OutputsPulseLatchAndClear) : ∃ t, exec (.sdoOutputFault at0 1 true) (upState (outDie { on := true })) = .next t := by
  refine ⟨_, ((h (upState (outDie { on := true })) at0 1 1 true (cmdOf 0 []) rfl).2.2.2.1 ?_).1 ?_⟩ <;> decide +kernel

/-- A case of OutputsPulseLatchAndClear. -/
theorem test_sdoOutputFault (h : Obligations.OutputsPulseLatchAndClear) : ∃ t, exec (.sdoOutputFault at0 1 false) (upState (outDie { on := true, edge := 900000 })) = .next t := by
  refine (((h (upState (outDie { on := true, edge := 900000 })) at0 1 1 false (cmdOf 0 []) rfl).2.2.2.1 ?_).2 ?_ ?_).imp fun _ h => h.1 <;> decide +kernel

/-- A case of OutputsPulseLatchAndClear. -/
theorem test_safetyOutputClear (h : Obligations.OutputsPulseLatchAndClear) : ∃ t, exec (.safetyOutputClear at0 1) (cmdState 0x0502 [] (safDie { sdoLatched := true })) = .next t := by
  refine ⟨_, (h (cmdState 0x0502 [] (safDie { sdoLatched := true })) at0 1 1 true (cmdOf 0x0502 []) rfl).2.2.2.2 ?_⟩
  decide +kernel

def downState : State := upState { hostDie with saf := { down := some 7 } }

/-- A case of IslandStopsRestartsAndServes. -/
theorem test_safetyIslandFault (h : Obligations.IslandStopsRestartsAndServes) : ∃ t, exec (.safetyIslandFault at0) (upState (safDie { network := true })) = .next t :=
  ((h (upState (safDie { network := true })) at0 1 (cmdOf 0 []) rfl).1 rfl).imp fun _ h => h.1

/-- A case of IslandStopsRestartsAndServes. -/
theorem test_safetyIslandRestart (h : Obligations.IslandStopsRestartsAndServes) : ∃ t, exec (.safetyIslandRestart at0) downState = .next t :=
  ⟨_, (h downState at0 1 (cmdOf 0 []) rfl).2.1 7 rfl⟩

/-- A case of IslandStopsRestartsAndServes. -/
theorem test_safetyServiceEnter (h : Obligations.IslandStopsRestartsAndServes) : ∃ t, exec (.safetyServiceEnter at0 1) (cmdState 0x0500 (toLE 2 480) (safDie {})) = .next t := by
  refine ⟨_, (h (cmdState 0x0500 (toLE 2 480) (safDie {})) at0 1 (cmdOf 0x0500 (toLE 2 480)) rfl).2.2.1 ?_ ?_ ?_⟩ <;> decide +kernel

/-- A case of IslandStopsRestartsAndServes. -/
theorem test_safetyServiceExit (h : Obligations.IslandStopsRestartsAndServes) : ∃ t, exec (.safetyServiceExit at0 1) (cmdState 0x0501 [] (safDie { service := some 9000000 })) = .next t := by
  refine ⟨_, (h (cmdState 0x0501 [] (safDie { service := some 9000000 })) at0 1 (cmdOf 0x0501 []) rfl).2.2.2.1 9000000 ?_ ?_⟩ <;> decide +kernel

/-- A case of IslandStopsRestartsAndServes. -/
theorem test_serviceModeExpire (h : Obligations.IslandStopsRestartsAndServes) : ∃ t, exec (.serviceModeExpire at0) (upState (safDie { service := some 1000000 })) = .next t := by
  refine ⟨_, (h (upState (safDie { service := some 1000000 })) at0 1 (cmdOf 0 []) rfl).2.2.2.2.1 1000000 ?_ ?_⟩ <;> decide +kernel

/-- A case of IslandStopsRestartsAndServes. -/
theorem test_safetyServiceExit_none (h : Obligations.IslandStopsRestartsAndServes) : ∃ t, exec (.safetyServiceExit at0 1) (cmdState 0x0501 [] (safDie {})) = .next t := by
  refine ⟨_, (h (cmdState 0x0501 [] (safDie {})) at0 1 (cmdOf 0x0501 []) rfl).2.2.2.2.2.1 ?_ ?_⟩ <;> decide +kernel

/-- A case of IslandStopsRestartsAndServes. -/
theorem test_safetyLatchClear (h : Obligations.IslandStopsRestartsAndServes) : ∃ t, exec (.safetyLatchClear at0 1) (cmdState 0x0503 [] (safDie { latched := true })) = .next t := by
  refine ⟨_, (h (cmdState 0x0503 [] (safDie { latched := true })) at0 1 (cmdOf 0x0503 []) rfl).2.2.2.2.2.2.1 ?_⟩
  decide +kernel

/-- A case of IslandStopsRestartsAndServes. -/
theorem test_safetyStatus (h : Obligations.IslandStopsRestartsAndServes) : ∃ t, exec (.safetyStatus at0 1) (cmdState 0x0504 [] (safDie {})) = .next t := by
  refine ⟨_, (h (cmdState 0x0504 [] (safDie {})) at0 1 (cmdOf 0x0504 []) rfl).2.2.2.2.2.2.2 ?_⟩
  decide +kernel

def doubtState : State := upState { safDie {} with doubts := [(6, 0)] }

def dueState : State := upState (safDie { due := some { time := 900000, frame := 1, slice := 2 } })

def goodRecord : List Byte := List.replicate 124 0 ++ toLE 4 (crc32c (List.replicate 124 0))

def badRecord : List Byte := List.replicate 127 0 ++ [1]

def recordState (b : List Byte) : State := upState (safDie { records := [b] })

/-- A case of DoubtsResultsAndMergesMove. -/
theorem test_doubtRaise (h : Obligations.DoubtsResultsAndMergesMove) : ∃ t, exec (.doubtRaise at0 none) doubtState = .next t :=
  ⟨_, (h.1 doubtState at0 none rfl).1⟩

/-- A case of DoubtsResultsAndMergesMove. -/
theorem test_doubtRaise_clock (h : Obligations.DoubtsResultsAndMergesMove) : ∃ t, exec (.doubtRaise at0 (some 200)) doubtState = .next t :=
  ⟨_, (h.1 doubtState at0 (some 200) rfl).1⟩

/-- A case of DoubtsResultsAndMergesMove. -/
theorem test_safetyMerge (h : Obligations.DoubtsResultsAndMergesMove) : ∃ t, exec (.safetyMerge at0) dueState = .next t :=
  ⟨_, (h.1 dueState at0 none rfl).2.1 _ rfl rfl rfl⟩

/-- A case of DoubtsResultsAndMergesMove. -/
theorem test_networkResult_good (h : Obligations.DoubtsResultsAndMergesMove) : ∃ t, exec (.networkResultReceive at0) (recordState goodRecord) = .next t := by
  refine (((h.1 (recordState goodRecord) at0 none rfl).2.2.1 _ _ rfl rfl rfl).1 ?_).imp fun _ h => h.choose_spec.1
  decide +kernel

/-- A case of DoubtsResultsAndMergesMove. -/
theorem test_networkResult_bad (h : Obligations.DoubtsResultsAndMergesMove) : ∃ t, exec (.networkResultReceive at0) (recordState badRecord) = .next t := by
  refine ⟨_, ((h.1 (recordState badRecord) at0 none rfl).2.2.1 _ _ rfl rfl rfl).2 ?_⟩
  decide +kernel

/-- A case of DoubtsResultsAndMergesMove. -/
theorem test_doubtClearTimer (h : Obligations.DoubtsResultsAndMergesMove) : ∃ t, exec (.doubtClearTimer at0) doubtState = .next t :=
  ((h.1 doubtState at0 none rfl).2.2.2.1 rfl rfl).imp fun _ h => h.1

def safetyBlock (proofAt : Nat) (crcs : List Byte) : List Byte :=
  List.replicate 4 0 ++ [1] ++ List.replicate 27 0 ++ toLE 8 0x0040_0000_0000 ++ toLE 4 0 ++ toLE 4 0 ++ toLE 8 proofAt ++ crcs

def plateDie : DieState := { safDie { resultSeal := some 5, noticed := 2 } with
  fab := { plate := some { epoch := 1, safety := safetyBlock 0 (List.replicate 16 0) } }
  cmd := { hostDie.cmd with seals := [(5, { alloc := true, counter := 3 })] } }

/-- A case of DoubtsResultsAndMergesMove. -/
theorem test_resultSealNotice (h : Obligations.DoubtsResultsAndMergesMove) : ∃ t, exec (.resultSealNotice at0) (upState plateDie) = .next t := by
  refine ⟨_, (h.1 (upState plateDie) at0 none rfl).2.2.2.2.1 5 ?_ ?_ ?_ ?_⟩ <;> decide +kernel

def gateState (i : Nat) (x : SafState) : State := upState { safDie x with ins := { hostDie.ins with resets := [(i, { start := 5, entry := List.replicate 384 0 })] } }

/-- A case of DoubtsResultsAndMergesMove. -/
theorem test_instanceResetComplete (h : Obligations.DoubtsResultsAndMergesMove) : ∃ t, exec (.instanceResetComplete at0 7) (gateState 7 {}) = .next t := by
  refine ⟨_, ((h.1 (gateState 7 {}) at0 none rfl).2.2.2.2.2.1 7 ?_).1 ?_⟩ <;> decide +kernel

/-- A case of DoubtsResultsAndMergesMove. -/
theorem test_instanceResetComplete_0 (h : Obligations.DoubtsResultsAndMergesMove) : ∃ t, exec (.instanceResetComplete at0 0) (gateState 0 {}) = .next t := by
  refine ⟨_, ((h.1 (gateState 0 {}) at0 none rfl).2.2.2.2.2.1 0 ?_).2.1 ?_ ?_⟩ <;> decide +kernel

/-- A case of DoubtsResultsAndMergesMove. -/
theorem test_instanceResetComplete_network (h : Obligations.DoubtsResultsAndMergesMove) : ∃ t, exec (.instanceResetComplete at0 0) (gateState 0 { resetting := true }) = .next t := by
  refine ⟨_, ((h.1 (gateState 0 { resetting := true }) at0 none rfl).2.2.2.2.2.1 0 ?_).2.2 ?_ ?_⟩ <;> decide +kernel

/-- Instance 1 is enabled as well, with no clusters. -/
def flrState : State := upState { safDie {} with ins := { active := memWrite bank 384 [1], staged := [] } }

/-- A case of DoubtsResultsAndMergesMove. -/
theorem test_flrReceive (h : Obligations.DoubtsResultsAndMergesMove) : ∃ t, exec (.flrReceive at0 2) flrState = .next t := by
  refine ⟨_, (h.1 flrState at0 none rfl).2.2.2.2.2.2 2 ?_⟩
  decide +kernel

/-- Cases of DoubtsResultsAndMergesMove: a doubt that is taken ends the network's authority; without one it stays. -/
theorem test_takeDoubts (h : Obligations.DoubtsResultsAndMergesMove) :
    ({ safDie { network := true } with doubts := [(6, 0)] } : DieState).takeDoubts.saf.network = false ∧
    (safDie { network := true }).takeDoubts.saf.network = true := by
  refine ⟨((h.2 { safDie { network := true } with doubts := [(6, 0)] } rfl rfl).1 ?_ ?_).2.1, ((h.2 (safDie { network := true }) rfl rfl).2.1 rfl).1⟩ <;> decide +kernel

/-- A case of ProofPassesAndHeartbeatsRun. -/
theorem test_proofPassStart (h : Obligations.ProofPassesAndHeartbeatsRun) : ∃ t, exec (.proofPassStart at0) (upState plateDie) = .next t := by
  refine ((h (upState plateDie) at0 rfl).1 0 [1, 2, 3] ?_ ?_ ?_ ?_ ?_ ?_ ?_).imp fun _ h => h.1 <;> decide +kernel

def passDie (status : Nat) : DieState :=
  { plateDie with
    saf := { plateDie.saf with proof := some { frame := 0, start := 0, running := some (3, 9) }, replies := [(9, status, true)] } }

/-- A case of ProofPassesAndHeartbeatsRun. -/
theorem test_proofCrcDone (h : Obligations.ProofPassesAndHeartbeatsRun) : ∃ t, exec (.proofCrcDone at0) (upState (passDie 0)) = .next t := by
  refine ⟨_, (((h (upState (passDie 0)) at0 rfl).2.1 _ 3 9 (9, 0, true) rfl rfl ?_).2 ?_ ?_).2 ?_⟩ <;> decide +kernel

/-- A case of ProofPassesAndHeartbeatsRun. -/
theorem test_proofCrcDone_fails (h : Obligations.ProofPassesAndHeartbeatsRun) : ∃ t, exec (.proofCrcDone at0) (upState (passDie Status.faultBounds.code)) = .next t := by
  refine ⟨_, (((h (upState (passDie Status.faultBounds.code)) at0 rfl).2.1 _ 3 9 (9, Status.faultBounds.code, true) rfl rfl ?_).2 ?_ ?_).1 ?_⟩ <;> decide +kernel

/-- A case of ProofPassesAndHeartbeatsRun. -/
theorem test_proofCrcDone_reset (h : Obligations.ProofPassesAndHeartbeatsRun) : ∃ t, exec (.proofCrcDone at0) (upState (passDie Status.refusedInstanceReset.code)) = .next t := by
  refine ⟨_, ((h (upState (passDie Status.refusedInstanceReset.code)) at0 rfl).2.1 _ 3 9 (9, Status.refusedInstanceReset.code, true) rfl rfl ?_).1 ?_⟩ <;> decide +kernel

/-- A case of ProofPassesAndHeartbeatsRun. -/
theorem test_proofWindowExpire (h : Obligations.ProofPassesAndHeartbeatsRun) : ∃ t, exec (.proofWindowExpire at0) (upState (passDie 0)) = .next t := by
  refine ⟨_, (h (upState (passDie 0)) at0 rfl).2.2.1 _ 3 9 rfl rfl rfl ?_⟩
  decide +kernel

/-- A case of ProofPassesAndHeartbeatsRun. -/
theorem test_heartbeat (h : Obligations.ProofPassesAndHeartbeatsRun) : ∃ t, exec (.cmdHeartbeatIncrement at0) hostState = .next t :=
  ⟨_, (h hostState at0 rfl).2.2.2.1 rfl⟩

/-- A case of ProofPassesAndHeartbeatsRun. -/
theorem test_watchdog (h : Obligations.ProofPassesAndHeartbeatsRun) : ∃ t, exec (.cpWatchdogExpire at0) (upState { hostDie with cmd := { ready := true, beat0 := some 500000, beat1 := some 900000 } }) = .next t := by
  refine ⟨_, (h (upState { hostDie with cmd := { ready := true, beat0 := some 500000, beat1 := some 900000 } }) at0 rfl).2.2.2.2.1 ?_ ?_⟩ <;> decide +kernel

/-- A case of ProofPassesAndHeartbeatsRun. -/
theorem test_watchdog_early (h : Obligations.ProofPassesAndHeartbeatsRun) : ∃ t, exec (.cpWatchdogExpire at0) (upState { hostDie with cmd := { ready := true, began := 500001, beat1 := some 900000 } }) = .next t := by
  refine ⟨_, (h (upState { hostDie with cmd := { ready := true, began := 500001, beat1 := some 900000 } }) at0 rfl).2.2.2.2.2.1 ?_ ?_ ?_⟩ <;> decide +kernel

/-- A case of ProofPassesAndHeartbeatsRun. -/
theorem test_cpRestartDone (h : Obligations.ProofPassesAndHeartbeatsRun) : ∃ t, exec (.cpRestartDone at0) (upState { hostDie with cmd := { restart := some 5 } }) = .next t :=
  ⟨_, (h (upState { hostDie with cmd := { restart := some 5 } }) at0 rfl).2.2.2.2.2.2 5 rfl⟩

/-- A safety block of a 16 by 16 grid of 2^4 su cells at the origin, z from 0 to 1000, one zone. -/
def foeBlock : List Byte := List.replicate 5 0 ++ [4] ++ toLE 2 1 ++ toLE 4 0 ++ toLE 4 0 ++ toLE 2 16 ++ toLE 2 16 ++ toLE 4 0 ++ toLE 4 1000

def recordAt (x y z : Nat) : List Byte := toLE 4 x ++ toLE 4 y ++ toLE 4 z ++ List.replicate 12 0

def foeZone : List Byte := [1, 3, 1, 0, 1, 0, 0, 0, 0xFF, 0xFF, 0xFF, 0xFF] ++ List.replicate 20 0 ++ toLE 4 0 ++ toLE 4 0 ++ toLE 4 64 ++ toLE 4 0 ++ toLE 4 0 ++ toLE 4 64

def foeState (f : FoeState) : State := upState { hostDie with foe := { f with block := foeBlock, zones := [(0, foeZone)] } }

def anEnd : SliceEnd := { time := 900000, frame := 1, slice := 2 }

/-- A case of OccupancyEngineCountsAndEvaluates. -/
theorem test_foePoint_inside (h : Obligations.OccupancyEngineCountsAndEvaluates) : ∃ t, exec (.foePointRecord at0) (foeState { queue := [.point (recordAt 255 255 1000)] }) = .next t := by
  refine (((h.1 (foeState { queue := [.point (recordAt 255 255 1000)] }) at0 rfl).1 (recordAt 255 255 1000) [] rfl).1 ?_).imp fun _ h => h.1
  decide +kernel

/-- A case of OccupancyEngineCountsAndEvaluates. -/
theorem test_foePoint_outside (h : Obligations.OccupancyEngineCountsAndEvaluates) : ∃ t, exec (.foePointRecord at0) (foeState { queue := [.point (recordAt 256 255 1000)] }) = .next t := by
  refine (((h.1 (foeState { queue := [.point (recordAt 256 255 1000)] }) at0 rfl).1 (recordAt 256 255 1000) [] rfl).2 ?_).imp fun _ h => h.1
  decide +kernel

/-- A case of OccupancyEngineCountsAndEvaluates. -/
theorem test_foeSliceClose (h : Obligations.OccupancyEngineCountsAndEvaluates) : ∃ t, exec (.foeSliceClose at0) (foeState { queue := [.slice anEnd], plane0 := [(0, 3)] }) = .next t :=
  ((h.1 (foeState { queue := [.slice anEnd], plane0 := [(0, 3)] }) at0 rfl).2.1 anEnd [] rfl rfl).imp fun _ h => h.1

/-- A case of OccupancyEngineCountsAndEvaluates. -/
theorem test_foeEvalDone (h : Obligations.OccupancyEngineCountsAndEvaluates) : ∃ t, exec (.foeEvalDone at0) (foeState { evaluating := some (anEnd, 5), plane1 := [(3, 2)] }) = .next t :=
  ((h.1 (foeState { evaluating := some (anEnd, 5), plane1 := [(3, 2)] }) at0 rfl).2.2 anEnd 5 rfl).imp fun _ h => h.1

/-- Cases of OccupancyEngineCountsAndEvaluates: the zone is entered at its threshold, and left one below it. -/
theorem test_zone (h : Obligations.OccupancyEngineCountsAndEvaluates) : (evalZone foeZone false 1 { occupied := false }).occupied = true ∧
    (evalZone foeZone false 0 { occupied := true }).occupied = false := by
  refine ⟨((h.2 foeZone false 1 { occupied := false }).2.2.2.2 ?_ ?_).mpr ?_, ((h.2 foeZone false 0 { occupied := true }).2.2.2.1 ?_ ?_).mpr ?_⟩
    <;> decide +kernel

/-- A layout (R77): CART points of six bytes, one in a block, one block of six bytes in a payload. -/
def cartLayout : List Byte :=
  toLE 2 1 ++ [1, 3] ++ toLE 2 0 ++ toLE 2 6 ++ toLE 2 1 ++ toLE 2 6 ++ toLE 2 1 ++ List.replicate 18 0
    ++ [0, 0, 5, 9, 0, 0, 0, 0] ++ [2, 0, 6, 9, 0, 0, 0, 0] ++ [4, 0, 7, 9, 0, 0, 0, 0]

/-- The tables: stream 1 with these flags on port 0 and host-fed, target 0, 100 µs of silence. -/
def tables (flags : Nat) : Tab Byte :=
  let s := memWrite [] 64 (List.replicate 18 0 ++ toLE 1 0x11 ++ toLE 1 flags ++ List.replicate 16 0 ++ toLE 4 100 ++ toLE 4 1000)
  let t := memWrite s (2 ^ 20) cartLayout
  memWrite t (3 * 2 ^ 20) (toLE 4 (2 ^ 30) ++ List.replicate 12 0 ++ toLE 4 (2 ^ 30) ++ List.replicate 12 0 ++ toLE 4 (2 ^ 30))

def stpDie (flags : Nat) (x : StpState) : DieState := { hostDie with stp := { x with active := tables flags } }

def stpState (flags : Nat) (x : StpState) : State := upState (stpDie flags x)

def aPacket (n : Nat) : IntakePkt :=
  { stream := 1, port := 0, arrival := 900000, ingress := 900000, payload := (List.range n).map (fun i => (i + 1 : Byte)), pool := 0 }

/-- A case of PacketsPosesAndStreamsAreTaken. -/
theorem test_packet_short (h : Obligations.PacketsPosesAndStreamsAreTaken) : ∃ t, exec (.stipplePacketParse at0) (stpState 0x19 { intake := [.pkt (aPacket 5)] }) = .next t := by
  refine ⟨_, ((h (stpState 0x19 { intake := [.pkt (aPacket 5)] }) at0 0 0 (cmdOf 0 []) rfl).1 (aPacket 5) ?_).1 ?_⟩ <;> decide +kernel

/-- A case of PacketsPosesAndStreamsAreTaken. -/
theorem test_packet_parsed (h : Obligations.PacketsPosesAndStreamsAreTaken) : ∃ t, exec (.stipplePacketParse at0) (stpState 0x19 { intake := [.pkt (aPacket 6)] }) = .next t := by
  refine ⟨_, ((h (stpState 0x19 { intake := [.pkt (aPacket 6)] }) at0 0 0 (cmdOf 0 []) rfl).1 (aPacket 6) ?_).2 ?_⟩ <;> decide +kernel

/-- A case of PacketsPosesAndStreamsAreTaken. -/
theorem test_streamTimeout (h : Obligations.PacketsPosesAndStreamsAreTaken) : ∃ t, exec (.streamTimeout at0 1) (stpState 0x0B {}) = .next t := by
  refine ((h (stpState 0x0B {}) at0 0 1 (cmdOf 0 []) rfl).2.1 ?_ ?_ ?_ ?_).imp fun _ h => h.1 <;> decide +kernel

def poseCmd : List Byte := toLE 2 1 ++ toLE 6 0 ++ List.replicate 72 1

def poseState : State := upState (withCmd (stpDie 0x15 {}) (cmdOf 0x0400 poseCmd))

def posedState : State := upState (withCmd (stpDie 0x15 { poses := [(1, List.replicate 72 1, 1)] }) { cmdOf 0x0400 poseCmd with phase := .running })

def feedCmd (n ref : Nat) : Cmd := cmdOf 0x0401 (toLE 8 0x1000 ++ toLE 4 n ++ toLE 4 ref)

/-- The host's memory holds one packet of stream 1 at 0x1000: a header of 32 bytes and six bytes. -/
def feedDie (D : DieState) : DieState :=
  { (D.setReg B_STP STP_CTRL 1) with mem := { D.mem with host := memWrite [] 0x1000 (toLE 2 1 ++ toLE 2 6 ++ toLE 4 0 ++ toLE 8 900000 ++ List.replicate 16 0 ++ [1, 2, 3, 4, 5, 6]) } }

def feedState (n : Nat) (fs : List HostFeed) : State := upState (withCmd (feedDie (stpDie 0x11 { feeds := fs })) { feedCmd n 0 with phase := if fs.isEmpty then .ready else .running })

def aFeed (n : Nat) : HostFeed := { cmd := 1, addr := 0x1000, left := n, sealRef := 0 }

/-- A case of PacketsPosesAndStreamsAreTaken. -/
theorem test_streamPose (h : Obligations.PacketsPosesAndStreamsAreTaken) : ∃ t, exec (.streamPose at0 1) poseState = .next t := by
  refine ⟨_, (h poseState at0 1 0 (cmdOf 0x0400 poseCmd) rfl).2.2.1 ?_ ?_ ?_ ?_ ?_ ?_⟩ <;> decide +kernel

/-- A case of PacketsPosesAndStreamsAreTaken. -/
theorem test_poseTake (h : Obligations.PacketsPosesAndStreamsAreTaken) : ∃ t, exec (.stipplePoseTake at0) posedState = .next t :=
  ⟨_, (h posedState at0 1 0 (cmdOf 0 []) rfl).2.2.2.1 1 (List.replicate 72 1) 1 [] rfl⟩

/-- A case of PacketsPosesAndStreamsAreTaken. -/
theorem test_hostfeedSubmit (h : Obligations.PacketsPosesAndStreamsAreTaken) : ∃ t, exec (.hostfeedSubmit at0 1) (feedState 65536 []) = .next t := by
  refine ⟨_, (h (feedState 65536 []) at0 1 0 (feedCmd 65536 0) rfl).2.2.2.2.1 ?_ ?_ ?_ ?_⟩ <;> decide +kernel

/-- A case of PacketsPosesAndStreamsAreTaken. -/
theorem test_feed_goes_on (h : Obligations.PacketsPosesAndStreamsAreTaken) : ∃ E X, exec (.hostfeedPacketAdmit at0 1) (feedState 3 [aFeed 3]) = .next ((feedState 3 [aFeed 3]).put at0 E) ∧ E = X := by
  refine ((h (feedState 3 [aFeed 3]) at0 1 0 { feedCmd 3 0 with phase := .running } rfl).2.2.2.2.2 (aFeed 3) rfl ?_).elim fun E e => ⟨E, _, e.1, (e.2.1 true 4160 _ (run_val _ _ _ ?_)).1 ?_⟩ <;> decide +kernel

/-- A case of PacketsPosesAndStreamsAreTaken. -/
theorem test_feed_ends (h : Obligations.PacketsPosesAndStreamsAreTaken) : ∃ E X, exec (.hostfeedPacketAdmit at0 1) (feedState 1 [aFeed 1]) = .next ((feedState 1 [aFeed 1]).put at0 E) ∧ E = X := by
  refine ((h (feedState 1 [aFeed 1]) at0 1 0 { feedCmd 1 0 with phase := .running } rfl).2.2.2.2.2 (aFeed 1) rfl ?_).elim fun E e => ⟨E, _, e.1, (e.2.1 true 4160 _ (run_val _ _ _ ?_)).2 ?_⟩ <;> decide +kernel

def tblDie (sel : Nat) (x : StpState) (service : Option Nat) (ctrl : Nat) : DieState :=
  { ({ stpDie 0x11 x with rol := { sessions := [(0, session 3)] } }.setReg B_STP STP_CTRL ctrl) with
    saf := { running := true, service := service }
    csr := { ({ stpDie 0x11 x with rol := { sessions := [(0, session 3)] } }.setReg B_STP STP_CTRL ctrl).csr with
      sels := [{ req := 0x0A0, block := B_STP, vals := [(STP_TBL_SEL, sel)] }] } }

def tblState (sel : Nat) (x : StpState) (service : Option Nat) (ctrl : Nat) : State := upState (tblDie sel x service ctrl)

/-- A case of TableWindowAndReplayWrites. -/
theorem test_tblRead (h : Obligations.TableWindowAndReplayWrites) : ∃ t, exec (.stpTblRead at0 host 1) (tblState 0x100 {} none 1) = .next t := by
  refine ⟨_, ((h (tblState 0x100 {} none 1) at0 host 1 0 rfl).1 ?_).1 ?_⟩ <;> decide +kernel

/-- A case of TableWindowAndReplayWrites. -/
theorem test_tblRead_staged (h : Obligations.TableWindowAndReplayWrites) : ∃ t, exec (.stpTblRead at0 host 1) (tblState 0x110 {} none 1) = .next t := by
  refine ⟨_, ((h (tblState 0x110 {} none 1) at0 host 1 0 rfl).1 ?_).1 ?_⟩ <;> decide +kernel

/-- A case of TableWindowAndReplayWrites. -/
theorem test_tblWrite (h : Obligations.TableWindowAndReplayWrites) : ∃ t, exec (.stpTblWrite at0 host 2) (tblState 0x110 {} none 1) = .next t := by
  refine ⟨_, ((h (tblState 0x110 {} none 1) at0 host 2 0 rfl).1 ?_).2 ?_⟩ <;> decide +kernel

/-- A case of TableWindowAndReplayWrites. -/
theorem test_tblWrite_active (h : Obligations.TableWindowAndReplayWrites) : ∃ t, exec (.stpTblWrite at0 host 2) (tblState 0x100 {} none 1) = .next t := by
  refine ⟨_, ((h (tblState 0x100 {} none 1) at0 host 2 0 rfl).1 ?_).2 ?_⟩ <;> decide +kernel

/-- A case of TableWindowAndReplayWrites. -/
theorem test_replayWrite (h : Obligations.TableWindowAndReplayWrites) : ∃ t, exec (.stpReplayWrite at0 host 3 7) (tblState 0 {} (some 9000000) 1) = .next t := by
  refine ⟨_, ((h (tblState 0 {} (some 9000000) 1) at0 host 3 7 rfl).2 ?_).1 ?_⟩ <;> decide +kernel

/-- A case of TableWindowAndReplayWrites. -/
theorem test_replayWrite_end (h : Obligations.TableWindowAndReplayWrites) : ∃ t, exec (.stpReplayWrite at0 host 1 7) (tblState 0 { replay := true, replaySlice := 3 } (some 9000000) 3) = .next t := by
  refine ⟨_, ((h (tblState 0 { replay := true, replaySlice := 3 } (some 9000000) 3) at0 host 1 7 rfl).2 ?_).1 ?_⟩ <;> decide +kernel

/-- A case of TableWindowAndReplayWrites. -/
theorem test_frameClose (h : Obligations.TableWindowAndReplayWrites) : ∃ t, exec (.stpFrameClose at0 host 7 8) (tblState 0 { replay := true, replaySlice := 3 } (some 9000000) 3) = .next t := by
  refine ⟨_, ((h (tblState 0 { replay := true, replaySlice := 3 } (some 9000000) 3) at0 host 7 8 rfl).2 ?_).2.1 ?_⟩ <;> decide +kernel

/-- A case of TableWindowAndReplayWrites. -/
theorem test_sliceClose (h : Obligations.TableWindowAndReplayWrites) : ∃ t, exec (.stpSliceClose at0 host 11) (tblState 0 { replay := true, replaySlice := 3 } (some 9000000) 3) = .next t := by
  refine ⟨_, ((h (tblState 0 { replay := true, replaySlice := 3 } (some 9000000) 3) at0 host 11 8 rfl).2 ?_).2.2 ?_⟩ <;> decide +kernel

def turnState : State := upState (stpDie 0x11 { intake := [.pkt (aPacket 6)] })

def late : At := { die := 0, time := 105000000 }

def judgeDie (n : Nat) : DieState := { plateDie with saf := { plateDie.saf with accepted := [0], clean := n, proof := some { frame := 1, start := 0, matched := 15 } } }

def judgeState (n : Nat) : State := upState (judgeDie n)

/-- A case of SlicesAndFramesTurn. -/
theorem test_sliceBoundary (h : Obligations.SlicesAndFramesTurn) : ∃ t, exec (.sliceBoundary late) turnState = .next t := by
  refine ⟨_, (h turnState late rfl).1 ?_ ?_ ?_⟩ <;> decide +kernel

/-- Cases of SlicesAndFramesTurn: a marker waits behind a packet, and passes an empty intake. -/
theorem test_mark (h : Obligations.SlicesAndFramesTurn) :
    (((turnState.dieAt late).mark (.slice anEnd)).stp.intake = [.pkt (aPacket 6), .slice anEnd]) ∧
    ((hostState.dieAt at0).mark (.slice anEnd)) = (hostState.dieAt at0).emitMarker (.slice anEnd) :=
  ⟨congrArg (·.stp.intake) (((h turnState late rfl).2.1 anEnd).1 (aPacket 6) [] rfl), ((h hostState at0 rfl).2.1 anEnd).2 rfl⟩

/-- A case of SlicesAndFramesTurn. -/
theorem test_frameBoundary (h : Obligations.SlicesAndFramesTurn) : ∃ t, exec (.frameBoundary late) turnState = .next t := by
  refine ⟨_, (h turnState late rfl).2.2.1 ?_ ?_ ?_⟩ <;> decide +kernel

/-- A case of SlicesAndFramesTurn. -/
theorem test_frameBoundary_replay (h : Obligations.SlicesAndFramesTurn) : ∃ t, exec (.frameBoundary late) (upState (stpDie 0x11 { replay := true })) = .next t := by
  refine ⟨_, (h (upState (stpDie 0x11 { replay := true })) late rfl).2.2.2.1 (.inl ?_)⟩
  decide +kernel

/-- Cases of SlicesAndFramesTurn: the second clean frame, the first, and one without a result. -/
theorem test_judge_second (h : Obligations.SlicesAndFramesTurn) : (((judgeState 1).dieAt at0).judge (0 + 1)).saf.network = true := by
  refine (((h (judgeState 1) at0 rfl).2.2.2.2.2 0 ?_ ?_ ?_ ?_ ?_ ?_ ?_ ?_ ?_).2.1 ?_ ?_) <;> decide +kernel
theorem test_judge_first (h : Obligations.SlicesAndFramesTurn) : (((judgeState 0).dieAt at0).judge (0 + 1)).saf.clean = 1 := by
  refine ((h (judgeState 0) at0 rfl).2.2.2.2.2 0 ?_ ?_ ?_ ?_ ?_ ?_ ?_ ?_ ?_).1.trans ?_ <;> decide +kernel
theorem test_judge_missing (h : Obligations.SlicesAndFramesTurn) : (((judgeState 1).dieAt at0).judge (4 + 1)).saf.clean = 0 := by
  refine ((h (judgeState 1) at0 rfl).2.2.2.2.1 4 ?_ ?_ ?_ ?_ ?_ ?_).2 <;> decide +kernel

/-- Instance 1 has the same rights as instance 0 in `bank`. -/
def ownBank : Tab Byte :=
  memWrite bank 384 ([1, 15, 0, 0, 0, 4, 64, 0, 100, 0, 200, 0, 0, 4, 0, 0, 0, 8, 0, 0, 64, 0, 128, 0] ++ List.replicate 44 0
    ++ [64, 0, 0, 0, 0, 16, 0, 0, 1, 3])

/-- A comb descriptor (R113): edge 2^4, region 2^6, 1,024 buckets, one channel, 8 voxels, 8 points, owner 1, a point plane. -/
def combDesc1 : List Byte :=
  [4, 6, 10, 1] ++ toLE 4 8 ++ toLE 4 8 ++ toLE 12 0 ++ toLE 8 1 ++ [0x17] ++ toLE 15 0 ++ [3] ++ toLE 15 0 ++ toLE 33 0 ++ [1] ++ toLE 30 0

def combPlate1 : Plate := { epoch := 1, combs := [(0, combDesc1)] }

def combBase : Nat := 0x0040_0010_0000

def aBuf (ph : CombPhase) : CombBuf := { phase := ph, base := combBase, gen := 5, desc := combDesc1 }

/-- A die whose target 0 has a buffer in a phase, with this queue and these jobs. -/
def combDie (T : CombTarget) (q : List CombItem) (js : List CombJob) : DieState :=
  { hostDie with ins := { active := ownBank, staged := ownBank }, fab := { plate := some combPlate1 }
                 comb := { queue := q, targets := [(0, T)], jobs := js } }

def combState (T : CombTarget) (q : List CombItem) (js : List CombJob) : State := upState (combDie T q js)

def combCmd (op : Nat) (ps : List Byte) : Cmd := { cmdOf op ps with inst := 1 }

def combCmdState (T : CombTarget) (op : Nat) (ps : List Byte) : State := upState (withCmd (combDie T [] []) (combCmd op ps))

def building : CombTarget := { buf1 := aBuf .building, building := some 1 }

def inPhase (ph : CombPhase) : CombTarget := { buf1 := aBuf ph, renewed := false }

/-- A case of CombsAreBuiltClosedAndPublished. -/
theorem test_combInsert (h : Obligations.CombsAreBuiltClosedAndPublished) : ∃ t, exec (.combInsertRecord at0) (combState building [.point 0 (recordAt 5 6 7)] []) = .next t :=
  ⟨_, ((h (combState building [.point 0 (recordAt 5 6 7)] []) at0 0 [] (cmdOf 0 []) rfl).1 0 (recordAt 5 6 7) [] rfl).1 1 rfl⟩

/-- A case of CombsAreBuiltClosedAndPublished. -/
theorem test_combMissed (h : Obligations.CombsAreBuiltClosedAndPublished) : ∃ t, exec (.combInsertRecord at0) (combState {} [.point 0 (recordAt 5 6 7)] []) = .next t :=
  ⟨_, ((h (combState {} [.point 0 (recordAt 5 6 7)] []) at0 0 [] (cmdOf 0 []) rfl).1 0 (recordAt 5 6 7) [] rfl).2 rfl⟩

/-- A case of CombsAreBuiltClosedAndPublished. -/
theorem test_combFrame (h : Obligations.CombsAreBuiltClosedAndPublished) : ∃ t, exec (.combFrameCloseMarker at0) (combState building [.frame { num := 4, partFrame := false, replay := false }] []) = .next t :=
  ((h (combState building [.frame { num := 4, partFrame := false, replay := false }] []) at0 0 [] (cmdOf 0 []) rfl).2.1 _ [] rfl).imp fun _ h => h.1

/-- A case of CombsAreBuiltClosedAndPublished. -/
theorem test_combClear (h : Obligations.CombsAreBuiltClosedAndPublished) : ∃ t, exec (.combClearDone at0) (combState (inPhase .clearing) [] [.clear 0 1]) = .next t := by
  refine ⟨_, (h (combState (inPhase .clearing) [] [.clear 0 1]) at0 0 [] (cmdOf 0 []) rfl).2.2.1 0 1 [] rfl ?_ ?_ ?_⟩ <;> decide +kernel

/-- A case of CombsAreBuiltClosedAndPublished. -/
theorem test_combScatter (h : Obligations.CombsAreBuiltClosedAndPublished) : ∃ t, exec (.combScatterDone at0) (combState (inPhase .sorting) [] [.scatter 0 1]) = .next t :=
  ⟨_, (h (combState (inPhase .sorting) [] [.scatter 0 1]) at0 0 [] (cmdOf 0 []) rfl).2.2.2.1 0 1 [] rfl rfl⟩

theorem comb_access (D : DieState) (w : Bool) (hi : D.ins = { active := ownBank, staged := ownBank }) (hg : D.mem.grans = []) :
    Accessible D 1 (2 ^ 32) w := by
  have hk : ∀ w : Bool, (ownRegion ownBank 1 1 0x0040_0000_0000 (2 ^ 32) (if w then 1 else 0)).isSome = true := by decide +kernel
  have he : insEnabled ownBank 1 = true := by decide +kernel
  refine ⟨?_, ?_, ?_, ?_, hg, by decide⟩
  · unfold DieState.gateClosed
    rw [hi]
    rfl
  · rw [hi]
  · rw [hi]
    dsimp only
    exact he
  · rw [hi]
    dsimp only
    exact hk w

theorem memRead_empty (a n : Nat) : memRead [] a n = List.replicate n 0 := by
  induction n generalizing a with
  | zero => rfl
  | succ n ih => simp [memRead, ih, memGet, tabGet, tabGetF, List.replicate_succ]

/-- Reads of eight bytes of a comb, at multiples of eight, where memory is all zero. -/
theorem zero_reads {β : Type} (b : CombBuf) (g : List Byte → β) (at_ k : Nat) (hd : cdOwner b.desc = 1) (hb : b.base = combBase)
    (ha : at_ % 32 = 0) (hk : at_ + 8 * k ≤ 2 ^ 22) (D E : DieState) (h : Accessible D 1 (2 ^ 32) false) (hm : D.mem.bytes = [])
    (hE : ∃ c, E = { D with csr := c }) :
    ∃ F, runM ((List.range k).mapM (fun j => do let x ← combRead b (at_ + 8 * j) 8; pure (g x))) E
      = (.ok (List.replicate k (g (List.replicate 8 0))), F) ∧ ∃ c, F = { D with csr := c } := by
  have hr : Accessible D (combCtx (cdOwner b.desc)).inst (2 ^ 32) false := by rw [hd]; exact h
  have hc : combBase = 0x0040_0010_0000 := rfl
  have := runM_mapM_inv (fun E => ∃ c, E = { D with csr := c }) (fun j => do let x ← combRead b (at_ + 8 * j) 8; pure (g x))
    (fun _ => g (List.replicate 8 0)) (List.range k)
    (fun j hj F hF => by
      rw [List.mem_range] at hj
      obtain ⟨G, hG, hQ⟩ := hr.read (b.base + (at_ + 8 * j)) 8 (by decide) (by omega) (by omega) (by omega) F hF
      rw [hm, memRead_empty] at hG
      exact ⟨G, runM_bind_ok _ _ _ _ _ hG, hQ⟩) E hE
  rwa [List.map_const', List.length_range] at this

/-- A partition table of zeros fits a comb without voxels, and no other. -/
theorem sortOk_zero (n : Nat) (pairs : List (Nat × Nat)) (digits : List Nat) (hd : digits.length = pairs.length) :
    sortOk pairs (List.replicate n (0, 0)) digits = pairs.isEmpty := by
  have hz : ∀ d, ((List.replicate n ((0, 0) : Nat × Nat)).getD d (0, 0)).2 = 0 := by
    intro d
    rw [List.getD_eq_getElem?_getD, List.getElem?_replicate]
    split <;> rfl
  have hp : pairDigits (List.replicate n (0, 0)) = [] := by
    unfold pairDigits
    rw [List.flatMap_eq_nil_iff]
    intro d _
    rw [hz]
    rfl
  cases pairs with
  | nil => simp [sortOk, hp, List.length_eq_zero_iff.mp hd]
  | cons p ps => simp [sortOk, hp]

def publishState (n : Nat) : State := combCmdState { buf1 := { aBuf .closed with voxels := n, lay := descLayout combDesc1 } } 0x0421 [0, 1, 5]

theorem publish_reads (n : Nat) (hn : n ≤ 1) : ∃ D1 D2 D3,
    let c := combCmd 0x0421 [0, 1, 5]
    let b := ((publishState n).dieAt at0).combBuf (c.p 0 1) (c.p 1 1)
    runM (readPairs b) ((publishState n).dieAt at0) = (.ok (List.replicate n (0, 0)), D1) ∧
    runM (readParts b) D1 = (.ok (List.replicate 65536 (0, 0)), D2) ∧
    runM (buildDigits b) D2 = (.ok (List.replicate n (partDigit 6 0)), D3) := by
  have hl : (descLayout combDesc1).sort % 32 = 0 ∧ (descLayout combDesc1).sort ≤ 2 ^ 20 := by decide +kernel
  have hb : ∀ n, n ≤ 1 → ((publishState n).dieAt at0).combBuf ((combCmd 0x0421 [0, 1, 5]).p 0 1) ((combCmd 0x0421 [0, 1, 5]).p 1 1)
      = { aBuf .closed with voxels := n, lay := descLayout combDesc1 } := by decide +kernel
  have ha := comb_access ((publishState n).dieAt at0) false rfl rfl
  obtain ⟨D1, h1, p1⟩ := zero_reads { aBuf .closed with voxels := n, lay := descLayout combDesc1 } (fun x => (field x 0 4, field x 4 4))
    ((descLayout combDesc1).sort + 524288) n rfl rfl (by omega) (by omega) _ _ ha rfl ⟨_, rfl⟩
  obtain ⟨D2, h2, p2⟩ := zero_reads { aBuf .closed with voxels := n, lay := descLayout combDesc1 } (fun x => (field x 0 4, field x 4 4))
    (descLayout combDesc1).sort 65536 rfl rfl hl.1 (by omega) _ _ ha rfl p1
  obtain ⟨D3, h3, _⟩ := zero_reads { aBuf .closed with voxels := n, lay := descLayout combDesc1 } (fun x => partDigit 6 (leNat x))
    64 n rfl rfl (by decide) (by omega) _ _ ha rfl p2
  refine ⟨D1, D2, D3, ?_⟩
  dsimp only
  rw [hb n hn]
  exact ⟨h1, h2, h3⟩

/-- A case of CombsAreBuiltClosedAndPublished: a comb without voxels. -/
theorem test_combPublish (h : Obligations.CombsAreBuiltClosedAndPublished) :
    ∃ E X, exec (.combPublish at0 1) (publishState 0) = .next ((publishState 0).put at0 E) ∧ E = X := by
  obtain ⟨D1, D2, D3, h1, h2, h3⟩ := publish_reads 0 (by decide)
  obtain ⟨E, he, _, hx⟩ := (h (publishState 0) at0 1 [] (combCmd 0x0421 [0, 1, 5]) rfl).2.2.2.2.2.1.2.1 (by decide +kernel)
  exact ⟨E, _, he, (hx _ _ _ D1 D2 D3 (by decide +kernel) h1 h2 h3).1 (sortOk_zero _ _ _ rfl)⟩

/-- A case of CombsAreBuiltClosedAndPublished: a comb whose partition table leaves out its voxel. -/
theorem test_combPublish_refused (h : Obligations.CombsAreBuiltClosedAndPublished) :
    ∃ E X, exec (.combPublish at0 1) (publishState 1) = .next ((publishState 1).put at0 E) ∧ E = X := by
  obtain ⟨D1, D2, D3, h1, h2, h3⟩ := publish_reads 1 (by decide)
  obtain ⟨E, he, _, hx⟩ := (h (publishState 1) at0 1 [] (combCmd 0x0421 [0, 1, 5]) rfl).2.2.2.2.2.1.2.1 (by decide +kernel)
  exact ⟨E, _, he, (hx _ _ _ D1 D2 D3 (by decide +kernel) h1 h2 h3).2 (sortOk_zero _ _ _ rfl)⟩

/-- A case of CombsAreBuiltClosedAndPublished. -/
theorem test_combPublishDone (h : Obligations.CombsAreBuiltClosedAndPublished) : ∃ t, exec (.combPublishDone at0) (upState (withCmd (combDie (inPhase .publishing) [] [.publish 0 1 1]) { combCmd 0x0421 [0, 1, 5] with phase := .running })) = .next t :=
  ⟨_, (h (upState (withCmd (combDie (inPhase .publishing) [] [.publish 0 1 1]) { combCmd 0x0421 [0, 1, 5] with phase := .running })) at0 0 [] (cmdOf 0 []) rfl).2.2.2.2.1 0 1 1 [] rfl rfl⟩

/-- A case of CombsAreBuiltClosedAndPublished. -/
theorem test_combStatus (h : Obligations.CombsAreBuiltClosedAndPublished) : ∃ t, exec (.combStatus at0 1) (combCmdState (inPhase .published) 0x0425 [0]) = .next t := by
  refine ⟨_, (h (combCmdState (inPhase .published) 0x0425 [0]) at0 1 [] (combCmd 0x0425 [0]) rfl).2.2.2.2.2.1.1 ?_ ?_⟩ <;> decide +kernel

/-- A case of CombsAreBuiltClosedAndPublished. -/
theorem test_combRelease (h : Obligations.CombsAreBuiltClosedAndPublished) : ∃ t, exec (.combRelease at0 1) (combCmdState (inPhase .published) 0x0422 [0, 1, 5]) = .next t := by
  refine ⟨_, (h (combCmdState (inPhase .published) 0x0422 [0, 1, 5]) at0 1 [] (combCmd 0x0422 [0, 1, 5]) rfl).2.2.2.2.2.1.2.2.1 ?_ ?_⟩ <;> decide +kernel

/-- A case of CombsAreBuiltClosedAndPublished. -/
theorem test_combDownsample (h : Obligations.CombsAreBuiltClosedAndPublished) : ∃ t, exec (.combDownsample at0 1) (combCmdState (inPhase .published) 0x0423 ([0, 1, 5] ++ toLE 29 0)) = .next t := by
  refine ⟨_, (h (combCmdState (inPhase .published) 0x0423 ([0, 1, 5] ++ toLE 29 0)) at0 1 [] (combCmd 0x0423 ([0, 1, 5] ++ toLE 29 0)) rfl).2.2.2.2.2.1.2.2.2.1 ?_ ?_ (.inl ?_) ?_ (.inr ?_)⟩ <;> decide +kernel

/-- A case of CombsAreBuiltClosedAndPublished. -/
theorem test_combTrilinear (h : Obligations.CombsAreBuiltClosedAndPublished) : ∃ t, exec (.combTrilinear at0 1) (combCmdState { buf1 := { aBuf .published with points := 8 } } 0x0424 ([0, 1, 5, 10] ++ toLE 4 6 ++ toLE 4 2 ++ toLE 12 0)) = .next t := by
  refine ⟨_, (h (combCmdState { buf1 := { aBuf .published with points := 8 } } 0x0424 ([0, 1, 5, 10] ++ toLE 4 6 ++ toLE 4 2 ++ toLE 12 0)) at0 1 [] (combCmd 0x0424 ([0, 1, 5, 10] ++ toLE 4 6 ++ toLE 4 2 ++ toLE 12 0)) rfl).2.2.2.2.2.1.2.2.2.2.1 ?_ ?_ (.inl ?_) ?_ ?_ ?_⟩ <;> decide +kernel

theorem inOwn_none (rs : List Region) (v f a : Nat) : inOwn rs v f a 0 = true := by
  cases f <;> simp [inOwn]

theorem inOwn_one (r : Region) (rs : List Region) (v A N a n f : Nat) (hr : r.covers v A N = true) (h0 : A ≤ a) (hn : n ≠ 0)
    (h1 : a + n ≤ A + N) : inOwn (r :: rs) v (f + 1) a n = true := by
  have h : (r :: rs).find? (fun r => r.covers v a 1) = some r := by
    rw [List.find?_cons, covers_within r v A N a 1 hr h0 (by omega)]
  have hs : A + N ≤ r.base + r.size := by
    simp only [Region.covers, Bool.and_eq_true, decide_eq_true_eq] at hr
    exact hr.2
  rw [inOwn, h]
  dsimp only
  rw [show n - (r.base + r.size - a) = 0 by omega, inOwn_none, Bool.or_true]

theorem inRegions_own (D : DieState) (a n : Nat) (hi : D.ins = { active := ownBank, staged := ownBank }) (hn : n ≠ 0)
    (h0 : 0x0040_0000_0000 ≤ a) (h1 : a + n ≤ 0x0040_0000_0000 + 2 ^ 32) : D.inRegions 1 a n = true := by
  have p0 := place_view0 a h0 (by omega)
  have p1 := place_view0 (a + (n - 1)) (by omega) (by omega)
  have ho : inOwn (insRegions ownBank 1) 1 17 a n = true :=
    inOwn_one _ _ 1 0x0040_0000_0000 (2 ^ 32) a n 16 (by decide +kernel) h0 hn h1
  simp [DieState.inRegions, stackRange, viewOf, p0, p1, hi, ho]

theorem run_okField (b : Bool) (o : Nat) (D : DieState) (h : b = true) : runM (okField b o) D = (.ok (), D) := by rw [h]; rfl

theorem run_guardS (b : Bool) (st : Status) (r : Nat) (D : DieState) (h : b = true) : runM (guardS b st r) D = (.ok (), D) := by
  rw [h]; rfl

def buffersCmd : Cmd := combCmd 0x0420 (toLE 4 0 ++ toLE 8 combBase ++ toLE 8 (combBase + 2 ^ 20) ++ toLE 16 0 ++ [2] ++ toLE 11 0)

def buffersState : State := upState (withCmd (combDie {} [] []) buffersCmd)

theorem buffers_run : ∃ d D', runM (combBuffers [] buffersCmd) (buffersState.dieAt at0) = (.ok d, D') := by
  have hs : (descLayout (DieState.combPlate (buffersState.dieAt at0) 0)).size ≤ 2 ^ 20 := by decide +kernel
  have hr : ∀ a, 0x0040_0000_0000 ≤ a → a + 2 ^ 20 ≤ 0x0040_0000_0000 + 2 ^ 32 → DieState.inRegions (buffersState.dieAt at0) 1 a
      (descLayout (DieState.combPlate (buffersState.dieAt at0) 0)).size = true := by
    intro a h0 h1
    exact inRegions_own _ a _ rfl (by decide +kernel) h0 (by have := hs; omega)
  have hn : runM (namedTarget buffersCmd) (buffersState.dieAt at0) = (.ok 0, buffersState.dieAt at0) := by
    rw [run_val _ _ 0 (by decide +kernel)]
    exact Prod.ext rfl (by decide +kernel)
  unfold combBuffers
  rw [runM_bind_ok _ _ _ _ _ hn, runM_bind_ok _ _ _ _ _ (runM_get _)]
  dsimp only
  rw [runM_bind_ok _ _ _ _ _ (run_okField _ _ _ (by decide +kernel)), runM_bind_ok _ _ _ _ _ (run_okField _ _ _ (by decide +kernel)),
    runM_bind_ok _ _ _ _ _ (run_okField _ _ _ (by decide +kernel)), runM_bind_ok _ _ _ _ _ (run_okField _ _ _ (by decide +kernel)),
    runM_bind_ok _ _ _ _ _ (run_okField _ _ _ (by decide +kernel)), runM_bind_ok _ _ _ _ _ (run_okField _ _ _ (by decide +kernel)),
    runM_bind_ok _ _ _ _ _ (run_guardS _ _ _ _ (by decide +kernel))]
  have hf : ∀ k ∈ List.range 2, 0x0040_0000_0000 ≤ field (padTo 44 (buffersCmd.params.drop 4)) (8 * k) 8 ∧
      field (padTo 44 (buffersCmd.params.drop 4)) (8 * k) 8 + 2 ^ 20 ≤ 0x0040_0000_0000 + 2 ^ 32 := by decide +kernel
  have ha : (List.range (field (padTo 44 (buffersCmd.params.drop 4)) 32 1)).all (fun k => DieState.inRegions (buffersState.dieAt at0) buffersCmd.inst
      (field (padTo 44 (buffersCmd.params.drop 4)) (8 * k) 8) (descLayout (DieState.combPlate (buffersState.dieAt at0) 0)).size) = true := by
    rw [show field (padTo 44 (buffersCmd.params.drop 4)) 32 1 = 2 by decide +kernel, List.all_eq_true]
    exact fun k hk => hr _ (hf k hk).1 (hf k hk).2
  rw [runM_bind_ok _ _ _ _ _ (run_guardS _ _ _ _ ha)]
  exact ⟨_, _, rfl⟩

/-- A case of CombsAreBuiltClosedAndPublished: all clauses of a COMB_BUFFERS that passes. -/
theorem test_combBuffers (h : Obligations.CombsAreBuiltClosedAndPublished) : ∃ E, exec (.combBuffers at0 1 []) buffersState = .next (buffersState.put at0 E) ∧
    ∃ D' : DieState, (D'.combTarget 0).building = none := by
  obtain ⟨d, D', hD⟩ := buffers_run
  obtain ⟨E, he, _, hx⟩ := (h buffersState at0 1 [] buffersCmd rfl).2.2.2.2.2.1.2.2.2.2.2 (by decide +kernel)
  exact ⟨E, he, D', (hx d D' hD).2.2.2.1⟩

def jobCmd : Cmd := { combCmd 0x0423 ([0, 1, 5] ++ toLE 9 0 ++ toLE 8 (combBase + 2 ^ 22) ++ toLE 8 (2 ^ 20) ++ toLE 4 0) with phase := .running }

/-- A case of CombsAreBuiltClosedAndPublished. -/
theorem test_combJob (h : Obligations.CombsAreBuiltClosedAndPublished) : ∃ t, exec (.combJobComplete at0) (upState (withCmd (combDie (inPhase .published) [] [.build 0 1]) jobCmd)) = .next t :=
  ⟨_, (h (upState (withCmd (combDie (inPhase .published) [] [.build 0 1]) jobCmd)) at0 0 [] (cmdOf 0 []) rfl).2.2.2.2.2.2 0 1 [] jobCmd rfl rfl⟩

/-- Table 0 (R336): 64 rows of four INT8 elements, owner 1, one granule of 2^6 rows held by this die, version 7, drain 10 ms. -/
def tableDesc : List Byte :=
  toLE 4 0 ++ toLE 2 4 ++ [0, 1] ++ toLE 8 64 ++ toLE 8 0 ++ [6, 1, 0, 0] ++ toLE 4 0 ++ toLE 4 10 ++ toLE 4 1 ++ toLE 8 0
    ++ toLE 2 1 ++ toLE 14 0 ++ toLE 4 7 ++ toLE 60 0

def tableShards : List Byte := toLE 2 0x8000 ++ toLE 6 0

def tablePlate : Plate := { epoch := 1, tables := [(0, tableDesc)], shards := [(0, tableShards)], serving := [(0, [0, 0])] }

def aSlot (st : Nat) : TabSlot :=
  { state := st, version := 7, base := combBase, granules := 1, desc := tableDesc, shards := tableShards, serving := [0, 0], load := if st = 1 then some 1 else none }

def tableDie (f : FgrState) : DieState :=
  { hostDie with ins := { active := ownBank, staged := ownBank }, fab := { plate := some tablePlate }, fgr := f }

def tableState (f : FgrState) : State := upState (tableDie f)

def oneSlot (st : Nat) : FgrState := { tables := [(0, { a := aSlot st })] }

def tableCmd (f : FgrState) (op : Nat) (ps : List Byte) : State := upState (withCmd (tableDie f) (combCmd op ps))

def loadParams : List Byte := toLE 4 0 ++ toLE 4 7 ++ toLE 8 combBase ++ toLE 4 1 ++ toLE 24 0

def lookupParams : List Byte := [0, 0, 1, 1] ++ toLE 4 1 ++ [1, 1, 0, 0] ++ toLE 4 0 ++ toLE 8 combBase ++ toLE 16 0 ++ toLE 8 (combBase + 4096) ++ toLE 4 64 ++ toLE 12 0

def aBatch : Batch := { cmd := 1, inst := 1, desc := lookupParams, table := some (0, false), version := 7, ready := [0] }

/-- A case of TablesLoadLookUpAndDrain. -/
theorem test_tableLoad (h : Obligations.TablesLoadLookUpAndDrain) : ∃ E X, exec (.tableLoad at0 1 []) (tableCmd {} 0x0300 loadParams) = .next ((tableCmd {} 0x0300 loadParams).put at0 E) ∧ E = X := by
  refine ((h.1 (tableCmd {} 0x0300 loadParams) at0 1 [] (combCmd 0x0300 loadParams) rfl).1 ?_).elim fun E e => ⟨E, _, e.1, (e.2.1 _ _ (run_val _ _ none ?_)).1⟩ <;> decide +kernel

/-- A case of TablesLoadLookUpAndDrain. -/
theorem test_tableLoad_fault (h : Obligations.TablesLoadLookUpAndDrain) : ∃ E X, exec (.tableLoad at0 1 []) (tableCmd {} 0x0300 (toLE 4 1 ++ toLE 4 7 ++ toLE 8 combBase ++ toLE 4 1 ++ toLE 24 0)) = .next ((tableCmd {} 0x0300 (toLE 4 1 ++ toLE 4 7 ++ toLE 8 combBase ++ toLE 4 1 ++ toLE 24 0)).put at0 E) ∧ E = X := by
  refine ((h.1 (tableCmd {} 0x0300 (toLE 4 1 ++ toLE 4 7 ++ toLE 8 combBase ++ toLE 4 1 ++ toLE 24 0)) at0 1 [] (combCmd 0x0300 (toLE 4 1 ++ toLE 4 7 ++ toLE 8 combBase ++ toLE 4 1 ++ toLE 24 0)) rfl).1 ?_).elim fun E e => ⟨E, _, e.1, e.2.2.1 _ _ (run_err _ _ ?_) ?_⟩ <;> decide +kernel

/-- A case of TablesLoadLookUpAndDrain. -/
theorem test_tableLoadDone (h : Obligations.TablesLoadLookUpAndDrain) : ∃ t, exec (.tableLoadDone at0 0 false []) (tableCmd (oneSlot 1) 0x0300 loadParams) = .next t := by
  refine ⟨_, (h.1 (tableCmd (oneSlot 1) 0x0300 loadParams) at0 0 [] (cmdOf 0 []) rfl).2.1 0 false [] ?_⟩
  decide +kernel

/-- A case of TablesLoadLookUpAndDrain: the end of a load. -/
theorem test_loadDone (h : Obligations.TablesLoadLookUpAndDrain) : ∃ X, ((tableCmd (oneSlot 1) 0x0300 loadParams).dieAt at0).loadDone 0 false [] = X :=
  ⟨_, h.2 ((tableCmd (oneSlot 1) 0x0300 loadParams).dieAt at0) 0 false [] 1 rfl rfl⟩

/-- A case of TablesLoadLookUpAndDrain. -/
theorem test_tableUnload (h : Obligations.TablesLoadLookUpAndDrain) : ∃ t, exec (.tableUnload at0 1) (tableCmd (oneSlot 2) 0x0301 (toLE 4 0)) = .next t := by
  refine ⟨_, (h.1 (tableCmd (oneSlot 2) 0x0301 (toLE 4 0)) at0 1 [] (combCmd 0x0301 (toLE 4 0)) rfl).2.2.1 ?_ ?_ ?_ ?_ ?_⟩ <;> decide +kernel

/-- A case of TablesLoadLookUpAndDrain. -/
theorem test_tableLookup_waits (h : Obligations.TablesLoadLookUpAndDrain) : ∃ t, exec (.tableLookup at0 1 []) (upState { tableDie (oneSlot 3) with fab := { (tableDie (oneSlot 3)).fab with inbox := [{ kind := pkPoolReq, srcDie := 1 }] } }) = .next t := by
  refine ⟨_, (h.1 (upState { tableDie (oneSlot 3) with fab := { (tableDie (oneSlot 3)).fab with inbox := [{ kind := pkPoolReq, srcDie := 1 }] } }) at0 1 [] (cmdOf 0 []) rfl).2.2.2.1 ?_⟩
  decide +kernel

/-- A case of TablesLoadLookUpAndDrain: a batch that is accepted. -/
theorem test_tableLookup (h : Obligations.TablesLoadLookUpAndDrain) : ∃ (E : DieState) (B : Batch), exec (.tableLookup at0 1 []) (tableCmd (oneSlot 3) 0x0302 lookupParams) = .next ((tableCmd (oneSlot 3) 0x0302 lookupParams).put at0 (E.goOn 1)) ∧ B.bags = [] := by
  refine ((h.1 (tableCmd (oneSlot 3) 0x0302 lookupParams) at0 1 [] (combCmd 0x0302 lookupParams) rfl).2.2.2.2.1 ?_ ?_).elim fun E e =>
    (e.2.2 _ _ (run_val _ _ none ?_)).2.elim fun B b => ⟨E, B, e.1, b.2.2.2⟩
  all_goals decide +kernel

/-- A case of TablesLoadLookUpAndDrain. -/
theorem test_batch_bad (h : Obligations.TablesLoadLookUpAndDrain) : ∃ t, exec (.lookupBatchComplete at0 1) (tableCmd { oneSlot 3 with batches := [{ aBatch with bad := some .faultTimeout }] } 0x0302 lookupParams) = .next t :=
  ⟨_, ((h.1 (tableCmd { oneSlot 3 with batches := [{ aBatch with bad := some .faultTimeout }] } 0x0302 lookupParams) at0 0 [] (cmdOf 0 []) rfl).2.2.2.2.2.1 1 { aBatch with bad := some .faultTimeout } rfl).1 _ rfl⟩

/-- A case of TablesLoadLookUpAndDrain. -/
theorem test_batch_not_ready (h : Obligations.TablesLoadLookUpAndDrain) : ∃ t, exec (.lookupBatchComplete at0 1) (tableCmd { oneSlot 3 with batches := [{ aBatch with ready := [] }] } 0x0302 lookupParams) = .next t := by
  refine ⟨_, ((h.1 (tableCmd { oneSlot 3 with batches := [{ aBatch with ready := [] }] } 0x0302 lookupParams) at0 0 [] (cmdOf 0 []) rfl).2.2.2.2.2.1 1 { aBatch with ready := [] } rfl).2.1 rfl (.inl ?_)⟩
  decide +kernel

/-- A case of TablesLoadLookUpAndDrain. -/
theorem test_batch_complete (h : Obligations.TablesLoadLookUpAndDrain) : ∃ t, exec (.lookupBatchComplete at0 1) (tableCmd { oneSlot 3 with batches := [aBatch] } 0x0302 lookupParams) = .next t :=
  ⟨_, ((h.1 (tableCmd { oneSlot 3 with batches := [aBatch] } 0x0302 lookupParams) at0 0 [] (cmdOf 0 []) rfl).2.2.2.2.2.1 1 aBatch rfl).2.2 rfl rfl rfl⟩

/-- A case of TablesLoadLookUpAndDrain: a prefetch that passes. -/
theorem test_tablePrefetch (h : Obligations.TablesLoadLookUpAndDrain) : ∃ (E D' : DieState), exec (.tablePrefetch at0 1 []) (tableCmd (oneSlot 3) 0x0303 (toLE 4 0 ++ toLE 4 1 ++ toLE 8 0)) = .next (((tableCmd (oneSlot 3) 0x0303 (toLE 4 0 ++ toLE 4 1 ++ toLE 8 0)).put at0 E).passPostings at0.die) ∧
    runM (tablePrefetch [] (combCmd 0x0303 (toLE 4 0 ++ toLE 4 1 ++ toLE 8 0))) ((tableCmd (oneSlot 3) 0x0303 (toLE 4 0 ++ toLE 4 1 ++ toLE 8 0)).dieAt at0) = (.ok [], D') := by
  refine ((h.1 (tableCmd (oneSlot 3) 0x0303 (toLE 4 0 ++ toLE 4 1 ++ toLE 8 0)) at0 1 [] (combCmd 0x0303 (toLE 4 0 ++ toLE 4 1 ++ toLE 8 0)) rfl).2.2.2.2.2.2.1 ?_ ?_ ?_).elim fun E e => ⟨E, _, e.1, run_val _ _ [] ?_⟩
  all_goals decide +kernel

/-- A case of TablesLoadLookUpAndDrain. -/
theorem test_tablePrefetch_waits (h : Obligations.TablesLoadLookUpAndDrain) : ∃ t, exec (.tablePrefetch at0 1 []) (upState { tableDie (oneSlot 3) with fab := { (tableDie (oneSlot 3)).fab with inbox := [{ kind := pkPoolReq, srcDie := 1 }] } }) = .next t := by
  refine ⟨_, (h.1 (upState { tableDie (oneSlot 3) with fab := { (tableDie (oneSlot 3)).fab with inbox := [{ kind := pkPoolReq, srcDie := 1 }] } }) at0 1 [] (cmdOf 0 []) rfl).2.2.2.2.2.2.2.1 (.inl ?_)⟩
  decide +kernel

/-- A case of TablesLoadLookUpAndDrain. -/
theorem test_tableStatus (h : Obligations.TablesLoadLookUpAndDrain) : ∃ t, exec (.tableStatus at0 1) (tableCmd (oneSlot 3) 0x0305 (toLE 4 0)) = .next t := by
  refine ⟨_, (h.1 (tableCmd (oneSlot 3) 0x0305 (toLE 4 0)) at0 1 [] (combCmd 0x0305 (toLE 4 0)) rfl).2.2.2.2.2.2.2.2.1 ?_ ?_⟩ <;> decide +kernel

/-- A case of TablesLoadLookUpAndDrain. -/
theorem test_drainTimeout (h : Obligations.TablesLoadLookUpAndDrain) : ∃ t, exec (.drainTimeout { at0 with time := 10000000 } 0) (tableState (oneSlot 4)) = .next t := by
  refine ⟨_, (h.1 (tableState (oneSlot 4)) { at0 with time := 10000000 } 0 [] (cmdOf 0 []) rfl).2.2.2.2.2.2.2.2.2.1 0 false ?_ ?_⟩ <;> decide +kernel

def drainPkt : Packet := { kind := pkDrain, vc := 3, srcDie := 1, inst := 1, epoch := 1, length := 16, body := toLE 4 0 ++ toLE 4 7 ++ toLE 8 0 }

def drainState : State := upState { tableDie (oneSlot 4) with fab := { (tableDie (oneSlot 4)).fab with inbox := [drainPkt] } }

/-- A case of TablesLoadLookUpAndDrain. -/
theorem test_drainNotice (h : Obligations.TablesLoadLookUpAndDrain) : ∃ t, exec (.drainNoticeReceive at0) drainState = .next t := by
  refine ⟨_, (h.1 drainState at0 0 [] (cmdOf 0 []) rfl).2.2.2.2.2.2.2.2.2.2 drainPkt _ false rfl ?_⟩
  decide +kernel

/-- A request of die 1 of this package, and the die whose inbox holds a packet or whose record of tags is given. -/
def aRequest (k : Nat) : Packet := { kind := k, srcDie := 1, inst := 1, epoch := 1, tag := 3, tagGen := 2, addr := combBase, length := 32, body := List.replicate 32 7 }

def inboxState (p : Packet) (es : List TagEntry) : State :=
  upState { tableDie (oneSlot 3) with fab := { (tableDie (oneSlot 3)).fab with inbox := [p], tags := es } }

/-- The die that has served that request before, with this status. -/
def servedState (p : Packet) (st : Nat) : State :=
  upState { tableDie (oneSlot 3) with fab := { (tableDie (oneSlot 3)).fab with inbox := [p], served := [{ node := 0, die := 1, tag := 3, gen := 2, status := st, time := 0 }] } }

def aTag (u : TagUse) (ring resent : Bool) : TagEntry :=
  { num := 3, gen := 2, sent := 800000, resent := resent, ring := ring, pkt := { aRequest pkWrite with dstDie := 1, srcDie := 0 }, use := u }

def anAnswer (k : Nat) : Packet := { kind := k, srcDie := 1, inst := 1, epoch := 1, tag := 3, tagGen := 2 }

/-- A case of RequestsAreServedAndTagged. -/
theorem test_fabWrite (h : Obligations.RequestsAreServedAndTagged) : ∃ t, exec (.fabWriteReceive at0) (inboxState (aRequest pkWrite) []) = .next t := by
  refine ⟨_, ((h (inboxState (aRequest pkWrite) []) at0 0 [] (cmdOf 0 []) rfl).1.1 (aRequest pkWrite) _ ⟨?_, rfl⟩).1 ?_ ?_⟩ <;> decide +kernel

/-- A case of RequestsAreServedAndTagged. -/
theorem test_fabWrite_epoch (h : Obligations.RequestsAreServedAndTagged) : ∃ t, exec (.fabWriteReceive at0) (inboxState { aRequest pkWrite with epoch := 9 } []) = .next t := by
  refine ⟨_, ((h (inboxState { aRequest pkWrite with epoch := 9 } []) at0 0 [] (cmdOf 0 []) rfl).1.1 { aRequest pkWrite with epoch := 9 } _ ⟨?_, rfl⟩).2.1 ?_⟩ <;> decide +kernel

/-- A case of RequestsAreServedAndTagged. -/
theorem test_fabWrite_again (h : Obligations.RequestsAreServedAndTagged) : ∃ t, exec (.fabWriteReceive at0) (servedState (aRequest pkWrite) 0) = .next t := by
  refine ⟨_, ((h (servedState (aRequest pkWrite) 0) at0 0 [] (cmdOf 0 []) rfl).1.1 (aRequest pkWrite) _ ⟨?_, rfl⟩).2.2 _ ?_ rfl⟩ <;> decide +kernel

/-- A case of RequestsAreServedAndTagged. -/
theorem test_fabWrite_none (h : Obligations.RequestsAreServedAndTagged) : ∃ t, exec (.fabWriteReceive at0) (inboxState (anAnswer pkDrain) []) = .next t :=
  ⟨_, (h (inboxState (anAnswer pkDrain) []) at0 0 [] (cmdOf 0 []) rfl).1.2 (.inr rfl)⟩

/-- A case of RequestsAreServedAndTagged. -/
theorem test_fabRead (h : Obligations.RequestsAreServedAndTagged) : ∃ t, exec (.fabReadReceive at0) (inboxState (aRequest pkRead) []) = .next t := by
  refine ⟨_, ((h (inboxState (aRequest pkRead) []) at0 0 [] (cmdOf 0 []) rfl).2.1.1 (aRequest pkRead) _ ⟨?_, rfl⟩).1 ?_ ?_⟩ <;> decide +kernel

/-- A case of RequestsAreServedAndTagged. -/
theorem test_fabRead_epoch (h : Obligations.RequestsAreServedAndTagged) : ∃ t, exec (.fabReadReceive at0) (inboxState { aRequest pkRead with epoch := 9 } []) = .next t := by
  refine ⟨_, ((h (inboxState { aRequest pkRead with epoch := 9 } []) at0 0 [] (cmdOf 0 []) rfl).2.1.1 { aRequest pkRead with epoch := 9 } _ ⟨?_, rfl⟩).2.1 ?_⟩ <;> decide +kernel

/-- A case of RequestsAreServedAndTagged. -/
theorem test_fabRead_again (h : Obligations.RequestsAreServedAndTagged) : ∃ t, exec (.fabReadReceive at0) (servedState (aRequest pkRead) 0) = .next t := by
  refine ⟨_, ((h (servedState (aRequest pkRead) 0) at0 0 [] (cmdOf 0 []) rfl).2.1.1 (aRequest pkRead) _ ⟨?_, rfl⟩).2.2 _ ?_ rfl⟩ <;> decide +kernel

/-- A case of RequestsAreServedAndTagged. -/
theorem test_fabRead_none (h : Obligations.RequestsAreServedAndTagged) : ∃ t, exec (.fabReadReceive at0) (inboxState (anAnswer pkDrain) []) = .next t :=
  ⟨_, (h (inboxState (anAnswer pkDrain) []) at0 0 [] (cmdOf 0 []) rfl).2.1.2 (.inr rfl)⟩

/-- A case of RequestsAreServedAndTagged. -/
theorem test_poolReq (h : Obligations.RequestsAreServedAndTagged) : ∃ t, exec (.poolReqReceive at0) (inboxState (aRequest pkPoolReq) []) = .next t := by
  refine ⟨_, ((h (inboxState (aRequest pkPoolReq) []) at0 0 [] (cmdOf 0 []) rfl).2.2.1.1 (aRequest pkPoolReq) _ ⟨?_, rfl⟩).1 ?_ ?_⟩ <;> decide +kernel

/-- A case of RequestsAreServedAndTagged. -/
theorem test_poolReq_none (h : Obligations.RequestsAreServedAndTagged) : ∃ t, exec (.poolReqReceive at0) (inboxState (anAnswer pkDrain) []) = .next t :=
  ⟨_, (h (inboxState (anAnswer pkDrain) []) at0 0 [] (cmdOf 0 []) rfl).2.2.1.2 (.inr rfl)⟩

/-- A case of RequestsAreServedAndTagged. -/
theorem test_push (h : Obligations.RequestsAreServedAndTagged) : ∃ t, exec (.pushReceive at0) (inboxState (aRequest pkPush) []) = .next t := by
  refine ⟨_, ((h (inboxState (aRequest pkPush) []) at0 0 [] (cmdOf 0 []) rfl).2.2.2.1.1 (aRequest pkPush) _ ⟨?_, rfl⟩).1 ?_ ?_⟩ <;> decide +kernel

/-- A case of RequestsAreServedAndTagged. -/
theorem test_push_none (h : Obligations.RequestsAreServedAndTagged) : ∃ t, exec (.pushReceive at0) (inboxState (anAnswer pkDrain) []) = .next t :=
  ⟨_, (h (inboxState (anAnswer pkDrain) []) at0 0 [] (cmdOf 0 []) rfl).2.2.2.1.2 (.inr rfl)⟩

/-- A case of RequestsAreServedAndTagged. -/
theorem test_poolReply (h : Obligations.RequestsAreServedAndTagged) : ∃ t, exec (.poolReplyReceive at0) (inboxState (anAnswer pkPoolReply) [aTag (.pool 9 0 0) true false]) = .next t := by
  refine ⟨_, (h (inboxState (anAnswer pkPoolReply) [aTag (.pool 9 0 0) true false]) at0 0 [] (cmdOf 0 []) rfl).2.2.2.2.1 (anAnswer pkPoolReply) _ (aTag (.pool 9 0 0) true false) 9 0 0 rfl ?_ ?_ rfl⟩ <;> decide +kernel

/-- A case of RequestsAreServedAndTagged. -/
theorem test_fabResponse (h : Obligations.RequestsAreServedAndTagged) : ∃ t, exec (.fabResponseReceive at0) (inboxState (anAnswer pkWriteAck) [aTag .other true false]) = .next t := by
  refine ⟨_, (h (inboxState (anAnswer pkWriteAck) [aTag .other true false]) at0 0 [] (cmdOf 0 []) rfl).2.2.2.2.2.1 (anAnswer pkWriteAck) _ (aTag .other true false) rfl ?_ ?_⟩ <;> decide +kernel

/-- A case of RequestsAreServedAndTagged. -/
theorem test_fabResponse_late (h : Obligations.RequestsAreServedAndTagged) : ∃ t, exec (.fabResponseReceive at0) (inboxState (anAnswer pkWriteAck) []) = .next t := by
  refine ⟨_, (h (inboxState (anAnswer pkWriteAck) []) at0 0 [] (cmdOf 0 []) rfl).2.2.2.2.2.2.1 (anAnswer pkWriteAck) _ rfl ?_⟩
  decide +kernel

/-- A case of RequestsAreServedAndTagged. -/
theorem test_tagTimeout_old (h : Obligations.RequestsAreServedAndTagged) : ∃ t, exec (.tagTimeout at0 3) (inboxState (anAnswer pkDrain) [{ aTag .other false false with pkt := { aRequest pkWrite with instGen := 1 } }]) = .next t := by
  refine ⟨_, ((h (inboxState (anAnswer pkDrain) [{ aTag .other false false with pkt := { aRequest pkWrite with instGen := 1 } }]) at0 0 [] (cmdOf 0 []) rfl).2.2.2.2.2.2.2.1 ({ aTag .other false false with pkt := { aRequest pkWrite with instGen := 1 } }) 3 rfl ?_).1 ?_⟩ <;> decide +kernel

/-- A case of RequestsAreServedAndTagged. -/
theorem test_tagTimeout_resend (h : Obligations.RequestsAreServedAndTagged) : ∃ t, exec (.tagTimeout at0 3) (inboxState (anAnswer pkDrain) [aTag .other false false]) = .next t := by
  refine ⟨_, ((h (inboxState (anAnswer pkDrain) [aTag .other false false]) at0 0 [] (cmdOf 0 []) rfl).2.2.2.2.2.2.2.1 (aTag .other false false) 3 rfl ?_).2.1 ?_ rfl⟩ <;> decide +kernel

/-- A case of RequestsAreServedAndTagged. -/
theorem test_tagTimeout_end (h : Obligations.RequestsAreServedAndTagged) : ∃ t, exec (.tagTimeout at0 3) (inboxState (anAnswer pkDrain) [aTag .other false true]) = .next t := by
  refine ⟨_, ((h (inboxState (anAnswer pkDrain) [aTag .other false true]) at0 0 [] (cmdOf 0 []) rfl).2.2.2.2.2.2.2.1 (aTag .other false true) 3 rfl ?_).2.2 ?_ rfl⟩ <;> decide +kernel

/-- A case of RequestsAreServedAndTagged. -/
theorem test_d2dTimeout_resend (h : Obligations.RequestsAreServedAndTagged) : ∃ t, exec (.d2dRequestTimeout at0 3) (inboxState (anAnswer pkDrain) [aTag .other true false]) = .next t := by
  refine ⟨_, ((h (inboxState (anAnswer pkDrain) [aTag .other true false]) at0 0 [] (cmdOf 0 []) rfl).2.2.2.2.2.2.2.2.1 (aTag .other true false) 3 rfl ?_ ?_).1 rfl⟩ <;> decide +kernel

/-- A case of RequestsAreServedAndTagged. -/
theorem test_d2dTimeout_end (h : Obligations.RequestsAreServedAndTagged) : ∃ t, exec (.d2dRequestTimeout at0 3) (inboxState (anAnswer pkDrain) [aTag .other true true]) = .next t := by
  refine ⟨_, ((h (inboxState (anAnswer pkDrain) [aTag .other true true]) at0 0 [] (cmdOf 0 []) rfl).2.2.2.2.2.2.2.2.1 (aTag .other true true) 3 rfl ?_ ?_).2 rfl⟩ <;> decide +kernel

/-- A case of RequestsAreServedAndTagged. -/
theorem test_ageOut (h : Obligations.RequestsAreServedAndTagged) : ∃ t, exec (.completionRecordAgeOut at0) hostState = .next t :=
  ⟨_, (h hostState at0 0 [] (cmdOf 0 []) rfl).2.2.2.2.2.2.2.2.2.1⟩

def updParams : List Byte := toLE 4 0 ++ toLE 4 1 ++ toLE 4 9 ++ toLE 4 0 ++ toLE 8 4096

def aWork : UpdWork := { home := 0, src := 0, cmd := 1, inst := 1, table := 0, slotB := false, shift := 0, sto := false, seed := 0, records := [] }

/-- A case of RequestsAreServedAndTagged: an update that is accepted. -/
theorem test_tableUpdate (h : Obligations.RequestsAreServedAndTagged) : ∃ (E : DieState) (u : Update),
    exec (.tableUpdate at0 1 []) (tableCmd (oneSlot 3) 0x0304 updParams) = .next ((tableCmd (oneSlot 3) 0x0304 updParams).put at0 E).shareWorks.settleWorks ∧ u.table = 0 := by
  refine ((h (tableCmd (oneSlot 3) 0x0304 updParams) at0 1 [] (combCmd 0x0304 updParams) rfl).2.2.2.2.2.2.2.2.2.2.1 ?_).elim fun E e =>
    (e.2.2 _ _ (run_val _ _ none ?_)).2.elim fun u b => ⟨E, u, e.1, b.2.2.1⟩
  all_goals decide +kernel

/-- A case of RequestsAreServedAndTagged. -/
theorem test_update_waits (h : Obligations.RequestsAreServedAndTagged) : ∃ t, exec (.updateRecordsApply at0 none) (cmdState 0x0302 []) = .next t := by
  refine ⟨_, (h (cmdState 0x0302 []) at0 0 [] (cmdOf 0 []) rfl).2.2.2.2.2.2.2.2.2.2.2.1 ?_⟩
  decide +kernel

/-- A case of RequestsAreServedAndTagged. -/
theorem test_update_work (h : Obligations.RequestsAreServedAndTagged) : ∃ t, exec (.updateRecordsApply at0 none) (tableState { oneSlot 3 with works := [aWork] }) = .next t := by
  refine ⟨_, (h (tableState { oneSlot 3 with works := [aWork] }) at0 0 [] (cmdOf 0 []) rfl).2.2.2.2.2.2.2.2.2.2.2.2.1 aWork ?_ ?_⟩ <;> decide +kernel

/-- A case of RequestsAreServedAndTagged. -/
theorem test_update_none (h : Obligations.RequestsAreServedAndTagged) : ∃ t, exec (.updateRecordsApply at0 none) (tableState (oneSlot 3)) = .next t := by
  refine ⟨_, (h (tableState (oneSlot 3)) at0 0 [] (cmdOf 0 []) rfl).2.2.2.2.2.2.2.2.2.2.2.2.2.1 ?_ ?_⟩ <;> decide +kernel

/-- A case of RequestsAreServedAndTagged. -/
theorem test_update_answer (h : Obligations.RequestsAreServedAndTagged) : ∃ t, exec (.updateRecordsApply at0 (some (.answer 1 9 4 0 0))) (tableState (oneSlot 3)) = .next t :=
  ⟨_, (h (tableState (oneSlot 3)) at0 0 [] (cmdOf 0 []) rfl).2.2.2.2.2.2.2.2.2.2.2.2.2.2.1 1 9 4 0 0⟩

/-- A case of RequestsAreServedAndTagged. -/
theorem test_update_records (h : Obligations.RequestsAreServedAndTagged) : ∃ t, exec (.updateRecordsApply at0 (some (.records 9 1 1 0 7 0 false 0 []))) (tableState (oneSlot 3)) = .next t :=
  ⟨_, (h (tableState (oneSlot 3)) at0 0 [] (cmdOf 0 []) rfl).2.2.2.2.2.2.2.2.2.2.2.2.2.2.2 9 1 1 0 7 0 false 0 []⟩

/-- hostDie with port 0 in a state. -/
def portDie (x : FPort) : DieState := { hostDie with fab := { p0 := x } }

def portState (x : FPort) : State := upState (portDie x)

def litState : State := upState ((portDie { state := 1 }).setReg B_FAB FAB_PORT_CTRL 1 0)

/-- An unassigned die, without a plate or with a hop limit of 0. -/
def strayState (P : Option Plate) (hops : Nat) : State :=
  upState { hostDie with fab := { plate := P, transit := [(2, { kind := pkWrite, dstNode := 1, inst := 1, hops := hops })] } }

def routePlate : Plate :=
  { epoch := 1, hopLimit := 4, topology := .custom, bundles := [(0, [1])], custom := (List.range 4).map (fun t => (t * 4096 + 1, 8)) }

def aPkt (node hops : Nat) : Packet := { kind := pkWrite, dstNode := node, inst := 1, epoch := 1, length := 4, body := [1, 2, 3, 4], hops := hops }

def routeState (node hops : Nat) : State :=
  upState { hostDie with fab := { assigned := true, plate := some routePlate, p0 := { state := 4 }, transit := [(2, aPkt node hops)] } }

/-- A case of FabricPortsTrainFailAndForward. -/
theorem test_portLight (h : Obligations.FabricPortsTrainFailAndForward) : ∃ t, exec (.portLightDetect at0 0 (-900) 100) litState = .next t := by
  refine ⟨_, (h litState at0 0 host 2 rfl).1 (-900) 100 (.inl rfl) ?_ rfl⟩
  decide +kernel

/-- A case of FabricPortsTrainFailAndForward. -/
theorem test_portTrained (h : Obligations.FabricPortsTrainFailAndForward) : ∃ t, exec (.portTrainingDone at0 0) (portState { state := 2 }) = .next t :=
  ⟨_, (h (portState { state := 2 }) at0 0 host 2 rfl).2.1 rfl⟩

/-- A case of FabricPortsTrainFailAndForward. -/
theorem test_portTrainingTimeout (h : Obligations.FabricPortsTrainFailAndForward) : ∃ t, exec (.portTrainingTimeout { at0 with time := 20000000 } 0) (portState { state := 2 }) = .next t := by
  refine ⟨_, (h (portState { state := 2 }) { at0 with time := 20000000 } 0 host 2 rfl).2.2.1 rfl ?_⟩
  decide +kernel

/-- A case of FabricPortsTrainFailAndForward. -/
theorem test_portFail_2 (h : Obligations.FabricPortsTrainFailAndForward) : ∃ t, exec (.portFail at0 0 2) (portState { state := 4, waiting := [{ ingress := 2, pkt := aPkt 1 0 }], badFrames := 8, replay := [{ num := 0, bytes := [], out := { ingress := 2, pkt := aPkt 1 0 }, resends := 4 }] }) = .next t := by
  refine ⟨_, ((h (portState { state := 4, waiting := [{ ingress := 2, pkt := aPkt 1 0 }], badFrames := 8, replay := [{ num := 0, bytes := [], out := { ingress := 2, pkt := aPkt 1 0 }, resends := 4 }] }) at0 0 host 2 rfl).2.2.2.1 2 (.inr rfl) ?_ ?_ (fun h => absurd h (by decide)) (fun h => absurd h (by decide))).2.2.2⟩ <;> decide +kernel

/-- A case of FabricPortsTrainFailAndForward. -/
theorem test_portFail_3 (h : Obligations.FabricPortsTrainFailAndForward) : ∃ t, exec (.portFail at0 0 3) (portState { state := 4, waiting := [{ ingress := 2, pkt := aPkt 1 0 }], badFrames := 8, replay := [{ num := 0, bytes := [], out := { ingress := 2, pkt := aPkt 1 0 }, resends := 4 }] }) = .next t := by
  refine ⟨_, ((h (portState { state := 4, waiting := [{ ingress := 2, pkt := aPkt 1 0 }], badFrames := 8, replay := [{ num := 0, bytes := [], out := { ingress := 2, pkt := aPkt 1 0 }, resends := 4 }] }) at0 0 host 2 rfl).2.2.2.1 3 (.inr rfl) ?_ ?_ ?_ (fun h => absurd h (by decide))).2.2.2⟩ <;> decide +kernel

/-- A case of FabricPortsTrainFailAndForward. -/
theorem test_portFail_5 (h : Obligations.FabricPortsTrainFailAndForward) : ∃ t, exec (.portFail at0 0 5) (portState { state := 4, waiting := [{ ingress := 2, pkt := aPkt 1 0 }], badFrames := 8, replay := [{ num := 0, bytes := [], out := { ingress := 2, pkt := aPkt 1 0 }, resends := 4 }] }) = .next t := by
  refine ⟨_, ((h (portState { state := 4, waiting := [{ ingress := 2, pkt := aPkt 1 0 }], badFrames := 8, replay := [{ num := 0, bytes := [], out := { ingress := 2, pkt := aPkt 1 0 }, resends := 4 }] }) at0 0 host 2 rfl).2.2.2.1 5 (.inr rfl) ?_ ?_ (fun h => absurd h (by decide)) ?_).2.2.2⟩ <;> decide +kernel

/-- A case of FabricPortsTrainFailAndForward. -/
theorem test_portHold (h : Obligations.FabricPortsTrainFailAndForward) : ∃ t, exec (.portUpHoldExpire { at0 with time := 100000000 } 0) (portState { state := 3, hold := true }) = .next t := by
  refine ⟨_, (h (portState { state := 3, hold := true }) { at0 with time := 100000000 } 0 host 2 rfl).2.2.2.2.1 rfl rfl ?_⟩
  decide +kernel

/-- A case of FabricPortsTrainFailAndForward. -/
theorem test_fecGood (h : Obligations.FabricPortsTrainFailAndForward) : ∃ t, exec (.fecFrameReceive at0 0 1 0 0 []) (portState { state := 3 }) = .next t :=
  ⟨_, (h (portState { state := 3 }) at0 0 host 2 rfl).2.2.2.2.2.1 1 0 [] (.inl rfl)⟩

/-- A case of FabricPortsTrainFailAndForward. -/
theorem test_fecBad (h : Obligations.FabricPortsTrainFailAndForward) : ∃ t, exec (.fecFrameReceive at0 0 0 3 0 []) (portState { state := 4 }) = .next t := by
  refine ⟨_, (h (portState { state := 4 }) at0 0 host 2 rfl).2.2.2.2.2.2.1 0 3 0 [] (.inr rfl) ?_⟩
  decide +kernel

/-- A case of FabricPortsTrainFailAndForward. -/
theorem test_forward_none (h : Obligations.FabricPortsTrainFailAndForward) : ∃ t, exec (.fabPacketForward at0) hostState = .next t :=
  ⟨_, (h hostState at0 0 host 2 rfl).2.2.2.2.2.2.2.1 rfl⟩

/-- A case of FabricPortsTrainFailAndForward. -/
theorem test_forward_here (h : Obligations.FabricPortsTrainFailAndForward) : ∃ t, exec (.fabPacketForward at0) (routeState 0 0) = .next t :=
  ⟨_, ((h (routeState 0 0) at0 0 host 2 rfl).2.2.2.2.2.2.2.2.1 2 (aPkt 0 0) [] rfl).1 rfl rfl⟩

/-- A case of FabricPortsTrainFailAndForward. -/
theorem test_forward_noPlate (h : Obligations.FabricPortsTrainFailAndForward) : ∃ t, exec (.fabPacketForward at0) (strayState none 3) = .next t :=
  ⟨_, ((h (strayState none 3) at0 0 host 2 rfl).2.2.2.2.2.2.2.2.1 2 ({ kind := pkWrite, dstNode := 1, inst := 1, hops := 3 }) [] rfl).2 (.inl rfl) |>.1 rfl⟩

/-- A case of FabricPortsTrainFailAndForward. -/
theorem test_forward_dropped (h : Obligations.FabricPortsTrainFailAndForward) : ∃ t, exec (.fabPacketForward at0) (routeState 1 4) = .next t := by
  refine ⟨_, ((h (routeState 1 4) at0 0 host 2 rfl).2.2.2.2.2.2.2.2.1 2 (aPkt 1 4) [] rfl).2 (.inr ?_) |>.2 routePlate rfl |>.1 ?_⟩ <;> decide +kernel

/-- A case of FabricPortsTrainFailAndForward. -/
theorem test_forward_noRoute (h : Obligations.FabricPortsTrainFailAndForward) : ∃ t, exec (.fabPacketForward at0) (routeState 9 3) = .next t := by
  refine ⟨_, ((h (routeState 9 3) at0 0 host 2 rfl).2.2.2.2.2.2.2.2.1 2 (aPkt 9 3) [] rfl).2 (.inr ?_) |>.2 routePlate rfl |>.2.1 ?_ ?_⟩ <;> decide +kernel

/-- A case of FabricPortsTrainFailAndForward. -/
theorem test_forward_on (h : Obligations.FabricPortsTrainFailAndForward) : ∃ t, exec (.fabPacketForward at0) (routeState 1 3) = .next t := by
  refine ⟨_, ((h (routeState 1 3) at0 0 host 2 rfl).2.2.2.2.2.2.2.2.1 2 (aPkt 1 3) [] rfl).2 (.inr ?_) |>.2 routePlate rfl |>.2.2 0 0 false ?_ ?_⟩ <;> decide +kernel

def retrainState : State := upState { portDie { state := 4 } with rol := (roleDie 3).rol }

/-- A case of FabricPortsTrainFailAndForward. -/
theorem test_portRetrain (h : Obligations.FabricPortsTrainFailAndForward) : ∃ t, exec (.fabPortRetrain at0 host 3) retrainState = .next t := by
  refine ⟨_, (h retrainState at0 0 host 3 rfl).2.2.2.2.2.2.2.2.2 ?_ ?_⟩ <;> decide +kernel

def stagedPlate : Plate := { epoch := 2 }

/-- A package whose die 0 has plate 1 in force and plate 2 staged. -/
def switchDie (t : Option Nat) : DieState := { hostDie with fab := { plate := some { epoch := 1 }, staged := some stagedPlate, switchAt := t } }

def plateCmd (op : Nat) (ps : List Byte) (D : DieState) : State := upState (withCmd D (cmdOf op ps))

def stageParams : List Byte := toLE 8 4096 ++ toLE 4 416

/-- A case of PlatesStageSwitchAndPull. -/
theorem test_plateStage_role (h : Obligations.PlatesStageSwitchAndPull) : ∃ t, exec (.plateStage { at0 with die := 1 } 1) ({ hostState with dies := { hostState.dies with q1 := withCmd (upDie 1) (cmdOf 0x0600 []) } }) = .next t := by
  refine ⟨_, ((h.1 ({ hostState with dies := { hostState.dies with q1 := withCmd (upDie 1) (cmdOf 0x0600 []) } }) { at0 with die := 1 } 1 0 (cmdOf 0x0600 []) rfl).1 ?_).1 ?_⟩ <;> decide +kernel

/-- A case of PlatesStageSwitchAndPull. -/
theorem test_plateSwitch_role (h : Obligations.PlatesStageSwitchAndPull) : ∃ t, exec (.plateSwitch { at0 with die := 1 } 1) ({ hostState with dies := { hostState.dies with q1 := withCmd (upDie 1) (cmdOf 0x0601 []) } }) = .next t := by
  refine ⟨_, ((h.1 ({ hostState with dies := { hostState.dies with q1 := withCmd (upDie 1) (cmdOf 0x0601 []) } }) { at0 with die := 1 } 1 0 (cmdOf 0x0601 []) rfl).1 ?_).2.1 ?_⟩ <;> decide +kernel

/-- A case of PlatesStageSwitchAndPull. -/
theorem test_plateAbort_role (h : Obligations.PlatesStageSwitchAndPull) : ∃ t, exec (.plateAbort { at0 with die := 1 } 1) ({ hostState with dies := { hostState.dies with q1 := withCmd (upDie 1) (cmdOf 0x0602 []) } }) = .next t := by
  refine ⟨_, ((h.1 ({ hostState with dies := { hostState.dies with q1 := withCmd (upDie 1) (cmdOf 0x0602 []) } }) { at0 with die := 1 } 1 0 (cmdOf 0x0602 []) rfl).1 ?_).2.2 ?_⟩ <;> decide +kernel

/-- A case of PlatesStageSwitchAndPull. -/
theorem test_plateStage (h : Obligations.PlatesStageSwitchAndPull) : ∃ t, exec (.plateStage at0 1) (plateCmd 0x0600 stageParams hostDie) = .next t := by
  refine ⟨_, (h.1 (plateCmd 0x0600 stageParams hostDie) at0 1 0 (cmdOf 0x0600 stageParams) rfl).2.1 rfl ?_ ?_ ?_⟩ <;> decide +kernel

/-- A case of PlatesStageSwitchAndPull. -/
theorem test_plateSwitch (h : Obligations.PlatesStageSwitchAndPull) : ∃ t, exec (.plateSwitch at0 1) (plateCmd 0x0601 (toLE 8 2 ++ toLE 8 300000000) (switchDie none)) = .next t := by
  refine ⟨_, ((h.1 (plateCmd 0x0601 (toLE 8 2 ++ toLE 8 300000000) (switchDie none)) at0 1 0 (cmdOf 0x0601 (toLE 8 2 ++ toLE 8 300000000)) rfl).2.2.1 rfl ?_).1 stagedPlate rfl ?_ (show (_ : Nat) = 0 from rfl) ?_ ?_ ?_⟩ <;> decide +kernel

/-- A case of PlatesStageSwitchAndPull. -/
theorem test_plateSwitch_other (h : Obligations.PlatesStageSwitchAndPull) : ∃ t, exec (.plateSwitch at0 1) (plateCmd 0x0601 (toLE 8 3 ++ toLE 8 300000000) (switchDie none)) = .next t := by
  refine ⟨_, ((h.1 (plateCmd 0x0601 (toLE 8 3 ++ toLE 8 300000000) (switchDie none)) at0 1 0 (cmdOf 0x0601 (toLE 8 3 ++ toLE 8 300000000)) rfl).2.2.1 rfl ?_).2 (fun P e => ?_)⟩ <;> first | decide +kernel | (obtain rfl : P = stagedPlate := (Option.some.inj e).symm; decide +kernel)

/-- A case of PlatesStageSwitchAndPull. -/
theorem test_plateAbort (h : Obligations.PlatesStageSwitchAndPull) : ∃ t, exec (.plateAbort at0 1) (plateCmd 0x0602 (toLE 8 2) (switchDie (some 300000000))) = .next t := by
  refine ⟨_, ((h.1 (plateCmd 0x0602 (toLE 8 2) (switchDie (some 300000000))) at0 1 0 (cmdOf 0x0602 (toLE 8 2)) rfl).2.2.2.1 stagedPlate 300000000 rfl ?_ rfl rfl).1 ?_ ?_ rfl⟩ <;> decide +kernel

/-- A case of PlatesStageSwitchAndPull. -/
theorem test_plateAbort_other (h : Obligations.PlatesStageSwitchAndPull) : ∃ t, exec (.plateAbort at0 1) (plateCmd 0x0602 (toLE 8 3) (switchDie (some 300000000))) = .next t := by
  refine ⟨_, ((h.1 (plateCmd 0x0602 (toLE 8 3) (switchDie (some 300000000))) at0 1 0 (cmdOf 0x0602 (toLE 8 3)) rfl).2.2.2.1 stagedPlate 300000000 rfl ?_ rfl rfl).2 (.inl ?_)⟩ <;> decide +kernel

/-- A case of PlatesStageSwitchAndPull. -/
theorem test_plateStatus (h : Obligations.PlatesStageSwitchAndPull) : ∃ t, exec (.plateStatus at0 1) (plateCmd 0x0603 [] (switchDie none)) = .next t := by
  refine ⟨_, (h.1 (plateCmd 0x0603 [] (switchDie none)) at0 1 0 (cmdOf 0x0603 []) rfl).2.2.2.2.1 ?_⟩
  decide +kernel

/-- A case of PlatesStageSwitchAndPull. -/
theorem test_portStatus (h : Obligations.PlatesStageSwitchAndPull) : ∃ t, exec (.portStatus at0 1) (plateCmd 0x0604 (toLE 4 7) (switchDie none)) = .next t := by
  refine ⟨_, (h.1 (plateCmd 0x0604 (toLE 4 7) (switchDie none)) at0 1 0 (cmdOf 0x0604 (toLE 4 7)) rfl).2.2.2.2.2.1 ?_ ?_⟩ <;> decide +kernel

/-- A case of PlatesStageSwitchAndPull. -/
theorem test_portEnable (h : Obligations.PlatesStageSwitchAndPull) : ∃ t, exec (.portEnable at0 1) (plateCmd 0x0605 (toLE 4 7 ++ toLE 4 1) hostDie) = .next t := by
  refine ⟨_, (h.1 (plateCmd 0x0605 (toLE 4 7 ++ toLE 4 1) hostDie) at0 1 0 (cmdOf 0x0605 (toLE 4 7 ++ toLE 4 1)) rfl).2.2.2.2.2.2.1 ?_ ?_ ?_ rfl⟩ <;> decide +kernel

/-- A case of PlatesStageSwitchAndPull. -/
theorem test_plateSwitchAtT (h : Obligations.PlatesStageSwitchAndPull) : ∃ t, exec (.plateSwitchAtT at0) (upState { switchDie (some 500000) with ptp := { locked := true } }) = .next t :=
  ⟨_, (h.1 (upState { switchDie (some 500000) with ptp := { locked := true } }) at0 1 0 (cmdOf 0 []) rfl).2.2.2.2.2.2.2.1⟩

/-- A case of PlatesStageSwitchAndPull. -/
theorem test_waggleSend (h : Obligations.PlatesStageSwitchAndPull) : ∃ t, exec (.waggleSend at0 0) (portState { state := 3, lastWaggle := 10000 }) = .next t := by
  refine ⟨_, ((h.1 (portState { state := 3, lastWaggle := 10000 }) at0 1 0 (cmdOf 0 []) rfl).2.2.2.2.2.2.2.2.1).1 (.inl rfl) ?_⟩
  decide +kernel

/-- A case of PlatesStageSwitchAndPull. -/
theorem test_waggleSend_early (h : Obligations.PlatesStageSwitchAndPull) : ∃ t, exec (.waggleSend at0 0) (portState { state := 3, lastWaggle := 10001 }) = .next t := by
  refine ⟨_, ((h.1 (portState { state := 3, lastWaggle := 10001 }) at0 1 0 (cmdOf 0 []) rfl).2.2.2.2.2.2.2.2.1).2 ?_⟩
  decide +kernel

def waggle : Packet := { kind := pkWaggle, vc := 3, arrival := 0x0C0, length := 128, body := toLE 2 1 ++ List.replicate 126 0 }

def waggleState (w : Packet) : State := upState { hostDie with fab := { p0 := { state := 3 }, inbox := [w] } }

def pullPkt : Packet := { kind := pkPlate, vc := 3, arrival := 0x0C1, length := 16, body := toLE 4 0 ++ toLE 4 2 ++ toLE 8 1 }

def serveState : State := upState { hostDie with fab := { plate := some { epoch := 1, image := [1, 2, 3] }, inbox := [pullPkt] } }

def pullState (u : PlatePull) : State := { upState hostDie with pkg := { pwrGood := true, pull := some u } }

def aPull : PlatePull := { port := 2, start := 0, epoch := 5, digest := [], bytes := toLE 4 1 ++ toLE 4 64 ++ List.replicate 56 0 }

/-- A case of PlatesStageSwitchAndPull. -/
theorem test_waggleReceive (h : Obligations.PlatesStageSwitchAndPull) : ∃ t, exec (.waggleReceive at0 0 (-200)) (waggleState waggle) = .next t := by
  refine ⟨_, ((h.1 (waggleState waggle) at0 1 0 (cmdOf 0 []) rfl).2.2.2.2.2.2.2.2.2.1 waggle (-200) ?_ (.inl rfl)).2 ?_ ?_⟩ <;> decide +kernel

/-- A case of PlatesStageSwitchAndPull. -/
theorem test_waggleReceive_bad (h : Obligations.PlatesStageSwitchAndPull) : ∃ t, exec (.waggleReceive at0 0 (-200)) (waggleState { waggle with body := [] }) = .next t := by
  refine ⟨_, ((h.1 (waggleState { waggle with body := [] }) at0 1 0 (cmdOf 0 []) rfl).2.2.2.2.2.2.2.2.2.1 { waggle with body := [] } (-200) ?_ (.inl rfl)).1 (.inl ?_)⟩ <;> decide +kernel

/-- A case of PlatesStageSwitchAndPull. -/
theorem test_platePacket (h : Obligations.PlatesStageSwitchAndPull) : ∃ t, exec (.platePacketReceive at0) serveState = .next t := by
  refine ⟨_, ((h.1 serveState at0 1 0 (cmdOf 0 []) rfl).2.2.2.2.2.2.2.2.2.2.1 pullPkt _ rfl).1 { epoch := 1, image := [1, 2, 3] } ?_ rfl ?_ ?_⟩ <;> decide +kernel

/-- Die 0 pulls a plate through its port 1: the next chunk is here. -/
def chunkState : State :=
  let u : PlatePull := { port := 1, start := 0, epoch := 5, digest := [], bytes := [1, 2] }
  let p : Packet := { kind := pkPlate, vc := 3, arrival := 0x0C1, length := 19, body := toLE 4 1 ++ toLE 4 2 ++ toLE 8 5 ++ [3, 4, 5] }
  { upState { hostDie with fab := { inbox := [p] } } with pkg := { pwrGood := true, pull := some u } }

/-- A case of PlatesStageSwitchAndPull. -/
theorem test_plateChunk (h : Obligations.PlatesStageSwitchAndPull) : ∃ t, exec (.platePacketReceive at0) chunkState = .next t := by
  refine ⟨_, ((h.1 chunkState at0 1 0 (cmdOf 0 []) rfl).2.2.2.2.2.2.2.2.2.2.1 _ _ rfl).2 _ ?_ rfl ?_ ?_ ?_⟩ <;> decide +kernel

/-- A case of PlatesStageSwitchAndPull. -/
theorem test_pullTimeout (h : Obligations.PlatesStageSwitchAndPull) : ∃ t, exec (.platePullTimeout { at0 with time := 10000000 }) (pullState aPull) = .next t :=
  ⟨_, (h.1 (pullState aPull) { at0 with time := 10000000 } 1 0 (cmdOf 0 []) rfl).2.2.2.2.2.2.2.2.2.2.2.1 aPull rfl⟩

/-- A case of PlatesStageSwitchAndPull. -/
theorem test_pullDone (h : Obligations.PlatesStageSwitchAndPull) : ∃ t, exec (.platePullDone at0) (pullState aPull) = .next t := by
  refine ⟨_, ((h.1 (pullState aPull) at0 1 0 (cmdOf 0 []) rfl).2.2.2.2.2.2.2.2.2.2.2.2 aPull rfl ?_ ?_).1 (.inl ?_)⟩ <;> decide +kernel

def ringDie (x : Module) : DieState := { hostDie with d2d := { links := 15, m0 := x } }

def ringState (x : Module) : State := upState (ringDie x)

def ringMsg : RingMsg := { cls := 2, pkt := { aPkt 0 0 with dstDie := 0 } }

def ringInState : State :=
  let s := ringState { state := 2 }
  { s with dies := { s.dies with q1 := { upDie 1 with d2d := { links := 15, m1 := { state := 2, out := [ringMsg] } } } } }

/-- A case of RingModulesTrainFailAndCarry. -/
theorem test_ucieTrained (h : Obligations.RingModulesTrainFailAndCarry) : ∃ t, exec (.ucieTrainingDone at0 0 1 0) (ringState { state := 4 }) = .next t := by
  refine ⟨_, (h (ringState { state := 4 }) at0 0 1 [] host 0 (cmdOf 0 []) rfl).1 1 0 (.inr rfl) ?_ ?_⟩ <;> decide +kernel

/-- A case of RingModulesTrainFailAndCarry. -/
theorem test_ucieHold (h : Obligations.RingModulesTrainFailAndCarry) : ∃ t, exec (.ucieHoldExpire { at0 with time := 100000000 } 0) (ringState { state := 3 }) = .next t := by
  refine ⟨_, (h (ringState { state := 3 }) { at0 with time := 100000000 } 0 1 [] host 0 (cmdOf 0 []) rfl).2.1 rfl ?_⟩
  decide +kernel

/-- A case of RingModulesTrainFailAndCarry. -/
theorem test_ucieBeat (h : Obligations.RingModulesTrainFailAndCarry) : ∃ t, exec (.ucieHeartbeatSend at0 0) (ringState { state := 2 }) = .next t := by
  refine ⟨_, (h (ringState { state := 2 }) at0 0 1 [] host 0 (cmdOf 0 []) rfl).2.2.1 (.inl rfl) ?_⟩
  decide +kernel

/-- A case of RingModulesTrainFailAndCarry. -/
theorem test_ucieFail (h : Obligations.RingModulesTrainFailAndCarry) : ∃ t, exec (.ucieModuleFail at0 0 3) (ringState { state := 2 }) = .next t := by
  refine ⟨_, (h (ringState { state := 2 }) at0 0 1 [] host 0 (cmdOf 0 []) rfl).2.2.2.1 3 (.inl rfl) ?_ ?_⟩ <;> decide +kernel

/-- A case of RingModulesTrainFailAndCarry. -/
theorem test_d2dReceive_none (h : Obligations.RingModulesTrainFailAndCarry) : ∃ t, exec (.d2dPacketReceive at0 0) (ringState { state := 2 }) = .next t :=
  ⟨_, (h (ringState { state := 2 }) at0 0 1 [] host 0 (cmdOf 0 []) rfl).2.2.2.2.1.1 rfl⟩

/-- A case of RingModulesTrainFailAndCarry. -/
theorem test_d2dReceive (h : Obligations.RingModulesTrainFailAndCarry) : ∃ t, exec (.d2dPacketReceive at0 0) ringInState = .next t := by
  refine ⟨_, (h ringInState at0 0 1 [] host 0 (cmdOf 0 []) rfl).2.2.2.2.1.2 ringMsg ?_⟩
  decide +kernel

def d2dRetrainState : State := upState { ringDie { state := 2 } with rol := (roleDie 1).rol }

def linkDesc : List Byte := [0, 1, 0, 1, 1, 2, 0, 0] ++ toLE 4 1 ++ toLE 4 0 ++ toLE 4 0 ++ toLE 4 1000 ++ toLE 4 0 ++ toLE 4 0

def linkDie (op : Nat) (ps : List Byte) (js : Tab LinkInj) : DieState :=
  withCmd { safDie { service := some 9000000 } with fab := { injections := js } } { cmdOf op ps with role := 2 }

def linkState (op : Nat) (ps : List Byte) (js : Tab LinkInj) : State := upState (linkDie op ps js)

def aLinkInj : LinkInj := { id := 7, desc := linkDesc, start := 0 }

/-- A case of RingModulesTrainFailAndCarry. -/
theorem test_d2dRetrain (h : Obligations.RingModulesTrainFailAndCarry) : ∃ t, exec (.d2dRetrain at0 host 4) d2dRetrainState = .next t := by
  refine ⟨_, (h d2dRetrainState at0 0 1 [] host 4 (cmdOf 0 []) rfl).2.2.2.2.2.1 ?_ ?_ ?_⟩ <;> decide +kernel

/-- A case of RingModulesTrainFailAndCarry. -/
theorem test_linkInject (h : Obligations.RingModulesTrainFailAndCarry) : ∃ t, exec (.linkInject at0 1 []) (linkState 0x0750 linkDesc []) = .next t := by
  refine ⟨_, (h (linkState 0x0750 linkDesc []) at0 0 1 [] host 0 { cmdOf 0x0750 linkDesc with role := 2 } rfl).2.2.2.2.2.2.1 ?_ ?_ ?_ (.inl rfl) ?_⟩ <;> decide +kernel

/-- A case of RingModulesTrainFailAndCarry. -/
theorem test_linkStop (h : Obligations.RingModulesTrainFailAndCarry) : ∃ t, exec (.linkInjectStop at0 1) (linkState 0x0751 (toLE 4 7) [(0, aLinkInj)]) = .next t := by
  refine ⟨_, (h (linkState 0x0751 (toLE 4 7) [(0, aLinkInj)]) at0 0 1 [] host 0 { cmdOf 0x0751 (toLE 4 7) with role := 2 } rfl).2.2.2.2.2.2.2.1 ?_⟩
  decide +kernel

/-- A case of RingModulesTrainFailAndCarry. -/
theorem test_expire (h : Obligations.RingModulesTrainFailAndCarry) : ∃ t, exec (.injectionExpire at0) (upState { hostDie with log := { injections := [(3, { injection with stop := 500000 })] } }) = .next t :=
  ⟨_, (h (upState { hostDie with log := { injections := [(3, { injection with stop := 500000 })] } }) at0 0 1 [] host 0 (cmdOf 0 []) rfl).2.2.2.2.2.2.2.2⟩

def frameBody : List Byte := List.replicate 6 0xFF ++ [2, 0, 0, 0, 0, 9] ++ [8, 6] ++ List.replicate 46 0

def goodFrame : List Byte := frameBody ++ toLE 4 (fcs frameBody)

theorem arp_ok (D : DieState) (p : Nat) (x : EthFrame) (h1 : x.dst = 2 ^ 48 - 1) (h2 : x.kind = 0x0806) : D.dstOk p x = true := by
  simp [DieState.dstOk, h1, h2]

/-- A frame of 63 bytes, and one of a kind that no port takes, without their FCS. -/
def shortBody : List Byte := frameBody.take 59

def oddBody : List Byte := List.replicate 6 0xFF ++ [2, 0, 0, 0, 0, 9] ++ [9, 9] ++ List.replicate 46 0

def badFrame : List Byte := frameBody ++ toLE 4 (fcs frameBody + 1)

def ethState (p : Nat) (x : EthPort) : State :=
  upState (DieState.setReg { hostDie with eth := [(p, x)], clk := { hostDie.clk with refEth := true } } B_ETH ETH_PORT_CTRL 1 p)

/-- A case of EthernetFramesLinksAndTime. -/
theorem test_ethDown (h : Obligations.EthernetFramesLinksAndTime) : ∃ t, exec (.ethFrameRx at0 4 0 0 goodFrame 0 none) (ethState 4 {}) = .next t := by
  refine ⟨_, (h.1 (ethState 4 {}) at0 4 rfl ?_).1 0 0 goodFrame 0 none rfl⟩
  decide +kernel

/-- A case of EthernetFramesLinksAndTime. -/
theorem test_ethMgmt (h : Obligations.EthernetFramesLinksAndTime) : ∃ t, exec (.ethFrameRx at0 4 0 0 goodFrame 0 none) (ethState 4 { link := true }) = .next t := by
  refine ⟨_, ((h.1 (ethState 4 { link := true }) at0 4 rfl ?_).2.1 0 0 goodFrame 0 none rfl).1 rfl⟩
  decide +kernel

/-- A case of EthernetFramesLinksAndTime. -/
theorem test_ethFrame (h : Obligations.EthernetFramesLinksAndTime) : ∃ t, exec (.ethFrameRx at0 3 1 1 goodFrame 0 none) (ethState 3 { link := true, fec := true }) = .next t := by
  refine ⟨_, ((h.1 (ethState 3 { link := true, fec := true }) at0 3 rfl ?_).2.1 1 1 goodFrame 0 none rfl).2 ?_⟩ <;> decide +kernel

/-- A case of EthernetFramesLinksAndTime. -/
theorem test_ethLink_up (h : Obligations.EthernetFramesLinksAndTime) : ∃ t, exec (.ethLinkChange at0 3 true true false) (ethState 3 { partner := true }) = .next t := by
  refine ⟨_, (h.1 (ethState 3 { partner := true }) at0 3 rfl ?_).2.2.1 true false ?_ ?_⟩ <;> decide +kernel

/-- A case of EthernetFramesLinksAndTime. -/
theorem test_ethLink_down (h : Obligations.EthernetFramesLinksAndTime) : ∃ t, exec (.ethLinkChange at0 3 false true false) (ethState 3 { link := true }) = .next t := by
  refine ⟨_, (h.1 (ethState 3 { link := true }) at0 3 rfl ?_).2.2.2.1 true false⟩
  decide +kernel

def gmState : State := upState { hostDie with ptp := { gm := some 5, locked := true } }

/-- A case of EthernetFramesLinksAndTime. -/
theorem test_ptpSyncTimeout (h : Obligations.EthernetFramesLinksAndTime) : ∃ t, exec (.ptpSyncTimeout { at0 with time := 3000000000 }) gmState = .next t := by
  refine ⟨_, (h.1 gmState { at0 with time := 3000000000 } 4 rfl ?_).2.2.2.2.1 5 rfl rfl ?_⟩ <;> decide +kernel

/-- A case of EthernetFramesLinksAndTime. -/
theorem test_ptpSyncTimeout_early (h : Obligations.EthernetFramesLinksAndTime) : ∃ t, exec (.ptpSyncTimeout at0) gmState = .next t := by
  refine ⟨_, (h.1 gmState at0 4 rfl ?_).2.2.2.2.2.1 ?_⟩ <;> decide +kernel

/-- A case of EthernetFramesLinksAndTime. -/
theorem test_pps (h : Obligations.EthernetFramesLinksAndTime) : ∃ t, exec (.ppsEdge at0 (-1001)) hostState = .next t := by
  refine ⟨_, (h.1 hostState at0 4 rfl ?_).2.2.2.2.2.2.1 (-1001)⟩
  decide +kernel

/-- A case of EthernetFramesLinksAndTime. -/
theorem test_ethrefLoss (h : Obligations.EthernetFramesLinksAndTime) : ∃ t, exec (.ethrefLoss at0) (ethState 2 { link := true }) = .next t := by
  refine ⟨_, ((h.1 (ethState 2 { link := true }) at0 2 rfl ?_).2.2.2.2.2.2.2 ?_).1⟩ <;> decide +kernel

/-- Cases of EthernetFramesLinksAndTime: a frame with a bad FCS, a short one, one of another kind, and one that is taken. -/
theorem test_checkFrame (h : Obligations.EthernetFramesLinksAndTime) :
    (((ethState 4 { link := true }).dieAt at0).checkFrame 4 badFrame false 0 none = (((ethState 4 { link := true }).dieAt at0).count B_ETH ETH_RX_FRAMES 1 4).count B_ETH ETH_RX_FCS_ERR 1 4) ∧
    (((ethState 4 { link := true }).dieAt at0).checkFrame 4 (shortBody ++ toLE 4 (fcs shortBody)) false 0 none = (((ethState 4 { link := true }).dieAt at0).count B_ETH ETH_RX_FRAMES 1 4).count B_ETH ETH_RX_LEN_ERR 1 4) ∧
    (((ethState 4 { link := true }).dieAt at0).checkFrame 4 (oddBody ++ toLE 4 (fcs oddBody)) false 0 none = (((ethState 4 { link := true }).dieAt at0).count B_ETH ETH_RX_FRAMES 1 4).count B_ETH ETH_RX_FILTERED 1 4) ∧
    ∃ D, ((ethState 4 { link := true }).dieAt at0).checkFrame 4 goodFrame false 0 none = DieState.routeFrame D 4 (ethFrame (goodFrame.take (goodFrame.length - 4))) 0 none := by
  have hn : (ethFrame (goodFrame.take (goodFrame.length - 4))).tag = none := by decide +kernel
  refine ⟨(h.2 ((ethState 4 { link := true }).dieAt at0) 4 badFrame false 0 none).1 ?_, (h.2 ((ethState 4 { link := true }).dieAt at0) 4 (shortBody ++ toLE 4 (fcs shortBody)) false 0 none).2.1 ?_ ?_,
    (h.2 ((ethState 4 { link := true }).dieAt at0) 4 (oddBody ++ toLE 4 (fcs oddBody)) false 0 none).2.2.1 ?_ ?_ (fun m => absurd m.2.2 ?_),
    _, (h.2 ((ethState 4 { link := true }).dieAt at0) 4 goodFrame false 0 none).2.2.2 ?_ ?_ ⟨arp_ok _ _ _ ?_ ?_, fun _ ht => (nomatch hn.symm.trans ht), ?_⟩⟩
  all_goals decide +kernel

def lowState : State := { State.reset with pkg := { pwrGood := true, resetLow := true } }

/-- Die 0 in a die reset whose cause has been absent since 0. -/
def overState : State := upState { boot := { dieReset := true, causeGone := some 0 } }

def makerUp : State := upState (roleDie 2)

/-- A case of ResetsHoldAndReleaseTheDies. -/
theorem test_pwrGoodFall (h : Obligations.ResetsHoldAndReleaseTheDies) : ∃ t, exec (.pwrGoodFall at0) hostState = .next t :=
  ((h hostState at0 0 false host 0).1 rfl).imp fun _ h => h.1

/-- A case of ResetsHoldAndReleaseTheDies. -/
theorem test_pkgResetAssert (h : Obligations.ResetsHoldAndReleaseTheDies) : ∃ t, exec (.pkgResetAssert at0) hostState = .next t :=
  ((h hostState at0 0 false host 0).2.1 rfl rfl).imp fun _ h => h.1

/-- A case of ResetsHoldAndReleaseTheDies. -/
theorem test_powerOn_starts (h : Obligations.ResetsHoldAndReleaseTheDies) : ∃ t, exec (.powerOn at0 2 false) State.reset = .next t ∧ (t.die 0).now = 0 := by
  refine ((h State.reset at0 2 false host 0).2.2.1 rfl rfl).imp fun t e => ⟨e.1, ((e.2.2 0 ?_ ?_).1 ?_).2⟩ <;> decide +kernel

/-- A case of ResetsHoldAndReleaseTheDies. -/
theorem test_powerOn_holds (h : Obligations.ResetsHoldAndReleaseTheDies) : ∃ t, exec (.powerOn at0 2 false) State.reset = .next t ∧ (t.die 1).boot.error = 10 := by
  refine ((h State.reset at0 2 false host 0).2.2.1 rfl rfl).imp fun t e => ⟨e.1, (congrArg BootState.error ((e.2.2 1 ?_ ?_).2 ?_)).trans ?_⟩ <;> decide +kernel

/-- A case of ResetsHoldAndReleaseTheDies. -/
theorem test_pkgRelease_starts (h : Obligations.ResetsHoldAndReleaseTheDies) : ∃ t, exec (.pkgResetRelease at0 2) lowState = .next t ∧ (t.die 0).boot.held = false := by
  refine ((h lowState at0 2 false host 0).2.2.2.1 rfl rfl).imp fun t e => ⟨e.1, (congrArg BootState.held ((e.2.2 0 ?_ ?_).1 ?_).1).trans rfl⟩ <;> decide +kernel

/-- A case of ResetsHoldAndReleaseTheDies. -/
theorem test_pkgRelease_holds (h : Obligations.ResetsHoldAndReleaseTheDies) : ∃ t, exec (.pkgResetRelease at0 2) lowState = .next t ∧ (t.die 1).boot.error = 10 := by
  refine ((h lowState at0 2 false host 0).2.2.2.1 rfl rfl).imp fun t e => ⟨e.1, (congrArg BootState.error ((e.2.2 1 ?_ ?_).2 ?_)).trans ?_⟩ <;> decide +kernel

/-- A case of ResetsHoldAndReleaseTheDies. -/
theorem test_glbPackageReset (h : Obligations.ResetsHoldAndReleaseTheDies) : ∃ t, exec (.glbPackageReset at0 host 4 0) makerUp = .next t ∧ (t.die 3).cmd = {} := by
  refine ((h makerUp at0 0 false host 4).2.2.2.2.1 rfl rfl rfl ?_ ?_ ?_).imp fun t e => ⟨e.1, (e.2.2 3 ?_ ?_).2.1⟩ <;> decide +kernel

/-- A case of ResetsHoldAndReleaseTheDies. -/
theorem test_dieResetRelease (h : Obligations.ResetsHoldAndReleaseTheDies) : ∃ t, exec (.dieResetRelease { at0 with time := 10000000 }) overState = .next t := by
  refine ((h overState { at0 with time := 10000000 } 0 false host 0).2.2.2.2.2.1 0 ?_ ?_ ?_ ?_ ?_ ?_).imp fun _ h => h.1 <;> decide +kernel

/-- A case of ResetsHoldAndReleaseTheDies. -/
theorem test_dieTempTrip (h : Obligations.ResetsHoldAndReleaseTheDies) : ∃ t, exec (.dieTempSample at0 (some 116) none none) hostState = .next t := by
  refine ((h hostState at0 0 false host 0).2.2.2.2.2.2 (some 116) none none rfl rfl ?_).imp fun _ h => h.1
  decide +kernel

def bootDie (b : BootState) : DieState := { hostDie with boot := { b with held := false } }

def bootState (b : BootState) : State := upState (bootDie b)

/-- A case of BootsAdvanceStageByStage. -/
theorem test_strapValue (h : Obligations.BootsAdvanceStageByStage) : ∃ t, exec (.strapValueReceive at0 1) (bootState { stage := 2 }) = .next t := by
  refine ⟨_, (h (bootState { stage := 2 }) at0 1 false false rfl).1 ?_ ?_ ?_ ?_⟩ <;> decide +kernel

/-- A case of BootsAdvanceStageByStage: a strap value that is not its position. -/
theorem test_strapClose_conflict (h : Obligations.BootsAdvanceStageByStage) : ∃ t, exec (.strapExchangeClose { at0 with time := 10000000 }) (bootState { stage := 2, straps := [(1, 1), (2, 3)] }) = .next t := by
  refine (((h (bootState { stage := 2, straps := [(1, 1), (2, 3)] }) { at0 with time := 10000000 } 1 false false rfl).2.1 ?_ ?_ ?_ ?_).1 ⟨(2, 3), .tail _ (.tail _ (.head _)), ?_⟩).elim fun _ h => ⟨_, h.1⟩ <;> decide +kernel

/-- Cases of BootsAdvanceStageByStage where every strap is its position (the straps are a constant without a value, Config.strap). -/
theorem test_straps (h : Obligations.BootsAdvanceStageByStage) (hs : ∀ d : Die, strapAt d.val = d.val) :
    (∃ t, exec (.strapExchangeClose { at0 with time := 10000000 }) (bootState { stage := 2, straps := [(1, 1), (2, 2)] }) = .next t) ∧
    ∃ t, exec (.strapLateArrival at0) (bootState { stage := 2, alone := true }) = .next t := by
  refine ⟨⟨_, ((h (bootState { stage := 2, straps := [(1, 1), (2, 2)] }) { at0 with time := 10000000 } 1 false false rfl).2.1 ?_ ?_ ?_ ?_).2 fun e he => ?_⟩,
    ⟨_, ((h (bootState { stage := 2, alone := true }) at0 1 false false rfl).2.2.1 ?_ ?_ ?_ ?_).1 (hs 0) fun e _ => hs e⟩⟩
  case refine_5 =>
    have hx : e ∈ [(0, strapAt 0), (1, 1), (2, 2)] := he
    simp only [List.mem_cons, List.not_mem_nil, or_false] at hx
    obtain rfl | rfl | rfl := hx
    · exact (hs 0).symm
    · rfl
    · rfl
  all_goals decide +kernel

/-- A case of BootsAdvanceStageByStage. -/
theorem test_boot0 (h : Obligations.BootsAdvanceStageByStage) : ∃ t, exec (.bootStageAdvance at0 false false) (bootState { stage := 0 }) = .next t := by
  refine (((h (bootState { stage := 0 }) at0 1 false false rfl).2.2.2.1 ?_).1 ?_ ?_).imp fun _ h => h.1 <;> decide +kernel

/-- A case of BootsAdvanceStageByStage. -/
theorem test_boot1 (h : Obligations.BootsAdvanceStageByStage) : ∃ t, exec (.bootStageAdvance at0 false false) (bootState { stage := 1 }) = .next t := by
  refine (((h (bootState { stage := 1 }) at0 1 false false rfl).2.2.2.1 ?_).2.1 ?_).imp fun _ h => h.1 <;> decide +kernel

def noClock : State := upState { bootDie { stage := 2 } with clk := { refA := false, refB := false } }

def memState (x y : HbmState) : State := upState { bootDie { stage := 3 } with mem := { s0 := x, s1 := y } }

/-- A case of BootsAdvanceStageByStage. -/
theorem test_boot2_noClock (h : Obligations.BootsAdvanceStageByStage) : ∃ t, exec (.bootStageAdvance at0 false false) noClock = .next t := by
  refine (((h noClock at0 1 false false rfl).2.2.2.1 ?_).2.2.1 ?_ ?_ ?_).imp fun _ h => h.1 <;> decide +kernel

/-- A case of BootsAdvanceStageByStage. -/
theorem test_boot2 (h : Obligations.BootsAdvanceStageByStage) : ∃ t, exec (.bootStageAdvance at0 false false) (bootState { stage := 2, closed := true }) = .next t := by
  refine (((h (bootState { stage := 2, closed := true }) at0 1 false false rfl).2.2.2.1 ?_).2.2.2.1 ?_ ?_ ?_ ?_).imp fun _ h => h.1 <;> decide +kernel

/-- A case of BootsAdvanceStageByStage. -/
theorem test_boot3_fails (h : Obligations.BootsAdvanceStageByStage) : ∃ t, exec (.bootStageAdvance at0 false false) (memState {} { failed := true }) = .next t := by
  refine (((h (memState {} { failed := true }) at0 1 false false rfl).2.2.2.1 ?_).2.2.2.2.1 ?_ (.inr ?_)).imp fun _ h => h.1 <;> decide +kernel

/-- A case of BootsAdvanceStageByStage. -/
theorem test_boot3 (h : Obligations.BootsAdvanceStageByStage) : ∃ t, exec (.bootStageAdvance at0 false false) (memState { ready := true } { ready := true }) = .next t := by
  refine (((h (memState { ready := true } { ready := true }) at0 1 false false rfl).2.2.2.1 ?_).2.2.2.2.2.1 ?_ ?_ ?_ ?_ ?_).imp fun _ h => h.1 <;> decide +kernel

/-- A case of BootsAdvanceStageByStage. -/
theorem test_boot4 (h : Obligations.BootsAdvanceStageByStage) : ∃ t, exec (.bootStageAdvance at0 false false) (bootState { stage := 4 }) = .next t := by
  refine (((h (bootState { stage := 4 }) at0 1 false false rfl).2.2.2.1 ?_).2.2.2.2.2.2.1 ?_ ?_ ?_).imp fun _ h => h.1 <;> decide +kernel

/-- Die 1 at stage 4 of a package whose die 0 has its image, or is held. -/
def imageState (bad : Bool) : State :=
  { hostState with dies := { hostState.dies with q1 := { upDie 1 with boot := { held := false, stage := 4, badImage := bad } } } }

def noImage : State := { imageState false with dies := { (imageState false).dies with q0 := {} } }

/-- A case of BootsAdvanceStageByStage. -/
theorem test_boot4_takes (h : Obligations.BootsAdvanceStageByStage) : ∃ t, exec (.bootStageAdvance { at0 with die := 1 } false false) (imageState false) = .next t ∧ (t.die 1).boot.stage = 5 := by
  refine (((h (imageState false) { at0 with die := 1 } 1 false false rfl).2.2.2.1 ?_).2.2.2.2.2.2.2.1 ?_ ?_ ?_ ?_ ?_ ?_).imp fun t e => ⟨e.1, (e.2.1 ?_).1⟩ <;> decide +kernel

/-- A case of BootsAdvanceStageByStage. -/
theorem test_boot4_tries (h : Obligations.BootsAdvanceStageByStage) : ∃ t, exec (.bootStageAdvance { at0 with die := 1 } true false) (imageState false) = .next t ∧ (t.die 1).boot.badImage = true := by
  refine (((h (imageState false) { at0 with die := 1 } 1 true false rfl).2.2.2.1 ?_).2.2.2.2.2.2.2.1 ?_ ?_ ?_ ?_ ?_ ?_).imp fun t e => ⟨e.1, (congrArg (fun E : DieState => E.boot.badImage) (e.2.2.1 ?_ ?_)).trans ?_⟩ <;> decide +kernel

/-- A case of BootsAdvanceStageByStage. -/
theorem test_boot4_fails (h : Obligations.BootsAdvanceStageByStage) : ∃ t, exec (.bootStageAdvance { at0 with die := 1 } true false) (imageState true) = .next t ∧ (t.die 1).boot.error = 5 := by
  refine (((h (imageState true) { at0 with die := 1 } 1 true false rfl).2.2.2.1 ?_).2.2.2.2.2.2.2.1 ?_ ?_ ?_ ?_ ?_ ?_).imp fun t e => ⟨e.1, (congrArg BootState.error (e.2.2.2 ?_ ?_)).trans ?_⟩ <;> decide +kernel

/-- A case of BootsAdvanceStageByStage. -/
theorem test_boot4_noDie0 (h : Obligations.BootsAdvanceStageByStage) : ∃ t, exec (.bootStageAdvance { at0 with die := 1 } false false) noImage = .next t := by
  refine (((h noImage { at0 with die := 1 } 1 false false rfl).2.2.2.1 ?_).2.2.2.2.2.2.2.2.1 ?_ ?_ ?_ ?_).imp fun _ h => h.1 <;> decide +kernel

/-- A case of BootsAdvanceStageByStage. -/
theorem test_boot5 (h : Obligations.BootsAdvanceStageByStage) : ∃ t, exec (.bootStageAdvance at0 false true) (bootState { stage := 5 }) = .next t := by
  refine ⟨_, ((h (bootState { stage := 5 }) at0 1 false true rfl).2.2.2.1 ?_).2.2.2.2.2.2.2.2.2.1 ?_⟩ <;> decide +kernel

/-- A case of BootsAdvanceStageByStage. -/
theorem test_boot6 (h : Obligations.BootsAdvanceStageByStage) : ∃ t, exec (.bootStageAdvance at0 false false) (bootState { stage := 6 }) = .next t := by
  refine ⟨_, ((h (bootState { stage := 6 }) at0 1 false false rfl).2.2.2.1 ?_).2.2.2.2.2.2.2.2.2.2.1 ?_⟩ <;> decide +kernel

/-- A case of BootsAdvanceStageByStage. -/
theorem test_bootTimeout (h : Obligations.BootsAdvanceStageByStage) : ∃ t, exec (.bootReadyTimeout { at0 with time := 1500000000 }) (bootState { stage := 3 }) = .next t := by
  refine ⟨_, ((h (bootState { stage := 3 }) { at0 with time := 1500000000 } 1 false false rfl).2.2.2.1 ?_).2.2.2.2.2.2.2.2.2.2.2 ?_ ?_ ?_⟩ <;> decide +kernel

def goneState : State := { hostState with dies := { hostState.dies with q2 := {} } }

/-- A case of BootsAdvanceStageByStage. -/
theorem test_dieLost (h : Obligations.BootsAdvanceStageByStage) : ∃ t, exec (.dieLost at0 2) goneState = .next t := by
  refine ⟨_, (h goneState at0 2 false false rfl).2.2.2.2 ?_ ?_⟩ <;> decide +kernel

/-- A case of EveryCommandAnswers. -/
theorem test_every (h : Obligations.EveryCommandAnswers) : ∃ t, exec (.cmdHeartbeatIncrement at0) hostState = .next t ∧ t.pending = hostState.pending :=
  h _ _

/-- A case of HeldDiesIgnoreCommands. -/
theorem test_heldIgnores (h : Obligations.HeldDiesIgnoreCommands) : exec (.ppsEdge at0 5) State.reset = .next State.reset :=
  h _ _ rfl rfl

/-- A case of CommandsStayOnTheirDie. -/
theorem test_stays (h : Obligations.CommandsStayOnTheirDie) : ∃ D, exec (.ppsEdge at0 5) hostState = .next (hostState.put at0 D) :=
  h _ _ rfl

/-- A package whose pins hold every die, and one whose audit log holds two records, each with a command that waits. -/
def pinsState : State := { State.reset with pending := [.powerOn at0 0 false] }

def flashState : State :=
  { hostState with pending := [.nop at0 1]
                   pkg := { pwrGood := true, flash := { audit := [{ seq := 3, kind := 8 }, { seq := 4, kind := 3 }], auditSeq := 5, rings := [(0, [])] } } }

/-- A case of PinsHoldDiesIsKept. -/
theorem test_pins (h : Obligations.PinsHoldDiesIsKept) : ∃ t, step pinsState = .next t ∧ t.PinsHoldDies :=
  ⟨_, rfl, h pinsState _ (fun _ d => (by decide : ∀ d, (pinsState.die d).boot.held = true) d) rfl⟩

/-- A case of FlashInOrderIsKept. -/
theorem test_flash (h : Obligations.FlashInOrderIsKept) : ∃ t, step flashState = .next t ∧ t.pkg.flash.InOrder :=
  ⟨_, rfl, h flashState _ (by unfold Flash.InOrder; decide +kernel) rfl⟩

/-- A case of AccumulatorsAddModulo. -/
theorem test_acc (h : Obligations.AccumulatorsAddModulo) : (accAll false (2 ^ 31 - 1) [1, -2]).1 < 2 ^ 31 := by
  refine (h (2 ^ 31 - 1) [1, -2] ?_).1.2
  decide +kernel

/-- A case of GeneratorsAreSeeded. -/
theorem test_seed (h : Obligations.GeneratorsAreSeeded) : (seedLanes 0xFFFFFFFF 512).getD 63 0 ≠ 0 := by
  refine (h.2 0xFFFFFFFF 63 ?_ ?_).symm ▸ ?_ <;> decide +kernel

/-- A case of GeneratorsAreSeeded. -/
theorem test_seed_core (h : Obligations.GeneratorsAreSeeded) : (((({} : Core).seedAll 5).engine 4).lanes.getD 63 0) ≠ 0 := by
  refine (h.1 {} 5 4 63 ?_ ?_ ?_ ?_).symm ▸ ?_ <;> decide +kernel

/-- A case of CountersSaturate. -/
theorem test_counters (h : Obligations.CountersSaturate) : tabWf regDefault (hostDie.count B_FAB FAB_PORT_FLITS_TX 9 1).csr.regs = true := by
  refine (h hostDie B_FAB FAB_PORT_FLITS_TX 9 1 ?_ ?_ ?_).2.2.1 <;> decide +kernel

/-- A case of CountersSaturate. -/
theorem test_counters_on (h : Obligations.CountersSaturate) : hostDie.counts B_FAB = true ∧ (hostDie.count B_FAB FAB_PORT_FLITS_TX 9 1).reg64 B_FAB FAB_PORT_FLITS_TX 1 = min (hostDie.reg64 B_FAB FAB_PORT_FLITS_TX 1 + 9) (2 ^ 64 - 1) := by
  refine ⟨?_, ((h hostDie B_FAB FAB_PORT_FLITS_TX 9 1 ?_ ?_ ?_).2.1 ?_).1⟩ <;> decide +kernel

def fullDie : DieState := { hostDie with log := { intake := List.replicate 32 { cls := 1, code := 1 } } }

/-- A case of CoalescedEventsOnlyCount. -/
theorem test_coalesced (h : Obligations.CoalescedEventsOnlyCount) : (fullDie.event { cls := 15, code := 1 }).log.coalFirst = some fullDie.now := by
  refine (h fullDie { cls := 15, code := 1 } rfl ?_ ?_ ?_ ?_).2.2.2.2.2.2.1 rfl <;> decide +kernel

/-- A case of NibblesArePackedLowFirst. -/
theorem test_nibbles (h : Obligations.NibblesArePackedLowFirst) : rowElems .i4 3 (packRow .i4 [-8, 7, 3]) = [-8, 7, 3] := by
  refine (h [-8, 7, 3] ?_).2.2.2.2.1
  decide +kernel
end

section
/-! PROOFS. Accesses that R12 forbids: misaligned, of another size than 4, or of an unassigned block (R32). -/

open Sys2Proof

namespace Sys2Proof.Machine

/-- The access of the given offset and size to block b is one that R12 forbids. -/
abbrev CsrForbidden (b off size : Nat) : Prop := size ≠ 4 ∨ off % 4 ≠ 0 ∨ csrAssigned b = false

/-- The die after the event of a forbidden access (R12, class 6 code 0x05). -/
abbrev DieState.csrForbiddenEvent (D : DieState) (r : Req) (b off : Nat) : DieState :=
  D.event { cls := 6, code := 0x05, inst := some r.inst, loc := csrAddr b off, ident := r.id }

/-- What R12 forbids is what the row of misaligned accesses does not let pass. -/
theorem csrForbidden_iff_not_allowed (b off size : Nat) :
    CsrForbidden b off size ↔ ¬ (size = 4 ∧ off % 4 = 0 ∧ csrAssigned b = true) := by
  simp only [not_and_or, Bool.not_eq_true]

/-- The dispatcher's arm for a misaligned access. -/
theorem exec_csrMisalignedAccess (a : At) (r : Req) (b off size : Nat) (write : Bool) (s : State) :
    exec (.csrMisalignedAccess a r b off size write) s = execCsrMisalignedAccess a r b off size write s :=
  rfl

/-- A running die records a forbidden access and answers a read with all ones; the firewall is not asked (log entry 181). -/
theorem exec_csrMisalignedAccess_of_forbidden (s : State) (a : At) (r : Req) (b off size : Nat) (write : Bool)
    (hup : s.up a) (hbad : CsrForbidden b off size) :
    exec (.csrMisalignedAccess a r b off size write) s =
      .next (s.put a (
        if write then (s.dieAt a).csrForbiddenEvent r b off
        else ((s.dieAt a).csrForbiddenEvent r b off).out (.csrData r.id 0xFFFF_FFFF))) := by
  have hnot := (csrForbidden_iff_not_allowed b off size).mp hbad
  rw [exec_csrMisalignedAccess, execCsrMisalignedAccess, onDie_up a s _ hup, if_neg hnot]

/-- Settles O4: a write and a read are the two cases of `exec_csrMisalignedAccess_of_forbidden`. -/
theorem misalignedAccessesHaveNoEffect : Obligations.MisalignedAccessesHaveNoEffect := by
  unfold Obligations.MisalignedAccessesHaveNoEffect
  intro s a r b off size hup hbad
  exact ⟨exec_csrMisalignedAccess_of_forbidden s a r b off size true hup hbad,
    exec_csrMisalignedAccess_of_forbidden s a r b off size false hup hbad⟩

end Sys2Proof.Machine
end

section
/-! PROOFS. Scaled integers: wrapping to a width and accumulators (R48), the seeds of the generators (R62), packed I4
elements (R45). -/

open Sys2Proof

namespace Sys2Proof.Machine

/-! ## Wrapping

The two's complement reading of an integer's low n bits is the balanced remainder `Int.bmod` by 2^n. -/

theorem wrapN_lt (n : Nat) (x : Int) : wrapN n x < 2 ^ n := by
  have hpos : (0 : Int) < ((2 ^ n : Nat) : Int) := by exact_mod_cast Nat.two_pow_pos n
  have hlt := Int.emod_lt_of_pos x hpos
  unfold wrapN
  omega

theorem cast_wrapN (n : Nat) (x : Int) : (wrapN n x : Int) = x % ((2 ^ n : Nat) : Int) :=
  Int.toNat_of_nonneg (Int.emod_nonneg x (by exact_mod_cast (Nat.two_pow_pos n).ne'))

theorem sext_wrapN (n : Nat) (x : Int) : sext (n + 1) (wrapN (n + 1) x) = x.bmod (2 ^ (n + 1)) := by
  have hhalf : (2 : Nat) ^ (n + 1) = 2 * 2 ^ n := Nat.pow_succ'
  have hcast := cast_wrapN (n + 1) x
  simp only [sext, Nat.mod_eq_of_lt (wrapN_lt (n + 1) x), Int.bmod_def, ← hcast, Nat.add_sub_cancel,
    if_neg n.succ_ne_zero]
  split <;> split <;> omega

/-! ## Accumulators (R48) -/

theorem wrap32_eq_bmod (x : Int) : wrap32 x = x.bmod (2 ^ 32) := sext_wrapN 31 x

theorem wrap32_range (x : Int) : -(2 ^ 31) ≤ wrap32 x ∧ wrap32 x < 2 ^ 31 := by
  rw [wrap32_eq_bmod]
  exact ⟨Int.le_bmod (m := 2 ^ 32) (by decide), Int.bmod_lt (m := 2 ^ 32) (by decide)⟩

theorem wrap32_sub_self_emod (x : Int) : (wrap32 x - x) % 2 ^ 32 = 0 := by
  rw [wrap32_eq_bmod]
  exact Int.emod_eq_zero_of_dvd (Int.dvd_bmod_sub_self (m := 2 ^ 32))

/-- Wrapping before an addition makes no difference after it: why the order of the terms does not matter. -/
theorem wrap32_wrap32_add (x y : Int) : wrap32 (wrap32 x + y) = wrap32 (x + y) := by
  simp only [wrap32_eq_bmod, Int.bmod_add_bmod]

theorem accAdd_false_fst (x s : Int) : (accAdd false x s).1 = wrap32 (x + s) := rfl

theorem accAll_fst_eq_foldl (wide : Bool) (x : Int) (ss : List Int) :
    (accAll wide x ss).1 = ss.foldl (fun a s => (accAdd wide a s).1) x :=
  (List.foldl_hom Prod.fst fun _ _ => rfl).symm

theorem accAll_false_cons_fst (x s : Int) (ss : List Int) :
    (accAll false x (s :: ss)).1 = (accAll false (wrap32 (x + s)) ss).1 := by
  rw [accAll_fst_eq_foldl, accAll_fst_eq_foldl, List.foldl_cons, accAdd_false_fst]

/-- What an accumulator that starts in range holds at the end. -/
theorem accAll_false_fst (x : Int) (ss : List Int) (hx : wrap32 x = x) :
    (accAll false x ss).1 = wrap32 (x + ss.sum) := by
  induction ss generalizing x with
  | nil => rw [List.sum_nil, add_zero, hx]; rfl
  | cons s ss ih =>
    have hkept : wrap32 (wrap32 (x + s)) = wrap32 (x + s) := by simpa using wrap32_wrap32_add (x + s) 0
    rw [accAll_false_cons_fst, ih _ hkept, wrap32_wrap32_add, List.sum_cons, add_assoc]

/-- Settles O56: the final value is the wrapped sum (`accAll_false_fst`), and a sum does not depend on the order. -/
theorem accumulatorsAddModulo : Obligations.AccumulatorsAddModulo := by
  unfold Obligations.AccumulatorsAddModulo
  intro x ss hx
  rw [accAll_false_fst x ss hx]
  refine ⟨wrap32_range _, wrap32_sub_self_emod _, fun s => ?_, fun ss' hperm => ?_⟩
  · rw [accAdd_false_fst]
    exact wrap32_sub_self_emod _
  · rw [accAll_false_fst x ss' hx, hperm.sum_eq]

/-! ## Seeding the generators (R62) -/

/-- An engine reads as it was changed. The table of engines lists no fresh engine, hence the premise. -/
theorem Core.engine_onEngine_same (k : Core) (e : Nat) (f : Engine → Engine) (hf : f (k.engine e) ≠ {}) :
    (k.onEngine e f).engine e = f (k.engine e) := by
  have hlisted : tabMod {} e f k.engines = tabPut e (f (k.engine e)) k.engines := if_neg hf
  unfold Core.onEngine
  rw [hlisted]
  exact tabGetF_put_same _ e _ _

theorem Core.engine_onEngine_other (k : Core) (e j : Nat) (f : Engine → Engine) (h : j ≠ e) :
    (k.onEngine e f).engine j = k.engine j :=
  tabGet_set_other ({} : Engine) e j (f (k.engine e)) k.engines h

/-- The core with the generators of engine e seeded: one step of `Core.seedAll`. -/
def Core.seedEngine (seed : Nat) (k : Core) (e : Nat) : Core :=
  k.onEngine e (fun x => { x with lanes := seedLanes seed (64 * e) })

theorem Core.seedAll_eq_foldl (k : Core) (seed : Nat) :
    k.seedAll seed = [1, 2, 3, 4].foldl (Core.seedEngine seed) k := rfl

theorem seedLanes_length (seed base : Nat) : (seedLanes seed base).length = 64 := by
  simp [seedLanes]

theorem Core.lanes_seedEngine_same (k : Core) (seed e : Nat) :
    ((k.seedEngine seed e).engine e).lanes = seedLanes seed (64 * e) := by
  have hnew : ({ k.engine e with lanes := seedLanes seed (64 * e) } : Engine) ≠ {} := by
    intro h
    simpa [seedLanes_length] using congrArg (fun x : Engine => x.lanes.length) h
  exact congrArg Engine.lanes (k.engine_onEngine_same e _ hnew)

theorem Core.lanes_seedEngine_other (k : Core) (seed e j : Nat) (h : j ≠ e) :
    ((k.seedEngine seed e).engine j).lanes = (k.engine j).lanes :=
  congrArg Engine.lanes (k.engine_onEngine_other e j _ h)

/-- Seeding engines one after the other leaves each of them with its own lanes. -/
theorem Core.lanes_foldl_seedEngine (k : Core) (seed e : Nat) (es : List Nat) (he : e ∈ es) :
    ((es.foldl (Core.seedEngine seed) k).engine e).lanes = seedLanes seed (64 * e) := by
  induction es using List.reverseRecOn with
  | nil => cases he
  | append_singleton es last ih =>
    rw [List.foldl_append, List.foldl_cons, List.foldl_nil]
    by_cases hlast : e = last
    · subst hlast
      exact Core.lanes_seedEngine_same _ seed e
    · rw [Core.lanes_seedEngine_other _ seed last e hlast]
      exact ih (by simpa [hlast] using he)

theorem Core.lanes_seedAll (k : Core) (seed e : Nat) (h1 : 1 ≤ e) (h4 : e ≤ 4) :
    ((k.seedAll seed).engine e).lanes = seedLanes seed (64 * e) := by
  rw [Core.seedAll_eq_foldl]
  apply Core.lanes_foldl_seedEngine
  simp only [List.mem_cons, List.not_mem_nil, or_false]
  omega

theorem seedLanes_getD (seed base l : Nat) (hl : l < 64) :
    (seedLanes seed base).getD l 0 = laneSeed seed (base + l) := by
  have hlen : l < (seedLanes seed base).length := by rwa [seedLanes_length]
  rw [List.getD_eq_getElem _ _ hlen]
  simp [seedLanes]

/-- The formula of R62; of a 32-bit seed, the upper half is what stands above the lower one. -/
theorem laneSeed_eq (S i : Nat) (hS : S < 2 ^ 32) :
    laneSeed S i =
      let x := ((S % 2 ^ 16 + (i + 1) * 0x9E37) % 2 ^ 16) ^^^ (S / 2 ^ 16)
      if x = 0 then 0xACE1 else x := by
  have hlow : bits S 0 16 = S % 2 ^ 16 := by rw [bits, Nat.pow_zero, Nat.div_one]
  have hhigh : bits S 16 16 = S / 2 ^ 16 := Nat.mod_eq_of_lt (Nat.div_lt_of_lt_mul hS)
  rw [laneSeed, hlow, hhigh]
  rfl

/-- Settles O57: the lanes of an engine (`Core.lanes_seedAll`), each from its own index, by the formula of R62. -/
theorem generatorsAreSeeded : Obligations.GeneratorsAreSeeded := by
  unfold Obligations.GeneratorsAreSeeded
  refine ⟨fun k S e l hS h1 h4 hl => ?_, fun S l hS hl => ?_⟩
  · rw [k.lanes_seedAll S e h1 h4, seedLanes_getD S _ l hl]
    exact laneSeed_eq S _ hS
  · rw [seedLanes_getD S _ l hl]
    exact laneSeed_eq S _ hS

/-! ## Packed I4 elements (R45) -/

theorem packNibbles_length (ns : List Nat) : (packNibbles ns).length = (ns.length + 1) / 2 := by
  induction ns using packNibbles.induct with
  | case1 => rfl
  | case2 a => simp [packNibbles]
  | case3 a b ns ih =>
    simp only [packNibbles, List.length_cons, ih]
    omega

theorem toNat_nibblePair (a b : Nat) : (BitVec.ofNat 8 (a % 16 + b % 16 * 16)).toNat = a % 16 + b % 16 * 16 := by
  rw [BitVec.toNat_ofNat]
  omega

/-- Byte i of packed nibbles: nibble 2 i below nibble 2 i + 1, where 0 stands for a nibble past the end. -/
theorem packNibbles_getD (ns : List Nat) (i : Nat) :
    ((packNibbles ns).getD i 0).toNat = ns.getD (2 * i) 0 % 16 + ns.getD (2 * i + 1) 0 % 16 * 16 := by
  induction ns using packNibbles.induct generalizing i with
  | case1 => simp [packNibbles]
  | case2 a =>
    cases i with
    | zero => simpa [packNibbles] using toNat_nibblePair a 0
    | succ i => simp [packNibbles, Nat.mul_add]
  | case3 a b ns ih =>
    cases i with
    | zero => exact toNat_nibblePair a b
    | succ i => simpa [packNibbles, Nat.mul_add] using ih i

theorem packRow_i4 (xs : List Int) : packRow .i4 xs = packNibbles (xs.map (wrapN 4)) := rfl

theorem packRow_i4_length (xs : List Int) : (packRow .i4 xs).length = (xs.length + 1) / 2 := by
  rw [packRow_i4, packNibbles_length, List.length_map]

/-- Byte i of a packed row: element 2 i below element 2 i + 1, where 0 stands for an element past the end. -/
theorem packRow_i4_getD (xs : List Int) (i : Nat) :
    ((packRow .i4 xs).getD i 0).toNat = wrapN 4 (xs.getD (2 * i) 0) + wrapN 4 (xs.getD (2 * i + 1) 0) * 16 := by
  have hget (j : Nat) : (xs.map (wrapN 4)).getD j 0 % 16 = wrapN 4 (xs.getD j 0) := by
    rw [show (0 : Nat) = wrapN 4 0 from rfl, List.getD_map]
    exact Nat.mod_eq_of_lt (wrapN_lt 4 _)
  rw [packRow_i4, packNibbles_getD, hget, hget]

theorem packRow_i4_low (xs : List Int) (i : Nat) :
    ((packRow .i4 xs).getD i 0).toNat % 16 = wrapN 4 (xs.getD (2 * i) 0) := by
  have hlt : wrapN 4 (xs.getD (2 * i) 0) < 16 := wrapN_lt 4 _
  rw [packRow_i4_getD]
  omega

theorem packRow_i4_high (xs : List Int) (i : Nat) :
    ((packRow .i4 xs).getD i 0).toNat / 16 = wrapN 4 (xs.getD (2 * i + 1) 0) := by
  have hlt : wrapN 4 (xs.getD (2 * i) 0) < 16 := wrapN_lt 4 _
  rw [packRow_i4_getD]
  omega

theorem ofBits_wrapN_i4 (x : Int) (h : -8 ≤ x ∧ x ≤ 7) : ofBits (wrapN 4 x) .i4 = x := by
  calc ofBits (wrapN 4 x) .i4 = x.bmod (2 ^ 4) := sext_wrapN 3 x
    _ = x := Int.bmod_eq_of_le (by norm_num; omega) (by norm_num; omega)

theorem elemAt_i4 (row : List Byte) (j : Nat) :
    elemAt .i4 row j = ofBits ((row.getD (j / 2) 0).toNat / 16 ^ (j % 2) % 16) .i4 := if_pos rfl

theorem elemAt_i4_even (row : List Byte) (i : Nat) :
    elemAt .i4 row (2 * i) = ofBits ((row.getD i 0).toNat % 16) .i4 := by
  rw [elemAt_i4, Nat.mul_div_cancel_left i two_pos, Nat.mul_mod_right, pow_zero, Nat.div_one]

theorem elemAt_i4_odd (row : List Byte) (i : Nat) :
    elemAt .i4 row (2 * i + 1) = ofBits ((row.getD i 0).toNat / 16) .i4 := by
  have hbyte : (row.getD i 0).toNat / 16 < 16 := by have := (row.getD i 0).isLt; omega
  have hi : (2 * i + 1) / 2 = i := by omega
  have hmod : (2 * i + 1) % 2 = 1 := by omega
  rw [elemAt_i4, hi, hmod, pow_one, Nat.mod_eq_of_lt hbyte]

/-- Reading element j of a packed row yields the bits of element j. -/
theorem elemAt_packRow_i4 (xs : List Int) (j : Nat) :
    elemAt .i4 (packRow .i4 xs) j = ofBits (wrapN 4 (xs.getD j 0)) .i4 := by
  obtain ⟨i, rfl | rfl⟩ := j.even_or_odd'
  · rw [elemAt_i4_even, packRow_i4_low]
  · rw [elemAt_i4_odd, packRow_i4_high]

theorem rowElems_packRow_i4 (xs : List Int) (h : ∀ x ∈ xs, -8 ≤ x ∧ x ≤ 7) :
    rowElems .i4 xs.length (packRow .i4 xs) = xs := by
  refine List.ext_getElem (by simp [rowElems]) fun j hj hjx => ?_
  calc (rowElems .i4 xs.length (packRow .i4 xs))[j] = elemAt .i4 (packRow .i4 xs) j := by simp [rowElems]
    _ = ofBits (wrapN 4 (xs.getD j 0)) .i4 := elemAt_packRow_i4 xs j
    _ = ofBits (wrapN 4 xs[j]) .i4 := by rw [List.getD_eq_getElem _ _ hjx]
    _ = xs[j] := ofBits_wrapN_i4 _ (h _ (List.getElem_mem hjx))

/-- A reader of an odd row takes no notice of the upper nibble of its last byte. -/
theorem rowElems_i4_append_congr (n : Nat) (row : List Byte) (b c : Byte) (hn : n % 2 = 1)
    (hrow : row.length = n / 2) (hbc : b.toNat % 16 = c.toNat % 16) :
    rowElems .i4 n (row ++ [b]) = rowElems .i4 n (row ++ [c]) := by
  refine List.map_congr_left fun j hj => ?_
  have hjn : j < n := List.mem_range.mp hj
  by_cases hin : j / 2 < row.length
  · rw [elemAt_i4, elemAt_i4, List.getD_append _ _ _ _ hin, List.getD_append _ _ _ _ hin]
  · have hlast : j = 2 * row.length := by omega
    rw [hlast, elemAt_i4_even, elemAt_i4_even]
    simp [hbc]

theorem packRow_i4_eq_take_append (xs : List Int) (hodd : xs.length % 2 = 1) :
    packRow .i4 xs = (packRow .i4 xs).take (xs.length / 2) ++ [(packRow .i4 xs).getD (xs.length / 2) 0] := by
  have hlen := packRow_i4_length xs
  have hlast : xs.length / 2 < (packRow .i4 xs).length := by omega
  rw [List.getD_eq_getElem _ _ hlast, List.take_append_getElem hlast, List.take_of_length_le (by omega)]

/-- Settles O60: what each byte holds (`packRow_i4_low`, `packRow_i4_high`), what is read back (`rowElems_packRow_i4`),
and that the last nibble of an odd row is not looked at (`rowElems_i4_append_congr`). -/
theorem nibblesArePackedLowFirst : Obligations.NibblesArePackedLowFirst := by
  unfold Obligations.NibblesArePackedLowFirst
  intro xs hxs
  refine ⟨packRow_i4_length xs, fun j _ heven => ?_, fun j _ hodd => ?_, fun hodd => ?_, rowElems_packRow_i4 xs hxs,
    fun row b hodd hrow hb htake => ?_⟩
  · rw [packRow_i4_low, Nat.mul_div_cancel' (Nat.dvd_of_mod_eq_zero heven)]
  · rw [packRow_i4_high, Nat.two_mul_div_two_add_one_of_odd (Nat.odd_iff.mpr hodd)]
  · rw [packRow_i4_high, Nat.two_mul_div_two_add_one_of_odd (Nat.odd_iff.mpr hodd),
      List.getD_eq_default _ _ (le_refl _)]
    rfl
  · rw [rowElems_i4_append_congr xs.length row b _ hodd hrow hb, htake, ← packRow_i4_eq_take_append xs hodd]
    exact rowElems_packRow_i4 xs hxs

end Sys2Proof.Machine
end

section
/-! PROOFS. Counters of a block (R13, R623), and the event that finds the intake full (R617). -/

open Sys2Proof

namespace Sys2Proof.Machine

/-! ## 64-bit registers of one block -/

/-- The 64-bit registers at the two offsets of one block share no word. -/
abbrev Apart (off off' : Nat) : Prop :=
  off + 4 < 65536 ∧ off' + 4 < 65536 ∧ off' ≠ off ∧ off' ≠ off + 4 ∧ off ≠ off' + 4

theorem regKey_ne_of_off_ne (b off i off' i' : Nat) (h : off < 65536) (h' : off' < 65536) (hne : off' ≠ off) :
    regKey b off' i' ≠ regKey b off i := by
  unfold regKey
  omega

theorem DieState.setReg64_wf (D : DieState) (b off v i : Nat) (h : tabWf regDefault D.csr.regs = true) :
    tabWf regDefault (D.setReg64 b off v i).csr.regs = true :=
  DieState.setReg_wf _ _ _ _ _ (D.setReg_wf b off _ i h)

theorem DieState.reg_setReg64_other (D : DieState) (b off v i off' i' : Nat) (hoff : off + 4 < 65536)
    (hoff' : off' < 65536) (hlow : off' ≠ off) (hhigh : off' ≠ off + 4) :
    (D.setReg64 b off v i).reg b off' i' = D.reg b off' i' := by
  rw [DieState.setReg64, DieState.reg_setReg_other _ _ _ _ _ _ _ _ (regKey_ne_of_off_ne b _ i _ i' hoff hoff' hhigh),
    DieState.reg_setReg_other _ _ _ _ _ _ _ _ (regKey_ne_of_off_ne b _ i _ i' (by omega) hoff' hlow)]

theorem DieState.reg64_setReg64_other (D : DieState) (b off v i off' i' : Nat) (h : Apart off off') :
    (D.setReg64 b off v i).reg64 b off' i' = D.reg64 b off' i' := by
  obtain ⟨hoff, hoff', hne, hhigh, hlow⟩ := h
  rw [DieState.reg64, D.reg_setReg64_other b off v i _ i' hoff (by omega) hne hhigh,
    D.reg_setReg64_other b off v i _ i' hoff hoff' (Ne.symm hlow) (by omega), DieState.reg64]

/-- A 64-bit register reads what was written to it, modulo 2^64. -/
theorem DieState.reg64_setReg64_same (D : DieState) (b off v i : Nat) (h : tabWf regDefault D.csr.regs = true) :
    (D.setReg64 b off v i).reg64 b off i = v % 2 ^ 64 := by
  have hkeys : regKey b off i ≠ regKey b (off + 4) i := by unfold regKey; omega
  have hlow : (D.setReg64 b off v i).reg b off i = v % 2 ^ 32 := by
    rw [DieState.setReg64, DieState.reg_setReg_other _ _ _ _ _ _ _ _ hkeys, D.reg_setReg_same b off _ i h, Nat.mod_mod]
  have hhigh : (D.setReg64 b off v i).reg b (off + 4) i = v / 2 ^ 32 % 2 ^ 32 :=
    DieState.reg_setReg_same _ b (off + 4) _ i (D.setReg_wf b off _ i h)
  rw [DieState.reg64, hlow, hhigh]
  omega

/-! ## Counters -/

/-- Block b of the die counts, and the die's registers are in canonical form. -/
abbrev DieState.Counting (D : DieState) (b : Nat) : Prop :=
  tabWf regDefault D.csr.regs = true ∧ D.counts b = true

/-- A block goes on counting when a register is set that lies above its control register. -/
theorem DieState.Counting.setReg64 {D : DieState} {b : Nat} (h : D.Counting b) (off v i : Nat) (hlow : 4 < off)
    (hoff : off + 4 < 65536) : (D.setReg64 b off v i).Counting b := by
  obtain ⟨hwf, hon⟩ := h
  have hctrl : (D.setReg64 b off v i).reg b 0x0004 = D.reg b 0x0004 :=
    D.reg_setReg64_other b off v i 0x0004 0 hoff (by omega) (by omega) (by omega)
  refine ⟨D.setReg64_wf b off v i hwf, ?_⟩
  rw [DieState.counts, hctrl]
  exact hon

theorem DieState.count_of_counts (D : DieState) (b off n i : Nat) (h : D.counts b = true) :
    D.count b off n i = D.setReg64 b off (satAdd 64 (D.reg64 b off i) n) i := if_pos h

theorem DieState.Counting.count {D : DieState} {b : Nat} (h : D.Counting b) (off n i : Nat) (hlow : 4 < off)
    (hoff : off + 4 < 65536) : (D.count b off n i).Counting b := by
  rw [D.count_of_counts b off n i h.2]
  exact h.setReg64 off _ i hlow hoff

/-- A counter adds, and stops at its largest value (R623). -/
theorem DieState.Counting.reg64_count {D : DieState} {b : Nat} (h : D.Counting b) (off n i : Nat) :
    (D.count b off n i).reg64 b off i = min (D.reg64 b off i + n) (2 ^ 64 - 1) := by
  obtain ⟨hwf, hon⟩ := h
  rw [D.count_of_counts b off n i hon, D.reg64_setReg64_same b off _ i hwf, satAdd]
  omega

theorem DieState.reg64_count_other (D : DieState) (b off n i off' i' : Nat) (h : Apart off off') :
    (D.count b off n i).reg64 b off' i' = D.reg64 b off' i' := by
  unfold DieState.count
  split
  · exact D.reg64_setReg64_other b off _ i off' i' h
  · rfl

/-! ## Causes -/

theorem DieState.reg_msix (D : DieState) (fn v b off i : Nat) : (D.msix fn v).reg b off i = D.reg b off i := by
  rw [DieState.reg, DieState.msix_csr, DieState.reg]

/-- A cause changes the block's cause register at 0x000C alone. -/
theorem DieState.reg_cause_other (D : DieState) (b k off i : Nat) (hoff : off < 65536) (hne : off ≠ 0x000C) :
    (D.cause b k).reg b off i = D.reg b off i := by
  have hset (v : Nat) : (D.setReg b 0x000C v).reg b off i = D.reg b off i :=
    D.reg_setReg_other b 0x000C v 0 b off i (regKey_ne_of_off_ne b 0x000C 0 off i (by omega) hoff hne)
  unfold DieState.cause
  split
  · rfl
  · dsimp only
    split
    · rw [DieState.reg_msix, hset]
    · exact hset _

theorem DieState.reg64_cause_other (D : DieState) (b k off i : Nat) (hlow : 0x000C < off) (hoff : off + 4 < 65536) :
    (D.cause b k).reg64 b off i = D.reg64 b off i := by
  rw [DieState.reg64, D.reg_cause_other b k off i (by omega) (by omega),
    D.reg_cause_other b k (off + 4) i hoff (by omega), DieState.reg64]

/-! ## Coalescing (R617) -/

theorem DieState.coalesce_log (D : DieState) (e : Event) :
    (D.coalesce e).log = { D.log with
      coalFirst := some (D.log.coalFirst.getD e.time)
      coalCount := D.log.coalCount + 1
      coalBy := tabMod 0 e.cls (· + 1) D.log.coalBy } := by
  simp [DieState.coalesce]

/-- Above the cause register, coalescing an event changes the two counters that it counts in. -/
theorem DieState.reg64_coalesce (D : DieState) (e : Event) (off i : Nat) (hlow : 0x000C < off) (hoff : off + 4 < 65536) :
    (D.coalesce e).reg64 B_EVL off i =
      ((D.count B_EVL EVL_CLASS_COALESCED 1 e.cls).count B_EVL EVL_COALESCED_TOTAL).reg64 B_EVL off i := by
  rw [DieState.coalesce, DieState.reg64_cause_other _ B_EVL 1 off i hlow hoff]
  rfl

theorem DieState.reg64_coalesce_class (D : DieState) (e : Event) (h : D.Counting B_EVL) :
    (D.coalesce e).reg64 B_EVL EVL_CLASS_COALESCED e.cls =
      min (D.reg64 B_EVL EVL_CLASS_COALESCED e.cls + 1) (2 ^ 64 - 1) := by
  rw [D.reg64_coalesce e _ _ (by decide) (by decide), DieState.reg64_count_other _ _ _ _ _ _ _ (by decide),
    h.reg64_count]

theorem DieState.reg64_coalesce_total (D : DieState) (e : Event) (h : D.Counting B_EVL) :
    (D.coalesce e).reg64 B_EVL EVL_COALESCED_TOTAL = min (D.reg64 B_EVL EVL_COALESCED_TOTAL + 1) (2 ^ 64 - 1) := by
  have hclass : (D.count B_EVL EVL_CLASS_COALESCED 1 e.cls).Counting B_EVL := h.count _ _ _ (by decide) (by decide)
  rw [D.reg64_coalesce e _ _ (by decide) (by decide), hclass.reg64_count,
    DieState.reg64_count_other _ _ _ _ _ _ _ (by decide)]

theorem DieState.reg64_coalesce_other (D : DieState) (e : Event) (off i : Nat) (hlow : 0x000C < off)
    (hclass : Apart EVL_CLASS_COALESCED off) (htotal : Apart EVL_COALESCED_TOTAL off) :
    (D.coalesce e).reg64 B_EVL off i = D.reg64 B_EVL off i := by
  rw [D.reg64_coalesce e off i hlow hclass.2.1, DieState.reg64_count_other _ _ _ _ _ _ _ htotal,
    DieState.reg64_count_other _ _ _ _ _ _ _ hclass]

/-! ## Events -/

/-- The die that has counted an event in its class and noted its time, and has not yet admitted or coalesced it. -/
def DieState.noted (D : DieState) (cls : Nat) : DieState :=
  (D.count B_EVL EVL_CLASS_COUNT 1 cls).setReg64 B_EVL EVL_CLASS_LAST_TIME D.now cls

theorem DieState.noted_log (D : DieState) (cls : Nat) : (D.noted cls).log = D.log := by
  rw [DieState.noted, DieState.setReg64_log, DieState.count_log]

theorem DieState.Counting.noted {D : DieState} (h : D.Counting B_EVL) (cls : Nat) : (D.noted cls).Counting B_EVL :=
  (h.count EVL_CLASS_COUNT 1 cls (by decide) (by decide)).setReg64 EVL_CLASS_LAST_TIME _ cls (by decide) (by decide)

theorem DieState.Counting.reg64_noted_count {D : DieState} (h : D.Counting B_EVL) (cls : Nat) :
    (D.noted cls).reg64 B_EVL EVL_CLASS_COUNT cls = min (D.reg64 B_EVL EVL_CLASS_COUNT cls + 1) (2 ^ 64 - 1) := by
  rw [DieState.noted, DieState.reg64_setReg64_other _ _ _ _ _ _ _ (by decide), h.reg64_count]

theorem DieState.reg64_noted_other (D : DieState) (cls off i : Nat) (hcount : Apart EVL_CLASS_COUNT off)
    (htime : Apart EVL_CLASS_LAST_TIME off) : (D.noted cls).reg64 B_EVL off i = D.reg64 B_EVL off i := by
  rw [DieState.noted, DieState.reg64_setReg64_other _ _ _ _ _ _ _ htime,
    DieState.reg64_count_other _ _ _ _ _ _ _ hcount]

/-- The event as the log takes it: at the die's time, with its severity and the mark of an injection (R613, R615). -/
def DieState.stamped (D : DieState) (e : Event) : Event :=
  { e with time := D.now, sev := if e.sev = 0 then sevOf e.cls e.code else e.sev,
           injection := !D.log.injections.isEmpty || !D.fab.injections.isEmpty }

theorem DieState.stamped_cls (D : DieState) (e : Event) : (D.stamped e).cls = e.cls := rfl

theorem DieState.stamped_time (D : DieState) (e : Event) : (D.stamped e).time = D.now := rfl

/-- An event that finds the intake full is noted, stamped and coalesced (R616). -/
theorem DieState.event_of_full (D : DieState) (e : Event) (hlost : D.log.isLost = false) (hfull : 32 ≤ D.log.intake.length) :
    D.event e = (D.noted e.cls).coalesce (D.stamped e) := by
  have hlost' : ¬ (D.noted e.cls).log.isLost = true := by rw [D.noted_log, hlost]; exact Bool.false_ne_true
  have hfull' : ¬ (D.noted e.cls).log.intake.length < 32 := by rw [D.noted_log]; omega
  exact (if_neg hlost').trans (if_neg hfull')

/-- Settles O59: such an event is noted and coalesced (`event_of_full`); noting counts in EVL_CLASS_COUNT, and coalescing
in the other two counters and in the log's fields of the next summary (`coalesce_log`). -/
theorem coalescedEventsOnlyCount : Obligations.CoalescedEventsOnlyCount := by
  unfold Obligations.CoalescedEventsOnlyCount
  intro D e hlost hfull _ hwf hon
  have hcounting : D.Counting B_EVL := ⟨hwf, hon⟩
  have hnoted := hcounting.noted e.cls
  have hclass := (D.noted e.cls).reg64_coalesce_class (D.stamped e) hnoted
  rw [D.stamped_cls] at hclass
  dsimp only
  rw [D.event_of_full e hlost hfull, DieState.coalesce_log, D.noted_log, D.stamped_time]
  refine ⟨rfl, rfl, rfl, ?_, ?_, ?_, fun hnone => ?_, fun t hsome => ?_⟩
  · rw [hclass, D.reg64_noted_other _ _ _ (by decide) (by decide)]
  · rw [DieState.reg64_coalesce_other _ _ _ _ (by decide) (by decide) (by decide), hcounting.reg64_noted_count]
  · rw [DieState.reg64_coalesce_total _ _ hnoted, D.reg64_noted_other _ _ _ (by decide) (by decide)]
  · rw [hnone, Option.getD_none]
  · rw [hsome, Option.getD_some]

end Sys2Proof.Machine
end

section
/-! PROOFS. The frame of the package: no row but those of the pins changes the levels of the pins; none changes the waiting
commands; and each keeps the flash in order (R461, R464, R620). -/

open Sys2Proof

namespace Sys2Proof.Machine

/-! ## The flash in order -/

/-- Changing what lies beside the audit log and the event rings keeps the flash in order. -/
theorem Flash.InOrder.congr {f g : Flash} (h : f.InOrder) (haudit : g.audit = f.audit) (hseq : g.auditSeq = f.auditSeq)
    (hrings : g.rings = f.rings) : g.InOrder := by
  unfold Flash.InOrder at h ⊢
  rw [haudit, hseq, hrings]
  exact h

theorem Flash.InOrder.apply {f : Flash} (h : f.InOrder) (op : FlashOp) : (f.apply op).InOrder := by
  cases op with
  | image slot bytes =>
    rw [Flash.apply]
    split
    · exact h
    · exact h
  | slot | repair | anchor | instances | staged | plate => exact h

theorem Flash.InOrder.applyAll {f : Flash} (h : f.InOrder) (ops : List FlashOp) : (ops.foldl Flash.apply f).InOrder := by
  induction ops generalizing f with
  | nil => exact h
  | cons op ops ih => exact ih (h.apply op)

/-- A record fits while the area has a free place; it takes the next number. -/
theorem Flash.InOrder.auditPut {f : Flash} (h : f.InOrder) (hfree : f.auditFree ≠ 0) (r : AuditRec) :
    (f.auditPut r).InOrder := by
  obtain ⟨_, hsorted, hbelow, hrings⟩ := h
  have hlen : f.audit.length < 65536 := by unfold Flash.auditFree at hfree; omega
  refine ⟨?_, ?_, ?_, hrings⟩
  · simp only [Flash.auditPut, List.length_append, List.length_singleton]
    omega
  · simp only [Flash.auditPut, List.pairwise_append, List.pairwise_singleton, List.mem_singleton, true_and]
    refine ⟨hsorted, ?_⟩
    rintro x hx y rfl
    exact hbelow x hx
  · simp only [Flash.auditPut, List.mem_append, List.mem_singleton]
    rintro x (hx | rfl)
    · exact Nat.lt_succ_of_lt (hbelow x hx)
    · exact Nat.lt_succ_self _

theorem Flash.InOrder.checkpoint {f : Flash} (h : f.InOrder) (time : Nat) : (f.checkpoint time).InOrder := by
  unfold Flash.checkpoint
  split
  · exact h
  · next hfree => exact h.auditPut hfree _

theorem Flash.InOrder.auditAdd {f : Flash} (h : f.InOrder) (r : AuditRec) (htakes : f.auditTakes r.kind = true) :
    (f.auditAdd r).InOrder := by
  have hfree : f.auditFree ≠ 0 := by
    simp only [Flash.auditTakes, Bool.and_eq_true, bne_iff_ne] at htakes
    exact htakes.1
  unfold Flash.auditAdd
  dsimp only
  split
  · exact (h.auditPut hfree r).checkpoint _
  · exact h.auditPut hfree r

/-- A trim only erases records. -/
theorem Flash.InOrder.auditTrim {f : Flash} (h : f.InOrder) (n : Nat) : (f.auditTrim n).InOrder := by
  obtain ⟨hlen, hsorted, hbelow, hrings⟩ := h
  exact ⟨le_trans (List.length_filter_le _ _) hlen, hsorted.sublist List.filter_sublist,
    fun x hx => hbelow x (List.mem_of_mem_filter hx), hrings⟩

/-- A full ring makes room before it takes a record. -/
theorem ringAppend_length_le (ring new : List EvRec) (h : ring.length ≤ 32768) : (ringAppend ring new).length ≤ 32768 := by
  induction new generalizing ring with
  | nil => exact h
  | cons r new ih =>
    refine ih _ ?_
    dsimp only
    split
    · simp only [List.length_append, List.length_drop, List.length_singleton]; omega
    · simp only [List.length_append, List.length_singleton]; omega

theorem Flash.InOrder.ringOf_length_le {f : Flash} (h : f.InOrder) (d : Nat) : (f.ringOf d).length ≤ 32768 := by
  obtain ⟨_, _, _, hrings⟩ := h
  unfold Flash.ringOf
  split
  · next r hr => exact hrings r (List.mem_of_find?_eq_some hr)
  · exact Nat.zero_le _

theorem Flash.InOrder.putRing {f : Flash} (h : f.InOrder) (d : Nat) (l : List EvRec) (hl : l.length ≤ 32768) :
    (f.putRing d l).InOrder := by
  obtain ⟨hlen, hsorted, hbelow, hrings⟩ := h
  refine ⟨hlen, hsorted, hbelow, ?_⟩
  simp only [Flash.putRing, List.mem_append, List.mem_singleton]
  rintro r (hr | rfl)
  · exact hrings r (List.mem_of_mem_filter hr)
  · exact hl

/-- Records appended to a die's ring keep the flash in order. -/
theorem Flash.InOrder.appendRing {f : Flash} (h : f.InOrder) (d : Nat) (recs : List EvRec) :
    (f.putRing d (ringAppend (f.ringOf d) recs)).InOrder :=
  h.putRing d _ (ringAppend_length_le _ _ (h.ringOf_length_le d))

/-! ## The frame -/

/-- t differs from s in the dies, and in the package only by what no pin gives and what keeps the flash in order. -/
structure State.Tame (s t : State) : Prop where
  pending : t.pending = s.pending
  pwrGood : t.pkg.pwrGood = s.pkg.pwrGood
  resetLow : t.pkg.resetLow = s.pkg.resetLow
  inOrder : s.pkg.flash.InOrder → t.pkg.flash.InOrder

theorem State.Tame.refl (s : State) : s.Tame s := ⟨rfl, rfl, rfl, id⟩

theorem State.Tame.trans {s t u : State} (h : s.Tame t) (h' : t.Tame u) : s.Tame u :=
  ⟨h'.pending.trans h.pending, h'.pwrGood.trans h.pwrGood, h'.resetLow.trans h.resetLow, h'.inOrder ∘ h.inOrder⟩

/-- Other dies. -/
theorem State.Tame.dies {s t : State} (h : s.Tame t) (q : Quad DieState) : s.Tame { t with dies := q } :=
  ⟨h.pending, h.pwrGood, h.resetLow, h.inOrder⟩

theorem State.Tame.onDie {s t : State} (h : s.Tame t) (d : Die) (f : DieState → DieState) : s.Tame (t.onDie d f) := h.dies _

theorem State.Tame.atDie {s t : State} (h : s.Tame t) (a : At) (f : DieState → DieState) : s.Tame (t.atDie a f) := h.dies _

theorem State.Tame.onRunning {s t : State} (h : s.Tame t) (f : DieState → DieState) : s.Tame (t.onRunning f) := h.dies _

theorem State.Tame.replyAt {s t : State} (h : s.Tame t) (d : Die) (c : Cmd) (st : Status) (reason : Nat) (detail : List Byte) :
    s.Tame (t.replyAt d c st reason detail) := h.dies _

/-- Another pull. -/
theorem State.Tame.pull {s t : State} (h : s.Tame t) (p : Option PlatePull) :
    s.Tame { t with pkg := { t.pkg with pull := p } } :=
  ⟨h.pending, h.pwrGood, h.resetLow, h.inOrder⟩

/-- A flash that is in order as before. -/
theorem State.Tame.flash {s t : State} (h : s.Tame t) (f : Flash) (hf : t.pkg.flash.InOrder → f.InOrder) :
    s.Tame { t with pkg := { t.pkg with flash := f } } :=
  ⟨h.pending, h.pwrGood, h.resetLow, hf ∘ h.inOrder⟩

theorem State.Tame.ite {s t u : State} {p : Prop} [Decidable p] (ht : s.Tame t) (hu : s.Tame u) :
    s.Tame (if p then t else u) := by
  split
  · exact ht
  · exact hu

theorem State.Tame.foldl {α : Type} {s t : State} (h : s.Tame t) (f : State → α → State) (hf : ∀ (t : State) x, t.Tame (f t x))
    (l : List α) : s.Tame (l.foldl f t) := by
  induction l generalizing t with
  | nil => exact h
  | cons x l ih => exact ih (h.trans (hf t x))

/-! ## What settles after a row -/

theorem State.settleDie_tame (s : State) (d : Die) : s.Tame (s.settleDie d) := by
  unfold State.settleDie
  dsimp only
  split
  · exact .refl s
  · exact ((State.Tame.refl s).onDie d _).flash _ (fun h => h.applyAll _)

theorem State.settleFlash_tame (s : State) : s.Tame s.settleFlash :=
  (((s.settleDie_tame 0).trans (State.settleDie_tame _ 1)).trans (State.settleDie_tame _ 2)).trans (State.settleDie_tame _ 3)

theorem State.reportWork_tame (s : State) (d : Nat) (w : UpdWork) : s.Tame (s.reportWork d w) := by
  unfold State.reportWork
  dsimp only
  split
  · exact ((State.Tame.refl s).dies _).dies _
  · exact ((State.Tame.refl s).dies _).dies _

theorem State.settleWorks_tame (s : State) : s.Tame s.settleWorks :=
  ((State.Tame.refl s).foldl _ (fun t d => (State.Tame.refl t).foldl _ (fun u w => u.reportWork_tame d w) _) _).dies _

theorem State.settlePtp_tame (s : State) : s.Tame s.settlePtp := (State.Tame.refl s).onRunning _

theorem State.logLostRecord_tame (s : State) (before : Bool) (a : At) : s.Tame (s.logLostRecord before a) := by
  unfold State.logLostRecord
  dsimp only
  split
  · exact (State.Tame.refl s).flash _ (fun h => h.appendRing _ _)
  · exact .refl s

/-! ## The flash, the audit log and flushes -/

theorem State.flushDone_tame (s : State) (a : At) (ok : Bool) : s.Tame (s.flushDone a ok) := by
  unfold State.flushDone
  dsimp only
  split
  · exact .refl s
  · split
    · exact ((State.Tame.refl s).onDie _ _).flash _ (fun h => h.appendRing _ _)
    · exact (State.Tame.refl s).onDie _ _

theorem State.auditHigh_tame (s : State) (before : Nat) : s.Tame (s.auditHigh before) := by
  unfold State.auditHigh
  exact ((State.Tame.refl s).onDie _ _).ite (.refl s)

theorem State.auditDurable_tame (s : State) (d : Die) : s.Tame (s.auditDurable d) := by
  unfold State.auditDurable
  split
  · exact .refl s
  · next p rest _ =>
    dsimp only
    split
    · next htakes =>
      rw [Bool.and_eq_true] at htakes
      refine State.Tame.trans ?_ (State.auditHigh_tame _ _)
      refine State.Tame.onDie (State.Tame.flash ((State.Tame.refl s).onDie _ _) _ (fun h => ?_)) _ _
      split
      · refine Flash.InOrder.auditTrim ?_ _
        exact h.auditAdd _ htakes.2
      · exact h.auditAdd _ htakes.2
    · exact ((State.Tame.refl s).onDie _ _).onDie _ _

theorem State.endRevoked_tame (s : State) : s.Tame s.endRevoked := (State.Tame.refl s).dies _

end Sys2Proof.Machine
end

section
/-! PROOFS. The rows of the package keep its frame: tables and updates, plates and waggles, the ring, injections, service mode,
frames, the boot, and register reads. -/

open Sys2Proof

namespace Sys2Proof.Machine

/-! ## Tables and updates -/

theorem State.hotRow_tame (s : State) (d t : Nat) (x : TabSlot) (k : Nat) (far : List Byte) :
    s.Tame (s.hotRow d t x k far).1 := by
  unfold State.hotRow
  extract_lets D rs
  split
  · exact .refl s
  · split
    · exact .refl s
    · split
      · exact .refl s
      · split
        · exact (State.Tame.refl s).dies _
        · exact (State.Tame.refl s).dies _

theorem State.hotRows_tame (s : State) (d t : Nat) (x : TabSlot) (far : List (List Byte)) :
    s.Tame (s.hotRows d t x far).1 := by
  unfold State.hotRows
  refine List.foldlRecOn (motive := fun st : State × List (List Byte) => s.Tame st.1) _ _ (State.Tame.refl s) ?_
  exact fun st h i _ => h.trans (State.hotRow_tame st.1 d t x _ _)

theorem State.loadDone_tame (s : State) (a : At) (t : Nat) (b : Bool) (far : List (List Byte)) :
    s.Tame (s.loadDone a t b far) := by
  have hat : s.Tame (s.atDie a (fun D => D)) := (State.Tame.refl s).atDie a _
  unfold State.loadDone
  dsimp only
  refine State.Tame.onDie ?_ _ _
  split
  · exact hat.trans (State.hotRows_tame _ _ _ _ _)
  · exact hat

theorem State.takePosting_tame (s : State) (p : Nat × Nat × Nat × Nat) : s.Tame (s.takePosting p) := by
  unfold State.takePosting
  split
  · exact .refl s
  · exact (State.Tame.refl s).dies _

theorem State.passPostings_tame (s : State) (d : Die) : s.Tame (s.passPostings d) :=
  ((State.Tame.refl s).onDie d _).foldl _ (fun t p => t.takePosting_tame p) _

theorem State.shareWorks_tame (s : State) : s.Tame s.shareWorks := by
  unfold State.shareWorks
  refine (State.Tame.refl s).foldl _ (fun t d => (State.Tame.refl t).foldl _ (fun u w => ?_) _) _
  dsimp only
  split
  · exact ((State.Tame.refl u).dies _).dies _
  · split
    · exact ((State.Tame.refl u).dies _).dies _
    · exact ((State.Tame.refl u).dies _).dies _

theorem State.applyWork_tame (s : State) (a : At) : s.Tame (s.applyWork a) := by
  unfold State.applyWork
  dsimp only
  split
  · exact (State.Tame.refl s).onDie _ _
  · split
    · exact (State.Tame.refl s).onDie _ _
    · exact (State.Tame.refl s).onDie _ _

theorem State.forward_tame (s : State) (a : At) : s.Tame (s.forward a) := by
  have put (D : DieState) : s.Tame (s.onDie a.die (fun _ => D)) := (State.Tame.refl s).onDie _ _
  unfold State.forward
  dsimp only
  split
  · exact put _
  · split
    · exact put _
    · split
      · exact put _
      · split
        · exact put _
        · split
          · exact put _
          · exact (put _).ite (put _)

/-! ## Commands of the package -/

theorem State.runCmd_tame (s : State) (a : At) (op id : Nat) (body : Cmd → State → State)
    (hbody : ∀ c (t : State), t.Tame (body c t)) : s.Tame (s.runCmd a op id body) := by
  have hat : s.Tame (s.atDie a (fun D => D)) := (State.Tame.refl s).atDie a _
  unfold State.runCmd
  dsimp only
  split
  · exact hat
  · split
    · split
      · split
        · exact hat.onDie _ _
        · exact hat.onDie _ _
      · exact hat.trans (hbody _ _)
    · exact hat

theorem State.stageImage_tame (s : State) (image : List Byte) : s.Tame (s.stageImage image) := by
  unfold State.stageImage
  exact ((State.Tame.refl s).foldl _ (fun t d => (State.Tame.refl t).dies _) _).flash _ (fun h => h)

theorem State.plateStage_tame (s : State) (d : Die) (c : Cmd) : s.Tame (s.plateStage d c) := by
  have h : s.Tame s := .refl s
  unfold State.plateStage
  dsimp only
  split
  · exact h.replyAt ..
  · split
    · split
      · exact h.onDie _ _
      · exact (h.onDie _ _).replyAt ..
    · split
      · exact (h.onDie _ _).replyAt ..
      · exact ((h.onDie _ _).trans (State.stageImage_tame _ _)).replyAt ..

theorem State.plateSwitch_tame (s : State) (d : Die) (c : Cmd) : s.Tame (s.plateSwitch d c) := by
  have h : s.Tame s := .refl s
  unfold State.plateSwitch
  dsimp only
  split
  · exact h.replyAt ..
  · split
    · exact h.replyAt ..
    · split
      · exact h.replyAt ..
      · exact ((h.onRunning _).replyAt ..).ite (h.replyAt ..)

theorem State.plateAbort_tame (s : State) (d : Die) (c : Cmd) : s.Tame (s.plateAbort d c) := by
  have h : s.Tame s := .refl s
  unfold State.plateAbort
  dsimp only
  split
  · exact h.replyAt ..
  · split
    · exact ((h.onRunning _).replyAt ..).ite (h.replyAt ..)
    · exact h.replyAt ..

theorem State.activateAll_tame (s : State) (now : Nat) : s.Tame (s.activateAll now) := by
  have h : s.Tame s := .refl s
  unfold State.activateAll
  split
  · exact h.onRunning _
  · dsimp only
    refine State.Tame.trans ?_ (State.settleWorks_tame _)
    refine (h.onRunning _).flash _ (fun hf => ?_)
    split
    · exact hf
    · exact Flash.InOrder.checkpoint (f := { s.pkg.flash with plate := s.pkg.flash.staged, staged := [] }) hf _

theorem State.plateStatus_tame (s : State) (d : Die) (c : Cmd) : s.Tame (s.plateStatus d c) := (State.Tame.refl s).replyAt ..

theorem State.portStatus_tame (s : State) (d : Die) (c : Cmd) : s.Tame (s.portStatus d c) := by
  unfold State.portStatus
  exact ((State.Tame.refl s).replyAt ..).ite ((State.Tame.refl s).replyAt ..)

theorem State.portEnable_tame (s : State) (d : Die) (c : Cmd) : s.Tame (s.portEnable d c) := by
  have h : s.Tame s := .refl s
  unfold State.portEnable
  exact (h.replyAt ..).ite ((h.replyAt ..).ite ((h.replyAt ..).ite ((h.dies _).replyAt ..)))

theorem State.linkInject_tame (s : State) (d : Die) (c : Cmd) (rivals : List Nat) : s.Tame (s.linkInject d c rivals) := by
  have h : s.Tame s := .refl s
  unfold State.linkInject
  dsimp only
  split
  · exact h.replyAt ..
  · split
    · exact h.replyAt ..
    · split
      · exact h.replyAt ..
      · split
        · exact h.replyAt ..
        · exact h.replyAt ..
        · exact (h.onDie _ _).replyAt ..

theorem State.release_tame (s : State) (d : Nat) (x : LinkInj) (h : Nat × Bool × Packet) : s.Tame (s.release d x h) := by
  unfold State.release
  dsimp only
  split
  · exact (State.Tame.refl s).dies _
  · exact (State.Tame.refl s).dies _
  · exact (State.Tame.refl s).dies _
  · exact (State.Tame.refl s).dies _

theorem State.endLinks_tame (s : State) (d : Nat) (p : LinkInj → Bool) : s.Tame (s.endLinks d p) := by
  unfold State.endLinks
  exact (State.Tame.refl s).foldl _
    (fun t (e : Nat × LinkInj) => ((State.Tame.refl t).dies _).foldl _ (fun u h => u.release_tame d e.2 h) _) _

theorem State.linkStop_tame (s : State) (d : Die) (c : Cmd) : s.Tame (s.linkStop d c) := by
  unfold State.linkStop
  exact ((s.endLinks_tame _ _).replyAt ..).ite ((State.Tame.refl s).replyAt ..)

theorem State.releaseDelayed_tame (s : State) (d now : Nat) : s.Tame (s.releaseDelayed d now) := by
  unfold State.releaseDelayed
  exact (State.Tame.refl s).foldl _
    (fun t (e : Nat × LinkInj) => ((State.Tame.refl t).dies _).foldl _ (fun u h => u.release_tame d e.2 h) _) _

theorem State.expireLinks_tame (s : State) (d now : Nat) : s.Tame (s.expireLinks d now) :=
  (s.releaseDelayed_tame d now).trans (State.endLinks_tame _ _ _)

theorem State.endInjections_tame (s : State) (d : Die) : s.Tame (s.endInjections d) :=
  ((State.Tame.refl s).onDie d _).foldl _ (fun t e => t.endLinks_tame e _) _

theorem State.leaveService_tame (s : State) (d : Die) : s.Tame (s.leaveService d) :=
  ((s.endInjections_tame d).onDie d _).trans (State.settleWorks_tame _)

theorem State.serviceExit_tame (s : State) (d : Die) (c : Cmd) : s.Tame (s.serviceExit d c) := by
  unfold State.serviceExit
  exact ((State.Tame.refl s).replyAt ..).ite (((State.Tame.refl s).replyAt ..).trans (State.leaveService_tame _ d))

theorem State.serviceExpire_tame (s : State) (a : At) : s.Tame (s.serviceExpire a) := by
  have hat : s.Tame (s.atDie a (fun D => D)) := (State.Tame.refl s).atDie a _
  unfold State.serviceExpire
  dsimp only
  split
  · exact hat
  · exact (hat.trans (State.leaveService_tame _ _)).ite hat

/-! ## Waggles and pulls -/

theorem State.scheduleRejoin_tame (s : State) (now : Nat) : s.Tame (s.scheduleRejoin now) :=
  ((State.Tame.refl s).onRunning _).pull none

theorem State.askChunk_tame (s : State) : s.Tame s.askChunk := by
  unfold State.askChunk
  split
  · exact .refl s
  · exact (State.Tame.refl s).dies _

theorem State.startPull_tame (s : State) (now : Nat) (tried : List Nat) : s.Tame (s.startPull now tried) := by
  have h : s.Tame s := .refl s
  unfold State.startPull
  dsimp only
  split
  · exact ((h.onRunning _).pull _).trans (State.askChunk_tame _)
  · exact ((h.onRunning _).pull _).trans (State.askChunk_tame _)
  · exact (h.onRunning _).pull none

theorem State.startRejoin_tame (s : State) (now epoch : Nat) (digest : List Byte) : s.Tame (s.startRejoin now epoch digest) := by
  unfold State.startRejoin
  dsimp only
  exact (State.Tame.refl s).ite ((s.scheduleRejoin_tame now).ite ((State.Tame.refl s).ite (s.startPull_tame now [])))

theorem State.quarantine_tame (s : State) (d : Die) (now : Nat) : s.Tame (s.quarantine d now) := by
  unfold State.quarantine
  exact (State.Tame.refl s).ite (((State.Tame.refl s).onRunning _).onDie _ _)

theorem State.admission_tame (s : State) (d : Die) : s.Tame (s.admission d) := by
  unfold State.admission
  dsimp only
  exact (((State.Tame.refl s).onRunning _).onDie _ _).ite (.refl s)

theorem State.comparePlate_tame (s : State) (a : At) (port : Nat) (b : List Byte) : s.Tame (s.comparePlate a port b) := by
  have h : s.Tame s := .refl s
  unfold State.comparePlate
  dsimp only
  split
  · exact h
  · split
    · exact (h.onDie _ _).trans (State.admission_tame _ _)
    · split
      · exact h.onDie _ _
      · split
        · exact ((h.onDie _ _).trans (State.quarantine_tame _ _ _)).trans (State.startRejoin_tame _ _ _ _)
        · split
          · exact ((h.onDie _ _).onDie _ _).trans (State.quarantine_tame _ _ _)
          · exact h.onDie _ _

theorem State.waggleReceive_tame (s : State) (a : At) (port : Nat) (rx : Int) : s.Tame (s.waggleReceive a port rx) := by
  have hat : s.Tame (s.atDie a (fun D => D)) := (State.Tame.refl s).atDie a _
  unfold State.waggleReceive
  dsimp only
  split
  · exact hat
  · split
    · exact hat.onDie _ _
    · split
      · exact (hat.onDie _ _).onDie _ _
      · exact (((hat.onDie _ _).onDie _ _).trans (State.comparePlate_tame _ _ _ _)).onDie _ _

theorem State.platePacket_tame (s : State) (a : At) : s.Tame (s.platePacket a) := by
  have hat : s.Tame (s.atDie a (fun D => D)) := (State.Tame.refl s).atDie a _
  unfold State.platePacket
  dsimp only
  split
  · exact hat
  · next p D _ =>
    have htake := hat.onDie a.die (fun _ => D)
    split
    · split
      · exact (htake.onDie _ _).ite htake
      · exact htake
    · split
      · split
        · exact ((htake.pull _).trans (State.askChunk_tame _)).ite (htake.pull _)
        · exact htake
      · exact htake

theorem State.pullTimeout_tame (s : State) (now : Nat) : s.Tame (s.pullTimeout now) := by
  unfold State.pullTimeout
  split
  · exact .refl s
  · exact (State.Tame.refl s).ite (s.startPull_tame now _)

theorem State.pullDone_tame (s : State) (a : At) : s.Tame (s.pullDone a) := by
  have h : s.Tame s := .refl s
  unfold State.pullDone
  dsimp only
  split
  · exact h
  · split
    · exact h
    · split
      · exact s.startPull_tame _ _
      · split
        · exact ((h.pull none).onRunning _).onDie _ _
        · exact (s.stageImage_tame _).trans (State.scheduleRejoin_tame _ _)

/-! ## The ring -/

theorem State.ringReceive_tame (s : State) (a : At) (m : Nat) : s.Tame (s.ringReceive a m) := by
  have hat : s.Tame (s.atDie a (fun D => D)) := (State.Tame.refl s).atDie a _
  unfold State.ringReceive
  dsimp only
  split
  · exact hat
  · exact (hat.dies _).onDie _ _

theorem State.linkOff_tame (s : State) (l : Nat) : s.Tame (s.linkOff l) := by
  unfold State.linkOff
  exact (State.Tame.refl s).ite ((State.Tame.refl s).onRunning _)

theorem State.moduleDown_tame (s : State) (d m state cause : Nat) : s.Tame (s.moduleDown d m state cause) := by
  unfold State.moduleDown
  dsimp only
  exact ((s.linkOff_tame _).dies _).ite (((s.linkOff_tame _).dies _).dies _)

theorem State.moduleFail_tame (s : State) (a : At) (m cause : Nat) : s.Tame (s.moduleFail a m cause) := by
  have hat : s.Tame (s.atDie a (fun D => D)) := (State.Tame.refl s).atDie a _
  unfold State.moduleFail
  dsimp only
  split
  · exact hat
  · exact ((hat.trans (State.moduleDown_tame _ _ _ _ _)).onDie _ _).trans (State.settleWorks_tame _)

theorem State.linkOn_tame (s : State) (d m : Nat) : s.Tame (s.linkOn d m) := by
  unfold State.linkOn
  exact ((State.Tame.refl s).onRunning _).ite (.refl s)

theorem State.moduleHold_tame (s : State) (a : At) (m : Nat) : s.Tame (s.moduleHold a m) := by
  have hat : s.Tame (s.atDie a (fun D => D)) := (State.Tame.refl s).atDie a _
  unfold State.moduleHold
  exact ((hat.onDie _ _).trans (State.linkOn_tame _ _ _)).ite hat

theorem State.d2dRetrain_tame (s : State) (a : At) (r : Req) (v : Nat) : s.Tame (s.d2dRetrain a r v) := by
  have hat : s.Tame (s.atDie a (fun D => D)) := (State.Tame.refl s).atDie a _
  unfold State.d2dRetrain
  dsimp only
  split
  · exact hat
  · split
    · exact hat
    · split
      · exact (hat.onDie _ _).ite
          (((hat.onDie _ _).trans (State.moduleDown_tame _ _ _ _ _)).trans (State.settleWorks_tame _))
      · exact hat.onDie _ _

theorem State.dropModule_tame (s : State) (d m : Nat) : s.Tame (s.dropModule d m) := by
  unfold State.dropModule
  exact (State.Tame.refl s).ite (s.moduleDown_tame _ _ _ _)

/-! ## Frames, resets and the boot -/

theorem State.frameBoundary_tame (s : State) (a : At) : s.Tame (s.frameBoundary a) := by
  have hat : s.Tame (s.atDie a (fun D => D)) := (State.Tame.refl s).atDie a _
  unfold State.frameBoundary
  dsimp only
  exact hat.ite ((((hat.onDie _ _).trans (State.activateAll_tame _ _)).onDie _ _).trans (State.settleWorks_tame _))

theorem State.allReset_tame (s : State) (k : ResetKind) (causes : Nat) : s.Tame (s.allReset k causes) :=
  ((State.Tame.refl s).dies _).pull none

/-- THERMTRIP# is an output of a die. -/
theorem State.Tame.thermtrip {s t : State} (h : s.Tame t) (old : State) (d : Die) : s.Tame (State.thermtrip old d t) := by
  unfold State.thermtrip
  exact h.ite (h.onDie _ _)

theorem State.leaveReset_tame (s : State) (bad : Nat) : s.Tame (s.leaveReset bad) := by
  unfold State.leaveReset
  exact (State.Tame.refl s).ite ((State.Tame.refl s).dies _)

theorem State.packageReset_tame (s : State) (a : At) (r : Req) (v bad : Nat) : s.Tame (s.packageReset a r v bad) := by
  have hat : s.Tame (s.atDie a (fun D => D)) := (State.Tame.refl s).atDie a _
  unfold State.packageReset
  dsimp only
  split
  · exact hat
  · split
    · exact ((hat.trans (State.allReset_tame _ _ _)).trans (State.leaveReset_tame _ _)).thermtrip s _
    · exact hat.onDie _ _

theorem State.dieRelease_tame (s : State) (a : At) : s.Tame (s.dieRelease a) := by
  have hat : s.Tame (s.atDie a (fun D => D)) := (State.Tame.refl s).atDie a _
  unfold State.dieRelease
  dsimp only
  split
  · exact hat
  · exact ((hat.onDie _ _).thermtrip s _).ite hat

theorem State.dieLost_tame (s : State) (a : At) (d : Nat) : s.Tame (s.dieLost a d) := by
  have hat : s.Tame (s.atDie a (fun D => D)) := (State.Tame.refl s).atDie a _
  have drop {t : State} (h : s.Tame t) (m : Nat) : s.Tame (if ringPeer a.die.val m = d then t.dropModule a.die.val m else t) :=
    (h.trans (t.dropModule_tame _ _)).ite h
  unfold State.dieLost
  dsimp only
  exact hat.ite ((drop (drop (hat.onDie _ _) 0) 1).trans (State.settleWorks_tame _))

theorem State.strapReceive_tame (s : State) (a : At) (p : Nat) : s.Tame (s.strapReceive a p) := by
  have hat : s.Tame (s.atDie a (fun D => D)) := (State.Tame.refl s).atDie a _
  unfold State.strapReceive
  exact hat.ite (hat.onDie _ _)

theorem State.strapLate_tame (s : State) (a : At) : s.Tame (s.strapLate a) := by
  have hat : s.Tame (s.atDie a (fun D => D)) := (State.Tame.refl s).atDie a _
  unfold State.strapLate
  dsimp only
  exact hat.ite (((hat.onRunning _).onDie _ _).ite (hat.onDie _ _))

theorem State.mainband_tame (s : State) (d : Nat) : s.Tame (s.mainband d) :=
  (((State.Tame.refl s).dies _).trans (State.linkOn_tame _ _ _)).trans (State.linkOn_tame _ _ _)

theorem State.bootImage_tame (s : State) (d : Die) (bad : Bool) : s.Tame (s.bootImage d bad) := by
  have h : s.Tame s := .refl s
  have next (f : DieState → DieState) : s.Tame ((s.onDie d f).mainband d.val) := (h.onDie d f).trans (State.mainband_tame _ _)
  unfold State.bootImage
  dsimp only
  split
  · split
    · exact next _
    · exact h.onDie _ _
  · split
    · exact h.ite (h.onDie _ _)
    · split
      · exact h
      · split
        · exact (h.onDie _ _).ite (h.onDie _ _)
        · exact next _

theorem State.bootFirmware_tame (s : State) (d : Die) (anchorsBad : Bool) : s.Tame (s.bootFirmware d anchorsBad) := by
  have hflash (f : Flash) (hf : s.pkg.flash.InOrder → f.InOrder) (g : DieState → DieState) :
      s.Tame (({ s with pkg := { s.pkg with flash := f } } : State).onDie d g) :=
    ((State.Tame.refl s).flash f hf).onDie d g
  have hanchors : s.pkg.flash.InOrder →
      (if d = 0 ∧ anchorsBad then { s.pkg.flash with anchors := [] } else s.pkg.flash).InOrder := by
    intro h
    split
    · exact h
    · exact h
  unfold State.bootFirmware
  dsimp only
  split
  · exact (hflash _ hanchors _).onRunning _
  · exact (hflash _ hanchors _).ite ((hflash _ hanchors _).onDie _ _)

theorem State.bootConfig_tame (s : State) (d : Die) : s.Tame (s.bootConfig d) :=
  ((State.Tame.refl s).onDie d _).onRunning _

theorem State.bootAdvance_tame (s : State) (a : At) (digestBad anchorsBad : Bool) :
    s.Tame (s.bootAdvance a digestBad anchorsBad) := by
  have hat : s.Tame (s.atDie a (fun D => D)) := (State.Tame.refl s).atDie a _
  unfold State.bootAdvance
  dsimp only
  split
  · exact hat
  · split
    · exact hat.ite (hat.onDie _ _)
    · exact (hat.onDie _ _).ite (hat.onDie _ _)
    · exact (hat.onDie _ _).ite (hat.ite (hat.onDie _ _))
    · exact (hat.onDie _ _).ite (((hat.onDie _ _).onDie _ _).ite hat)
    · exact hat.trans (State.bootImage_tame _ _ _)
    · exact hat.trans (State.bootFirmware_tame _ _ _)
    · exact hat.trans (State.bootConfig_tame _ _)
    · exact hat

theorem State.bootTimeout_tame (s : State) (a : At) : s.Tame (s.bootTimeout a) := by
  have hat : s.Tame (s.atDie a (fun D => D)) := (State.Tame.refl s).atDie a _
  unfold State.bootTimeout
  dsimp only
  exact hat.ite (((hat.onDie _ _).onRunning _).trans (State.settleWorks_tame _))

theorem State.ctrl_tame (s : State) (a : At) (r : Req) (b v : Nat) : s.Tame (s.ctrl a r b v) := by
  have hat (f : DieState → DieState) : s.Tame (s.atDie a f) := (State.Tame.refl s).atDie a f
  unfold State.ctrl
  exact (s.packageReset_tame a r v 0).ite ((s.d2dRetrain_tame a r v).ite
    ((((hat _).trans (State.settleFlash_tame _)).trans (State.settleWorks_tame _)).ite (hat _)))

/-! ## Register reads -/

theorem State.csrGet_tame (s : State) (a : At) (r : Req) (b off : Nat) (body : State → DieState → Nat × DieState) :
    s.Tame (s.csrGet a r b off body) := by
  have hat : s.Tame (s.atDie a (fun D => D)) := (State.Tame.refl s).atDie a _
  unfold State.csrGet
  dsimp only
  exact hat.ite ((hat.onDie _ _).ite ((hat.onDie _ _).ite ((hat.onDie _ _).ite (hat.onDie _ _))))

end Sys2Proof.Machine
end

section
/-! PROOFS. What every command does to the package: one change of its own die, the frame of the rows of the package, the levels
of the pins; and the invariants of the pins and the flash. -/

open Sys2Proof

namespace Sys2Proof.Machine

/-! ## The shapes of the rows -/

/-- A row of one die is a change of that die. -/
theorem exec_eq_onDie (i : Instr) (s : State) (hwide : i.isWide = false) (hpin : i.isPin = false) :
    ∃ f, exec i s = onDie i.at s f := by
  cases i with
  | reg64LowRead | reg64HighRead | clearCounters | powerOn | pwrGoodFall | pkgResetAssert | pkgResetRelease | glbPackageReset
  | bootStageAdvance | bootReadyTimeout | strapValueReceive | strapLateArrival | dieLost | dieResetRelease | dieTempSample
  | ethFrameRx | ptpSyncTimeout | frameBoundary | safetyMerge | doubtRaise | safetyIslandRestart | flrReceive
  | safetyServiceExit | serviceModeExpire | tableLoadDone | tablePrefetch | tableUpdate | updateRecordsApply
  | fabResponseReceive | platePacketReceive | fabPacketForward | waggleReceive | tagTimeout | plateStage | plateSwitch
  | plateSwitchAtT | plateAbort | plateStatus | portStatus | portEnable | platePullTimeout | platePullDone | linkInject
  | linkInjectStop | injectionExpire | d2dPacketReceive | ucieModuleFail | ucieHoldExpire | d2dRequestTimeout | d2dRetrain
  | insCommit | instanceReset | auditRecordDurable | fwStage | fwActivate | repairEdit | safetyInject | anchorSet
  | eventWrite | evlCopyScrub | faultInject | evlFlushComplete => cases hwide
  | railSample | refclkLoss | ethrefLoss | perstAssert | perstDeassert | referenceInputReturn => cases hpin
  | _ => exact ⟨_, rfl⟩

/-- A die that is held carries out no row but those of the pins, the rails and the sensors (R600). -/
theorem exec_held (i : Instr) (s : State) (hpin : i.isPin = false) (h : (s.die i.at.die).boot.held = true) :
    exec i s = .next s := by
  cases i with
  | powerOn | pwrGoodFall | pkgResetAssert | pkgResetRelease | dieResetRelease | railSample | dieTempSample | refclkLoss
  | ethrefLoss | perstAssert | perstDeassert | referenceInputReturn => cases hpin
  | _ => exact if_pos h

/-- A row that does not reach a held die, and that keeps the package's frame on a running one. -/
theorem tame_of_running {s t : State} {p : Prop} [Decidable p] (h : s.Tame t) :
    ∃ u, (if p then Host.Outcome.next s else .next t : Out) = .next u ∧ s.Tame u := by
  split
  · exact ⟨s, rfl, .refl s⟩
  · exact ⟨t, rfl, h⟩

theorem onDie_tame (a : At) (s : State) (f : DieState → DieState) : ∃ t, onDie a s f = .next t ∧ s.Tame t :=
  tame_of_running ((State.Tame.refl s).atDie a f)

theorem onWorks_tame (a : At) (s : State) (f : DieState → DieState) : ∃ t, onWorks a s f = .next t ∧ s.Tame t :=
  tame_of_running (((State.Tame.refl s).atDie a f).trans (State.settleWorks_tame _))

theorem onPtp_tame (a : At) (s : State) (f : DieState → DieState) : ∃ t, onPtp a s f = .next t ∧ s.Tame t :=
  tame_of_running (((State.Tame.refl s).atDie a f).trans (State.settlePtp_tame _))

theorem onLog_tame (a : At) (s : State) (f : DieState → DieState) : ∃ t, onLog a s f = .next t ∧ s.Tame t :=
  tame_of_running (((State.Tame.refl s).atDie a f).trans (State.logLostRecord_tame _ _ a))

theorem onFlash_tame (a : At) (s : State) (f : DieState → DieState) : ∃ t, onFlash a s f = .next t ∧ s.Tame t :=
  tame_of_running (((State.Tame.refl s).atDie a f).trans (State.settleFlash_tame _))

theorem onCmd_tame (a : At) (op id : Nat) (s : State) (body : Cmd → State → State) (h : ∀ c (t : State), t.Tame (body c t)) :
    ∃ t, onCmd a op id s body = .next t ∧ s.Tame t :=
  tame_of_running ((s.runCmd_tame a op id body h).trans (State.settleFlash_tame _))

theorem execUpdateRecordsApply_tame (a : At) (far : Option FarUpdate) (s : State) :
    ∃ t, execUpdateRecordsApply a far s = .next t ∧ s.Tame t := by
  unfold execUpdateRecordsApply
  split
  · exact ⟨s, rfl, .refl s⟩
  · split
    · exact ⟨_, rfl, (s.applyWork_tame a).trans (State.settleWorks_tame _)⟩
    · exact ⟨_, rfl, ((State.Tame.refl s).atDie a _).trans (State.settleWorks_tame _)⟩
    · exact ⟨_, rfl, (State.Tame.refl s).atDie a _⟩

/-- Every row but those of the pins keeps the frame of the package. -/
theorem exec_tame (i : Instr) (s : State) (hpin : i.isPin = false) : ∃ t, exec i s = .next t ∧ s.Tame t := by
  have hat (a : At) (f : DieState → DieState) : s.Tame (s.atDie a f) := (State.Tame.refl s).atDie a f
  cases i with
  | powerOn | pwrGoodFall | pkgResetAssert | pkgResetRelease | dieResetRelease | railSample | dieTempSample | refclkLoss
  | ethrefLoss | perstAssert | perstDeassert | referenceInputReturn => cases hpin
  | reg64LowRead a => exact tame_of_running (s.csrGet_tame a _ _ _ _)
  | reg64HighRead a => exact tame_of_running (s.csrGet_tame a _ _ _ _)
  | clearCounters a => exact tame_of_running ((s.ctrl_tame a _ _ _).ite (hat a _))
  | glbPackageReset a => exact tame_of_running (s.packageReset_tame a _ _ _)
  | bootStageAdvance a => exact tame_of_running (s.bootAdvance_tame a _ _)
  | bootReadyTimeout a => exact tame_of_running (s.bootTimeout_tame a)
  | strapValueReceive a => exact tame_of_running (s.strapReceive_tame a _)
  | strapLateArrival a => exact tame_of_running (s.strapLate_tame a)
  | dieLost a => exact tame_of_running (s.dieLost_tame a _)
  | ethFrameRx a | ptpSyncTimeout a => exact onPtp_tame a s _
  | frameBoundary a => exact tame_of_running (s.frameBoundary_tame a)
  | safetyMerge a | doubtRaise a | safetyIslandRestart a | flrReceive a | fabResponseReceive a | tagTimeout a
  | d2dRequestTimeout a | instanceReset a => exact onWorks_tame a s _
  | safetyServiceExit a id => exact onCmd_tame a _ id s _ (fun c t => t.serviceExit_tame a.die c)
  | serviceModeExpire a => exact tame_of_running (s.serviceExpire_tame a)
  | tableLoadDone a => exact tame_of_running (s.loadDone_tame a _ _ _)
  | tablePrefetch a => exact tame_of_running ((hat a _).trans (State.passPostings_tame _ a.die))
  | tableUpdate a => exact tame_of_running (((hat a _).trans (State.shareWorks_tame _)).trans (State.settleWorks_tame _))
  | updateRecordsApply a far => exact execUpdateRecordsApply_tame a far s
  | platePacketReceive a => exact tame_of_running (s.platePacket_tame a)
  | fabPacketForward a => exact tame_of_running (s.forward_tame a)
  | waggleReceive a => exact tame_of_running (s.waggleReceive_tame a _ _)
  | plateStage a id => exact onCmd_tame a _ id s _ (fun c t => t.plateStage_tame a.die c)
  | plateSwitch a id => exact onCmd_tame a _ id s _ (fun c t => t.plateSwitch_tame a.die c)
  | plateSwitchAtT a => exact tame_of_running ((hat a _).trans (State.activateAll_tame _ _))
  | plateAbort a id => exact onCmd_tame a _ id s _ (fun c t => t.plateAbort_tame a.die c)
  | plateStatus a id => exact onCmd_tame a _ id s _ (fun c t => t.plateStatus_tame a.die c)
  | portStatus a id => exact onCmd_tame a _ id s _ (fun c t => t.portStatus_tame a.die c)
  | portEnable a id => exact onCmd_tame a _ id s _ (fun c t => t.portEnable_tame a.die c)
  | platePullTimeout a => exact tame_of_running ((hat a _).trans (State.pullTimeout_tame _ _))
  | platePullDone a => exact tame_of_running ((hat a _).trans (State.pullDone_tame _ a))
  | linkInject a id rivals => exact onCmd_tame a _ id s _ (fun c t => t.linkInject_tame a.die c rivals)
  | linkInjectStop a id => exact onCmd_tame a _ id s _ (fun c t => t.linkStop_tame a.die c)
  | injectionExpire a => exact tame_of_running ((hat a _).trans (State.expireLinks_tame _ _ _))
  | d2dPacketReceive a => exact tame_of_running (s.ringReceive_tame a _)
  | ucieModuleFail a => exact tame_of_running (s.moduleFail_tame a _ _)
  | ucieHoldExpire a => exact tame_of_running (s.moduleHold_tame a _)
  | d2dRetrain a => exact tame_of_running (s.d2dRetrain_tame a _ _)
  | insCommit a => exact tame_of_running (((hat a _).trans (State.settleFlash_tame _)).trans (State.settleWorks_tame _))
  | auditRecordDurable a => exact tame_of_running ((hat a _).trans (State.auditDurable_tame _ a.die))
  | fwStage a | fwActivate a | repairEdit a => exact onFlash_tame a s _
  | anchorSet a => exact tame_of_running (((hat a _).trans (State.settleFlash_tame _)).trans (State.endRevoked_tame _))
  | safetyInject a | eventWrite a | evlCopyScrub a | faultInject a => exact onLog_tame a s _
  | evlFlushComplete a => exact tame_of_running (s.flushDone_tame a _)
  | _ => exact onDie_tame _ s _

end Sys2Proof.Machine
end

section
/-! PROOFS. Steps, the frames of the commands, and the invariants of the pins and of the flash (R600, R640-R642, R461, R464,
R620). -/

open Sys2Proof

namespace Sys2Proof.Machine

/-- Settles O1: the two cases of `step`. -/
theorem stepRunsTheFrontCommand : Obligations.StepRunsTheFrontCommand := by
  unfold Obligations.StepRunsTheFrontCommand
  refine ⟨fun s c rest => rfl, fun s hidle => ?_⟩
  rw [step, hidle]

/-! ## Commands of one die -/

theorem quadSet_quadGet {α : Type} (q : Quad α) (d : Die) : quadSet q d.val (quadGet q d.val) = q := by
  match d with
  | 0 => rfl
  | 1 => rfl
  | 2 => rfl
  | 3 => rfl

/-- The die put back as it stands. -/
theorem State.put_self (s : State) (a : At) : s.put a (s.die a.die) = s := by
  unfold State.put State.onDie quadMod
  rw [show s.die a.die = quadGet s.dies a.die.val from rfl, quadSet_quadGet]

theorem State.atDie_eq_put (s : State) (a : At) (f : DieState → DieState) : s.atDie a f = s.put a (f (s.dieAt a)) := rfl

/-- Settles O52: a row of one die is a change of that die (`exec_eq_onDie`); of the rows of pins, rails and sensors those
of one die change it whether it runs or not. -/
theorem commandsStayOnTheirDie : Obligations.CommandsStayOnTheirDie := by
  unfold Obligations.CommandsStayOnTheirDie
  intro i s hwide
  cases hpin : i.isPin with
  | false =>
    obtain ⟨f, hf⟩ := exec_eq_onDie i s hwide hpin
    obtain hheld | ⟨_, hrun⟩ := onDie_cases i.at s f
    · exact ⟨_, by rw [hf, hheld, State.put_self]⟩
    · exact ⟨_, by rw [hf, hrun]⟩
  | true =>
    cases i with
    | railSample | refclkLoss | ethrefLoss | perstAssert | perstDeassert | referenceInputReturn =>
      exact ⟨_, congrArg Host.Outcome.next (s.atDie_eq_put _ _)⟩
    | powerOn | pwrGoodFall | pkgResetAssert | pkgResetRelease | dieResetRelease | dieTempSample => cases hwide
    | _ => cases hpin

/-- Settles O51, by `exec_held`. -/
theorem heldDiesIgnoreCommands : Obligations.HeldDiesIgnoreCommands := by
  unfold Obligations.HeldDiesIgnoreCommands
  exact exec_held

/-! ## The rows of the pins, the rails and the sensors -/

/-- The fields that the package keeps apart from its pins, and the invariant of the pins, over a step. -/
structure State.PinStep (s t : State) : Prop where
  pending : t.pending = s.pending
  flash : t.pkg.flash = s.pkg.flash
  pinsHold : s.PinsHoldDies → t.PinsHoldDies

theorem State.PinStep.refl (s : State) : s.PinStep s := ⟨rfl, rfl, id⟩

theorem State.die_atDie_same (s : State) (a : At) (f : DieState → DieState) : (s.atDie a f).die a.die = f (s.dieAt a) :=
  State.die_onDie_same s a.die _

theorem State.die_atDie_other (s : State) (a : At) (f : DieState → DieState) (d : Die) (h : d ≠ a.die) :
    (s.atDie a f).die d = s.die d :=
  State.die_onDie_other s a.die d _ h

theorem State.die_quadMap (s : State) (f : DieState → DieState) (d : Die) :
    ({ s with dies := quadMap f s.dies } : State).die d = f (s.die d) := by
  match d with
  | 0 => rfl
  | 1 => rfl
  | 2 => rfl
  | 3 => rfl

theorem State.atDie_pkg (s : State) (a : At) (f : DieState → DieState) : (s.atDie a f).pkg = s.pkg := rfl

theorem State.atDie_pending (s : State) (a : At) (f : DieState → DieState) : (s.atDie a f).pending = s.pending := rfl

/-- A row of one die that leaves it held where it is held. -/
theorem State.PinStep.atDie {s t : State} (h : s.PinStep t) (a : At) (f : DieState → DieState)
    (hf : ∀ D, D.boot.held = true → (f D).boot.held = true) : s.PinStep (t.atDie a f) := by
  refine ⟨h.pending, h.flash, fun hs hlow d => ?_⟩
  have hheld := h.pinsHold hs hlow
  by_cases hd : d = a.die
  · subst hd
    rw [State.die_atDie_same]
    exact hf _ (hheld a.die)
  · rw [State.die_atDie_other _ _ _ _ hd]
    exact hheld d

theorem State.thermtrip_pkg (old : State) (d : Die) (s : State) : (State.thermtrip old d s).pkg = s.pkg := by
  unfold State.thermtrip
  dsimp only
  split <;> rfl

theorem State.thermtrip_pending (old : State) (d : Die) (s : State) : (State.thermtrip old d s).pending = s.pending := by
  unfold State.thermtrip
  dsimp only
  split <;> rfl

theorem State.thermtrip_boot (old : State) (d e : Die) (s : State) :
    ((State.thermtrip old d s).die e).boot = (s.die e).boot := by
  unfold State.thermtrip
  dsimp only
  split
  · rfl
  · by_cases he : e = d
    · rw [he, State.die_onDie_same, DieState.out_boot]
    · rw [State.die_onDie_other _ _ _ _ he]

theorem State.PinStep.thermtrip {s t : State} (h : s.PinStep t) (old : State) (d : Die) :
    s.PinStep (State.thermtrip old d t) := by
  refine ⟨(State.thermtrip_pending old d t).trans h.pending, ?_, fun hs hlow e => ?_⟩
  · rw [State.thermtrip_pkg, h.flash]
  · rw [State.thermtrip_pkg] at hlow
    rw [State.thermtrip_boot]
    exact h.pinsHold hs hlow e

theorem State.leaveReset_pkg (s : State) (bad : Nat) : (s.leaveReset bad).pkg = s.pkg := by
  unfold State.leaveReset
  split <;> rfl

/-- The package leaves reset only while both pins are high. -/
theorem State.leaveReset_of_low (s : State) (bad : Nat) (h : s.pkg.pwrGood = false ∨ s.pkg.resetLow = true) :
    s.leaveReset bad = s := by
  unfold State.leaveReset
  rw [if_pos (by simpa using h)]

theorem State.PinsHoldDies.leaveReset {s : State} (h : s.PinsHoldDies) (bad : Nat) : (s.leaveReset bad).PinsHoldDies := by
  intro hlow
  rw [State.leaveReset_pkg] at hlow
  rw [s.leaveReset_of_low bad hlow]
  exact h hlow

theorem DieState.inReset_held (D : DieState) (k : ResetKind) (causes : Nat) : (D.inReset k causes).boot.held = true := by
  unfold DieState.inReset
  by_cases hkeep : k = .package ∧ D.boot.held = true ∧ D.boot.dieReset = true
  · obtain ⟨rfl, hheld, hreset⟩ := hkeep
    simp [hheld, hreset]
  · simp only [if_neg hkeep]
    split <;> rfl

/-- Every die is held in a reset of the package. -/
theorem State.allReset_pinsHold (s : State) (k : ResetKind) (causes : Nat) : (s.allReset k causes).PinsHoldDies := by
  intro _ d
  rw [show (s.allReset k causes).die d = (s.die d).inReset k causes from s.die_quadMap (fun D => D.inReset k causes) d]
  exact DieState.inReset_held _ _ _

theorem State.powerOn_pinStep (s : State) (a : At) (bad : Nat) (test : Bool) : s.PinStep (s.powerOn a bad test) := by
  unfold State.powerOn
  split
  · exact .refl s
  · next hoff =>
    refine State.PinStep.thermtrip ⟨?_, ?_, fun hs => State.PinsHoldDies.leaveReset (fun _ d => ?_) bad⟩ s a.die
    · exact (State.leaveReset_tame _ bad).pending
    · rw [State.leaveReset_pkg]
    · exact hs (.inl (by simpa using hoff)) d

theorem State.powerFall_pinStep (s : State) (a : At) : s.PinStep (s.powerFall a) := by
  unfold State.powerFall
  split
  · exact .refl s
  · refine State.PinStep.thermtrip (s := s) ?_ s a.die
    exact ⟨rfl, rfl, fun _ => State.allReset_pinsHold _ _ _⟩

theorem State.resetPin_pinStep (s : State) (a : At) : s.PinStep (s.resetPin a) := by
  unfold State.resetPin
  dsimp only
  split
  · exact .refl s
  · split
    · refine State.PinStep.thermtrip (s := s) ?_ s a.die
      exact ⟨rfl, rfl, fun _ => State.allReset_pinsHold _ _ _⟩
    · next hoff => exact ⟨rfl, rfl, fun hs _ d => hs (.inl (by simpa using hoff)) d⟩

theorem State.resetRise_pinStep (s : State) (a : At) (bad : Nat) : s.PinStep (s.resetRise a bad) := by
  unfold State.resetRise
  split
  · exact .refl s
  · next hlow =>
    have hrise : s.PinStep ({ s with pkg := { s.pkg with resetLow := false } } : State) :=
      ⟨rfl, rfl, fun hs _ => hs (.inr (by simpa using hlow))⟩
    have hat := hrise.atDie a (fun D => D) (fun _ h => h)
    refine ⟨(State.leaveReset_tame _ bad).pending, ?_, fun hs => (hat.pinsHold hs).leaveReset bad⟩
    rw [State.leaveReset_pkg]
    rfl

/-- The release of a die's reset asks that both pins are high. -/
theorem State.dieRelease_pinStep (s : State) (a : At) : s.PinStep (s.dieRelease a) := by
  have hat : s.PinStep (s.atDie a (fun D => D)) := (State.PinStep.refl s).atDie a _ (fun _ h => h)
  unfold State.dieRelease
  dsimp only
  split
  · exact hat
  · split
    · next hrelease =>
      simp only [Bool.and_eq_true, Bool.not_eq_true'] at hrelease
      obtain ⟨⟨⟨_, hgood⟩, hhigh⟩, _⟩ := hrelease
      refine State.PinStep.thermtrip (s := s) ?_ s a.die
      refine ⟨rfl, rfl, fun _ hlow => ?_⟩
      rw [State.onDie_pkg, State.atDie_pkg, hgood, hhigh] at hlow
      simp at hlow
    · exact hat

theorem DieState.railHeld_held (D : DieState) (rails : List (Nat × Nat × Nat)) (h : D.boot.held = true) :
    (D.railHeld rails).boot.held = true := by
  unfold DieState.railHeld
  split <;> exact h

theorem DieState.tempHeld_held (D : DieState) (die opt0 opt1 : Option Nat) (h : D.boot.held = true) :
    (D.tempHeld die opt0 opt1).boot.held = true := by
  unfold DieState.tempHeld
  split <;> exact h

theorem DieState.pinRef_held (D : DieState) (input : Nat) (present : Bool) (h : D.boot.held = true) :
    (D.pinRef input present).boot.held = true := h

/-- The rows of the pins, the rails and the sensors. -/
theorem exec_pinStep (i : Instr) (s : State) (hpin : i.isPin = true) : ∃ t, exec i s = .next t ∧ s.PinStep t := by
  have held (a : At) (f g : DieState → DieState) (hf : ∀ D, D.boot.held = true → (f D).boot.held = true) :
      s.PinStep (s.atDie a (fun D => if D.boot.held then f D else g D)) :=
    (State.PinStep.refl s).atDie a _ (fun D h => by rw [if_pos h]; exact hf D h)
  cases i with
  | powerOn a bad test => exact ⟨_, rfl, s.powerOn_pinStep a bad test⟩
  | pwrGoodFall a => exact ⟨_, rfl, s.powerFall_pinStep a⟩
  | pkgResetAssert a => exact ⟨_, rfl, s.resetPin_pinStep a⟩
  | pkgResetRelease a bad => exact ⟨_, rfl, s.resetRise_pinStep a bad⟩
  | dieResetRelease a => exact ⟨_, rfl, s.dieRelease_pinStep a⟩
  | railSample a rails => exact ⟨_, rfl, held a _ _ (fun D => D.railHeld_held rails)⟩
  | dieTempSample a die opt0 opt1 =>
    exact ⟨_, rfl, (held a _ _ (fun D => D.tempHeld_held die opt0 opt1)).thermtrip s a.die⟩
  | refclkLoss a input => exact ⟨_, rfl, held a _ _ (fun D => D.pinRef_held _ _)⟩
  | ethrefLoss a => exact ⟨_, rfl, held a _ _ (fun D => D.pinRef_held _ _)⟩
  | perstAssert a => exact ⟨_, rfl, held a _ _ (fun _ h => h)⟩
  | perstDeassert a => exact ⟨_, rfl, held a _ _ (fun _ h => h)⟩
  | referenceInputReturn a => exact ⟨_, rfl, held a _ _ (fun D => D.pinRef_held _ _)⟩
  | _ => cases hpin

/-! ## Steps -/

/-- Settles O50, by the frames of the two kinds of rows. -/
theorem everyCommandAnswers : Obligations.EveryCommandAnswers := by
  unfold Obligations.EveryCommandAnswers
  intro i s
  cases hpin : i.isPin with
  | false =>
    obtain ⟨t, hexec, hframe⟩ := exec_tame i s hpin
    exact ⟨t, hexec, hframe.pending⟩
  | true =>
    obtain ⟨t, hexec, hframe⟩ := exec_pinStep i s hpin
    exact ⟨t, hexec, hframe.pending⟩

/-- A row that no pin gives leaves the pins; while one is low every die is held, so the row does nothing. -/
theorem exec_pinsHold_of_not_pin (i : Instr) (s t : State) (hpin : i.isPin = false) (h : s.PinsHoldDies)
    (hexec : exec i s = .next t) : t.PinsHoldDies := by
  obtain ⟨u, hu, hframe⟩ := exec_tame i s hpin
  obtain rfl : u = t := by rw [hu] at hexec; injection hexec
  intro hlow
  rw [hframe.pwrGood, hframe.resetLow] at hlow
  have hheld := exec_held i s hpin (h hlow i.at.die)
  rw [hu] at hheld
  injection hheld with hsame
  rw [hsame]
  exact h hlow

/-- Every command keeps the invariant of the pins. -/
theorem exec_pinsHold (i : Instr) (s t : State) (h : s.PinsHoldDies) (hexec : exec i s = .next t) : t.PinsHoldDies := by
  cases hpin : i.isPin with
  | false => exact exec_pinsHold_of_not_pin i s t hpin h hexec
  | true =>
    obtain ⟨u, hu, hframe⟩ := exec_pinStep i s hpin
    obtain rfl : u = t := by rw [hu] at hexec; injection hexec
    exact hframe.pinsHold h

/-- Every command keeps the flash in order. -/
theorem exec_inOrder (i : Instr) (s t : State) (h : s.pkg.flash.InOrder) (hexec : exec i s = .next t) :
    t.pkg.flash.InOrder := by
  cases hpin : i.isPin with
  | false =>
    obtain ⟨u, hu, hframe⟩ := exec_tame i s hpin
    obtain rfl : u = t := by rw [hu] at hexec; injection hexec
    exact hframe.inOrder h
  | true =>
    obtain ⟨u, hu, hframe⟩ := exec_pinStep i s hpin
    obtain rfl : u = t := by rw [hu] at hexec; injection hexec
    rw [hframe.flash]
    exact h

/-- A property of the package that every command keeps, and that does not speak of the waiting commands, is kept by every
step. -/
theorem step_keeps (P : State → Prop) (hP : ∀ (s : State) (rest : List Instr), P s → P { s with pending := rest })
    (hexec : ∀ i s t, P s → exec i s = .next t → P t) (s t : State) (h : P s) (hstep : step s = .next t) : P t := by
  unfold step at hstep
  split at hstep
  · injection hstep with hsame
    rw [← hsame]
    exact h
  · exact hexec _ _ _ (hP s _ h) hstep

/-- Settles O54, by `exec_pinsHold`. -/
theorem pinsHoldDiesIsKept : Obligations.PinsHoldDiesIsKept := by
  unfold Obligations.PinsHoldDiesIsKept
  exact step_keeps State.PinsHoldDies (fun _ _ h => h) exec_pinsHold

/-- Settles O55, by `exec_inOrder`. -/
theorem flashInOrderIsKept : Obligations.FlashInOrderIsKept := by
  unfold Obligations.FlashInOrderIsKept
  exact step_keeps (fun s => s.pkg.flash.InOrder) (fun _ _ h => h) exec_inOrder

end Sys2Proof.Machine
end

section
/-! PROOFS. The machine after reset (R600), and the counters of a block (R13, R623). -/

open Sys2Proof

namespace Sys2Proof.Machine

/-! ## Reset -/

theorem State.reset_die (d : Die) : State.reset.die d = { num := d.val } := by
  match d with
  | 0 => rfl
  | 1 => rfl
  | 2 => rfl
  | 3 => rfl

/-- A register that is not listed reads its reset value. -/
theorem regDefault_regKey (b off i : Nat) (hb : b < 65536) (hoff : off < 65536) :
    regDefault (regKey b off i) = BitVec.ofNat 32 (regReset b off) := by
  have hblock : regKey b off i % 2 ^ 32 / 65536 = b := by unfold regKey; omega
  have hoffset : regKey b off i % 65536 = off := by unfold regKey; omega
  rw [regDefault, hblock, hoffset]

/-- While every die is held the pins may be at any level. -/
theorem State.reset_pinsHold : State.reset.PinsHoldDies := fun _ d => by rw [State.reset_die]

theorem Flash.inOrder_empty : ({} : Flash).InOrder :=
  ⟨Nat.zero_le _, List.Pairwise.nil, fun _ hx => absurd hx List.not_mem_nil, fun _ hr => absurd hr List.not_mem_nil⟩

/-- Settles O53: each die is the one of `State.reset_die`. -/
theorem invariantsHoldAtReset : Obligations.InvariantsHoldAtReset := by
  unfold Obligations.InvariantsHoldAtReset
  refine ⟨rfl, rfl, State.reset_pinsHold, Flash.inOrder_empty, fun d => ?_⟩
  rw [State.reset_die]
  refine ⟨rfl, rfl, fun b off sel hb hoff => ?_, rfl, rfl, fun c => ?_⟩
  · rw [DieState.reg, show tabGetF regDefault ({ num := d.val } : DieState).csr.regs (regKey b off sel) =
      regDefault (regKey b off sel) from rfl, regDefault_regKey b off sel hb hoff, BitVec.toNat_ofNat]
  · unfold quadGet
    split <;> rfl

/-! ## Counters -/

theorem regKey_ne_of_ne (b off i b' off' i' : Nat) (hb : b < 65536) (hoff : off < 65536) (hb' : b' < 65536)
    (hoff' : off' < 65536) (h : ¬ (b' = b ∧ off' = off ∧ i' = i)) : regKey b' off' i' ≠ regKey b off i := by
  rw [ne_eq, regKey_inj b' off' i' b off i hoff' hoff hb' hb]
  exact h

/-- A 64-bit counter that counts changes its own two words alone. -/
theorem DieState.reg_setReg64_elsewhere (D : DieState) (b off v i b' off' i' : Nat) (hb : b < 65536)
    (hoff : off + 4 < 65536) (hb' : b' < 65536) (hoff' : off' < 65536)
    (h : ¬ (b' = b ∧ i' = i ∧ (off' = off ∨ off' = off + 4))) : (D.setReg64 b off v i).reg b' off' i' = D.reg b' off' i' := by
  have hhigh := regKey_ne_of_ne b (off + 4) i b' off' i' hb (by omega) hb' hoff' (fun e => h ⟨e.1, e.2.2, .inr e.2.1⟩)
  have hlow := regKey_ne_of_ne b off i b' off' i' hb (by omega) hb' hoff' (fun e => h ⟨e.1, e.2.2, .inl e.2.1⟩)
  rw [DieState.setReg64, DieState.reg_setReg_other _ _ _ _ _ _ _ _ hhigh, DieState.reg_setReg_other _ _ _ _ _ _ _ _ hlow]

theorem DieState.count32_of_counts (D : DieState) (b off n i : Nat) (h : D.counts b = true) :
    D.count32 b off n i = D.setReg b off (satAdd 32 (D.reg b off i) n) i := if_pos h

theorem DieState.count_of_not_counts (D : DieState) (b off n i : Nat) (h : D.counts b = false) : D.count b off n i = D :=
  if_neg (by rw [h]; exact Bool.false_ne_true)

theorem DieState.count32_of_not_counts (D : DieState) (b off n i : Nat) (h : D.counts b = false) :
    D.count32 b off n i = D :=
  if_neg (by rw [h]; exact Bool.false_ne_true)

/-- A 32-bit counter adds, and stops at its largest value (R623). -/
theorem DieState.Counting.reg_count32 {D : DieState} {b : Nat} (h : D.Counting b) (off n i : Nat) :
    (D.count32 b off n i).reg b off i = min (D.reg b off i + n) (2 ^ 32 - 1) := by
  obtain ⟨hwf, hon⟩ := h
  rw [D.count32_of_counts b off n i hon, D.reg_setReg_same b off _ i hwf, satAdd]
  omega

/-- Settles O58: while the block does not count nothing changes; while it counts the counter's own words take the sum, and
every other register has another key. -/
theorem countersSaturate : Obligations.CountersSaturate := by
  unfold Obligations.CountersSaturate
  intro D b off n sel hwf hb hoff
  cases hon : D.counts b with
  | false =>
    rw [D.count_of_not_counts b off n sel hon, D.count32_of_not_counts b off n sel hon]
    exact ⟨fun _ => ⟨rfl, rfl⟩, fun h => absurd h (by decide), hwf, hwf, fun _ _ _ _ _ _ => ⟨rfl, rfl⟩⟩
  | true =>
    have hcounting : D.Counting b := ⟨hwf, hon⟩
    refine ⟨fun h => absurd h (by decide), fun _ => ⟨hcounting.reg64_count off n sel, hcounting.reg_count32 off n sel⟩, ?_⟩
    rw [D.count_of_counts b off n sel hon, D.count32_of_counts b off n sel hon]
    refine ⟨D.setReg64_wf b off _ sel hwf, D.setReg_wf b off _ sel hwf, fun b' off' sel' hb' hoff' hne => ⟨?_, ?_⟩⟩
    · exact D.reg_setReg64_elsewhere b off _ sel b' off' sel' hb hoff hb' hoff' hne
    · exact D.reg_setReg_other b off _ sel b' off' sel'
        (regKey_ne_of_ne b off sel b' off' sel' hb (by omega) hb' hoff' (fun e => hne ⟨e.1, e.2.2, .inl e.2.1⟩))

end Sys2Proof.Machine
end

section
/-! PROOFS. Registers: the access codes (R15), 64-bit registers (R13), selection copies (R443), control writes (R623). -/

open Sys2Proof

namespace Sys2Proof.Machine

/-! ## Rows of one die and of the package -/

/-- What a command of one die makes of a running die. -/
theorem onDie_eq {a : At} {s : State} {f : DieState → DieState} {E : DieState} (hup : s.up a) (hf : f (s.dieAt a) = E) :
    onDie a s f = .next (s.put a E) := by
  rw [onDie_up a s f hup, hf]

/-- What a row of the package makes of it, from a running die. -/
theorem running_eq {a : At} {s t u : State} (hup : s.up a) (h : t = u) :
    (if (s.die a.die).boot.held = true then .next s else .next t : Out) = .next u := by
  rw [if_neg (by rw [hup]; exact Bool.false_ne_true), h]

/-- The package as a command finds it. -/
theorem State.atDie_id (s : State) (a : At) : s.atDie a (fun D => D) = s.put a (s.dieAt a) := rfl

theorem State.put_put (s : State) (a : At) (D E : DieState) : (s.put a D).put a E = s.put a E := by
  unfold State.put State.onDie quadMod
  match a.die with
  | 0 => rfl
  | 1 => rfl
  | 2 => rfl
  | 3 => rfl

/-! ## The access codes (R15) -/

theorem andNot_zero (n : Nat) : andNot n 0 = n := by
  rw [andNot, show Nat.land n 0 = n &&& 0 from rfl, Nat.and_zero, Nat.sub_zero]

theorem andN_zero (n : Nat) : andN n 0 = 0 := Nat.and_zero n

theorem orN_zero (n : Nat) : orN n 0 = n := Nat.or_zero n

theorem regIndex_fieldsFor (D : DieState) (r : Req) (q b : Nat) (d : RegDesc) :
    D.regIndex q b (fieldsFor r b d) = D.regIndex q b d := by
  unfold fieldsFor
  split <;> rfl

theorem fieldsFor_rwl (r : Req) (b : Nat) (d : RegDesc) : (fieldsFor r b d).rwl = d.rwl := by
  unfold fieldsFor
  split <;> rfl

theorem fieldsFor_rw_of_zero (r : Req) (b : Nat) (d : RegDesc) (h : d.rw = 0) : (fieldsFor r b d).rw = 0 := by
  unfold fieldsFor
  split
  · rfl
  · exact h

theorem fieldsFor_w1c_of_zero (r : Req) (b : Nat) (d : RegDesc) (h : d.w1c = 0) : (fieldsFor r b d).w1c = 0 := by
  unfold fieldsFor
  split
  · rfl
  · exact h

/-- Bits that no one may write stay, but for those that a 1 clears. -/
theorem fieldWrite_of_not_writable (w : RegDesc) (committed : Bool) (old v : Nat) (hrw : w.rw = 0)
    (hrwl : committed = true ∨ w.rwl = 0) : fieldWrite w committed old v = andNot old (andN v w.w1c) := by
  have hlocked : (if committed then 0 else w.rwl) = 0 := by
    split
    · rfl
    · next h => exact hrwl.resolve_left h
  simp only [fieldWrite, hrw, hlocked, orN_zero, andN_zero, andNot_zero]

/-- The value that a register of the descriptor takes: fields by their codes, within the register's bounds. -/
def regTakes (w : RegDesc) (committed : Bool) (b off old v : Nat) : Nat :=
  if (w.rw = 0 ∧ w.rwl = 0) ∨ fieldWrite w committed old v = old then fieldWrite w committed old v
  else heldValue b off (fieldWrite w committed old v)

theorem regTakes_of_read_only (w : RegDesc) (committed : Bool) (b off old v : Nat) (hrw : w.rw = 0) (hrwl : w.rwl = 0) :
    regTakes w committed b off old v = andNot old (andN v w.w1c) := by
  rw [regTakes, if_pos (.inl ⟨hrw, hrwl⟩), fieldWrite_of_not_writable w committed old v hrw (.inr hrwl)]

theorem regTakes_of_committed (w : RegDesc) (b off old v : Nat) (hrw : w.rw = 0) (hw1c : w.w1c = 0) :
    regTakes w true b off old v = old := by
  have hkept : fieldWrite w true old v = old := by
    rw [fieldWrite_of_not_writable w true old v hrw (.inl rfl), hw1c, andN_zero, andNot_zero]
  rw [regTakes, if_pos (.inr hkept), hkept]

@[simp] theorem DieState.enableRaise_rol (D : DieState) (b off old : Nat) : (D.enableRaise b off old).rol = D.rol := by
  unfold DieState.enableRaise
  split
  · rw [DieState.msix_rol]
  · rfl

@[simp] theorem DieState.lookTimed_rol (D : DieState) (b : Nat) : (D.lookTimed b).rol = D.rol := by
  unfold DieState.lookTimed
  split <;> rfl

theorem DieState.committed_congr {D E : DieState} (h : E.rol = D.rol) (b : Nat) : E.committed b = D.committed b := by
  unfold DieState.committed
  rw [h]

/-- A write of a register that holds no committed RWL field records nothing. -/
theorem DieState.rwlTouch_of_open (D : DieState) (r : Req) (b off : Nat) (d : RegDesc) (h : d.rwl = 0 ∨ D.committed b = false) :
    D.rwlTouch r b off d = D := by
  unfold DieState.rwlTouch
  rw [if_neg]
  rintro ⟨hrwl, hcommitted⟩
  obtain h | h := h
  · exact hrwl h
  · rw [h] at hcommitted
    cases hcommitted

theorem DieState.rwlTouch_of_committed (D : DieState) (r : Req) (b off : Nat) (d : RegDesc) (hrwl : d.rwl ≠ 0)
    (h : D.committed b = true) : D.rwlTouch r b off d = D.rwlEvent r b off := if_pos ⟨hrwl, h⟩

/-- The die at which a register of block b is written: a control register's counters of cycles are looked at first. -/
def DieState.looked (D : DieState) (b off : Nat) : DieState := if off = 0x0004 then D.lookTimed b else D

theorem DieState.looked_rol (D : DieState) (b off : Nat) : (D.looked b off).rol = D.rol := by
  unfold DieState.looked
  split
  · exact D.lookTimed_rol b
  · rfl

/-- The register of descriptor d at off takes a write. -/
def DieState.regTake (D : DieState) (r : Req) (b off : Nat) (d : RegDesc) (v : Nat) : DieState :=
  let i := D.regIndex r.id b d
  let old := D.reg b off i
  ((D.looked b off).setReg b off (regTakes (fieldsFor r b d) (D.committed b) b off old v) i).enableRaise b off old

theorem DieState.regTake_rol (D : DieState) (r : Req) (b off : Nat) (d : RegDesc) (v : Nat) :
    (D.regTake r b off d v).rol = D.rol := by
  unfold DieState.regTake
  rw [DieState.enableRaise_rol, DieState.setReg_rol, D.looked_rol]

/-- A write by the access codes: the register takes its bits, and a committed RWL field records the write. -/
theorem DieState.csrFields_eq (D : DieState) (r : Req) (b off v : Nat) (d : RegDesc) (h : regDesc b off = some d) :
    D.csrFields r b off v = (D.regTake r b off d v).rwlTouch r b off d := by
  have htake (w : RegDesc) (c : Bool) (old : Nat) : (if w.rw = 0 ∧ w.rwl = 0 then fieldWrite w c old v
      else if fieldWrite w c old v = old then fieldWrite w c old v else heldValue b off (fieldWrite w c old v)) =
      regTakes w c b off old v := by
    unfold regTakes
    split_ifs <;> simp_all
  have htouch (E : DieState) : E.rwlTouch r b off (fieldsFor r b d) = E.rwlTouch r b off d := by
    unfold DieState.rwlTouch
    rw [fieldsFor_rwl]
  unfold DieState.csrFields
  rw [h]
  dsimp only
  rw [htouch, htake, regIndex_fieldsFor]
  rfl

theorem DieState.csrFields_of_open (D : DieState) (r : Req) (b off v : Nat) (d : RegDesc) (h : regDesc b off = some d)
    (hopen : d.rwl = 0 ∨ D.committed b = false) : D.csrFields r b off v = D.regTake r b off d v := by
  rw [D.csrFields_eq r b off v d h, DieState.rwlTouch_of_open]
  rwa [DieState.committed_congr (D.regTake_rol r b off d v)]

theorem DieState.csrFields_of_committed (D : DieState) (r : Req) (b off v : Nat) (d : RegDesc) (h : regDesc b off = some d)
    (hrwl : d.rwl ≠ 0) (hcommitted : D.committed b = true) :
    D.csrFields r b off v = (D.regTake r b off d v).rwlEvent r b off := by
  rw [D.csrFields_eq r b off v d h, DieState.rwlTouch_of_committed _ _ _ _ _ hrwl]
  rwa [DieState.committed_congr (D.regTake_rol r b off d v)]

/-! ## Writes of one word -/

/-- A write of a register that is none of those with effects of their own. -/
theorem DieState.writeWord_plain (D : DieState) (r : Req) (b off v : Nat) (hport : ¬ (b = B_FAB ∧ off = FAB_PORT_CTRL))
    (hadmin : ¬ (b = B_CMD ∧ off = CMD_ADMIN_CFG)) (hreplay : ¬ (b = B_STP ∧ off = STP_CTRL)) :
    D.writeWord r b off v = D.csrWrite r b off v := by
  unfold DieState.writeWord
  rw [if_neg hport, if_neg hadmin, if_neg hreplay]

theorem DieState.csrWrite_hole (D : DieState) (r : Req) (b off v : Nat) (h : regDesc b off = none)
    (hadmit : D.admits r b off true) : D.csrWrite r b off v = D.touchSession r := by
  unfold DieState.csrWrite
  rw [h]
  exact D.csrDo_admitted r b off id hadmit

theorem DieState.csrWrite_word (D : DieState) (r : Req) (b off v : Nat) (d : RegDesc) (h : regDesc b off = some d)
    (hsel : isSelReg b off = false) (h64 : d.w64 = false) (hadmit : D.admits r b off true) :
    D.csrWrite r b off v =
      if b = B_INS ∧ d.off = INS_DATA then (D.touchSession r).writeInsData r off v
      else (D.touchSession r).csrFields r b off v := by
  unfold DieState.csrWrite
  rw [h]
  dsimp only
  rw [hsel, h64, if_neg (by decide), D.csrDo_admitted r b off _ hadmit]

/-- Settles O2: at a register the write is `csrFields`, whose bits are `regTakes`. -/
theorem csrWriteFollowsTheAccessCodes : Obligations.CsrWriteFollowsTheAccessCodes := by
  unfold Obligations.CsrWriteFollowsTheAccessCodes
  intro s a r b off v hup hadmit hport hreplay hadmin
  have hrow (E : DieState) (hE : (s.dieAt a).csrWrite r b off v.toNat = E) :
      exec (.csrWrite a r b off v) s = .next (s.put a E) :=
    onDie_eq hup (by rw [DieState.writeWord_plain _ _ _ _ _ hport hadmin hreplay, hE])
  refine ⟨fun hnone => hrow _ ((s.dieAt a).csrWrite_hole r b off _ hnone hadmit), fun d hd hsel h64 hins => ?_⟩
  have hfields (E : DieState) (hE : ((s.dieAt a).touchSession r).csrFields r b off v.toNat = E) :
      exec (.csrWrite a r b off v) s = .next (s.put a E) :=
    hrow E (by rw [(s.dieAt a).csrWrite_word r b off _ d hd hsel h64 hadmit, if_neg hins, hE])
  refine ⟨fun hopen => ?_, fun hrwl hrw => ?_, fun hrwl hcommitted => ⟨fun hrw hw1c => ?_, ?_⟩⟩
  · exact hfields _ (DieState.csrFields_of_open _ r b off _ d hd hopen)
  · refine hfields _ ?_
    rw [DieState.csrFields_of_open _ r b off _ d hd (.inl hrwl), DieState.regTake,
      regTakes_of_read_only _ _ _ _ _ _ (fieldsFor_rw_of_zero r b d hrw) (by rw [fieldsFor_rwl, hrwl])]
    rfl
  · rw [hcommitted]
    exact regTakes_of_committed _ b off _ _ (fieldsFor_rw_of_zero r b d hrw) (fieldsFor_w1c_of_zero r b d hw1c)
  · exact hfields _ (DieState.csrFields_of_committed _ r b off _ d hd hrwl hcommitted)

end Sys2Proof.Machine
end

section
/-! PROOFS. 64-bit registers (R13), the selection copies of a requester (R443), and control registers (R623, R467, R509). -/

open Sys2Proof

namespace Sys2Proof.Machine

/-! ## Writes of 64-bit registers (R13) -/

theorem DieState.holdHalf_rol (D : DieState) (r : Req) (b off : Nat) (v : Word) : (D.holdHalf r b off v).rol = D.rol := rfl

/-- A half that reaches its register leaves its event where a committed RWL field stands. -/
theorem DieState.rwlTouch_cases {D E : DieState} (hE : E.rol = D.rol) (r : Req) (b off : Nat) (d : RegDesc) :
    (d.rwl = 0 ∨ D.committed b = false → E.rwlTouch r b off d = E) ∧
    (d.rwl ≠ 0 → D.committed b = true → E.rwlTouch r b off d = E.rwlEvent r b off) := by
  rw [← DieState.committed_congr hE]
  exact ⟨E.rwlTouch_of_open r b off d, E.rwlTouch_of_committed r b off d⟩

theorem exec_reg64LowWrite (s : State) (a : At) (r : Req) (b off : Nat) (v : Word) (d : RegDesc) (hup : s.up a)
    (hd : regDesc b off = some d) (h64 : d.w64 = true) (hlow : off % 8 = d.off % 8) (hadmit : (s.dieAt a).admits r b off true) :
    exec (.reg64LowWrite a r b off v) s =
      .next (s.put a ((((s.dieAt a).touchSession r).holdHalf r b off v).rwlTouch r b off d)) := by
  refine onDie_eq hup ?_
  rw [hd]
  dsimp only
  rw [h64, hlow, beq_self_eq_true, if_pos (by decide), DieState.csrDo_admitted _ r b off _ hadmit]

/-- A held half is used once. -/
def DieState.halfUsed (D : DieState) (r : Req) (b off : Nat) : DieState :=
  { D with csr := { D.csr with halves := D.csr.halves.filter (fun h => !(h.req == r.id && h.block == b && h.off + 4 == off)) } }

/-- The low half that a write of the high half commits. -/
def DieState.lowHalf (D : DieState) (r : Req) (b off : Nat) (d : RegDesc) : Nat :=
  match D.heldHalf r b off with
  | some h => h.low.toNat
  | none => D.reg b off (D.regIndex r.id b d)

theorem exec_reg64HighWrite (s : State) (a : At) (r : Req) (b off : Nat) (v : Word) (d : RegDesc) (hup : s.up a)
    (hd : regDesc b off = some d) (h64 : d.w64 = true) (hhigh : off % 8 ≠ d.off % 8) (hadmit : (s.dieAt a).admits r b off true)
    (hseg : ¬ (blockKind b = some .cst ∧ d.off = CST_SEG_ON)) :
    exec (.reg64HighWrite a r b off v) s = .next (s.put a (DieState.halfUsed
      (let D := (s.dieAt a).touchSession r
       if D.baseFixed r b (off - 4) then
         D.event { cls := 6, code := 0x07, island := 1, inst := some (D.sel r.id B_CMD CMD_ADMIN_SEL % 8) }
       else D.commit64 r b d (off - 4) (D.lowHalf r b (off - 4) d + v.toNat * 2 ^ 32)) r b off)) := by
  have hnot : ¬ ((!d.w64 || off % 8 == d.off % 8) = true) := by
    rw [h64, beq_false_of_ne hhigh]
    exact Bool.false_ne_true
  refine onDie_eq hup ?_
  unfold DieState.writeHigh
  rw [hd]
  dsimp only
  rw [if_neg hnot, DieState.csrDo_admitted _ r b off _ hadmit]
  simp only [if_neg hseg]
  rfl

/-- Both halves take their bits in one step. -/
theorem DieState.commit64_eq (D : DieState) (r : Req) (b : Nat) (d : RegDesc) (off v : Nat) :
    D.commit64 r b d off v =
      (let i := D.regIndex r.id b d
       let f := fieldsFor r b d
       let w := if D.committed b then f.rw else orN f.rw f.rwl
       let take (x o : Nat) : Nat := orN (andNot (D.reg b o i) w) (andN x w)
       ((D.setReg b off (take (v % 2 ^ 32) off) i).setReg b (off + 4) (take (v / 2 ^ 32) (off + 4)) i).rwlTouch r b off d) := by
  unfold DieState.commit64 DieState.rwlTouch
  dsimp only
  rw [regIndex_fieldsFor, fieldsFor_rwl]

theorem commit64_rol (D : DieState) (b off lo hi i : Nat) : ((D.setReg b off lo i).setReg b (off + 4) hi i).rol = D.rol := rfl

/-! ## Reads of 64-bit registers (R13) -/

/-- The doorbell pages hold no register block. -/
theorem doorBlock_of_blockKind (b : Nat) (h : (blockKind b).isSome = true) : doorBlock b = false := by
  by_contra hdoor
  simp only [doorBlock, Bool.and_eq_true, decide_eq_true_eq, Bool.not_eq_false] at hdoor
  obtain ⟨hlow, hhigh⟩ := hdoor
  have hcst : ¬ (0x180 ≤ b ∧ b < 0x184) := by omega
  have hengine : ¬ (0x200 ≤ b ∧ b < 0x300) := by omega
  unfold blockKind at h
  rw [if_neg hcst, if_neg hengine] at h
  split at h <;> simp at h hlow

/-- An admitted read answers what its body gives. -/
theorem State.csrGet_admitted (s : State) (a : At) (r : Req) (b off : Nat) (body : State → DieState → Nat × DieState)
    (hadmit : (s.dieAt a).admits r b off false) (hseal : (s.dieAt a).sealHidden r b off = false) :
    s.csrGet a r b off body =
      (let s' := s.put a (s.dieAt a)
       let x := body s' ((s.dieAt a).lookAt b off)
       s'.put a ((x.2.useSel r.id b).tick.out (.csrData r.id x.1))) := by
  obtain ⟨halign, hblock, hbar, hfire⟩ := hadmit
  have hassigned : csrAssigned b = true := by rw [csrAssigned, hblock, Bool.true_or]
  unfold State.csrGet
  dsimp only
  rw [State.atDie_id, State.die_put]
  rw [if_neg (by simp [halign, hassigned]), doorBlock_of_blockKind b hblock, if_neg Bool.false_ne_true, if_neg (by simp [hbar]),
    if_pos (by simp [hfire, hseal])]
  rfl

theorem State.readLow_wide (s : State) (a : At) (r : Req) (b off : Nat) (d : RegDesc)
    (hadmit : (s.dieAt a).admits r b off false) (hseal : (s.dieAt a).sealHidden r b off = false)
    (hd : regDesc b off = some d) (h64 : d.w64 = true) (hlow : off % 8 = d.off % 8) :
    s.readLow a r b off =
      (let s' := s.put a (s.dieAt a)
       let D := (s.dieAt a).lookAt b off
       s'.put a (((D.setShadow r b off (some (s'.readWord D r b (off + 4)))).useSel r.id b).tick.out
         (.csrData r.id (s'.readWord D r b off)))) := by
  unfold State.readLow
  rw [s.csrGet_admitted a r b off _ hadmit hseal, hd]
  dsimp only
  rw [h64, hlow, beq_self_eq_true, if_pos (by decide)]

theorem State.readLow_plain (s : State) (a : At) (r : Req) (b off : Nat)
    (hadmit : (s.dieAt a).admits r b off false) (hseal : (s.dieAt a).sealHidden r b off = false)
    (h : ∀ d, regDesc b off = some d → d.w64 = false ∨ off % 8 ≠ d.off % 8) :
    s.readLow a r b off =
      (let s' := s.put a (s.dieAt a)
       let D := (s.dieAt a).lookAt b off
       s'.put a ((D.useSel r.id b).tick.out (.csrData r.id (s'.readWord D r b off)))) := by
  unfold State.readLow
  rw [s.csrGet_admitted a r b off _ hadmit hseal]
  cases hd : regDesc b off with
  | none => rfl
  | some d =>
    have hnot : ¬ ((d.w64 && off % 8 == d.off % 8) = true) := by
      obtain h | h := h d hd
      · rw [h]; exact Bool.false_ne_true
      · rw [beq_false_of_ne h, Bool.and_false]; exact Bool.false_ne_true
    dsimp only
    rw [if_neg hnot]

/-- The next read of the high half takes the shadow. -/
theorem State.readHigh_shadow (s : State) (a : At) (r : Req) (b off : Nat) (x : Shadow)
    (hadmit : (s.dieAt a).admits r b off false) (hseal : (s.dieAt a).sealHidden r b off = false)
    (hx : ((s.dieAt a).lookAt b off).csr.shadows.find? (fun x => x.req == r.id && x.block == b && x.off + 4 == off) = some x) :
    s.readHigh a r b off = (s.put a (s.dieAt a)).put a (((((s.dieAt a).lookAt b off).setShadow r b (off - 4) none).useSel
      r.id b).tick.out (.csrData r.id x.high.toNat)) := by
  unfold State.readHigh
  rw [s.csrGet_admitted a r b off _ hadmit hseal]
  dsimp only
  rw [hx]

theorem State.readHigh_live (s : State) (a : At) (r : Req) (b off : Nat)
    (hadmit : (s.dieAt a).admits r b off false) (hseal : (s.dieAt a).sealHidden r b off = false)
    (hnone : ((s.dieAt a).lookAt b off).csr.shadows.find? (fun x => x.req == r.id && x.block == b && x.off + 4 == off) = none) :
    s.readHigh a r b off =
      (let s' := s.put a (s.dieAt a)
       let D := (s.dieAt a).lookAt b off
       s'.put a ((D.useSel r.id b).tick.out (.csrData r.id (s'.readWord D r b off)))) := by
  unfold State.readHigh
  rw [s.csrGet_admitted a r b off _ hadmit hseal]
  dsimp only
  rw [hnone]

/-- Settles O3. -/
theorem wideRegistersCommitAndReadTogether : Obligations.WideRegistersCommitAndReadTogether := by
  unfold Obligations.WideRegistersCommitAndReadTogether
  refine ⟨fun s a r b off v d hup => ⟨?_, ?_, ?_⟩, fun s a r b off hup hadmit hseal => ⟨?_, ?_, ?_, ?_⟩⟩
  · intro hd h64 hlow hadmit
    rw [exec_reg64LowWrite s a r b off v d hup hd h64 hlow hadmit]
    obtain ⟨hopen, hcommitted⟩ := DieState.rwlTouch_cases
      (((s.dieAt a).touchSession r).holdHalf_rol r b off v) r b off d
    exact ⟨fun h => by rw [hopen h], fun h h' => by rw [hcommitted h h']; rfl⟩
  · intro hd h64 hhigh hadmit hseg
    rw [exec_reg64HighWrite s a r b off v d hup hd h64 hhigh hadmit hseg]
    dsimp only
    refine ⟨fun hbase hopen => ?_, fun hbase hrwl hcommitted => ?_, fun hbase => ?_⟩
    · rw [hbase, if_neg Bool.false_ne_true, DieState.commit64_eq]
      dsimp only
      rw [(DieState.rwlTouch_cases (commit64_rol _ b (off - 4) _ _ _) r b (off - 4) d).1 hopen]
      rfl
    · rw [hbase, if_neg Bool.false_ne_true, DieState.commit64_eq]
      dsimp only
      rw [(DieState.rwlTouch_cases (commit64_rol _ b (off - 4) _ _ _) r b (off - 4) d).2 hrwl hcommitted]
      rfl
    · rw [if_pos hbase]
      rfl
  · refine ⟨_, onDie_up a s _ hup, fun h => ?_, ?_, ?_⟩
    · rw [State.die_put]
      simp
    · rw [State.die_put]
    · rw [State.die_put]
  · intro d hd h64 hlow
    exact running_eq hup (s.readLow_wide a r b off d hadmit hseal hd h64 hlow)
  · exact fun h => running_eq hup (s.readLow_plain a r b off hadmit hseal h)
  · exact fun x hx => running_eq hup (s.readHigh_shadow a r b off x hadmit hseal hx)
  · exact fun hnone => running_eq hup (s.readHigh_live a r b off hadmit hseal hnone)

end Sys2Proof.Machine
end

section
/-! PROOFS. The selection copies of a requester (R443), and control registers (R623, R467, R509). -/

open Sys2Proof

namespace Sys2Proof.Machine

/-! ## Selection copies (R443) -/

/-- Is it the requester's copy for the block? -/
def SelCopy.isOf (req b : Nat) (c : SelCopy) : Bool := c.req == req && c.block == b

/-- The copies of a block that stand beside the requester's, the least recently used one dropped where 32 others stand. -/
def DieState.otherSels (D : DieState) (req b : Nat) : List SelCopy :=
  let rest := D.csr.sels.filter (fun c => !(c.isOf req b))
  if (D.csr.sels.find? (SelCopy.isOf req b)).isNone && (rest.filter (fun c => c.block == b)).length ≥ 32 then
    match rest.find? (fun c => c.block == b) with
    | some lru => rest.erase lru
    | none => rest
  else rest

/-- The values of the requester's copy. -/
def DieState.selVals (D : DieState) (req b : Nat) : Tab Word :=
  match D.csr.sels.find? (SelCopy.isOf req b) with
  | some c => c.vals
  | none => []

theorem DieState.setSel_eq (D : DieState) (req b off : Nat) (v : Word) :
    D.setSel req b off v = { D with csr := { D.csr with
      sels := D.otherSels req b ++ [{ req := req, block := b, vals := tabSet 0 off v (D.selVals req b) }] } } := rfl

/-- A selection register reads what the requester's copy holds. -/
theorem DieState.sel_congr {D E : DieState} (req b off : Nat)
    (h : E.csr.sels.find? (SelCopy.isOf req b) = D.csr.sels.find? (SelCopy.isOf req b)) : E.sel req b off = D.sel req b off := by
  have hfind : E.csr.sels.find? (fun c => c.req == req && c.block == b) =
      D.csr.sels.find? (fun c => c.req == req && c.block == b) := h
  unfold DieState.sel
  rw [hfind]

theorem DieState.sel_of_find (D : DieState) (req b off : Nat) (c : SelCopy)
    (h : D.csr.sels.find? (SelCopy.isOf req b) = some c) : D.sel req b off = (tabGet 0 c.vals off).toNat := by
  have hfind : D.csr.sels.find? (fun c => c.req == req && c.block == b) = some c := h
  unfold DieState.sel
  rw [hfind]

theorem DieState.otherSels_subset (D : DieState) (req b : Nat) : ∀ c ∈ D.otherSels req b, c ∈ D.csr.sels ∧ c.isOf req b = false := by
  intro c hc
  have hrest : c ∈ D.csr.sels.filter (fun c => !(c.isOf req b)) := by
    unfold DieState.otherSels at hc
    dsimp only at hc
    split at hc
    · split at hc
      · exact List.mem_of_mem_erase hc
      · exact hc
    · exact hc
  simpa using hrest

theorem find?_erase_of_not {α : Type} [DecidableEq α] (p : α → Bool) (x : α) (l : List α) (h : p x = false) :
    (l.erase x).find? p = l.find? p := by
  induction l with
  | nil => rfl
  | cons y l ih =>
    rw [List.erase_cons]
    split
    · next hy =>
      obtain rfl : y = x := by simpa using hy
      rw [List.find?_cons_of_neg (by rw [h]; exact Bool.false_ne_true)]
    · rw [List.find?_cons, List.find?_cons, ih]

/-- The copies of another block stay. -/
theorem DieState.find?_otherSels (D : DieState) (req b req' b' : Nat) (hb : b' ≠ b) :
    (D.otherSels req b).find? (SelCopy.isOf req' b') = D.csr.sels.find? (SelCopy.isOf req' b') := by
  have hblock (c : SelCopy) (h : c.isOf req' b' = true) : c.block ≠ b := by
    simp only [SelCopy.isOf, Bool.and_eq_true, beq_iff_eq] at h
    rw [h.2]
    exact hb
  have hrest : (D.csr.sels.filter (fun c => !(c.isOf req b))).find? (SelCopy.isOf req' b') =
      D.csr.sels.find? (SelCopy.isOf req' b') := by
    rw [List.find?_filter]
    congr 1
    funext c
    cases hc : c.isOf req' b' with
    | false => rw [decide_eq_false (by simp)]
    | true => simp [SelCopy.isOf, hblock c hc]
  unfold DieState.otherSels
  dsimp only
  split
  · split
    · next lru hlru =>
      rw [find?_erase_of_not _ _ _ ?_, hrest]
      have hlru := List.find?_some hlru
      cases hc : lru.isOf req' b' with
      | false => rfl
      | true => exact absurd (by simpa using hlru) (hblock lru hc)
    · exact hrest
  · exact hrest

/-- A write of a selection register leaves the copies of every other block. -/
theorem DieState.sel_setSel_other (D : DieState) (req b off : Nat) (v : Word) (req' b' o : Nat) (hb : b' ≠ b) :
    (D.setSel req b off v).sel req' b' o = D.sel req' b' o := by
  refine DieState.sel_congr req' b' o ?_
  rw [D.setSel_eq, List.find?_append, D.find?_otherSels req b req' b' hb,
    List.find?_cons_of_neg (by simp [SelCopy.isOf, Ne.symm hb]), List.find?_nil, Option.or_none]

theorem DieState.selVals_wf (D : DieState) (req b : Nat) (h : ∀ c ∈ D.csr.sels, tabWf (fun _ => (0 : Word)) c.vals = true) :
    tabWf (fun _ => (0 : Word)) (D.selVals req b) = true := by
  unfold DieState.selVals
  split
  · next c hc => exact h c (List.mem_of_find?_eq_some hc)
  · rfl

/-- The requester's copy reads what was written. -/
theorem DieState.sel_setSel_same (D : DieState) (req b off : Nat) (v : Word)
    (h : ∀ c ∈ D.csr.sels, tabWf (fun _ => (0 : Word)) c.vals = true) : (D.setSel req b off v).sel req b off = v.toNat := by
  have hnone : (D.otherSels req b).find? (SelCopy.isOf req b) = none := by
    rw [List.find?_eq_none]
    intro c hc
    rw [(D.otherSels_subset req b c hc).2]
    exact Bool.false_ne_true
  rw [DieState.sel_of_find _ req b off { req := req, block := b, vals := tabSet 0 off v (D.selVals req b) },
    tabGet_set_same 0 off v _ (D.selVals_wf req b h)]
  rw [D.setSel_eq, List.find?_append, hnone, Option.none_or, List.find?_cons_of_pos (by simp [SelCopy.isOf])]

theorem DieState.setSel_wf (D : DieState) (req b off : Nat) (v : Word)
    (h : ∀ c ∈ D.csr.sels, tabWf (fun _ => (0 : Word)) c.vals = true) :
    ∀ c ∈ (D.setSel req b off v).csr.sels, tabWf (fun _ => (0 : Word)) c.vals = true := by
  intro c hc
  rw [D.setSel_eq] at hc
  obtain hc | hc := List.mem_append.mp hc
  · exact h c (D.otherSels_subset req b c hc).1
  · obtain rfl := List.mem_singleton.mp hc
    exact tabSet_wf 0 off v _ (D.selVals_wf req b h)

/-- Settles O5, by the laws of `setSel`. -/
theorem selectionsAreTheRequestersOwn : Obligations.SelectionsAreTheRequestersOwn := by
  unfold Obligations.SelectionsAreTheRequestersOwn
  intro s a r b off v d hup hsel hd hbar hgate hadmit
  refine ⟨onDie_eq hup ?_, DieState.setSel_eq _ _ _ _ _, fun r' b' o hb => ?_, fun hwf => ⟨?_, ?_⟩⟩
  · rw [if_neg (by simp [hsel, hbar]), if_pos (by simp [hadmit, hgate])]
    simp only [hd]
  · exact DieState.sel_setSel_other _ _ _ _ _ _ _ _ hb
  · rw [DieState.sel_setSel_same (s.dieAt a) _ _ _ _ hwf, BitVec.toNat_ofNat]
  · exact DieState.setSel_wf _ _ _ _ _ hwf

/-! ## Clearing the counters of a block (R623) -/

/-- Entries of a table that the test drops read their default, the others as before. -/
theorem tabGetF_filter {α : Type} (d : Nat → α) (hit : Nat → Bool) (t : List (Nat × α)) (k : Nat) :
    tabGetF d (t.filter (fun e => !(hit e.1))) k = if hit k then d k else tabGetF d t k := by
  induction t with
  | nil => simp [tabGetF]
  | cons e t ih =>
    obtain ⟨k', v⟩ := e
    rw [List.filter_cons]
    cases hk : hit k' with
    | true =>
      rw [if_neg (by decide), ih, tabGetF]
      split
      · rfl
      · next hmiss => rw [if_neg (fun e => hmiss (by rw [← e, hk]))]
    | false =>
      rw [if_pos (by decide), tabGetF, tabGetF, ih]
      split
      · next e => rw [if_neg (by rw [← e, hk]; exact Bool.false_ne_true)]
      · rfl

/-- Is the register at off of a block of the kind a counter? -/
def isCounterAt (k : BlockKind) (off : Nat) : Bool :=
  match findReg off (regMap k) with
  | some d => d.ctr
  | none => false

theorem isCounterAt_iff (k : BlockKind) (off : Nat) :
    isCounterAt k off = true ↔ ∃ d, findReg off (regMap k) = some d ∧ d.ctr = true := by
  unfold isCounterAt
  split
  · next d hd => simp [hd]
  · next hd => simp [hd]

/-- Registers after their block's counters are cleared. -/
theorem DieState.clearBlock_regs (D : DieState) (b : Nat) (k : BlockKind) (hk : blockKind b = some k) :
    (D.clearBlock b).csr.regs =
      D.csr.regs.filter (fun e => !(e.1 % 2 ^ 32 / 65536 == b && isCounterAt k (e.1 % 65536))) := by
  unfold DieState.clearBlock
  rw [hk]
  dsimp only
  split <;> rfl

theorem DieState.reg_clearBlock (D : DieState) (b : Nat) (k : BlockKind) (hk : blockKind b = some k) (b' off sel : Nat)
    (hb : b' < 65536) (hoff : off < 65536) :
    (D.clearBlock b).reg b' off sel =
      if b' = b ∧ ∃ d, findReg off (regMap k) = some d ∧ d.ctr = true then regReset b off % 2 ^ 32 else D.reg b' off sel := by
  have hblock : regKey b' off sel % 2 ^ 32 / 65536 = b' := by unfold regKey; omega
  have hoffset : regKey b' off sel % 65536 = off := by unfold regKey; omega
  rw [DieState.reg, D.clearBlock_regs b k hk,
    tabGetF_filter regDefault (fun key => key % 2 ^ 32 / 65536 == b && isCounterAt k (key % 65536)), hblock, hoffset]
  have hhit : (b' == b && isCounterAt k off) = true ↔ b' = b ∧ ∃ d, findReg off (regMap k) = some d ∧ d.ctr = true := by
    rw [Bool.and_eq_true, beq_iff_eq, isCounterAt_iff]
  by_cases h : b' = b ∧ ∃ d, findReg off (regMap k) = some d ∧ d.ctr = true
  · rw [if_pos (hhit.mpr h), if_pos h, regDefault_regKey b' off sel hb hoff, BitVec.toNat_ofNat, h.1]
  · rw [if_neg (fun hit => h (hhit.mp hit)), if_neg h]
    rfl

/-! ## Control registers -/

/-- A write of block b's control register with clear_counters set, whose other action bits are clear. -/
theorem DieState.ctrlWrite_clear (D : DieState) (r : Req) (b v : Nat) (hclear : bit v 1 = true) :
    D.ctrlWrite r b v =
      if (D.csrFields r b 0x0004 v).clearAdmits r b then (D.csrFields r b 0x0004 v).clearBlock b
      else D.csrFields r b 0x0004 v := by
  unfold DieState.ctrlWrite
  dsimp only
  rw [hclear, Bool.true_and]

theorem DieState.clearAdmits_iff (D : DieState) (r : Req) (b : Nat) :
    D.clearAdmits r b = true ↔ (b = B_ROL → 1 ≤ D.roleOf r) ∧ rwlOnly r b = false := by
  unfold DieState.clearAdmits
  by_cases hb : b = B_ROL <;> simp [hb]

/-- What a write of a control register makes of the die, where it starts no action but clear_counters. -/
theorem exec_clearCounters (s : State) (a : At) (r : Req) (b : Nat) (v : Word) (k : BlockKind) (hup : s.up a)
    (hk : blockKind b = some k) (hstp : k ≠ .stp) (hadmit : (s.dieAt a).admits r b 0x0004 true) (hclear : bit v.toNat 1 = true)
    (hact : b ∈ [B_GLB, B_D2D, B_EVL, B_HBMn 0, B_HBMn 1, B_INS] → bit v.toNat 2 = false) :
    exec (.clearCounters a r b v) s = .next
      (let E := ((s.dieAt a).touchSession r).ctrlWrite r b v.toNat
       if b = B_INS then (s.put a E).settleFlash.settleWorks else s.put a E) := by
  have hdo (c : Nat) (hb : b = c) (body : DieState → DieState) :
      (s.dieAt a).csrDo r c 0x0004 body = body ((s.dieAt a).touchSession r) :=
    DieState.csrDo_admitted _ r c _ body (hb ▸ hadmit)
  have hbit (h : b ∈ [B_GLB, B_D2D, B_EVL, B_HBMn 0, B_HBMn 1, B_INS]) : ¬ bit v.toNat 2 = true := by
    rw [hact h]; exact Bool.false_ne_true
  refine running_eq hup ?_
  dsimp only
  rw [if_pos hclear, State.ctrl, if_neg (fun h => hbit (by simp [h.1]) h.2), if_neg (fun h => hbit (by simp [h.1]) h.2)]
  split
  · next hins =>
    subst hins
    rw [State.atDie_eq_put, DieState.insCtrl, show INS_CTRL = 0x0004 from rfl, hdo B_INS rfl]
    simp only [if_neg (hbit (by simp))]
  · rw [State.atDie_eq_put]
    congr 1
    split
    · next hevl =>
      subst hevl
      rw [DieState.evlCtrl, show EVL_CTRL = 0x0004 from rfl, hdo B_EVL rfl]
      simp only [if_neg (hbit (by simp))]
    · split
      · next hhbm =>
        subst hhbm
        rw [DieState.hbmCtrl, show HBM_CTRL = 0x0004 from rfl]
        dsimp only
        rw [hdo (B_HBMn 0) rfl, if_neg (hbit (by simp))]
      · split
        · next hhbm =>
          subst hhbm
          rw [DieState.hbmCtrl, show HBM_CTRL = 0x0004 from rfl]
          dsimp only
          rw [hdo (B_HBMn 1) rfl, if_neg (hbit (by simp))]
        · split
          · next hb =>
            subst hb
            exact absurd (Option.some.inj hk).symm hstp
          · exact hdo b rfl _

/-- Settles O6: a control write clears the counters where `clearAdmits` allows it, and `reg_clearBlock` says what that leaves. -/
theorem controlWritesHaveTheirEffect : Obligations.ControlWritesHaveTheirEffect := by
  unfold Obligations.ControlWritesHaveTheirEffect
  refine ⟨fun s a r b v k hup hk hstp hadmit hclear hact => ?_, fun s a r v hup => ⟨?_, ?_, ?_⟩⟩
  · have hrow := exec_clearCounters s a r b v k hup hk hstp hadmit hclear hact
    rw [DieState.ctrlWrite_clear _ r b _ hclear] at hrow
    refine ⟨fun hrole hrwl => ⟨?_, fun b' o sel hb ho => DieState.reg_clearBlock _ b k hk b' o sel hb ho⟩, fun hno => ?_⟩
    · rw [if_pos ((DieState.clearAdmits_iff _ r b).mpr ⟨hrole, hrwl⟩)] at hrow
      exact hrow
    · have hrefused : ¬ ((((s.dieAt a).touchSession r).csrFields r b 0x0004 v.toNat).clearAdmits r b = true) := by
        rw [DieState.clearAdmits_iff]
        rintro ⟨hrole, hrwl⟩
        obtain ⟨hrol, hzero⟩ | hisland := hno
        · have := hrole hrol
          omega
        · rw [hisland] at hrwl
          cases hrwl
      rw [if_neg hrefused] at hrow
      exact hrow
  · intro off d hadmit hd hins hsel h64
    refine onDie_eq hup ?_
    rw [DieState.writeWord_plain _ _ _ _ _ (fun h => absurd h.1 (by decide)) (fun h => absurd h.1 (by decide))
      (fun h => absurd h.1 (by decide)), DieState.csrWrite_word _ r B_INS off _ d hd hsel h64 hadmit, if_pos ⟨rfl, hins⟩]
  · intro hadmit
    refine onDie_eq hup ?_
    unfold DieState.writeWord
    rw [if_pos ⟨rfl, rfl⟩, DieState.csrDo_admitted _ r _ _ _ hadmit]
  · intro hadmit
    refine onDie_eq hup ?_
    unfold DieState.writeWord
    obtain ⟨d, hd, h64⟩ : ∃ d, regDesc B_STP STP_CTRL = some d ∧ d.w64 = false := ⟨_, rfl, rfl⟩
    rw [if_neg (by decide), if_neg (by decide), if_pos ⟨rfl, rfl⟩,
      DieState.csrWrite_word _ r _ _ _ d hd (by decide) h64 hadmit, if_neg (fun h => absurd h.1 (by decide))]

end Sys2Proof.Machine
end

section
/-! PROOFS. Command packets are taken from the queues (R405-R421). -/

open Sys2Proof

namespace Sys2Proof.Machine

/-! ## The entry of a packet (R407, R421) -/

/-- The packet's slots, read one after the other (R417). -/
def readSlots (q : Queue) (n : Nat) : M (List Byte) := do
  let l ← (List.range n).mapM (fun i => readSlot q (q.head + i))
  pure l.flatten

/-- The slots that the packet at the head of a queue takes (R406). -/
def DieState.headSlots (D : DieState) (q : Queue) : Nat := bits (field (D.peekSlot q) 2 2) 0 2 + 1

/-- The die on which the packet has left its slots (R417, R419). -/
def DieState.pastPacket (D : DieState) (qn n : Nat) : DieState :=
  ({ D with cmd := { D.cmd with rr := (qn + 1) % 4096 } } : DieState).advanceHead qn n

theorem DieState.fetchFrom_unread (D D1 : DieState) (qn : Nat) (rivals : List Nat) (f : Fail)
    (h : runM (readSlots (D.queue qn) (D.headSlots (D.queue qn))) D = (.error f, D1)) :
    D.fetchFrom qn rivals = D1.queueError qn .faultUncorrectable := by
  unfold DieState.fetchFrom
  dsimp only
  erw [h]

theorem DieState.fetchFrom_read (D D1 : DieState) (qn : Nat) (rivals : List Nat) (bytes : List Byte)
    (h : runM (readSlots (D.queue qn) (D.headSlots (D.queue qn))) D = (.ok bytes, D1)) :
    D.fetchFrom qn rivals = (D1.pastPacket qn (D.headSlots (D.queue qn))).takePacket qn rivals bytes := by
  unfold DieState.fetchFrom
  dsimp only
  erw [h]
  rfl

/-- The command that a packet spells: one whose reply queue is unfit or none answers on the queue's own (R407). -/
def DieState.packetCmd (D : DieState) (qn : Nat) (bytes : List Byte) : Cmd :=
  let p := D.queue qn
  let rq := field bytes 12 2
  { id := D.cmd.nextId, queue := qn, op := field bytes 0 2, flags := field bytes 2 2, seq := field bytes 4 4, inst := p.inst,
    gen := D.gen p.inst, role := field bytes 9 1,
    rq := if rq = 0xFFFF ∨ (D.queue rq).liveReply = false ∨ (D.queue rq).inst ≠ p.inst then p.defReply else rq,
    params := (bytes.drop 16).take (field bytes 10 2), stacked := p.stacked }

/-- The die on which the packet is counted and its session touched (R433, R443). -/
def DieState.packetCounted (D : DieState) (qn : Nat) : DieState :=
  let F := ({ D with cmd := { D.cmd with nextId := D.cmd.nextId + 1 } } : DieState).count B_CMD CMD_PACKETS
  match F.queueSession (D.queue qn) with
  | some x => F.touchSession { id := x.req, inst := (D.queue qn).inst }
  | none => F

theorem DieState.packetCmd_rq (D : DieState) (rq own : Nat) (inst dflt : Nat) :
    (if rq = 0xFFFF ∨ (rq != 0xFFFF && (!(D.queue rq).liveReply || (D.queue rq).inst != inst)) = true then dflt else own) =
      if rq = 0xFFFF ∨ (D.queue rq).liveReply = false ∨ (D.queue rq).inst ≠ inst then dflt else own := by
  congr 1
  by_cases h : rq = 0xFFFF <;> simp [h]

theorem DieState.takePacket_refused (D : DieState) (qn : Nat) (rivals : List Nat) (bytes : List Byte) (st : Status) (reason : Nat)
    (h : D.packetCheck qn bytes = some (st, reason)) :
    D.takePacket qn rivals bytes = (D.packetCounted qn).refusePacket (D.packetCmd qn bytes) st reason := by
  unfold DieState.takePacket
  dsimp only
  rw [h, D.packetCmd_rq]
  rfl

/-- A packet that passes its checks: as the budgets decide (R421). -/
theorem DieState.takePacket_over (D : DieState) (qn : Nat) (rivals : List Nat) (bytes : List Byte) (k : Nat)
    (h : D.packetCheck qn bytes = none) (hb : (D.packetCounted qn).budgetCheck (D.packetCmd qn bytes) = .error k) :
    D.takePacket qn rivals bytes = (D.packetCounted qn).refusePacket (D.packetCmd qn bytes) .refusedQuota k := by
  unfold DieState.takePacket
  dsimp only
  rw [h, D.packetCmd_rq]
  dsimp only
  erw [hb]
  rfl

theorem DieState.takePacket_accepted (D : DieState) (qn : Nat) (rivals : List Nat) (bytes : List Byte)
    (h : D.packetCheck qn bytes = none) (hb : (D.packetCounted qn).budgetCheck (D.packetCmd qn bytes) = .ok []) :
    D.takePacket qn rivals bytes = { D.packetCounted qn with
      cmd := { (D.packetCounted qn).cmd with cmds := (D.packetCounted qn).cmd.cmds ++ [D.packetCmd qn bytes] } } := by
  unfold DieState.takePacket
  dsimp only
  rw [h, D.packetCmd_rq]
  dsimp only
  erw [hb]
  rfl

/-- How many commands stand on the delay lists (R421). -/
def DieState.waitingCmds (D : DieState) : Nat :=
  (D.cmd.cmds.filter (fun c => match c.phase with | .delayed _ => true | _ => false)).length

/-- A pool with two units or more left gives one to each that claims it. -/
theorem claim_of_room (pool key free me : Nat) (rivals : List Nat) (D : DieState) (h : 2 ≤ free) :
    runM (claim pool key free me rivals) D = (.ok (), D) := by
  unfold claim
  rw [runM_bind_ok _ _ _ _ _ (runM_get D), if_neg (by omega), if_neg (by omega)]
  rfl

theorem DieState.takePacket_delayed (D : DieState) (qn : Nat) (rivals : List Nat) (bytes : List Byte) (k : Nat) (ks : List Nat)
    (h : D.packetCheck qn bytes = none) (hb : (D.packetCounted qn).budgetCheck (D.packetCmd qn bytes) = .ok (k :: ks))
    (hroom : (D.packetCounted qn).waitingCmds < 1023) :
    D.takePacket qn rivals bytes =
      let H := (D.packetCounted qn).count B_CMD CMD_DELAYED
      { H with cmd := { H.cmd with
        cmds := H.cmd.cmds ++ [{ D.packetCmd qn bytes with phase := .delayed (k :: ks), delayed := true }] } } := by
  unfold DieState.takePacket
  dsimp only
  rw [h, D.packetCmd_rq]
  dsimp only
  erw [hb]
  dsimp only
  have hclaim := claim_of_room 7 112 (1024 - (D.packetCounted qn).waitingCmds) qn rivals (D.packetCounted qn) (by omega)
  erw [hclaim]
  rfl

/-! ## Ages and budgets (R419, R421) -/

theorem exec_fetch (s : State) (a : At) (rivals : List Nat) (qn : Nat) (hup : s.up a) (h : (s.dieAt a).pickQueue = some qn) :
    exec (.commandPacketFetch a rivals) s = .next (s.put a ((s.dieAt a).fetchFrom qn rivals)) := by
  refine onDie_eq hup ?_
  rw [h]

theorem exec_agePromote (s : State) (a : At) (qn w : Nat) (hup : s.up a) (h : ((s.dieAt a).queue qn).headSince = some w)
    (hw : w + 1000000 ≤ (s.dieAt a).now) : exec (.packetAgePromote a qn) s =
      .next (s.put a ((s.dieAt a).setQueue qn { (s.dieAt a).queue qn with promoted := true })) := by
  refine onDie_eq hup ?_
  rw [h]
  exact if_pos hw

/-- Settles O7: a fetched packet by what its slots read, then by the checks of R407 and the budgets. -/
theorem packetsAreTakenFromTheQueues : Obligations.PacketsAreTakenFromTheQueues := by
  intro s a rivals qn hup D
  refine ⟨fun hpick => ⟨D.fetchFrom qn rivals, exec_fetch s a rivals qn hup hpick, ?_, ?_⟩,
    fun w hw hage => exec_agePromote s a qn w hup hw hage, fun hnow => onDie_eq hup (if_pos hnow)⟩
  · intro f D1 hrun
    exact D.fetchFrom_unread D1 qn rivals f hrun
  intro bytes D1 hrun
  have hread := D.fetchFrom_read D1 qn rivals bytes hrun
  rw [hread]
  refine ⟨fun st reason hchk => DieState.takePacket_refused _ qn rivals bytes st reason hchk, fun hchk => ⟨?_, ?_, ?_⟩⟩
  · exact fun k hb => DieState.takePacket_over _ qn rivals bytes k hchk hb
  · exact fun hb => DieState.takePacket_accepted _ qn rivals bytes hchk hb
  · exact fun k ks hb hroom => DieState.takePacket_delayed _ qn rivals bytes k ks hchk hb hroom

end Sys2Proof.Machine
end

section
/-! PROOFS. The queue commands (R409-R418, R436, R652). -/

open Sys2Proof

namespace Sys2Proof.Machine

variable {α β : Type}

/-! ## Actions that succeed -/

/-- A sequence that succeeds did so in both parts. -/
theorem runM_bind_inv {m : M α} {f : α → M β} {D D' : DieState} {y : β} (h : runM (m >>= f) D = (.ok y, D')) :
    ∃ x D1, runM m D = (.ok x, D1) ∧ runM (f x) D1 = (.ok y, D') := by
  rw [runM_bind] at h
  split at h
  case h_1 x D1 hm => exact ⟨x, D1, hm, h⟩
  case h_2 => cases h

theorem guardS_inv {b : Bool} {st : Status} {r : Nat} {D D' : DieState} {u : Unit} (h : runM (guardS b st r) D = (.ok u, D')) :
    b = true ∧ D' = D := by
  cases b
  · cases h
  · cases h; exact ⟨rfl, rfl⟩

theorem okField_inv {b : Bool} {o : Nat} {D D' : DieState} {u : Unit} (h : runM (okField b o) D = (.ok u, D')) :
    b = true ∧ D' = D := guardS_inv h

/-- What follows a check that was passed. -/
theorem guardS_bind_inv {b : Bool} {st : Status} {r : Nat} {f : Unit → M β} {D D' : DieState} {y : β}
    (h : runM (guardS b st r >>= f) D = (.ok y, D')) : b = true ∧ runM (f ()) D = (.ok y, D') := by
  obtain ⟨_, D1, h1, h2⟩ := runM_bind_inv h
  obtain ⟨hb, rfl⟩ := guardS_inv h1
  exact ⟨hb, h2⟩

theorem okField_bind_inv {b : Bool} {o : Nat} {f : Unit → M β} {D D' : DieState} {y : β}
    (h : runM (okField b o >>= f) D = (.ok y, D')) : b = true ∧ runM (f ()) D = (.ok y, D') := guardS_bind_inv h

theorem runM_guardS_bind {b : Bool} (st : Status) (r : Nat) (f : Unit → M β) (D : DieState) (h : b = true) :
    runM (guardS b st r >>= f) D = runM (f ()) D := by
  rw [h, runM_bind_ok _ _ _ _ _ (runM_guardS_true st r D)]

theorem runM_okField_bind {b : Bool} (o : Nat) (f : Unit → M β) (D : DieState) (h : b = true) :
    runM (okField b o >>= f) D = runM (f ()) D := runM_guardS_bind _ _ f D h

theorem runM_get_bind (f : DieState → M β) (D : DieState) : runM (get >>= f) D = runM (f D) D :=
  runM_bind_ok _ _ _ _ _ (runM_get D)

theorem runM_onD_bind (g : DieState → DieState) (f : Unit → M β) (D : DieState) : runM (onD g >>= f) D = runM (f ()) (g D) :=
  runM_bind_ok _ _ _ _ _ (runM_onD g D)

/-! ## Commands that are ready -/

theorem DieState.cmdOf_id {D : DieState} {id : Nat} {c : Cmd} (h : D.cmdOf id = some c) : c.id = id := by
  simpa using List.find?_some h

theorem DieState.readyCmd.id_eq {D : DieState} {op id : Nat} {c : Cmd} (h : D.readyCmd op id c) : c.id = id :=
  DieState.cmdOf_id h.1

theorem DieState.acked_congr {D E : DieState} (id : Nat) (h : E.cmd.cmds = D.cmd.cmds) : E.acked id = D.acked id := by
  unfold DieState.acked DieState.cmdOf
  rw [h]

theorem DieState.readyCmd.acked {D : DieState} {op id : Nat} {c : Cmd} (h : D.readyCmd op id c) : D.acked id = true := by
  obtain ⟨hc, -, -, -, hacks⟩ := h
  unfold DieState.acked
  rw [hc]
  simpa using hacks

/-- A ready command whose action succeeds is answered with the action's detail. -/
theorem DieState.runCmd_replyM {D D' : DieState} {op id : Nat} {c : Cmd} {m : Cmd → M (List Byte)} {d : List Byte}
    (h : D.readyCmd op id c) (hrun : runM (m c) D = (.ok d, D')) (hack : D'.acked id = true) :
    D.runCmd op id (fun c D => D.replyM c (m c)) = D'.reply c .ok 0 d := by
  rw [D.runCmd_ready op id c _ h]
  exact D.replyM_ok D' c (m c) d hrun (by rw [h.id_eq]; exact hack)

theorem DieState.runCmd_replyOpt_some {D D' : DieState} {op id : Nat} {c : Cmd} {m : Cmd → M (Option (List Byte))} {d : List Byte}
    (h : D.readyCmd op id c) (hrun : runM (m c) D = (.ok (some d), D')) (hack : D'.acked id = true) :
    D.runCmd op id (fun c D => D.replyOpt c (m c)) = D'.reply c .ok 0 d := by
  rw [D.runCmd_ready op id c _ h]
  exact D.replyOpt_some D' c (m c) d hrun (by rw [h.id_eq]; exact hack)

theorem DieState.runCmd_replyOpt_none {D D' : DieState} {op id : Nat} {c : Cmd} {m : Cmd → M (Option (List Byte))}
    (h : D.readyCmd op id c) (hrun : runM (m c) D = (.ok none, D')) :
    D.runCmd op id (fun c D => D.replyOpt c (m c)) = D' := by
  rw [D.runCmd_ready op id c _ h]
  exact D.replyOpt_none D' c (m c) hrun

/-! ## Queue commands -/

theorem namedQueue_own (c : Cmd) (D : DieState) (hq : c.p 0 2 < 4096) (hs : (D.queue (c.p 0 2)).state ≠ .free)
    (hi : (D.queue (c.p 0 2)).inst = c.inst) :
    runM (namedQueue c) D = (.ok (c.p 0 2, D.queue (c.p 0 2)), D) := by
  unfold namedQueue
  rw [runM_get_bind, runM_okField_bind _ _ _ (by simp [hq, hs]), runM_guardS_bind _ _ _ _ (by simp [hi])]
  rfl

section
variable {D : DieState} {c : Cmd} (hq : c.p 0 2 < 4096) (hs : (D.queue (c.p 0 2)).state ≠ .free)
  (hi : (D.queue (c.p 0 2)).inst = c.inst)
include hq hs hi

theorem runM_namedQueue_bind (f : Nat × Queue → M β) :
    runM (namedQueue c >>= f) D = runM (f (c.p 0 2, D.queue (c.p 0 2))) D :=
  runM_bind_ok _ _ _ _ _ (namedQueue_own c D hq hs hi)

theorem queueStatus_run : runM (queueStatus c) D =
    (.ok (let q := D.queue (c.p 0 2)
      toLE 4 q.head ++ toLE 4 q.tail ++ toLE 1 q.state.code ++ toLE 1 q.err ++ toLE 2 0 ++ toLE 4 q.overruns), D) := by
  unfold queueStatus
  rw [runM_namedQueue_bind hq hs hi]
  rfl

end

/-- The die with a queue emptied and what waits for room in it served (R417, R418, R427). -/
def DieState.emptied (D : DieState) (qn : Nat) : DieState :=
  ((D.setQueue qn { D.queue qn with state := .active, head := 0, tail := 0, err := 0, headSince := none, promoted := false,
                                    popping := none }).releaseHeld qn).serveQueue qn

section
variable {D : DieState} {c : Cmd} (hq : c.p 0 2 < 4096) (hs : (D.queue (c.p 0 2)).state ≠ .free)
  (hi : (D.queue (c.p 0 2)).inst = c.inst) (hd : (D.queue (c.p 0 2)).state ≠ .destroying)
include hq hs hi hd

theorem queueReset_run (hdoor : (D.queue (c.p 0 2)).doorbell = none) : runM (queueReset c) D =
    (.ok (toLE 4 (D.queue (c.p 0 2)).head ++ toLE 4 (D.queue (c.p 0 2)).tail), D.emptied (c.p 0 2)) := by
  unfold queueReset
  rw [runM_namedQueue_bind hq hs hi, runM_guardS_bind _ _ _ _ (by simp [hd]), runM_onD_bind, runM_onD_bind]
  split
  case h_1 => rfl
  case h_2 n hsome => exact absurd (hdoor.symm.trans hsome) (by simp)

theorem queueReset_run_door (n : Nat) (hdoor : (D.queue (c.p 0 2)).doorbell = some n) : runM (queueReset c) D =
    (.ok (toLE 4 (D.queue (c.p 0 2)).head ++ toLE 4 (D.queue (c.p 0 2)).tail ++
        toLE 4 (sealRef n (((D.emptied (c.p 0 2)).resetDoor n true).sealOf n).gen)),
      (D.emptied (c.p 0 2)).resetDoor n true) := by
  unfold queueReset
  rw [runM_namedQueue_bind hq hs hi, runM_guardS_bind _ _ _ _ (by simp [hd]), runM_onD_bind, runM_onD_bind]
  split
  case h_1 hnone => exact absurd (hdoor.symm.trans hnone) (by simp)
  case h_2 m hsome =>
    obtain rfl : n = m := Option.some.inj (hdoor.symm.trans hsome)
    rfl

/-- The die with a queue in state 3, and the ends of what waits on it (R436). -/
def DieState.destroyed (D : DieState) (qn id : Nat) : DieState :=
  let q := D.queue qn
  let X := D.setQueue qn { q with state := .destroying, destroyer := some (id, q.filled) }
  let Y : DieState := { X with cmd := { X.cmd with qwaits := D.cmd.qwaits.filter (fun w => !(w.queue == qn)) } }
  (D.cmd.qwaits.filter (fun w => w.queue == qn)).foldl (fun D w => D.replyId w.cmd .faultStaleGeneration) Y

theorem queueDestroy_run (h16 : 16 ≤ c.p 0 2) (hkind : (D.queue (c.p 0 2)).kind = 1 → ∀ k ∈ D.queueNums,
      ¬ ((D.queue k).kind = 0 ∧ (D.queue k).state ≠ .free ∧ (D.queue k).defReply = c.p 0 2)) :
    runM (queueDestroy c) D = (.ok (), if (D.queue (c.p 0 2)).kind = 1
      then (D.destroyed (c.p 0 2) c.id).releaseHeld (c.p 0 2) else D.destroyed (c.p 0 2) c.id) := by
  have hnone : (!((D.queue (c.p 0 2)).kind == 1 && D.queueNums.any (fun k => (D.queue k).kind == 0 &&
      (D.queue k).state != .free && (D.queue k).defReply == c.p 0 2))) = true := by
    simp only [Bool.not_eq_true', Bool.and_eq_false_imp, beq_iff_eq, List.any_eq_false, Bool.and_eq_true, bne_iff_ne]
    exact fun h k hk ⟨⟨h0, hf⟩, hr⟩ => hkind h k hk ⟨h0, hf, hr⟩
  unfold queueDestroy
  rw [runM_namedQueue_bind hq hs hi, runM_get_bind, runM_okField_bind _ _ _ (by simp [h16]), runM_okField_bind _ _ _ hnone,
    runM_guardS_bind _ _ _ _ (by simp [hd]), runM_onD_bind]
  simp only [List.partition_eq_filter_filter]
  rw [runM_onD_bind, runM_onD_bind, runM_ite]
  split <;> rfl

end

end Sys2Proof.Machine
end

section
/-! PROOFS. The queue commands' statement: QUEUE_CREATE, and the end of a destroyed queue (R413-R416, R436). -/

open Sys2Proof

namespace Sys2Proof.Machine

/-! ## The last unit of a pool (R423) -/

/-- A claim that succeeds changes only the bases and the contests of the pools. -/
theorem claim_only {pool key free me : Nat} {rivals : List Nat} {D D' : DieState} {u : Unit}
    (h : runM (claim pool key free me rivals) D = (.ok u, D')) :
    ∃ bases contest, D' = { D with cmd := { D.cmd with bases := bases, contest := contest } } := by
  unfold claim at h
  rw [runM_get_bind, runM_ite] at h
  split at h
  case isTrue =>
    rw [runM_ite] at h
    split at h <;> cases h
  case isFalse =>
    rw [runM_ite] at h
    split at h
    case isTrue =>
      rw [runM_ite] at h
      split at h
      · cases h; exact ⟨_, _, rfl⟩
      · cases h
    case isFalse => cases h; exact ⟨_, _, rfl⟩

/-! ## QUEUE_CREATE (R413, R414, R416) -/

/-- The queue that the parameters of a QUEUE_CREATE spell. -/
def createdQueue (c : Cmd) : Queue :=
  { state := .active, base := c.p 0 8, log2 := c.p 8 1, kind := c.p 9 1, prio := c.p 10 1, stacked := bit (c.p 11 1) 0,
    emptyMode := bit (c.p 11 1) 1, fullMode := bit (c.p 11 1) 2,
    doorbell := if bit (c.p 11 1) 3 then some (refNum (c.p 16 4)) else none, defReply := c.p 12 2, msix := c.p 14 2,
    inst := c.inst }

/-- The lowest free queue that is none of an admin pair. -/
def DieState.freeQueue (D : DieState) : Option Nat :=
  ((List.range 4080).map (· + 16)).find? (fun q => (D.queue q).state == .free)

theorem DieState.freeQueue_some {D : DieState} {n : Nat} (h : D.freeQueue = some n) :
    16 ≤ n ∧ n < 4096 ∧ (D.queue n).state = .free := by
  unfold DieState.freeQueue at h
  have hmem : n ∈ (List.range 4080).map (· + 16) := List.mem_of_find?_eq_some h
  obtain ⟨k, hk, rfl⟩ := List.mem_map.1 hmem
  have hfree := List.find?_some h
  have hlt := List.mem_range.1 hk
  exact ⟨Nat.le_add_left .., by omega, by simpa using hfree⟩

/-- What a creation that succeeds has done: the lowest free queue is the one its parameters spell, and its doorbell seal may
have changed. -/
theorem queueCreate_ok {rivals : List Nat} {c : Cmd} {D D' : DieState} {d : List Byte}
    (h : runM (queueCreate rivals c) D = (.ok d, D')) :
    ∃ n, 16 ≤ n ∧ n < 4096 ∧ (D.queue n).state = .free ∧ d = toLE 2 n ∧
      D'.cmd.queues = tabSet {} n (createdQueue c) D.cmd.queues ∧ D'.cmd.cmds = D.cmd.cmds := by
  unfold queueCreate at h
  rw [runM_get_bind] at h
  iterate 10 replace h := (okField_bind_inv h).2
  replace h := (okField_bind_inv h).2
  iterate 4 replace h := (guardS_bind_inv h).2
  obtain ⟨_, D1, hclaim, h⟩ := runM_bind_inv h
  obtain ⟨bases, contest, rfl⟩ := claim_only hclaim
  rw [runM_get_bind] at h
  dsimp only at h
  split at h
  case h_2 => cases h
  case h_1 n hfree =>
    obtain ⟨h16, h4096, hstate⟩ := DieState.freeQueue_some hfree
    refine ⟨n, h16, h4096, hstate, ?_⟩
    rw [runM_onD_bind, runM_ite] at h
    split at h
    case isTrue hdoor =>
      cases h
      refine ⟨rfl, ?_, rfl⟩
      simp only [createdQueue, hdoor, if_true]
      rfl
    case isFalse hdoor =>
      cases h
      refine ⟨rfl, ?_, rfl⟩
      simp only [createdQueue, hdoor]
      rfl

/-! ## The end of a destroyed queue (R436) -/

theorem DieState.finishDestroy_last (D : DieState) (k id n : Nat) (hs : (D.queue k).state = .destroying)
    (hd : (D.queue k).destroyer = some (id, n)) (hlast : ∀ x ∈ D.cmd.cmds, x.queue = k → x.id = id) :
    D.finishDestroy k = ((match (D.queue k).doorbell with | some x => D.resetDoor x false | none => D).setQueue k {}).replyId id
      .ok 0 (toLE 4 n) := by
  have hnone : D.cmd.cmds.any (fun c => c.queue == k && c.id != id) = false := by
    simp only [List.any_eq_false, Bool.and_eq_true, beq_iff_eq, bne_iff_ne]
    exact fun x hx ⟨hq, hid⟩ => hid (hlast x hx hq)
  unfold DieState.finishDestroy
  simp only [hs, hd]
  rw [hnone]
  rfl

@[simp] theorem DieState.resetDoor_acked (D : DieState) (n id : Nat) (bound : Bool) :
    (D.resetDoor n bound).acked id = D.acked id := rfl

/-! ## The rows -/

section
variable {s : State} {a : At} {id : Nat} {c : Cmd} (hup : s.up a) (hq : c.p 0 2 < 4096)
  (hs : ((s.dieAt a).queue (c.p 0 2)).state ≠ .free) (hi : ((s.dieAt a).queue (c.p 0 2)).inst = c.inst)
include hup hq hs hi

theorem exec_queueStatus (hr : (s.dieAt a).readyCmd 0x0004 id c) :
    exec (.queueStatus a id) s = .next (s.put a ((s.dieAt a).reply c .ok 0
      (let q := (s.dieAt a).queue (c.p 0 2)
       toLE 4 q.head ++ toLE 4 q.tail ++ toLE 1 q.state.code ++ toLE 1 q.err ++ toLE 2 0 ++ toLE 4 q.overruns))) :=
  onDie_eq hup (DieState.runCmd_replyM hr (queueStatus_run hq hs hi) hr.acked)

variable (hd : ((s.dieAt a).queue (c.p 0 2)).state ≠ .destroying)
include hd

theorem exec_queueReset (hr : (s.dieAt a).readyCmd 0x0003 id c) (hack : ((s.dieAt a).emptied (c.p 0 2)).acked id = true)
    (hdoor : ((s.dieAt a).queue (c.p 0 2)).doorbell = none) :
    exec (.queueReset a id) s = .next (s.put a (((s.dieAt a).emptied (c.p 0 2)).reply c .ok 0
      (toLE 4 ((s.dieAt a).queue (c.p 0 2)).head ++ toLE 4 ((s.dieAt a).queue (c.p 0 2)).tail))) :=
  onDie_eq hup (DieState.runCmd_replyM hr (queueReset_run hq hs hi hd hdoor) hack)

theorem exec_queueReset_door (hr : (s.dieAt a).readyCmd 0x0003 id c)
    (hack : ((s.dieAt a).emptied (c.p 0 2)).acked id = true) (n : Nat)
    (hdoor : ((s.dieAt a).queue (c.p 0 2)).doorbell = some n) :
    exec (.queueReset a id) s = .next (s.put a ((((s.dieAt a).emptied (c.p 0 2)).resetDoor n true).reply c .ok 0
      (toLE 4 ((s.dieAt a).queue (c.p 0 2)).head ++ toLE 4 ((s.dieAt a).queue (c.p 0 2)).tail ++
        toLE 4 (sealRef n ((((s.dieAt a).emptied (c.p 0 2)).resetDoor n true).sealOf n).gen)))) :=
  onDie_eq hup (DieState.runCmd_replyM hr (queueReset_run_door hq hs hi hd n hdoor)
    ((DieState.resetDoor_acked _ n id true).trans hack))

theorem exec_queueDestroy (hr : (s.dieAt a).readyCmd 0x0002 id c) (h16 : 16 ≤ c.p 0 2)
    (hkind : ((s.dieAt a).queue (c.p 0 2)).kind = 1 → ∀ k ∈ (s.dieAt a).queueNums, ¬ (((s.dieAt a).queue k).kind = 0 ∧
      ((s.dieAt a).queue k).state ≠ .free ∧ ((s.dieAt a).queue k).defReply = c.p 0 2)) :
    exec (.queueDestroy a id) s = .next (s.put a ((if ((s.dieAt a).queue (c.p 0 2)).kind = 1
      then ((s.dieAt a).destroyed (c.p 0 2) c.id).releaseHeld (c.p 0 2)
      else (s.dieAt a).destroyed (c.p 0 2) c.id).started id)) := by
  refine onDie_eq hup ((DieState.runCmd_ready _ _ _ c _ hr).trans ?_)
  rw [queueDestroy_run hq hs hi hd h16 hkind]

end

theorem exec_queueCreate {s : State} {a : At} {id : Nat} {c : Cmd} (rivals : List Nat) (hup : s.up a)
    (hr : (s.dieAt a).readyCmd 0x0001 id c) :
    exec (.queueCreate a id rivals) s = .next (s.put a ((s.dieAt a).replyM c (queueCreate rivals c))) :=
  onDie_eq hup (DieState.runCmd_ready _ _ _ c _ hr)

/-- Settles O8: each command by the run of its action, a creation by what it did. -/
theorem queueCommandsAnswer : Obligations.QueueCommandsAnswer := by
  refine ⟨?_, ?_⟩
  · intro s a id c hup D qn q
    refine ⟨fun hr => onDie_eq hup (D.runCmd_ready _ _ c _ hr), fun hq hs hi => ⟨?_, ?_, ?_⟩, ?_⟩
    · exact fun hr => exec_queueStatus hup hq hs hi hr
    · exact fun hr hd hack => ⟨exec_queueReset hup hq hs hi hd hr hack, exec_queueReset_door hup hq hs hi hd hr hack⟩
    · exact fun hr h16 hd hkind => exec_queueDestroy hup hq hs hi hd hr h16 hkind
    · exact fun n k hs hd hlast => onDie_eq hup (D.finishDestroy_last k id n hs hd hlast)
  · intro s a id rivals c hup hr
    refine ⟨_, exec_queueCreate rivals hup hr, DieState.replyM_endsAs _ c _, fun d D' hrun => ?_⟩
    obtain ⟨n, h16, h4096, hfree, hd, hqueues, hcmds⟩ := queueCreate_ok hrun
    refine ⟨DieState.replyM_ok _ D' c _ d hrun ?_, n, h16, h4096, hfree, hd, hqueues⟩
    rw [DieState.acked_congr (D := s.dieAt a) _ hcmds, hr.id_eq]
    exact hr.acked

end Sys2Proof.Machine
end

section
/-! PROOFS. Pushes and pops of a message queue (R409, R417, R427). -/

open Sys2Proof

namespace Sys2Proof.Machine

variable {α β : Type}

theorem runM_failWith_bind (st : Status) (r : Nat) (f : α → M β) (D : DieState) :
    runM (failWith st r >>= f) D = (.error { status := st, reason := r }, D) :=
  runM_bind_error _ _ _ _ _ (runM_failWith st r D)

/-- A sole claim takes a unit of a pool that has one. -/
theorem claim_of_sole (pool key free me : Nat) (rivals : List Nat) (D : DieState) (h0 : free ≠ 0) (h1 : free = 1 → rivals = []) :
    runM (claim pool key free me rivals) D = (.ok (), D) := by
  unfold claim
  rw [runM_get_bind, if_neg h0, if_neg (fun ⟨hone, hriv⟩ => hriv (h1 hone))]
  rfl

/-- A check whose failure is looked at, passed. -/
theorem runM_tryCatch_ok {m : M α} {f : Fail → M α} {D D' : DieState} {x : α} (h : runM m D = (.ok x, D')) :
    runM (tryCatch m f) D = (.ok x, D') := by
  have hm : m D = (.ok x, D') := h
  change (ExceptT.tryCatch m f) D = _
  simp only [ExceptT.tryCatch, ExceptT.mk, bind, StateT.bind, hm]
  rfl

theorem DieState.farWrites_of_acked {D : DieState} {id : Nat} (h : D.acked id = true) : D.farWrites id = false := by
  unfold DieState.acked at h
  unfold DieState.farWrites
  split
  case h_1 c hc => simpa [hc] using h
  case h_2 => rfl

/-- A command whose action fails, other than for want of an answer, is answered with the failure. -/
theorem DieState.replyOpt_error {D D' : DieState} {c : Cmd} {m : M (Option (List Byte))} {f : Fail}
    (h : runM m D = (.error f, D')) (hn : f.need = none) : D.replyOpt c m = D'.reply c f.status f.reason := by
  unfold DieState.replyOpt
  rw [D.withParams_error D' c.id c.inst m f _ h hn]

section
variable {D : DieState} {c : Cmd} (hq : c.p 0 2 < 4096) (hs : (D.queue (c.p 0 2)).state = .active)
  (hi : (D.queue (c.p 0 2)).inst = c.inst) (hk : (D.queue (c.p 0 2)).kind = 2)
include hq hs hi hk

/-- A push to an active message queue that its command may use comes to its ring. -/
theorem queuePush_ring (rivals : List Nat) (hdoor : (D.queue (c.p 0 2)).doorbell = none) (hz : zeros c.params 2 6 = true) :
    runM (queuePush rivals c) D = runM (
      if (D.queue (c.p 0 2)).isFull && !D.cmd.contest.contains (176 + 65536 * c.p 0 2, D.now) then
        if (D.queue (c.p 0 2)).fullMode then do
          onD (fun E => E.setQueue (c.p 0 2) { D.queue (c.p 0 2) with overruns := satAdd 32 (D.queue (c.p 0 2)).overruns 1 })
          failWith .faultOverrun
        else do
          waitQueue c rivals (c.p 0 2) (c.p 8 4) true
          pure none
      else do
        claim 11 (176 + 65536 * c.p 0 2) ((D.queue (c.p 0 2)).size - (D.queue (c.p 0 2)).filled) c.queue rivals
        let t ← pushEntry (c.p 0 2) (c.params.drop 12)
        pure (some (toLE 4 t))) D := by
  unfold queuePush
  rw [runM_namedQueue_bind hq (by simp [hs]) hi, runM_okField_bind _ _ _ (by simp [hk, hdoor]), runM_okField_bind _ _ _ hz]
  dsimp only
  rw [if_neg (by simp [hs])]
  rw [runM_guardS_bind _ _ _ _ (by simp [hs]), runM_get_bind]

theorem queuePush_room (rivals : List Nat) (hdoor : (D.queue (c.p 0 2)).doorbell = none) (hz : zeros c.params 2 6 = true)
    (D' : DieState) (hroom : (D.queue (c.p 0 2)).isFull = false)
    (hriv : (D.queue (c.p 0 2)).filled + 1 = (D.queue (c.p 0 2)).size → rivals = [])
    (hw : D.writeSlot (D.queue (c.p 0 2)) (padTo 64 (c.params.drop 12)) = some D') :
    runM (queuePush rivals c) D = (.ok (some (toLE 4 (((D.queue (c.p 0 2)).tail + 1) % 2 ^ 32))),
      D'.setQueue (c.p 0 2) { D.queue (c.p 0 2) with tail := ((D.queue (c.p 0 2)).tail + 1) % 2 ^ 32 }) := by
  have hlt : (D.queue (c.p 0 2)).filled < (D.queue (c.p 0 2)).size := by simpa [Queue.isFull] using hroom
  rw [queuePush_ring hq hs hi hk rivals hdoor hz, if_neg (by simp [hroom]),
    runM_bind_ok _ _ _ _ _ (claim_of_sole 11 _ _ c.queue rivals D (by omega) (fun h => hriv (by omega)))]
  have hpush : runM (pushEntry (c.p 0 2) (c.params.drop 12)) D = (.ok (((D.queue (c.p 0 2)).tail + 1) % 2 ^ 32),
      D'.setQueue (c.p 0 2) { D.queue (c.p 0 2) with tail := ((D.queue (c.p 0 2)).tail + 1) % 2 ^ 32 }) := by
    unfold pushEntry
    rw [runM_get_bind]
    simp only [hw]
    rfl
  rw [runM_bind_ok _ _ _ _ _ hpush]
  rfl

theorem queuePush_overrun (rivals : List Nat) (hdoor : (D.queue (c.p 0 2)).doorbell = none) (hz : zeros c.params 2 6 = true)
    (hfull : (D.queue (c.p 0 2)).isFull = true) (hmode : (D.queue (c.p 0 2)).fullMode = true)
    (hcon : D.cmd.contest.contains (176 + 65536 * c.p 0 2, D.now) = false) :
    runM (queuePush rivals c) D = (.error { status := .faultOverrun },
      D.setQueue (c.p 0 2) { D.queue (c.p 0 2) with overruns := min ((D.queue (c.p 0 2)).overruns + 1) (2 ^ 32 - 1) }) := by
  rw [queuePush_ring hq hs hi hk rivals hdoor hz, if_pos (by rw [hfull, hcon]; rfl), if_pos hmode, runM_onD_bind]
  rfl

/-- A pop of an active message queue that its command may use comes to its ring. -/
theorem queuePop_ring (rivals : List Nat) (hz : zeros c.params 2 2 = true) :
    runM (queuePop rivals c) D = runM (
      if (D.queue (c.p 0 2)).serves false then do
        let d ← popEntry c (c.p 0 2)
        pure (some d)
      else if (D.queue (c.p 0 2)).emptyMode && (D.queue (c.p 0 2)).filled == 0 then
        pure (some (toLE 4 (D.queue (c.p 0 2)).head ++ toLE 4 0))
      else do
        waitQueue c rivals (c.p 0 2) (c.p 4 4) false
        pure none) D := by
  unfold queuePop
  rw [runM_namedQueue_bind hq (by simp [hs]) hi, runM_okField_bind _ _ _ (by simp [hk]), runM_okField_bind _ _ _ hz]
  dsimp only
  rw [if_neg (by simp [hs]), runM_guardS_bind _ _ _ _ (by simp [hs])]

theorem queuePop_none (rivals : List Nat) (hz : zeros c.params 2 2 = true) (hempty : (D.queue (c.p 0 2)).filled = 0)
    (hmode : (D.queue (c.p 0 2)).emptyMode = true) :
    runM (queuePop rivals c) D = (.ok (some (toLE 4 (D.queue (c.p 0 2)).head ++ toLE 4 0)), D) := by
  rw [queuePop_ring hq hs hi hk rivals hz, if_neg (by simp [Queue.serves, hempty]), if_pos (by simp [hempty, hmode])]
  rfl

theorem queuePop_waits (rivals : List Nat) (hz : zeros c.params 2 2 = true) (hempty : (D.queue (c.p 0 2)).filled = 0)
    (hmode : (D.queue (c.p 0 2)).emptyMode = false) (hroom : D.commandWaits < 8191) :
    runM (queuePop rivals c) D = (.ok none,
      let X := D.started c.id
      { X with cmd := { X.cmd with qwaits := X.cmd.qwaits ++
        [{ cmd := c.id, queue := c.p 0 2, push := false, deadline := deadlineOf D.now (c.p 4 4) }] } }) := by
  have hclaim : runM (claimWait c rivals) D = (.ok (), D) := by
    unfold claimWait
    rw [runM_get_bind]
    exact runM_tryCatch_ok (claim_of_room 8 128 _ c.queue rivals D (by omega))
  rw [queuePop_ring hq hs hi hk rivals hz, if_neg (by simp [Queue.serves, hempty]), if_neg (by simp [hmode])]
  unfold waitQueue
  rw [runM_bind, runM_bind_ok _ _ _ _ _ hclaim, runM_onD_bind]
  rfl

theorem queuePop_entry (rivals : List Nat) (hz : zeros c.params 2 2 = true) {e : List Byte} {D1 D2 : DieState}
    (hfilled : (D.queue (c.p 0 2)).filled ≠ 0) (hpop : (D.queue (c.p 0 2)).popping = none)
    (hread : runM (readSlot (D.queue (c.p 0 2)) (D.queue (c.p 0 2)).head) D = (.ok e, D1))
    (hwrite : runM (paramWrite c.id c.stacked c.ctx (c.p 8 8) e) D1 = (.ok (), D2)) (hack : D2.acked c.id = true) :
    runM (queuePop rivals c) D =
      (.ok (some (toLE 4 (((D.queue (c.p 0 2)).head + 1) % 2 ^ 32) ++ toLE 4 1)), D2.popped (c.p 0 2)) := by
  rw [queuePop_ring hq hs hi hk rivals hz, if_pos (by simp [Queue.serves, hfilled, hpop])]
  have hentry : runM (popEntry c (c.p 0 2)) D =
      (.ok (toLE 4 (((D.queue (c.p 0 2)).head + 1) % 2 ^ 32) ++ toLE 4 1), D2.popped (c.p 0 2)) := by
    unfold popEntry
    rw [runM_get_bind]
    simp only [hread]
    rw [runM_bind_ok _ _ _ _ _ (runM_set D1 D), runM_bind_ok _ _ _ _ _ hwrite, runM_onD_bind]
    simp only [DieState.farWrites_of_acked hack]
    rfl
  rw [runM_bind_ok _ _ _ _ _ hentry]
  rfl

end

@[simp] theorem DieState.setQueue_acked (D : DieState) (n id : Nat) (q : Queue) : (D.setQueue n q).acked id = D.acked id := rfl

@[simp] theorem DieState.popped_acked (D : DieState) (n id : Nat) : (D.popped n).acked id = D.acked id := rfl

section
variable {s : State} {a : At} {id : Nat} {c : Cmd} (hup : s.up a) (rivals : List Nat)
include hup

/-- A push or pop is carried out, and what waits on its queue is then served. -/
theorem exec_queuePush_of {D' : DieState} (hr : (s.dieAt a).readyCmd 0x0005 id c)
    (h : (s.dieAt a).replyOpt c (queuePush rivals c) = D') :
    exec (.queuePush a id rivals) s = .next (s.put a (D'.serveQueue (c.p 0 2))) :=
  onDie_eq hup ((DieState.runCmd_ready _ _ _ c _ hr).trans (congrArg (DieState.serveQueue · (c.p 0 2)) h))

theorem exec_queuePop_of {D' : DieState} (hr : (s.dieAt a).readyCmd 0x0006 id c)
    (h : (s.dieAt a).replyOpt c (queuePop rivals c) = D') :
    exec (.queuePop a id rivals) s = .next (s.put a (D'.serveQueue (c.p 0 2))) :=
  onDie_eq hup ((DieState.runCmd_ready _ _ _ c _ hr).trans (congrArg (DieState.serveQueue · (c.p 0 2)) h))

end

/-- Settles O9: each push and pop by the run of its action on the ring. -/
theorem messageQueuesPassEntries : Obligations.MessageQueuesPassEntries := by
  intro s a id rivals c hup D qn q hq hs hi hk
  refine ⟨fun hr hdoor hz => ⟨fun D' hroom hriv hw hack => ?_, fun hfull hmode hcon => ?_⟩, fun hr hz => ⟨?_, ?_, ?_⟩⟩
  · have hrun := queuePush_room hq hs hi hk rivals hdoor hz D' hroom hriv hw
    exact exec_queuePush_of hup rivals hr (DieState.replyOpt_some _ _ c _ _ hrun
      ((DieState.setQueue_acked ..).trans (hr.id_eq.symm ▸ hack)))
  · have hover := DieState.replyOpt_error (c := c) (queuePush_overrun hq hs hi hk rivals hdoor hz hfull hmode hcon) rfl
    exact exec_queuePush_of hup rivals hr hover
  · intro hempty hmode
    exact exec_queuePop_of hup rivals hr (DieState.replyOpt_some _ _ c _ _
      (queuePop_none hq hs hi hk rivals hz hempty hmode) (hr.id_eq.symm ▸ hr.acked))
  · intro hempty hmode hroom
    have hpop := DieState.replyOpt_none _ _ c _ (queuePop_waits hq hs hi hk rivals hz hempty hmode hroom)
    rw [hr.id_eq] at hpop
    exact exec_queuePop_of hup rivals hr hpop
  · intro e D1 D2 hfilled hpop hread hwrite hack
    obtain rfl := hr.id_eq
    exact exec_queuePop_of hup rivals hr (DieState.replyOpt_some _ _ c _ _
      (queuePop_entry hq hs hi hk rivals hz hfilled hpop hread hwrite hack) ((DieState.popped_acked ..).trans hack))

end Sys2Proof.Machine
end

section
/-! PROOFS. Doorbells and the admin pairs (R413, R415, R417, R431). -/

open Sys2Proof

namespace Sys2Proof.Machine

/-! ## Bits of a masked word (R10) -/

theorem bit_eq_testBit (v i : Nat) : bit v i = v.testBit i := by
  rw [Nat.testBit_eq_decide_div_mod_eq]
  rfl

theorem bit_andN (a b i : Nat) : bit (andN a b) i = (bit a i && bit b i) := by
  simp only [bit_eq_testBit]
  exact Nat.testBit_and a b i

/-- The low bits of a word survive a mask that has them all. -/
theorem bits_andN_low (a b n : Nat) (h : b % 2 ^ n = 2 ^ n - 1) : bits (andN a b) 0 n = bits a 0 n := by
  simp only [bits, pow_zero, Nat.div_one]
  change (a &&& b) % 2 ^ n = a % 2 ^ n
  rw [Nat.and_mod_two_pow, h, Nat.and_two_pow_sub_one_eq_mod, Nat.mod_mod]

theorem putBits_self (v n : Nat) : putBits v 0 n (bits v 0 n) = v := by
  simp only [putBits, bits, pow_zero, Nat.div_one, Nat.mod_one, Nat.mul_one, Nat.zero_add, Nat.mod_mod]
  exact Nat.mod_add_div' v (2 ^ n)

/-! ## Queues of the table -/

/-- A queue that was set to one in use is that one, whatever the table holds. -/
theorem DieState.queue_setQueue_same (D : DieState) (n : Nat) (q : Queue) (h : q ≠ {}) : (D.setQueue n q).queue n = q := by
  simp only [DieState.queue, DieState.setQueue, tabGet, tabSet, tabSetF, if_neg h]
  exact tabGetF_put_same _ n q _

theorem DieState.queue_setQueue_other (D : DieState) (n k : Nat) (q : Queue) (h : k ≠ n) :
    (D.setQueue n q).queue k = D.queue k :=
  tabGet_set_other ({} : Queue) n k q D.cmd.queues h

/-! ## Doorbells (R415, R417) -/

section
variable (D : DieState) (r : Req) (qn v : Nat) (hbar : D.barOpen r 0x800 = true)
include hbar

theorem DieState.writeTail_refused
    (h : D.doorAdmits r (D.queue qn) ((D.queue qn).kind == 1 || (D.queue qn).doorbell.isSome) = false) :
    D.writeTail r qn v = D.refuseDoor r qn 0 := by
  unfold DieState.writeTail
  simp [hbar, h]

theorem DieState.writeHead_refused (h : D.doorAdmits r (D.queue qn) ((D.queue qn).kind == 0) = false) :
    D.writeHead r qn v = D.refuseDoor r qn 4 := by
  unfold DieState.writeHead
  simp [hbar, h]

section
variable (h : D.doorAdmits r (D.queue qn) ((D.queue qn).kind == 1 || (D.queue qn).doorbell.isSome) = true)
include h

theorem DieState.writeTail_idle (hs : (D.queue qn).state ≠ .active) : D.writeTail r qn v = D := by
  unfold DieState.writeTail
  simp [hbar, h, hs]

theorem DieState.writeTail_overrun (hs : (D.queue qn).state = .active)
    (hout : 2 ^ 31 < (v + 2 ^ 32 - (D.queue qn).tail) % 2 ^ 32 ∨ (D.queue qn).size < (v + 2 ^ 32 - (D.queue qn).head) % 2 ^ 32) :
    D.writeTail r qn v = D.queueError qn .faultOverrun := by
  unfold DieState.writeTail
  dsimp only
  rw [hbar, h, if_neg (by simp), if_neg (by simp), if_neg (by simp [hs]), if_pos hout]

theorem DieState.writeTail_moves (hs : (D.queue qn).state = .active)
    (htail : (v + 2 ^ 32 - (D.queue qn).tail) % 2 ^ 32 ≤ 2 ^ 31)
    (hhead : (v + 2 ^ 32 - (D.queue qn).head) % 2 ^ 32 ≤ (D.queue qn).size) :
    D.writeTail r qn v = (D.setQueue qn { D.queue qn with
      tail := v, headSince := if (D.queue qn).filled = 0 then some D.now else (D.queue qn).headSince }).serveQueue qn := by
  unfold DieState.writeTail
  dsimp only
  rw [hbar, h, if_neg (by simp), if_neg (by simp), if_neg (by simp [hs]), if_neg (by omega)]

end

section
variable (h : D.doorAdmits r (D.queue qn) ((D.queue qn).kind == 0) = true)
include h

theorem DieState.writeHead_idle (hs : (D.queue qn).state ≠ .active) : D.writeHead r qn v = D := by
  unfold DieState.writeHead
  simp [hbar, h, hs]

theorem DieState.writeHead_overrun (hs : (D.queue qn).state = .active)
    (hout : (D.queue qn).filled < (v + 2 ^ 32 - (D.queue qn).head) % 2 ^ 32) :
    D.writeHead r qn v = D.queueError qn .faultOverrun := by
  unfold DieState.writeHead
  dsimp only
  rw [hbar, h, if_neg (by simp), if_neg (by simp), if_neg (by simp [hs]), if_pos hout]

theorem DieState.writeHead_moves (hs : (D.queue qn).state = .active)
    (hhead : (v + 2 ^ 32 - (D.queue qn).head) % 2 ^ 32 ≤ (D.queue qn).filled) :
    D.writeHead r qn v = ((D.setQueue qn { D.queue qn with head := v }).releaseHeld qn).serveQueue qn := by
  unfold DieState.writeHead
  dsimp only
  rw [hbar, h, if_neg (by simp), if_neg (by simp), if_neg (by simp [hs]), if_neg (by omega)]

end
end

/-! ## Admin pairs (R413, R431) -/

theorem DieState.writeWord_admin (D : DieState) (r : Req) (v : Nat) (h : D.admits r B_CMD CMD_ADMIN_CFG true) :
    D.writeWord r B_CMD CMD_ADMIN_CFG v =
      (D.touchSession r).writeAdminCfg (D.sel r.id B_CMD CMD_ADMIN_SEL % 8) v := by
  unfold DieState.writeWord
  rw [if_neg (by decide), if_pos ⟨rfl, rfl⟩, DieState.csrDo_admitted D r _ _ _ h]
  rfl

theorem DieState.adminPair_queues (D : DieState) (i cfg : Nat) :
    ((D.adminPair i cfg).queue (2 * i)).state = .active ∧ ((D.adminPair i cfg).queue (2 * i)).kind = 0 ∧
    ((D.adminPair i cfg).queue (2 * i)).log2 = bits cfg 0 5 ∧ ((D.adminPair i cfg).queue (2 * i)).inst = i ∧
    ((D.adminPair i cfg).queue (2 * i + 1)).state = .active ∧ ((D.adminPair i cfg).queue (2 * i + 1)).kind = 1 ∧
    ((D.adminPair i cfg).queue (2 * i + 1)).inst = i := by
  have hused (q : Queue) (h : q.state = .active) : q ≠ {} := fun he => by rw [he] at h; cases h
  unfold DieState.adminPair
  dsimp only
  rw [DieState.queue_setQueue_other _ _ _ _ (by omega), DieState.queue_setQueue_same _ _ _ (hused _ rfl),
    DieState.queue_setQueue_same _ _ _ (hused _ rfl)]
  exact ⟨rfl, rfl, rfl, rfl, rfl, rfl, rfl⟩

/-- A write that enables a pair that was off, its vector off, makes the pair as it says. -/
theorem DieState.writeAdminCfg_enables (D : DieState) (i v : Nat) (hoff : bit (D.reg B_CMD CMD_ADMIN_CFG i) 6 = false)
    (hon : bit v 6 = true) (h4 : 4 ≤ bits v 0 5) (h16 : bits v 0 5 ≤ 16) (hvec : bit v 19 = false) :
    D.writeAdminCfg i v = (D.setReg B_CMD CMD_ADMIN_CFG (andN v 0xFFF7F) i).adminPair i (andN v 0xFFF7F) := by
  unfold DieState.writeAdminCfg
  dsimp only
  rw [hoff, if_neg (by simp), if_pos (⟨h4, h16⟩ : 4 ≤ bits v 0 5 ∧ bits v 0 5 ≤ 16), putBits_self, if_pos]
  simp only [bit_andN, hon, hvec, Bool.false_and, Bool.not_false]
  decide

/-- Settles O10: each doorbell write by its branch, and an enabled pair by the queues it sets. -/
theorem doorbellsMoveTheRing : Obligations.DoorbellsMoveTheRing := by
  intro s a r qn v hup D q
  refine ⟨fun hbar => ⟨fun h => ⟨?_, fun hs => ⟨?_, ?_⟩⟩, fun h => ⟨?_, fun hs => ⟨?_, ?_⟩⟩, ?_, ?_⟩, ?_, ?_⟩
  · exact fun hs => onDie_eq hup (D.writeTail_idle r qn _ hbar h hs)
  · exact fun htail hhead => onDie_eq hup (D.writeTail_moves r qn _ hbar h hs htail hhead)
  · exact fun hout => onDie_eq hup (D.writeTail_overrun r qn _ hbar h hs hout)
  · exact fun hs => onDie_eq hup (D.writeHead_idle r qn _ hbar h hs)
  · exact fun hhead => onDie_eq hup (D.writeHead_moves r qn _ hbar h hs hhead)
  · exact fun hout => onDie_eq hup (D.writeHead_overrun r qn _ hbar h hs hout)
  · exact fun h => onDie_eq hup (D.writeTail_refused r qn _ hbar h)
  · exact fun h => onDie_eq hup (D.writeHead_refused r qn _ hbar h)
  · exact fun h => onDie_eq hup (D.writeWord_admin r _ h)
  · intro _ hoff hon h4 h16 hvec E
    have hE : E = _ := DieState.writeAdminCfg_enables (D.touchSession r) _ v.toNat hoff hon h4 h16 hvec
    have hlog2 : bits (andN v.toNat 0xFFF7F) 0 5 = bits v.toNat 0 5 := bits_andN_low _ _ _ (by decide)
    rw [hE, ← hlog2]
    exact DieState.adminPair_queues _ _ _

end Sys2Proof.Machine
end

section
/-! PROOFS. The seal commands (R409, R423-R429, R652). -/

open Sys2Proof

namespace Sys2Proof.Machine

variable {β : Type}

/-! ## Free seals (R424) -/

/-- The free seals of a requester's range, the lowest first. -/
def DieState.freeSeals (D : DieState) (inst : Nat) : List Nat :=
  ((List.range (insSealCount D.ins.active inst)).map (insSealBase D.ins.active inst + ·)).filter (fun n => !(D.sealOf n).alloc)

theorem DieState.mem_freeSeals (D : DieState) (inst n : Nat) :
    n ∈ D.freeSeals inst ↔ (insSealBase D.ins.active inst ≤ n ∧
      n < insSealBase D.ins.active inst + insSealCount D.ins.active inst) ∧ (D.sealOf n).alloc = false := by
  simp only [DieState.freeSeals, List.mem_filter, List.mem_map, List.mem_range, Bool.not_eq_true']
  constructor
  · rintro ⟨⟨k, hk, rfl⟩, ha⟩
    exact ⟨⟨by omega, by omega⟩, ha⟩
  · rintro ⟨⟨hlo, hhi⟩, ha⟩
    exact ⟨⟨n - insSealBase D.ins.active inst, by omega, by omega⟩, ha⟩

theorem DieState.freeSeals_sorted (D : DieState) (inst : Nat) : (D.freeSeals inst).Pairwise (· < ·) := by
  refine List.Pairwise.filter _ (List.Pairwise.map _ ?_ List.pairwise_lt_range)
  intro x y h
  exact Nat.add_lt_add_left h _

/-- The lowest free seal of the range stands at the head of the free ones. -/
theorem DieState.freeSeals_eq_cons (D : DieState) (inst k : Nat) (hlo : insSealBase D.ins.active inst ≤ k)
    (hhi : k < insSealBase D.ins.active inst + insSealCount D.ins.active inst) (hfree : (D.sealOf k).alloc = false)
    (hfirst : ∀ j, insSealBase D.ins.active inst ≤ j → j < k → (D.sealOf j).alloc = true) :
    ∃ rest, D.freeSeals inst = k :: rest := by
  have hk : k ∈ D.freeSeals inst := (D.mem_freeSeals inst k).2 ⟨⟨hlo, hhi⟩, hfree⟩
  cases hl : D.freeSeals inst with
  | nil => rw [hl] at hk; cases hk
  | cons x rest =>
    have hx := (D.mem_freeSeals inst x).1 (by rw [hl]; exact List.mem_cons_self ..)
    obtain ⟨⟨hxlo, -⟩, hxfree⟩ := hx
    have hle : ¬ x < k := fun hlt => by rw [hfirst x hxlo hlt] at hxfree; cases hxfree
    have hsorted := D.freeSeals_sorted inst
    rw [hl] at hsorted hk
    rcases List.mem_cons.1 hk with rfl | hmem
    · exact ⟨rest, rfl⟩
    · exact absurd ((List.pairwise_cons.1 hsorted).1 k hmem) hle

section
variable {D : DieState} {c : Cmd} (rivals : List Nat)

theorem sealAlloc_lowest (k : Nat) (rest : List Nat) (h : D.freeSeals c.inst = k :: rest) (hsole : rest = [] → rivals = []) :
    runM (sealAlloc rivals c) D = (.ok (toLE 4 (sealRef k (D.sealOf k).gen)),
      D.setSeal k { D.sealOf k with alloc := true, counter := 0, arm := none, saturated := false }) := by
  have hclaim : runM (claim 5 (80 + c.inst) (D.freeSeals c.inst).length c.queue rivals) D = (.ok (), D) := by
    refine claim_of_sole _ _ _ _ _ D (by simp [h]) (fun h1 => hsole ?_)
    simpa [h] using h1
  unfold DieState.freeSeals at hclaim h
  unfold sealAlloc
  rw [runM_get_bind]
  dsimp only
  rw [runM_bind_ok _ _ _ _ _ hclaim, h]
  rfl

theorem sealAlloc_none (h : D.freeSeals c.inst = []) (hcon : D.cmd.contest.contains (80 + c.inst, D.now) = false) :
    runM (sealAlloc rivals c) D = (.error { status := .refusedFull, reason := 5 }, D) := by
  have hclaim : runM (claim 5 (80 + c.inst) (D.freeSeals c.inst).length c.queue rivals) D =
      (.error { status := .refusedFull, reason := 5 }, D) := by
    unfold claim
    rw [runM_get_bind, h, List.length_nil, if_pos rfl, hcon]
    rfl
  unfold DieState.freeSeals at hclaim
  unfold sealAlloc
  rw [runM_get_bind]
  dsimp only
  rw [runM_bind_error _ _ _ _ _ hclaim]

end

/-! ## Named seals (R409, R424, R425) -/

section
variable {D : DieState} {c : Cmd} (hok : refOk (c.p 0 4) = true) (hown : D.ownsSeal c.inst (refNum (c.p 0 4)) = true)
include hok hown

theorem runM_namedSeal_bind (f : Nat → M β) : runM (namedSeal c >>= f) D = runM (f (refNum (c.p 0 4))) D := by
  refine runM_bind_ok _ _ _ _ _ ?_
  unfold namedSeal
  rw [runM_get_bind, runM_okField_bind _ _ _ hok, runM_guardS_bind _ _ _ _ hown]
  rfl

theorem sealSignal_run : runM (do sealSignal c; pure (none : Option (List Byte))) D =
    (.ok none, (D.started c.id).signal (refNum (c.p 0 4)) (refGen (c.p 0 4)) (c.p 4 4) (.cmd c.id)) := by
  unfold sealSignal
  rw [runM_bind, runM_namedSeal_bind hok hown]
  rfl

variable (halloc : (D.sealOf (refNum (c.p 0 4))).alloc = true) (hgen : (D.sealOf (refNum (c.p 0 4))).gen = refGen (c.p 0 4))

omit hok hown in
include halloc hgen in
theorem runM_freshRef_bind (f : Seal → M β) :
    runM (freshRef c >>= f) D = runM (f (D.sealOf (refNum (c.p 0 4)))) D := by
  refine runM_bind_ok _ _ _ _ _ ?_
  unfold freshRef
  rw [runM_get_bind, runM_guardS_bind _ _ _ _ (by simp [halloc, hgen])]
  rfl

variable (hdoor : (D.sealOf (refNum (c.p 0 4))).door = none)
include halloc hgen hdoor

theorem sealNewUse_run (keep : Bool) : runM (sealNewUse keep c) D =
    (.ok (if keep then toLE 4 (sealRef (refNum (c.p 0 4))
        ((D.sealCycle.newUse (refNum (c.p 0 4)) keep).sealOf (refNum (c.p 0 4))).gen) else []),
      D.sealCycle.newUse (refNum (c.p 0 4)) keep) := by
  unfold sealNewUse
  rw [runM_namedSeal_bind hok hown, runM_freshRef_bind halloc hgen, runM_okField_bind _ _ _ (by simp [hdoor]), runM_onD_bind,
    runM_get_bind]
  rfl

theorem sealWait_reached (rivals : List Nat) (h : c.p 4 4 ≤ (D.sealOf (refNum (c.p 0 4))).counter) :
    runM (sealWait rivals c) D = (.ok (some (toLE 4 (D.sealOf (refNum (c.p 0 4))).counter)), D.countWait .ok) := by
  unfold sealWait
  rw [runM_namedSeal_bind hok hown, runM_freshRef_bind halloc hgen, runM_okField_bind _ _ _ (by simp [hdoor]), if_pos h]
  rfl

/-- The die on which a command's wait on a seal stands (R427, R429). -/
def DieState.sealWaits (D : DieState) (c : Cmd) : DieState :=
  { D.started c.id with cmd := { (D.started c.id).cmd with waits := D.cmd.waits ++
    [{ who := .cmd c.id, num := refNum (c.p 0 4), target := c.p 4 4, deadline := deadlineOf D.now (c.p 8 4) }] } }

theorem sealWait_below (rivals : List Nat) (h : (D.sealOf (refNum (c.p 0 4))).counter < c.p 4 4) (hroom : D.commandWaits < 8191) :
    runM (sealWait rivals c) D = (.ok none, D.sealWaits c) := by
  have hclaim : runM (claimWait c rivals) D = (.ok (), D) := by
    unfold claimWait
    rw [runM_get_bind]
    exact runM_tryCatch_ok (claim_of_room 8 128 _ c.queue rivals D (by omega))
  unfold sealWait
  rw [runM_namedSeal_bind hok hown, runM_freshRef_bind halloc hgen, runM_okField_bind _ _ _ (by simp [hdoor]),
    if_neg (by omega), runM_bind_ok _ _ _ _ _ hclaim, runM_onD_bind, runM_onD_bind]
  rfl

theorem sealArm_run (hq : c.p 8 2 = 0xFFFF ∨ D.replyQueueOf c.inst (c.p 8 2) = some true)
    (hv : c.p 10 2 = 0xFFFF ∨ c.p 10 2 < fnVectors (D.fnOf c.inst)) :
    runM (sealArm c) D = (.ok [], (D.setSeal (refNum (c.p 0 4)) { D.sealOf (refNum (c.p 0 4)) with
      arm := some (c.p 4 4, c.p 8 2, c.p 10 2, c.seq, c.inst) }).notice (refNum (c.p 0 4))) := by
  have hsome : (c.p 8 2 == 0xFFFF || (D.replyQueueOf c.inst (c.p 8 2)).isSome) = true := by
    rcases hq with h | h <;> simp [h]
  have hmine : (c.p 8 2 == 0xFFFF || D.replyQueueOf c.inst (c.p 8 2) == some true) = true := by
    rcases hq with h | h <;> simp [h]
  unfold sealArm
  rw [runM_namedSeal_bind hok hown, runM_freshRef_bind halloc hgen, runM_get_bind, runM_okField_bind _ _ _ (by simp [hdoor]),
    runM_okField_bind _ _ _ hsome, runM_okField_bind _ _ _ (by simpa using hv), runM_guardS_bind _ _ _ _ hmine, runM_onD_bind]
  rfl

end

theorem sealQuery_run {D : DieState} {c : Cmd} (hown : D.ownsSeal c.inst (c.p 0 2) = true) :
    ∃ d, runM (sealQuery c) D = (.ok d, D) ∧ d =
      (let q := D.sealOf (c.p 0 2)
       toLE 4 q.counter ++ toLE 4 (match q.arm with | some (t, _) => t | none => 0) ++ toLE 1 q.gen
         ++ toLE 1 (b2n q.alloc + b2n q.arm.isSome * 2 + b2n q.saturated * 4 + b2n q.door.isSome * 8)
         ++ toLE 1 (D.waitersOf (c.p 0 2)) ++ toLE 1 c.inst) := by
  refine ⟨_, ?_, rfl⟩
  unfold sealQuery
  rw [runM_get_bind, runM_guardS_bind _ _ _ _ hown]
  rfl

/-! ## The rows -/

/-- A ready command whose action fails, other than for want of an answer, is answered with the failure. -/
theorem DieState.runCmd_replyM_error {D D' : DieState} {op id : Nat} {c : Cmd} {m : Cmd → M (List Byte)} {f : Fail}
    (h : D.readyCmd op id c) (hrun : runM (m c) D = (.error f, D')) (hn : f.need = none) :
    D.runCmd op id (fun c D => D.replyM c (m c)) = D'.reply c f.status f.reason := by
  rw [D.runCmd_ready op id c _ h]
  unfold DieState.replyM
  rw [D.withParams_error D' c.id c.inst (m c) f _ hrun hn]

@[simp] theorem DieState.setSeal_acked (D : DieState) (n id : Nat) (x : Seal) : (D.setSeal n x).acked id = D.acked id := rfl

section
variable {s : State} {a : At} {id : Nat} {c : Cmd} (hup : s.up a) (rivals : List Nat)
include hup

theorem exec_sealAlloc_lowest (hr : (s.dieAt a).readyCmd 0x0010 id c) (k : Nat) (rest : List Nat)
    (h : (s.dieAt a).freeSeals c.inst = k :: rest) (hsole : rest = [] → rivals = []) :
    exec (.sealAlloc a id rivals) s = .next (s.put a (((s.dieAt a).setSeal k
      { (s.dieAt a).sealOf k with alloc := true, counter := 0, arm := none, saturated := false }).reply c .ok 0
        (toLE 4 (sealRef k ((s.dieAt a).sealOf k).gen)))) :=
  onDie_eq hup (DieState.runCmd_replyM hr (sealAlloc_lowest rivals k rest h hsole) ((DieState.setSeal_acked ..).trans hr.acked))

theorem exec_sealAlloc_none (hr : (s.dieAt a).readyCmd 0x0010 id c) (h : (s.dieAt a).freeSeals c.inst = [])
    (hcon : (s.dieAt a).cmd.contest.contains (80 + c.inst, (s.dieAt a).now) = false) :
    exec (.sealAlloc a id rivals) s = .next (s.put a ((s.dieAt a).reply c .refusedFull 5)) := by
  have hfull := DieState.runCmd_replyM_error hr (sealAlloc_none rivals h hcon) rfl
  exact onDie_eq hup hfull

theorem exec_sealWait_reached (hr : (s.dieAt a).readyCmd 0x0014 id c) {P : DieState} (hP : (s.dieAt a).pastDeadlines = P)
    {d : List Byte} {E : DieState} (hrun : runM (sealWait rivals c) P = (.ok (some d), E)) (hack : E.acked id = true) :
    exec (.sealWait a id rivals) s = .next (s.put a (E.reply c .ok 0 d)) := by
  refine onDie_eq hup ((DieState.runCmd_ready _ _ _ c _ hr).trans ?_)
  rw [hP]
  exact P.replyOpt_some E c _ d hrun (hr.id_eq.symm ▸ hack)

theorem exec_sealWait_below (hr : (s.dieAt a).readyCmd 0x0014 id c) {P : DieState} (hP : (s.dieAt a).pastDeadlines = P)
    {E : DieState} (hrun : runM (sealWait rivals c) P = (.ok none, E)) :
    exec (.sealWait a id rivals) s = .next (s.put a E) := by
  refine onDie_eq hup ((DieState.runCmd_ready _ _ _ c _ hr).trans ?_)
  rw [hP]
  exact P.replyOpt_none E c _ hrun

end

theorem DieState.count_acked (D : DieState) (b off n i id : Nat) : (D.count b off n i).acked id = D.acked id :=
  DieState.acked_congr id (by simp)

/-- Settles O11: each seal command by the run of its action. -/
theorem sealCommandsAnswer : Obligations.SealCommandsAnswer := by
  refine ⟨?_, ?_⟩
  · intro s a id rivals c hup D n sl base inRange
    refine ⟨?_, ?_, ?_, ?_⟩
    · intro k hr ⟨hlo, hhi⟩ hfree hfirst hrivals
      obtain ⟨rest, hrest⟩ := D.freeSeals_eq_cons c.inst k hlo hhi hfree hfirst
      refine exec_sealAlloc_lowest hup rivals hr k rest hrest (fun hnil => ?_)
      rcases hrivals with h | ⟨j, hjk, hj, hjfree⟩
      · exact h
      · have hmem := (D.mem_freeSeals c.inst j).2 ⟨hj, hjfree⟩
        rw [hrest, hnil] at hmem
        exact absurd (List.mem_singleton.1 hmem) hjk
    · intro hr hall hcon
      refine exec_sealAlloc_none hup rivals hr (List.eq_nil_iff_forall_not_mem.2 fun k hk => ?_) hcon
      obtain ⟨hk, hkfree⟩ := (D.mem_freeSeals c.inst k).1 hk
      exact absurd (hall k hk) (by simp [hkfree])
    · intro hok hown
      refine ⟨fun halloc hgen hdoor => ⟨fun hr hack => ?_, fun hr hack => ?_⟩, fun hr => ?_⟩
      · exact onDie_eq hup (DieState.runCmd_replyM hr (sealNewUse_run hok hown halloc hgen hdoor false) hack)
      · exact onDie_eq hup (DieState.runCmd_replyM hr (sealNewUse_run hok hown halloc hgen hdoor true) hack)
      · exact onDie_eq hup ((D.runCmd_ready _ _ c _ hr).trans (D.replyOpt_none _ c _ (sealSignal_run hok hown)))
    · intro hr hown q
      obtain ⟨d, hrun, hd⟩ := sealQuery_run hown
      have hexec : exec (.sealQuery a id) s = .next (s.put a (D.reply c .ok 0 d)) :=
        onDie_eq hup (DieState.runCmd_replyM hr hrun hr.acked)
      subst hd
      exact hexec
  · intro s a id rivals c hup D P n hok
    refine ⟨fun hr hack hown halloc hgen hdoor => ⟨fun h => ?_, fun h hroom => ?_⟩, ?_⟩
    · exact exec_sealWait_reached hup rivals hr rfl (sealWait_reached hok hown halloc hgen hdoor rivals h)
        ((DieState.count_acked ..).trans hack)
    · exact exec_sealWait_below hup rivals hr rfl (sealWait_below hok hown halloc hgen hdoor rivals h hroom)
    · intro hr hown halloc hgen hdoor hq hv E hack
      exact onDie_eq hup (DieState.runCmd_replyM hr (sealArm_run hok hown halloc hgen hdoor hq hv) hack)

end Sys2Proof.Machine
end

section
/-! PROOFS. Cycles of the seal unit (R425-R427). -/

open Sys2Proof

namespace Sys2Proof.Machine

/-! ## Cycles in which no wait ends -/

theorem DieState.endWaits_none (D : DieState) (p : Wait → Bool) (f : Wait → WaitEnd) (h : ∀ w ∈ D.cmd.waits, p w = false) :
    D.endWaits p f = D := by
  have hgone : D.cmd.waits.filter p = [] := List.filter_eq_nil_iff.2 fun w hw => by simp [h w hw]
  have hstay : D.cmd.waits.filter (fun w => !(p w)) = D.cmd.waits := List.filter_eq_self.2 fun w hw => by simp [h w hw]
  unfold DieState.endWaits
  rw [hgone, hstay]
  rfl

/-- All the waits that stand end together. -/
theorem DieState.endWaits_one (D : DieState) (p : Wait → Bool) (f : Wait → WaitEnd) (w : Wait) (h : D.cmd.waits = [w])
    (hp : p w = true) : D.endWaits p f = ({ D with cmd := { D.cmd with waits := [] } } : DieState).endWait w (f w) := by
  unfold DieState.endWaits
  rw [h]
  simp [hp]

theorem DieState.lateQueueWaits_none (D : DieState) (h : D.cmd.qwaits = []) : D.lateQueueWaits = D := by
  unfold DieState.lateQueueWaits
  dsimp only
  rw [h, List.filter_nil, List.filter_nil, List.foldl_nil, ← h]

/-- Is the deadline of a wait before now? -/
def Wait.late (w : Wait) (now : Nat) : Prop := ∃ t, w.deadline = some t ∧ t < now

theorem DieState.pastDeadlines_none (D : DieState) (hw : ∀ w ∈ D.cmd.waits, ¬ w.late D.now) (hq : D.cmd.qwaits = []) :
    D.pastDeadlines = D := by
  unfold DieState.pastDeadlines
  dsimp only
  rw [D.endWaits_none _ _ (fun w hmem => ?_), D.lateQueueWaits_none hq]
  have hnot := hw w hmem
  unfold Wait.late at hnot
  split
  case h_1 t ht => exact decide_eq_false fun hlt => hnot ⟨t, ht, hlt⟩
  case h_2 => rfl

/-! ## A signal of a job (R425) -/

/-- The die once a signal that does not saturate its seal is applied. -/
def DieState.signalled (D : DieState) (g : Signal) : DieState :=
  (D.count B_SEAL SEAL_SIGNALS).setSeal g.num { D.sealOf g.num with counter := (D.sealOf g.num).counter + g.add }

theorem DieState.applySignal_job (D : DieState) (g : Signal) (hsrc : g.src = .job) (halloc : (D.sealOf g.num).alloc = true)
    (hgen : (D.sealOf g.num).gen = g.gen) (hdoor : (D.sealOf g.num).door = none)
    (hmax : (D.sealOf g.num).counter + g.add < 2 ^ 32) : D.applySignal g = D.signalled g := by
  have hpast : decide (2 ^ 32 ≤ (D.sealOf g.num).counter + g.add) = false := decide_eq_false (by omega)
  have hmin : min ((D.sealOf g.num).counter + g.add) (2 ^ 32 - 1) = (D.sealOf g.num).counter + g.add := by omega
  unfold DieState.applySignal DieState.signalled
  simp only [halloc, hgen, hdoor, hsrc, hpast, hmin, Bool.not_true, bne_self_eq_false, Bool.or_self, Bool.or_false]
  rfl

theorem DieState.notice_unarmed (D : DieState) (n : Nat) (h : (D.sealOf n).arm = none) : D.notice n = D := by
  unfold DieState.notice
  simp only [h]

theorem DieState.signalled_sealOf (D : DieState) (g : Signal) (hwf : tabWf (fun _ => ({} : Seal)) D.cmd.seals = true) :
    (D.signalled g).sealOf g.num = { D.sealOf g.num with counter := (D.sealOf g.num).counter + g.add } :=
  tabGet_set_same ({} : Seal) g.num _ _ (by simpa using hwf)

/-- A counter counts by the registers alone. -/
theorem DieState.count_csr_congr {D E : DieState} (b off n i : Nat) (h : E.csr = D.csr) :
    (E.count b off n i).csr = (D.count b off n i).csr := by
  have hreg (b' off' i' : Nat) : E.reg b' off' i' = D.reg b' off' i' := by unfold DieState.reg; rw [h]
  have hcounts : E.counts b = D.counts b := by simp only [DieState.counts, hreg]
  unfold DieState.count
  rw [hcounts]
  split
  · simp only [DieState.setReg64, DieState.setReg, DieState.reg64, hreg, h]
  · exact h

/-- A cycle of the seal unit that takes one signal of a job, with nothing waiting and no task left to settle. -/
theorem DieState.signalCycle_job (D : DieState) (g : Signal) (hin : D.cmd.intake = [g]) (hw : D.cmd.waits = [])
    (hq : D.cmd.qwaits = []) (ht : D.task.tasks = []) (hsrc : g.src = .job) (halloc : (D.sealOf g.num).alloc = true)
    (hgen : (D.sealOf g.num).gen = g.gen) (hdoor : (D.sealOf g.num).door = none) (harm : (D.sealOf g.num).arm = none)
    (hmax : (D.sealOf g.num).counter + g.add < 2 ^ 32) (hwf : tabWf (fun _ => ({} : Seal)) D.cmd.seals = true) :
    D.signalCycle = ({ D with cmd := { D.cmd with intake := [] } } : DieState).signalled g := by
  have hseal := ({ D with cmd := { D.cmd with intake := [] } } : DieState).signalled_sealOf g hwf
  unfold DieState.signalCycle
  dsimp only
  rw [D.pastDeadlines_none (by simp [hw]) hq, hin]
  simp only [List.take_succ_cons, List.take_nil, List.drop_succ_cons, List.drop_nil, List.foldl_cons, List.foldl_nil]
  rw [({ D with cmd := { D.cmd with intake := [] } } : DieState).applySignal_job g hsrc halloc hgen hdoor hmax, DieState.endWaits_none _ _ _ (fun w hmem => ?_),
    DieState.notice_unarmed _ _ (by rw [hseal]; exact harm)]
  · have htasks : (({ D with cmd := { D.cmd with intake := [] } } : DieState).signalled g).task.tasks = [] := by
      simpa [DieState.signalled, DieState.setSeal] using ht
    rw [htasks]
    rfl
  · have hnone : (({ D with cmd := { D.cmd with intake := [] } } : DieState).signalled g).cmd.waits = [] := by
      simpa [DieState.signalled, DieState.setSeal] using hw
    rw [hnone] at hmem
    cases hmem

/-! ## A cycle in which a deadline falls (R427) -/

theorem DieState.signalCycle_idle (D : DieState) (hin : D.cmd.intake = []) (hw : ∀ w ∈ D.cmd.waits, ¬ w.late D.now)
    (hlow : ∀ w ∈ D.cmd.waits, (D.sealOf w.num).counter < w.target) (hq : D.cmd.qwaits = []) (ht : D.task.tasks = []) :
    D.signalCycle = D := by
  unfold DieState.signalCycle
  dsimp only
  have heta : ({ D with cmd := { D.cmd with intake := [] } } : DieState) = D := by rw [← hin]
  rw [D.pastDeadlines_none hw hq, hin]
  simp only [List.take_nil, List.drop_nil, List.foldl_nil, heta]
  rw [D.endWaits_none _ _ (fun w hmem => ?_), ht, List.map_nil, List.foldl_nil]
  have hbelow := hlow w hmem
  simp [Nat.not_le.2 hbelow]

theorem DieState.sealCycle_timeout (D : DieState) (i n x : Nat) (hin : D.cmd.intake = [])
    (hw : D.cmd.waits = [{ who := .seq i, num := n, target := x, deadline := some D.now }]) (hlow : (D.sealOf n).counter < x)
    (hq : D.cmd.qwaits = []) (ht : D.task.tasks = []) :
    D.sealCycle = (({ D with cmd := { D.cmd with waits := [] } } : DieState).count B_SEAL SEAL_TIMEOUTS).onCore i
      (fun k => { k with sealWait := some 4 }) := by
  have hidle : D.signalCycle = D := by
    refine D.signalCycle_idle hin ?_ ?_ hq ht <;> (intro w hmem; rw [hw] at hmem; obtain rfl := List.mem_singleton.1 hmem)
    · rintro ⟨t, ht, hlt⟩
      obtain rfl : D.now = t := Option.some.inj ht
      exact absurd hlt (lt_irrefl _)
    · exact hlow
  unfold DieState.sealCycle
  dsimp only
  rw [hidle, D.endWaits_one _ _ _ hw (by simp)]
  have hnone : (({ D with cmd := { D.cmd with waits := [] } } : DieState).endWait
      { who := .seq i, num := n, target := x, deadline := some D.now } .timeout).cmd.qwaits = [] := by
    simpa [DieState.endWait, DieState.countWait, DieState.onCore] using hq
  rw [hnone, List.filter_nil, List.filter_nil, List.foldl_nil, ← hnone]
  rfl

/-- Settles O12: a cycle with one signal, and one with one deadline. -/
theorem sealCyclesApplySignalsAndTimeouts : Obligations.SealCyclesApplySignalsAndTimeouts := by
  intro s a hup D hq ht
  refine ⟨?_, fun i n x hin hw hlow => onDie_eq hup (D.sealCycle_timeout i n x hin hw hlow hq ht)⟩
  intro g hin hw hsrc halloc hgen hdoor harm hmax hwf
  refine ⟨_, onDie_eq hup (D.signalCycle_job g hin hw hq ht hsrc halloc hgen hdoor harm hmax hwf), ?_⟩
  rw [State.die_put]
  refine ⟨?_, ?_, DieState.count_csr_congr (D := D) _ _ _ _ rfl⟩ <;> simp [DieState.signalled, DieState.setSeal]
  rfl

end Sys2Proof.Machine
end

section
/-! PROOFS. Tasks: launch, start, dispatch and time limit (R184-R201). -/

open Sys2Proof

namespace Sys2Proof.Machine

/-! ## Launch (R184-R188) -/

theorem DieState.onCores_task (D : DieState) (l : List Nat) (f : Core → Core) :
    (l.foldl (fun D i => D.onCore i f) D).task.tasks = D.task.tasks ∧
      (l.foldl (fun D i => D.onCore i f) D).task.nextTask = D.task.nextTask := by
  induction l generalizing D with
  | nil => exact ⟨rfl, rfl⟩
  | cons i l ih => exact ih (D.onCore i f)

/-- The task that an accepted launch enters. -/
def DieState.launched (D : DieState) (c : Cmd) (d : List Byte) : Task :=
  { id := D.task.nextTask, cmd := c.id, desc := d, inst := tdInst d, proof := tdProof d,
    stages := (maskCores (tdCoreMask d)).map (fun i => (i, .queued)) }

theorem DieState.enqueueTask_task (D : DieState) (c : Cmd) (d : List Byte) :
    (D.enqueueTask c d).task.tasks = D.task.tasks ++ [D.launched c d] ∧
      (D.enqueueTask c d).task.nextTask = (D.task.nextTask + 1) % 2 ^ 32 := by
  unfold DieState.enqueueTask
  exact DieState.onCores_task _ _ _

/-- A launch whose checks pass has entered a task of the command's INS entry. -/
theorem taskLaunch_ok {rivals : List Nat} {c : Cmd} {D D' : DieState} {u : Unit}
    (h : runM (taskLaunch rivals c) D = (.ok u, D')) :
    ∃ (D1 : DieState) (d : List Byte), tdInst d = c.inst ∧ D' = (D1.enqueueTask c d).started c.id := by
  unfold taskLaunch at h
  rw [runM_get_bind] at h
  replace h := (okField_bind_inv h).2
  obtain ⟨d, D1, -, h⟩ := runM_bind_inv h
  iterate 2 replace h := (okField_bind_inv h).2
  iterate 2 replace h := (guardS_bind_inv h).2
  obtain ⟨hinst, h⟩ := guardS_bind_inv h
  iterate 3 replace h := (guardS_bind_inv h).2
  obtain ⟨_, D2, -, h⟩ := runM_bind_inv h
  cases h
  exact ⟨D2, d, by simpa using hinst, rfl⟩

theorem DieState.enqueueTask_last (D : DieState) (c : Cmd) (d : List Byte) (hinst : tdInst d = c.inst) :
    ∃ t, ((D.enqueueTask c d).started c.id).task.tasks.getLast? = some t ∧ t.cmd = c.id ∧ t.inst = c.inst ∧ t.started = none ∧
      (∀ e ∈ t.stages, e.2 = .queued) ∧ t.stages.map (·.1) = maskCores (tdCoreMask t.desc) ∧
      ((D.enqueueTask c d).started c.id).task.nextTask = (t.id + 1) % 2 ^ 32 := by
  obtain ⟨htasks, hnext⟩ := D.enqueueTask_task c d
  refine ⟨D.launched c d, ?_, rfl, hinst, rfl, ?_, ?_, hnext⟩
  · change (D.enqueueTask c d).task.tasks.getLast? = _
    rw [htasks, List.getLast?_concat]
  · intro e he
    obtain ⟨i, -, rfl⟩ := List.mem_map.1 he
    rfl
  · simp [DieState.launched, Function.comp_def]

theorem taskStatus_run {D : DieState} {c : Cmd} {t : Task} (ht : D.taskOf (c.p 0 4) = some t) (hi : t.inst = c.inst) :
    runM (taskStatus c) D = (.ok ((List.range 16).flatMap (fun i => toLE 1 (D.coreState t i))), D) := by
  unfold taskStatus
  rw [runM_get_bind]
  simp only [ht]
  rw [runM_guardS_bind _ _ _ _ (by simp [hi])]
  rfl

theorem taskQueryCore_run {D : DieState} {c : Cmd} (hd : c.p 0 4 / 16 = D.num)
    (ho : D.clusterOwner (c.p 0 4 % 16 / 4) = some c.inst) :
    runM (taskQueryCore c) D = (.ok (let k := D.core (c.p 0 4 % 16)
      toLE 4 (k.task.getD 0) ++ toLE 4 k.launch.length ++ toLE 4 k.pc), D) := by
  unfold taskQueryCore
  rw [runM_get_bind, runM_guardS_bind _ _ _ _ (by simp [hd]), runM_guardS_bind _ _ _ _ (by simp [ho])]
  rfl

/-! ## Start (R155, R187) -/

section
variable {D : DieState} {i id : Nat} {rest : List Nat} {t : Task} (hfree : (D.core i).task = none)
  (hhead : (D.core i).launch = id :: rest) (ht : D.taskOf id = some t)
include hfree hhead ht

theorem DieState.startTask_waits (h : D.checkWindows t (i / 4) = .wait) : D.startTask i = D := by
  unfold DieState.startTask
  simp only [hfree, hhead, ht, h]

theorem DieState.startTask_fails (st : Status) (h : D.checkWindows t (i / 4) = .fail st) :
    D.startTask i = D.failLaunch t i st := by
  unfold DieState.startTask
  simp only [hfree, hhead, ht, h]

theorem DieState.startTask_starts {b : List Byte} {D1 : DieState} (h : D.checkWindows t (i / 4) = .fine)
    (hread : runM (descRead i t) (D.beginTask i t rest) = (.ok b, D1)) : D.startTask i = D1.loadDescs i t b := by
  unfold DieState.startTask
  simp only [hfree, hhead, ht, h, hread]

end

/-! ## Time limit (R201) -/

theorem DieState.limitExpire_over {D : DieState} {id st : Nat} {t : Task} (ht : D.taskOf id = some t)
    (hst : t.started = some st) (hlim : tdLimit t.desc ≠ 0) (hover : st + tdLimit t.desc * 1000 < D.now) :
    D.limitExpire id = D.endTaskBadly t
      { status := .faultTimeout, op := 0xFFFFFFFF, core := D.globalCore ((maskCores (tdCoreMask t.desc)).headD 0), engine := 0,
        detail := 5 } := by
  unfold DieState.limitExpire
  simp only [ht, hst]
  exact if_pos ⟨hlim, hover⟩

/-! ## Dispatch (R190-R192, R195, R300) -/

/-- The die on which core i's next op is looked at: its sequencer works, and the prefetch buffer stands around the op (R191). -/
def DieState.atOp (D : DieState) (i : Nat) : DieState := (D.work (coreBlock i 0)).prefetch i

section
variable {D : DieState} {i : Nat} {t : Task} {w : Nat} (ht : D.runningTask i = some t) (hend : (D.core i).ended = false)
  (hseq : (D.core i).seq = none) (hpc : (D.core i).pc < tdOpCount t.desc)
  (hop : (D.atOp i).nextOp i t = some (w, false, false)) (hok : opWordOk t.desc w = true)
include ht hend hseq hpc hop hok

theorem DieState.dispatch_deadlock (hdead : (D.core i).deadlocked w = true) : D.dispatch i = (D.atOp i).deadlockFault t := by
  unfold DieState.atOp at hop ⊢
  unfold DieState.dispatch
  simp only [ht, hend, hseq, hop, hok, hdead, Nat.not_le.2 hpc]
  rfl

variable (hlive : (D.core i).deadlocked w = false)
include hlive

theorem DieState.dispatch_seq (he : opEngine w = 0) (htok : (D.core i).hasTokens (opWait w) = true) :
    D.dispatch i = ((D.atOp i).onCore i (fun k => { (k.takeTokens (opWait w)) with
      seq := some { idx := (D.core i).pc, word := w, headSince := (D.atOp i).now }, pc := k.pc + 1 })).count (coreBlock i 0)
        SEQ_OPS_DISPATCHED := by
  unfold DieState.atOp at hop ⊢
  unfold DieState.dispatch
  simp only [ht, hend, hseq, hop, hok, hlive, he, htok, Nat.not_le.2 hpc]
  rfl

theorem DieState.dispatch_stalled (he : opEngine w = 0) (htok : (D.core i).hasTokens (opWait w) = false) :
    D.dispatch i = D.atOp i := by
  unfold DieState.atOp at hop ⊢
  unfold DieState.dispatch
  simp only [ht, hend, hseq, hop, hok, hlive, he, htok, Nat.not_le.2 hpc]
  rfl

end

/-- The pending chain buffers once an op has taken its input buffer (R300). -/
def Core.chainRest (k : Core) (w : Nat) : List Nat := if opChainIn w then k.chained.tail else k.chained

/-- The entry of an engine op in its engine's queue, with its copies of descriptors and table (R192). -/
def Core.dispatchEntry (k : Core) (w now : Nat) : OpEntry :=
  { idx := k.pc, word := w, headSince := now, da := k.descCopy (opDescA w), db := k.descCopy (opDescB w),
    dout := k.descCopy (opDescOut w), table := if opChain w = 0xFFFF then [] else k.descs,
    inBuf := if opChainIn w then k.chained.head? else none, outBuf := if opChainOut w then some k.nextBuf else none,
    ord := k.issued }

/-- The die once core i, found as k, has put op w at the end of its engine's queue (R192, R300). -/
def DieState.dispatched (P : DieState) (k : Core) (i w : Nat) : DieState :=
  let X := P.onCore i (fun x => { x with
    chained := if opChainOut w then k.chainRest w ++ [x.nextBuf] else k.chainRest w
    nextBuf := if opChainOut w then 1 - x.nextBuf else x.nextBuf, pc := x.pc + 1, issued := x.issued + 1 })
  let Y := if opChainOut w then X.onCore i (fun c => if k.nextBuf = 0 then { c with buf0 := { c.buf0 with producer := opEngine w } }
    else { c with buf1 := { c.buf1 with producer := opEngine w } }) else X
  (Y.onEngine i (opEngine w) (fun x => { x with queue := x.queue ++ [k.dispatchEntry w P.now] })).count (coreBlock i 0)
    SEQ_OPS_DISPATCHED

section
variable {D : DieState} {i : Nat} {t : Task} {w : Nat} (ht : D.runningTask i = some t) (hend : (D.core i).ended = false)
  (hseq : (D.core i).seq = none) (hpc : (D.core i).pc < tdOpCount t.desc)
  (hop : (D.atOp i).nextOp i t = some (w, false, false)) (hok : opWordOk t.desc w = true)
  (hlive : (D.core i).deadlocked w = false)
include ht hend hseq hpc hop hok hlive

theorem DieState.dispatch_engine (he : opEngine w ≠ 0) (hroom : ((D.core i).engine (opEngine w)).queue.length < 8)
    (hin : opChainIn w = true → (D.core i).chained ≠ []) (hout : opChainOut w = true → ((D.core i).chainRest w).length < 2) :
    D.dispatch i = if ((D.core i).engine (opEngine w)).queue.isEmpty
      then ((D.atOp i).dispatched (D.core i) i w).headGate i (opEngine w) else (D.atOp i).dispatched (D.core i) i w := by
  have hin' : (opChainIn w && (D.core i).chained.isEmpty) = false := by
    simpa only [Bool.and_eq_false_imp, List.isEmpty_eq_false_iff] using hin
  have hout' : (opChainOut w && decide (2 ≤ ((D.core i).chainRest w).length)) = false := by
    simpa only [Bool.and_eq_false_imp, decide_eq_false_iff_not, Nat.not_le] using hout
  unfold DieState.atOp at hop ⊢
  unfold Core.chainRest at hout'
  unfold DieState.dispatch
  simp only [ht, hend, hseq, hop, hok, hlive, hin', hout', Nat.not_le.2 hpc, Nat.not_le.2 hroom, he, Option.isSome_none, Bool.or_false,
    Bool.not_true, Bool.false_eq_true, if_false]
  rfl

end

/-! ## The statement -/

theorem exec_taskLaunch {s : State} {a : At} {id : Nat} {c : Cmd} (rivals : List Nat) (hup : s.up a)
    (hr : (s.dieAt a).readyCmd 0x0200 id c) : exec (.taskLaunch a id rivals) s =
      .next (s.put a ((s.dieAt a).replyOpt c (do taskLaunch rivals c; pure none))) :=
  onDie_eq hup (DieState.runCmd_ready _ _ _ c _ hr)

/-- Settles O13: the commands by the runs of their actions, starts and dispatches by their branches. -/
theorem tasksLaunchStartAndExpire : Obligations.TasksLaunchStartAndExpire := by
  refine ⟨?_, ?_⟩
  · intro s a id rivals c hup D
    refine ⟨fun hr => ⟨_, exec_taskLaunch rivals hup hr, D.replyOpt_endsAs c _, fun D' hrun => ?_⟩, fun t hr ht hi => ?_,
      fun hr hd ho => ?_⟩
    · obtain ⟨D1, d, hinst, rfl⟩ := taskLaunch_ok hrun
      refine ⟨D.replyOpt_none _ c _ ?_, D1.enqueueTask_last c d hinst⟩
      rw [runM_bind_ok _ _ _ _ _ hrun]
      rfl
    · exact onDie_eq hup (DieState.runCmd_replyM hr (taskStatus_run ht hi) hr.acked)
    · exact onDie_eq hup (DieState.runCmd_replyM hr (taskQueryCore_run hd ho) hr.acked)
  · intro s a i t hup D
    refine ⟨fun id rest hfree hhead ht => ?_, ?_, fun id st ht hst hlim hover => ?_⟩
    · exact ⟨D.startTask i, onDie_eq hup rfl, DieState.startTask_waits hfree hhead ht, DieState.startTask_fails hfree hhead ht,
        fun b D1 => DieState.startTask_starts hfree hhead ht⟩
    · intro w ht hend hseq hpc P k e op hop hok
      refine ⟨fun hdead => onDie_eq hup (DieState.dispatch_deadlock ht hend hseq hpc hop hok hdead),
        fun hlive he htok => onDie_eq hup (DieState.dispatch_seq ht hend hseq hpc hop hok hlive he htok),
        fun hlive he htok => onDie_eq hup (DieState.dispatch_stalled ht hend hseq hpc hop hok hlive he htok), ?_⟩
      intro rest full hlive he hroom hin hout
      exact onDie_eq hup (DieState.dispatch_engine ht hend hseq hpc hop hok hlive he hroom hin hout)
    · exact onDie_eq hup (DieState.limitExpire_over ht hst hlim hover)

end Sys2Proof.Machine
end

section
/-! PROOFS. Engine ops: start, rerun and completion (R193-R202, R219, R297). -/

open Sys2Proof

namespace Sys2Proof.Machine

/-! ## Start (R193, R194, R297) -/

/-- The die on which the head of an engine is looked at: late waits have ended, and its gate is known. -/
def DieState.headSeen (D : DieState) (i e : Nat) : DieState := D.pastDeadlines.headGate i e

section
variable {D : DieState} {i e : Nat} {t : Task} {op : OpEntry} (ht : (D.headSeen i e).runningTask i = some t)
  (hop : (((D.headSeen i e).core i).engine e).queue.head? = some op)
include ht hop

theorem DieState.engineStart_timedOut (hg : op.gate = 4) : D.engineStart i e =
    ((D.headSeen i e).count32 (coreBlock i 4) VU_GATE_TIMEOUTS).faultTask i e op .faultTimeout 0 0 0 := by
  unfold DieState.headSeen at ht hop ⊢
  unfold DieState.engineStart
  simp only [ht, hop]
  exact if_pos hg

theorem DieState.engineStart_stale (hg : op.gate = 5) :
    D.engineStart i e = (D.headSeen i e).faultTask i e op .faultStaleGeneration 0 0 0 := by
  unfold DieState.headSeen at ht hop ⊢
  unfold DieState.engineStart
  simp only [ht, hop, hg]
  rfl

theorem DieState.engineStart_held (hg : op.gate = 1) : D.engineStart i e = D.headSeen i e := by
  unfold DieState.headSeen at ht hop ⊢
  unfold DieState.engineStart
  simp only [ht, hop, hg]
  rfl

/-- A head with room and tokens, its gate open or none, enters flight. -/
theorem DieState.engineStart_enters (hg : op.gate = 2 ∨ op.gate = 3 ∨ op.gate = 6)
    (hroom : (((D.headSeen i e).core i).engine e).room e op = true)
    (htok : ((D.headSeen i e).core i).hasTokens (opWait op.word) = true)
    (hbid : ((D.headSeen i e).core i).outbid e ((D.headSeen i e).seqMask i t) (opWait op.word) = false)
    (hmet : ∀ k, op.gateAt = some k → (D.headSeen i e).gateMet t k.1 k.2.1 = .ok true) :
    D.engineStart i e = (D.headSeen i e).enterFlight i e t op (slotResult { core := i, eng := e, task := t, op := op })
      (op.gate == 3) := by
  have hgate : op.gate ≠ 4 ∧ op.gate ≠ 5 ∧ op.gate ≠ 1 ∧ op.gate ≠ 0 := by omega
  obtain ⟨h4, h5, h1, h0⟩ := hgate
  have hstart : (D.headSeen i e).tokensStart i e t op = (D.headSeen i e).enterFlight i e t op
      (slotResult { core := i, eng := e, task := t, op := op }) (op.gate == 3) := by
    unfold DieState.tokensStart
    rw [hbid]
    rfl
  have hopen : (decide (op.gate = 1) || !(((D.headSeen i e).core i).engine e).room e op) = false := by
    rw [hroom, decide_eq_false h1]
    rfl
  rw [← hstart]
  unfold DieState.headSeen at *
  unfold DieState.engineStart
  dsimp only
  rw [ht, hop]
  dsimp only
  rw [if_neg h4, if_neg h5, if_neg (by simp only [hopen]; exact Bool.false_ne_true), htok, if_neg (by simp), if_neg h0]
  split
  case h_1 => rfl
  case h_2 k hk => rw [hmet k hk]

end

/-! ## Rerun and completion (R193, R199-R202) -/

theorem DieState.opRerun_again {D : DieState} {i e : Nat} {r : Running} {rs : List Running}
    (hrun : ((D.core i).engine e).run = r :: rs) (hres : r.result = none) (htry : r.op.attempts < r.op.lines.length) :
    D.opRerun i e = ((D.onEngine i e (fun g => { g with
      lanes := r.lanes, run := { r with op := { r.op with attempts := r.op.attempts + 1 } } :: g.run.tail })).count
        (coreBlock i 0) SEQ_OPS_RERUN).cause (coreBlock i 0) 2 := by
  unfold DieState.opRerun
  rw [hrun]
  dsimp only
  rw [if_pos (by rw [hres, decide_eq_true htry]; rfl)]

section
variable {D : DieState} {i e : Nat} {t : Task} {r : Running} {rs : List Running} {x : OpResult} (ht : D.runningTask i = some t)
  (hrun : ((D.core i).engine e).run = r :: rs) (hres : r.result = some x)
include ht hrun hres

theorem DieState.opComplete_waits (hrem : r.remote ≠ 0) : D.opComplete i e = D := by
  unfold DieState.opComplete
  simp only [ht, hrun, hres]
  exact if_pos hrem

/-- An op with nothing outstanding ends as its result says. -/
theorem DieState.opComplete_ends (hrem : r.remote = 0) (hbad : r.remoteBad = none) :
    D.opComplete i e = if x.status.isOk then D.completeOk i e t r x
      else if x.status = .faultParityPersistent then D.parityFault i e t r x else D.opFails i e t r x x.detail := by
  unfold DieState.opComplete
  simp only [ht, hrun, hres, hbad]
  exact if_neg (fun h => h hrem)

end

/-- Settles O14: starts, reruns and completions by their branches. -/
theorem engineOpsStartRerunAndComplete : Obligations.EngineOpsStartRerunAndComplete := by
  intro s a i e t hup D g
  refine ⟨?_, fun r rs hrun hres htry => onDie_eq hup (DieState.opRerun_again hrun hres htry), fun r rs x ht hrun hres => ⟨?_, ?_⟩⟩
  · intro op P x ht hop
    refine ⟨fun hg hroom htok hbid hmet => ?_, fun hg => ?_, fun hg => ?_, fun hg => ?_⟩
    · exact onDie_eq hup (DieState.engineStart_enters ht hop hg hroom htok hbid hmet)
    · exact onDie_eq hup (DieState.engineStart_held ht hop hg)
    · exact onDie_eq hup (DieState.engineStart_timedOut ht hop hg)
    · exact onDie_eq hup (DieState.engineStart_stale ht hop hg)
  · exact fun hrem => onDie_eq hup (DieState.opComplete_waits ht hrun hres hrem)
  · intro hrem hbad
    have hends := DieState.opComplete_ends ht hrun hres hrem hbad
    refine ⟨fun hok => onDie_eq hup (hends.trans (if_pos hok)), fun hok hpar => onDie_eq hup (hends.trans ?_),
      fun hpar => onDie_eq hup (hends.trans ?_)⟩
    · rw [hok, if_neg Bool.false_ne_true, if_neg hpar]
    · rw [hpar, if_neg (by decide), if_pos rfl]

end Sys2Proof.Machine
end

section
/-! PROOFS. The ops of the sequencer (R196, R197, R300). -/

open Sys2Proof

namespace Sys2Proof.Machine

/-- The op that the sequencer of a core holds is carried out, when the row is its opcode's. -/
theorem DieState.seqOp_held {D : DieState} {i code : Nat} {t : Task} {op : OpEntry} (body : Task → OpEntry → DieState → DieState)
    (ht : D.runningTask i = some t) (hop : (D.core i).seq = some op) (hcode : opCode op.word = code) :
    D.seqOp i code body = body t op D := by
  unfold DieState.seqOp
  simp only [ht, hop]
  exact if_pos hcode

/-- The offset that LOOP_BRANCH jumps to. -/
def OpEntry.target (op : OpEntry) : Int := (op.idx : Int) + sext 32 (opImm op.word)

/-- What LOOP_BRANCH does with its loop register (R196). -/
def DieState.loopBranch (D : DieState) (i : Nat) (t : Task) (op : OpEntry) : DieState :=
  let r := bits (opDescA op.word) 0 2
  let L := (D.core i).loops.getD r 0
  let E := if L = 0 then D else D.onCore i (fun k => { k with loops := k.loops.set r (L - 1) })
  if L ≤ 1 then E.finishSeq i op (op.idx + 1)
  else if 0 ≤ op.target ∧ op.target < (tdOpCount t.desc : Int) then E.finishSeq i op op.target.toNat
  else E.seqFault i op .faultBounds

section
variable {D : DieState} {i : Nat} {t : Task} {op : OpEntry}

theorem DieState.loopBranch_zero (h : (D.core i).loops.getD (bits (opDescA op.word) 0 2) 0 = 0) :
    D.loopBranch i t op = D.finishSeq i op (op.idx + 1) := by
  unfold DieState.loopBranch
  dsimp only
  rw [h, if_pos rfl, if_pos (by omega)]

theorem DieState.loopBranch_one (h : (D.core i).loops.getD (bits (opDescA op.word) 0 2) 0 = 1) :
    D.loopBranch i t op = (D.onCore i (fun k => { k with loops := k.loops.set (bits (opDescA op.word) 0 2) 0 })).finishSeq i op
      (op.idx + 1) := by
  unfold DieState.loopBranch
  dsimp only
  rw [h, if_neg (Nat.one_ne_zero), if_pos (Nat.le_refl 1)]

variable {L : Nat} (hL : (D.core i).loops.getD (bits (opDescA op.word) 0 2) 0 = L) (hmore : 1 < L)
include hL hmore

theorem DieState.loopBranch_jumps (h0 : 0 ≤ op.target) (h1 : op.target < (tdOpCount t.desc : Int)) :
    D.loopBranch i t op = (D.onCore i (fun k => { k with
      loops := k.loops.set (bits (opDescA op.word) 0 2) (L - 1) })).finishSeq i op op.target.toNat := by
  unfold DieState.loopBranch
  dsimp only
  rw [hL, if_neg (Nat.ne_zero_of_lt hmore), if_neg (Nat.not_le.2 hmore), if_pos ⟨h0, h1⟩]

theorem DieState.loopBranch_leaves (h : op.target < 0 ∨ (tdOpCount t.desc : Int) ≤ op.target) :
    D.loopBranch i t op = (D.onCore i (fun k => { k with
      loops := k.loops.set (bits (opDescA op.word) 0 2) (L - 1) })).seqFault i op .faultBounds := by
  unfold DieState.loopBranch
  dsimp only
  rw [hL, if_neg (Nat.ne_zero_of_lt hmore), if_neg (Nat.not_le.2 hmore), if_neg (by omega)]

end

section
variable {s : State} {a : At} {i : Nat} {t : Task} {op : OpEntry} (hup : s.up a) (ht : (s.dieAt a).runningTask i = some t)
  (hop : ((s.dieAt a).core i).seq = some op)
include hup ht hop

theorem exec_loopBranch (hcode : opCode op.word = 0x03) {E : DieState} (hE : (s.dieAt a).loopBranch i t op = E) :
    exec (.loopBranch a i) s = .next (s.put a E) :=
  onDie_eq hup ((DieState.seqOp_held _ ht hop hcode).trans hE)

/-- SEQ_END ends the core's stream where no chain buffer is pending (R300). -/
theorem exec_seqEnd (hcode : opCode op.word = 0x01) : exec (.seqEnd a i) s = .next (s.put a
    (if ((s.dieAt a).core i).chained.isEmpty
      then ((s.dieAt a).onCore i (fun k => { k with ended := true })).finishSeq i op (op.idx + 1)
      else (s.dieAt a).seqFault i op .faultFormat)) :=
  onDie_eq hup (DieState.seqOp_held _ ht hop hcode)

theorem exec_reseed_idle (hcode : opCode op.word = 0x09)
    (hidle : ∀ e ∈ [1, 2, 3, 4], (((s.dieAt a).core i).engine e).idle = true) : exec (.reseed a i) s = .next (s.put a
      (((s.dieAt a).onCore i (fun k => k.seedAll (opImm op.word))).finishSeq i op (op.idx + 1))) :=
  onDie_eq hup ((DieState.seqOp_held _ ht hop hcode).trans (if_pos (List.all_eq_true.2 hidle)))

theorem exec_seqDrain_idle (hcode : opCode op.word = 0x0A)
    (hidle : ∀ j < 7, bits (opImm op.word) 1 7 = 0 ∨ bit (bits (opImm op.word) 1 7) j = true →
      (((s.dieAt a).core i).engine (j + 1)).idle = true) :
    exec (.seqDrain a i) s = .next (s.put a ((s.dieAt a).finishSeq i op (op.idx + 1))) := by
  refine onDie_eq hup ((DieState.seqOp_held _ ht hop hcode).trans (if_pos (List.all_eq_true.2 fun j hj => ?_)))
  have hj7 := hidle j (List.mem_range.1 hj)
  rw [Bool.or_eq_true, Bool.not_eq_true', Bool.or_eq_false_iff, beq_eq_false_iff_ne]
  by_cases hmask : bits (opImm op.word) 1 7 = 0 ∨ bit (bits (opImm op.word) 1 7) j = true
  · exact .inr (hj7 hmask)
  · exact .inl (by simpa only [not_or, Bool.not_eq_true] using hmask)

/-! ## SEAL_WAIT and SEAL_SIGNAL (R197) -/

section
variable (hcode : opCode op.word = 0x04) (hnew : ((s.dieAt a).core i).sealWait = none)
  (hvalid : bit (tdSlot t.desc (bits (opDescA op.word) 0 4)) 24 = true)
  (halloc : ((s.dieAt a).sealOf (refNum (tdSlot t.desc (bits (opDescA op.word) 0 4)))).alloc = true)
  (hgen : ((s.dieAt a).sealOf (refNum (tdSlot t.desc (bits (opDescA op.word) 0 4)))).gen =
    refGen (tdSlot t.desc (bits (opDescA op.word) 0 4)))
  (hdoor : ((s.dieAt a).sealOf (refNum (tdSlot t.desc (bits (opDescA op.word) 0 4)))).door = none)
include hcode hnew hvalid halloc hgen hdoor

theorem exec_seqSealWait_reached
    (h : opImm op.word ≤ ((s.dieAt a).sealOf (refNum (tdSlot t.desc (bits (opDescA op.word) 0 4)))).counter) :
    exec (.seqSealWait a i) s = .next (s.put a (((s.dieAt a).countWait .ok).finishSeq i op (op.idx + 1))) := by
  refine onDie_eq hup ((DieState.seqOp_held _ ht hop hcode).trans ?_)
  simp only [hnew, hvalid, halloc, hgen, hdoor, h]
  simp

theorem exec_seqSealWait_below
    (h : ((s.dieAt a).sealOf (refNum (tdSlot t.desc (bits (opDescA op.word) 0 4)))).counter < opImm op.word) :
    exec (.seqSealWait a i) s = .next (s.put a
      (let X := (s.dieAt a).onCore i (fun k => { k with sealWait := some 0 })
       { X with cmd := { X.cmd with waits := X.cmd.waits ++
         [{ who := .seq i, num := refNum (tdSlot t.desc (bits (opDescA op.word) 0 4)), target := opImm op.word,
            deadline := deadlineOf X.now (opDescB op.word) }] } })) := by
  refine onDie_eq hup ((DieState.seqOp_held _ ht hop hcode).trans ?_)
  simp only [hnew, hvalid, halloc, hgen, hdoor, Nat.not_le.2 h]
  simp

end

section
variable (hcode : opCode op.word = 0x04)
include hcode

/-- A wait that stands goes on, or ends as the seal unit ended it. -/
theorem exec_seqSealWait_pending (hn : ((s.dieAt a).core i).sealWait = some 0) :
    exec (.seqSealWait a i) s = .next (s.put a (s.dieAt a)) := by
  refine onDie_eq hup ((DieState.seqOp_held _ ht hop hcode).trans ?_)
  simp only [hn]

theorem exec_seqSealWait_ok (hn : ((s.dieAt a).core i).sealWait = some 2) :
    exec (.seqSealWait a i) s = .next (s.put a ((s.dieAt a).finishSeq i op (op.idx + 1))) := by
  refine onDie_eq hup ((DieState.seqOp_held _ ht hop hcode).trans ?_)
  simp only [hn]

theorem exec_seqSealWait_atDeadline (hn : ((s.dieAt a).core i).sealWait = some 3) :
    exec (.seqSealWait a i) s = .next (s.put a (((s.dieAt a).orFlags t.id 4).finishSeq i op (op.idx + 1))) := by
  refine onDie_eq hup ((DieState.seqOp_held _ ht hop hcode).trans ?_)
  simp only [hn]

theorem exec_seqSealWait_timeout (hn : ((s.dieAt a).core i).sealWait = some 4) :
    exec (.seqSealWait a i) s = .next (s.put a ((s.dieAt a).seqFault i op .faultTimeout)) := by
  refine onDie_eq hup ((DieState.seqOp_held _ ht hop hcode).trans ?_)
  simp only [hn]

theorem exec_seqSealWait_stale (hn : ((s.dieAt a).core i).sealWait = some 5) :
    exec (.seqSealWait a i) s = .next (s.put a ((s.dieAt a).seqFault i op .faultStaleGeneration)) := by
  refine onDie_eq hup ((DieState.seqOp_held _ ht hop hcode).trans ?_)
  simp only [hn]

end

theorem exec_seqSealSignal (hcode : opCode op.word = 0x05) (hvalid : bit (tdSlot t.desc (bits (opDescA op.word) 0 4)) 24 = true) :
    exec (.seqSealSignal a i) s = .next (s.put a (((s.dieAt a).slotSignal t (bits (opDescA op.word) 0 4) (opImm op.word)
      (.task t.id i 0 op.idx)).finishSeq i op (op.idx + 1))) :=
  onDie_eq hup ((DieState.seqOp_held _ ht hop hcode).trans (if_pos hvalid))

end

/-- Settles O15: each op by its row, and LOOP_BRANCH by what its loop register holds. -/
theorem sequencerOpsMoveOn : Obligations.SequencerOpsMoveOn := by
  refine ⟨?_, ?_⟩
  · intro s a i t op hup D k ht hop
    refine ⟨?_, ?_, ?_, ?_, ?_, exec_reseed_idle hup ht hop, exec_seqDrain_idle hup ht hop⟩
    · exact fun hcode => onDie_eq hup (DieState.seqOp_held _ ht hop hcode)
    · intro hcode hnone
      have hend := exec_seqEnd hup ht hop hcode
      rwa [if_pos (List.isEmpty_iff.2 hnone)] at hend
    · intro hcode hpend
      have hend := exec_seqEnd hup ht hop hcode
      rwa [if_neg (fun h => hpend (List.isEmpty_iff.1 h))] at hend
    · exact fun hcode => onDie_eq hup (DieState.seqOp_held _ ht hop hcode)
    · intro hcode r L
      exact ⟨fun h => exec_loopBranch hup ht hop hcode (DieState.loopBranch_zero h),
        fun h => exec_loopBranch hup ht hop hcode (DieState.loopBranch_one h),
        fun h h0 h1 => exec_loopBranch hup ht hop hcode (DieState.loopBranch_jumps rfl h h0 h1),
        fun h hout => exec_loopBranch hup ht hop hcode (DieState.loopBranch_leaves rfl h hout)⟩
  · intro s a i t op hup D k ht hop
    refine ⟨?_, fun hcode => ⟨?_, ?_, ?_, ?_, ?_⟩, exec_seqSealSignal hup ht hop, ?_⟩
    · intro hcode hnew ref sl hvalid halloc hgen hdoor
      exact ⟨exec_seqSealWait_reached hup ht hop hcode hnew hvalid halloc hgen hdoor,
        exec_seqSealWait_below hup ht hop hcode hnew hvalid halloc hgen hdoor⟩
    · exact exec_seqSealWait_pending hup ht hop hcode
    · exact exec_seqSealWait_ok hup ht hop hcode
    · exact exec_seqSealWait_atDeadline hup ht hop hcode
    · exact exec_seqSealWait_timeout hup ht hop hcode
    · exact exec_seqSealWait_stale hup ht hop hcode
    · intro d w patched
      exact ⟨fun hcode => onDie_eq hup (DieState.seqOp_held _ ht hop hcode),
        fun hcode => onDie_eq hup (DieState.seqOp_held _ ht hop hcode),
        fun hcode => onDie_eq hup (DieState.seqOp_held _ ht hop hcode)⟩

end Sys2Proof.Machine
end

section
/-! PROOFS. Engine ops that run (R193, R202, R301), and those of the DMA (R169-R172). -/

open Sys2Proof

namespace Sys2Proof.Machine

/-- What a computation's end leaves in flight: its result, or its failure. -/
def opOutcome : Except Fail OpResult → OpResult
  | .ok r => r
  | .error f => f.result

/-- The die once the op of engine e of core i has run: the generators it started from are kept, and its outcome stands in flight. -/
def DieState.opRan (D : DieState) (x : OpCtx) (m : OpCtx → M OpResult) : DieState :=
  let y := runM (m x) (D.onEngine x.core x.eng (fun g => { g with run := noteLanes x.op g.lanes g.run }))
  y.2.onEngine x.core x.eng (fun g => { g with run := setResult (opOutcome y.1) g.run })

/-- Is the op one that engine x.eng of the core is to run, its input buffer filled and its output buffer free? -/
def DieState.opReady (D : DieState) (x : OpCtx) : Prop :=
  D.runningTask x.core = some x.task ∧ D.opToRun x.core x.eng = some x.op ∧ D.chainReady x = true ∧
    (D.core x.core).bufBusy x.op = false

/-- An op that is to run runs, when the row is its opcode's. -/
theorem DieState.runOp_ready {D : DieState} {x : OpCtx} {code : Nat} (body : OpCtx → M OpResult) (h : D.opReady x)
    (hcode : opCode x.op.word = code) : D.runOp x.core x.eng code body = D.opRan x body := by
  obtain ⟨ht, hop, hchain, hbuf⟩ := h
  have hrun : ¬ (opCode x.op.word ≠ code ∨ D.chainReady x = false ∨ (D.core x.core).bufBusy x.op = true) := by
    simp [hcode, hchain, hbuf]
  unfold DieState.runOp
  simp only [ht, hop]
  rw [if_neg hrun]
  unfold DieState.opRan
  dsimp only
  generalize runM (body x) _ = y
  obtain ⟨y1, y2⟩ := y
  cases y1 <;> rfl

/-- Two computations that run alike leave the same die. -/
theorem DieState.opRan_congr (D : DieState) (x : OpCtx) (m m' : OpCtx → M OpResult) (h : ∀ E, runM (m x) E = runM (m' x) E) :
    D.opRan x m = D.opRan x m' := by
  unfold DieState.opRan
  rw [h]

section
variable {s : State} {a : At} {x : OpCtx} (hup : s.up a) (h : (s.dieAt a).opReady x)
include hup h

/-- A row that runs ops of an engine. -/
theorem onDie_runOp {code : Nat} (body : OpCtx → M OpResult) (hcode : opCode x.op.word = code) :
    onDie a s (fun D => D.runOp x.core x.eng code body) = .next (s.put a ((s.dieAt a).opRan x body)) :=
  onDie_eq hup (DieState.runOp_ready body h hcode)

/-- MUL.W16 checks its kind first (R225). -/
theorem onDie_runOp_guarded {code : Nat} (b : OpCtx → Bool) (body : OpCtx → M OpResult) (hcode : opCode x.op.word = code)
    (hb : b x = true) : onDie a s (fun D => D.runOp x.core x.eng code (fun x => do guardS (b x) .faultFormat; body x)) =
      .next (s.put a ((s.dieAt a).opRan x body)) := by
  rw [onDie_runOp hup h _ hcode,
    DieState.opRan_congr _ x _ body (fun E => runM_guardS_bind .faultFormat 0 (fun _ => body x) E hb)]

theorem onDie_runOp_refused {code : Nat} (b : OpCtx → Bool) (body : OpCtx → M OpResult) (hcode : opCode x.op.word = code)
    (hb : b x = false) : onDie a s (fun D => D.runOp x.core x.eng code (fun x => do guardS (b x) .faultFormat; body x)) =
      .next (s.put a ((s.dieAt a).opRan x (fun _ => failWith .faultFormat))) := by
  rw [onDie_runOp hup h _ hcode, DieState.opRan_congr _ x _ (fun _ => failWith .faultFormat) (fun E => ?_)]
  rw [hb, runM_bind_error _ _ _ _ _ (runM_guardS_false _ _ E), runM_failWith]

end

/-- Settles O16: each row runs the computation of its opcode. -/
theorem tensorOpsRun : Obligations.TensorOpsRun := by
  intro s a i t op upset hup D ready ran
  refine ⟨fun h => ⟨?_, ?_, ?_, ?_, ?_, ?_, ?_, ?_⟩, fun h => ⟨?_, ?_, ?_, ?_, ?_⟩, fun h => ⟨?_, ?_⟩⟩
  case refine_4 =>
    exact fun hcode hkind => onDie_runOp_guarded (x := { core := i, eng := 1, task := t, op := op }) hup h
      (fun x => immKind x.op.word != 3) _ hcode (bne_iff_ne.2 hkind)
  case refine_5 =>
    exact fun hcode hkind => onDie_runOp_refused (x := { core := i, eng := 1, task := t, op := op }) hup h
      (fun x => immKind x.op.word != 3) _ hcode (by simp [hkind])
  all_goals exact fun hcode => onDie_runOp (x := { core := i, eng := _, task := t, op := op }) hup h _ hcode

/-- Settles O17: each row runs the computation of its opcode. -/
theorem vectorSelectAndHashOpsRun : Obligations.VectorSelectAndHashOpsRun := by
  intro s a i t op upset bad torn hup D ready ran
  refine ⟨fun h => ⟨?_, ?_, ?_, ?_, ?_⟩, fun h => ⟨?_, ?_, ?_, ?_, ?_⟩, fun h => ⟨?_, ?_, ?_⟩⟩ <;>
    exact fun hcode => onDie_runOp (x := { core := i, eng := _, task := t, op := op }) hup h _ hcode

/-! ## The DMA (R169-R172) -/

/-- The die once a DMA op has run: its outcome stands in flight, or the READ it needs is sent and nothing else is left. -/
def DieState.dmaRan (D : DieState) (x : OpCtx) (m : M OpResult) : DieState :=
  match runM m D with
  | (.ok r, E) => E.onEngine x.core 7 (fun g => { g with run := setResult r g.run })
  | (.error f, E) => match f.need with
    | some (g, n) => D.askRemote x g n
    | none => E.onEngine x.core 7 (fun g => { g with run := setResult f.result g.run })

theorem DieState.runDma_ready {D : DieState} {x : OpCtx} {code : Nat} (body : OpCtx → M OpResult) (he : x.eng = 7)
    (ht : D.runningTask x.core = some x.task) (hop : D.opToRun x.core 7 = some x.op)
    (hasked : ∀ r ∈ ((D.core x.core).engine 7).run, r.asked = none) (hcode : opCode x.op.word = code) :
    D.runDma x.core code body = D.dmaRan x (body x) := by
  have hwaits : ((D.core x.core).engine 7).run.any (fun r => r.asked.isSome) = false :=
    List.any_eq_false.2 fun r hr => by simp [hasked r hr]
  obtain ⟨i, e, t, op⟩ := x
  obtain rfl : e = 7 := he
  unfold DieState.runDma DieState.dmaRan
  simp only [ht, hop]
  exact (if_neg (by rw [hwaits]; simp [hcode])).trans rfl

/-- Settles O18: each row runs the computation of its opcode. -/
theorem dmaOpsRunOrAsk : Obligations.DmaOpsRunOrAsk := by
  intro s a i t op hup D x ran ht hop hasked
  refine ⟨?_, ?_, ?_, ?_, ?_⟩ <;>
    exact fun hcode => onDie_eq hup (DieState.runDma_ready (x := { core := i, eng := 7, task := t, op := op }) _ rfl ht hop hasked
      hcode)

end Sys2Proof.Machine
end

section
/-! PROOFS. Segments, coalescing buffers and fills of the cluster store (R148-R157, R167). -/

open Sys2Proof

namespace Sys2Proof.Machine

/-! ## CST_SEG_ON (R13, R167) -/

theorem blockKind_cst (k : Nat) (hk : k < 4) : blockKind (B_CST k) = some .cst := by
  unfold blockKind B_CST
  exact if_pos (by omega)

/-- The register of both halves of CST_SEG_ON. -/
def segOnDesc : RegDesc := { off := CST_SEG_ON, words := 2, w64 := true, rw := 0xFFFFFFFF, reset := 0xFFFFFFFF }

theorem regDesc_segOn_high (k : Nat) (hk : k < 4) : regDesc (B_CST k) (CST_SEG_ON + 4) = some segOnDesc := by
  unfold regDesc
  rw [blockKind_cst k hk]
  rfl

theorem DieState.regIndex_segOn (D : DieState) (req k : Nat) (hk : k < 4) : D.regIndex req (B_CST k) segOnDesc = 0 := by
  unfold DieState.regIndex B_CST
  rw [if_neg (by simp only [B_ROL]; omega), if_neg (by simp only [B_ETH]; omega)]
  rfl

theorem DieState.baseFixed_cst (D : DieState) (r : Req) (k off : Nat) (hk : k < 4) : D.baseFixed r (B_CST k) off = false := by
  have hne : (B_CST k == B_CMD) = false := beq_false_of_ne (by simp only [B_CST, B_CMD]; omega)
  unfold DieState.baseFixed
  rw [hne]
  rfl

/-- The low half of CST_SEG_ON: the held one, else the register's. -/
theorem DieState.lowHalf_segOn (D : DieState) (r : Req) (k lo : Nat) (hk : k < 4)
    (hheld : ∀ h, D.heldHalf r (B_CST k) CST_SEG_ON = some h → lo = h.low.toNat)
    (hnone : D.heldHalf r (B_CST k) CST_SEG_ON = none → lo = D.reg (B_CST k) CST_SEG_ON) :
    D.lowHalf r (B_CST k) CST_SEG_ON segOnDesc = lo := by
  unfold DieState.lowHalf
  rw [D.regIndex_segOn r.id k hk]
  cases h : D.heldHalf r (B_CST k) CST_SEG_ON with
  | none => exact (hnone h).symm
  | some x => exact (hheld x h).symm

/-- A write of the high half of CST_SEG_ON moves the segments of both halves. -/
theorem DieState.writeHigh_segOn (D : DieState) (r : Req) (k v : Nat) (hk : k < 4)
    (hadmit : D.admits r (B_CST k) (CST_SEG_ON + 4) true) :
    D.writeHigh r (B_CST k) (CST_SEG_ON + 4) v = ((D.touchSession r).writeSegOn k
      ((D.touchSession r).lowHalf r (B_CST k) CST_SEG_ON segOnDesc + v * 2 ^ 32)).halfUsed r (B_CST k) (CST_SEG_ON + 4) := by
  have hblock : B_CST k - 0x180 = k := by unfold B_CST; omega
  unfold DieState.writeHigh
  rw [regDesc_segOn_high k hk]
  dsimp only
  rw [if_neg (by decide), DieState.csrDo_admitted _ _ _ _ _ hadmit]
  simp only [DieState.baseFixed_cst _ r k _ hk, blockKind_cst k hk, hblock]
  rfl

theorem DieState.segBit_inUse (D : DieState) (k g : Nat) (hon : bit (D.reg64 (B_CST k) CST_SEG_ON) g = true)
    (huse : D.segInUse k g = true) : D.segBit k g false = (D.cause (B_CST k) 5).event
      { cls := 4, code := 0x04, island := 19 + k, inst := D.clusterOwner k, loc := g * 0x80000, ident := g } := by
  unfold DieState.segBit
  simp only [hon, huse]
  rfl

/-- Adding a bit that is clear sets it. -/
theorem bit_add_two_pow (v g : Nat) (h : bit v g = false) : bit (v + 2 ^ g) g = true := by
  simp only [bit, beq_eq_false_iff_ne, beq_iff_eq] at h ⊢
  rw [Nat.add_div_right _ (Nat.two_pow_pos g)]
  omega

theorem Cluster.segUp_ready (C : Cluster) (g era : Nat) : bit (C.segUp g era).segReady g = true := by
  unfold Cluster.segUp
  dsimp only
  split
  case isTrue h => exact h
  case isFalse h => exact bit_add_two_pow _ g (Bool.eq_false_iff.2 h)

/-! ## Fills (R148, R156, R157) -/

section
variable {D : DieState} {k n : Nat} {f : FillJob} {rest : List FillJob} (hf : (D.cluster k).fills = f :: rest)
include hf

theorem DieState.fillHead_part (h : n < f.len) : D.fillHead k n = (D.fillReady k f.lo n).onCluster k (fun C =>
    { C with fills := { f with lo := f.lo + n, len := f.len - n } :: rest }) := by
  unfold DieState.fillHead
  rw [hf]
  dsimp only
  rw [Nat.min_eq_left h.le, if_neg h.ne]
  rfl

theorem DieState.fillHead_done (h : f.len ≤ n) : D.fillHead k n =
    if rest.isEmpty then ((D.fillReady k f.lo f.len).onCluster k (fun C => { C with fills := rest })).cause (B_CST k) 4
    else (D.fillReady k f.lo f.len).onCluster k (fun C => { C with fills := rest }) := by
  unfold DieState.fillHead
  rw [hf]
  dsimp only
  rw [Nat.min_eq_right h, if_pos rfl]

end

/-- In a cluster without an era, a byte that the fill engine zeroes reads 0, and another as before. -/
theorem Cluster.get_zero (C : Cluster) (lo len o : Nat) (hera : C.era = []) :
    (C.zero lo len).get o = if lo ≤ o ∧ o < lo + len then 0 else C.get o := by
  have hdefault (k : Nat) : C.byteDefault k = 0 := by
    unfold Cluster.byteDefault
    rw [hera]
    rfl
  have hzero : C.zero lo len = { C with
      bytes := C.bytes.filter (fun e => e.1 < lo || lo + len ≤ e.1), bad := C.bad.filter (fun e => e.1 < lo || lo + len ≤ e.1) } := by
    unfold Cluster.zero
    rw [hera]
    exact List.foldlRecOn (motive := fun X : Cluster => X = _) _ _ rfl (fun X hX _ _ => hX)
  have hkeep : (fun e : Nat × Byte => decide (e.1 < lo) || decide (lo + len ≤ e.1)) =
      fun e => !((fun k => decide (lo ≤ k) && decide (k < lo + len)) e.1) := by
    funext e
    rw [Bool.eq_iff_iff]
    simp only [Bool.or_eq_true, decide_eq_true_eq, Bool.not_eq_true', Bool.and_eq_false_iff, decide_eq_false_iff_not]
    omega
  rw [hzero]
  change tabGetF C.byteDefault (C.bytes.filter _) o = _
  rw [hkeep, tabGetF_filter C.byteDefault (fun k => decide (lo ≤ k) && decide (k < lo + len)) C.bytes o, hdefault]
  simp only [Bool.and_eq_true, decide_eq_true_eq]
  rfl

/-- Settles O19: writes bit by bit, fills by what is left of the head range, zeroed bytes by what the table keeps. -/
theorem storeSegmentsBuffersAndFills : Obligations.StoreSegmentsBuffersAndFills := by
  refine ⟨?_, ?_, fun C lo len o hera => C.get_zero lo len o hera⟩
  · intro s a r k v g w hup hk hv D
    have hk4 : k % 4 = k := Nat.mod_eq_of_lt hk
    refine ⟨fun hadmit => ?_, fun hadmit => ?_, fun hon huse => D.segBit_inUse k g hon huse, fun hrise => ?_,
      fun era => Cluster.segUp_ready _ g era⟩
    · refine onDie_eq hup ?_
      rw [hk4, Nat.mod_eq_of_lt hv, DieState.csrDo_admitted _ _ _ _ _ hadmit]
      rfl
    · intro T lo E
      have hlo : T.lowHalf r (B_CST k) CST_SEG_ON segOnDesc = lo :=
        T.lowHalf_segOn r k lo hk (fun h hheld => by simp only [lo, hheld]) (fun hnone => by simp only [lo, hnone])
      have hwrite := D.writeHigh_segOn r k w.toNat hk hadmit
      rw [hlo] at hwrite
      exact onDie_eq hup hwrite
    · refine onDie_eq hup ?_
      rw [hk4]
      exact if_pos hrise
  · intro s a k hup hk D old
    have hk4 : k % 4 = k := Nat.mod_eq_of_lt hk
    refine ⟨?_, fun f rest hf => ⟨fun hlen => ?_, fun hlen => ?_, fun hlen => ?_⟩⟩
    · refine onDie_eq hup ?_
      rw [hk4]
      rfl
    all_goals
      refine onDie_eq hup ?_
      rw [hk4]
    · exact DieState.fillHead_part hf hlen
    · exact DieState.fillHead_done hf hlen
    · exact DieState.fillHead_done hf hlen

end Sys2Proof.Machine
end

section
/-! PROOFS. Remote accesses and windows (R159-R162, R650). -/

open Sys2Proof

namespace Sys2Proof.Machine

variable {β : Type}

/-- The closed windows of a cluster, the lowest first. -/
def DieState.closedWins (D : DieState) (k : Nat) : List Nat :=
  (List.range 64).filter (fun n => !((D.cluster k).rwin n).isOpen)

theorem DieState.mem_closedWins (D : DieState) (k n : Nat) :
    n ∈ D.closedWins k ↔ n < 64 ∧ ((D.cluster k).rwin n).isOpen = false := by
  simp [DieState.closedWins]

theorem DieState.closedWins_eq_cons (D : DieState) (k n : Nat) (hn : n < 64) (hclosed : ((D.cluster k).rwin n).isOpen = false)
    (hfirst : ∀ m < n, ((D.cluster k).rwin m).isOpen = true) : ∃ rest, D.closedWins k = n :: rest := by
  have hmem : n ∈ D.closedWins k := (D.mem_closedWins k n).2 ⟨hn, hclosed⟩
  have hsorted : (D.closedWins k).Pairwise (· < ·) := List.pairwise_lt_range.filter _
  cases hl : D.closedWins k with
  | nil => rw [hl] at hmem; cases hmem
  | cons x rest =>
    rw [hl] at hmem hsorted
    obtain ⟨-, hx⟩ := (D.mem_closedWins k x).1 (by rw [hl]; exact List.mem_cons_self ..)
    have hle : ¬ x < n := fun hlt => by rw [hfirst x hlt] at hx; cases hx
    rcases List.mem_cons.1 hmem with rfl | htail
    · exact ⟨rest, rfl⟩
    · exact absurd ((List.pairwise_cons.1 hsorted).1 n htail) hle

section
variable {D : DieState} {c : Cmd} (hk : c.p 0 1 < 4) (hz : c.p 1 3 = 0) (ho : D.clusterOwner (c.p 0 1) = some c.inst)
include hk hz ho

theorem runM_rwinCluster_bind (f : Nat → M β) : runM (rwinCluster c >>= f) D = runM (f (c.p 0 1)) D := by
  refine runM_bind_ok _ _ _ _ _ ?_
  unfold rwinCluster
  rw [runM_get_bind, runM_okField_bind _ _ _ (by simpa using hk), runM_okField_bind _ _ _ (by simpa using hz),
    runM_guardS_bind _ _ _ _ (by simpa using ho)]
  rfl

/-- The window that the parameters of an RWIN_OPEN spell. -/
def openedWin (c : Cmd) (gen : Nat) : Rwin :=
  { isOpen := true, base := c.p 4 4, size := c.p 8 4, node := c.p 12 2, dies := c.p 14 1, insts := c.p 15 1, rights := c.p 16 1,
    flags := c.p 17 1, sealRef := c.p 20 4, gen := gen }

theorem rwinOpen_run (rivals : List Nat) (hbase : c.p 4 4 % 64 = 0) (hsize : c.p 8 4 % 64 = 0) (hsize64 : 64 ≤ c.p 8 4)
    (hnode : bits (c.p 12 2) 12 3 = 0) (hdies : c.p 14 1 < 16) (hrights : c.p 16 1 < 4) (hflags : c.p 17 1 < 2)
    (hpad : c.p 18 2 = 0) (href : c.p 17 1 = 0 ∨ refOk (c.p 20 4) = true) (hend : c.p 4 4 + c.p 8 4 ≤ 2 ^ 25)
    (n : Nat) (rest : List Nat) (hfree : D.closedWins (c.p 0 1) = n :: rest) (hsole : rest = [] → rivals = []) :
    runM (rwinOpen rivals c) D =
      (.ok [BitVec.ofNat 8 n, 0, 0, 0, BitVec.ofNat 8 ((((D.cluster (c.p 0 1)).rwin n).gen + 1) % 256)],
        D.onCluster (c.p 0 1) (fun C => { C with
          rwins := tabSet {} n (openedWin c ((((D.cluster (c.p 0 1)).rwin n).gen + 1) % 256)) C.rwins })) := by
  have hclaim : runM (claim 12 (200 + c.p 0 1) (D.closedWins (c.p 0 1)).length c.queue rivals) D = (.ok (), D) := by
    refine claim_of_sole _ _ _ _ _ D (by simp [hfree]) (fun h1 => hsole ?_)
    simpa [hfree] using h1
  unfold DieState.closedWins at hclaim hfree
  unfold rwinOpen
  rw [runM_rwinCluster_bind hk hz ho]
  dsimp only
  rw [runM_okField_bind _ _ _ (by simp [hbase]), runM_okField_bind _ _ _ (by simp [hsize, hsize64]),
    runM_okField_bind _ _ _ (by simp [hnode]), runM_okField_bind _ _ _ (by simp [hdies]), runM_okField_bind _ _ _ (by simp [hrights]),
    runM_okField_bind _ _ _ (by simp [hflags]), runM_okField_bind _ _ _ (by simp [hpad]),
    runM_okField_bind _ _ _ (by simpa using href), runM_guardS_bind _ _ _ _ (by simpa using hend), runM_get_bind,
    runM_bind_ok _ _ _ _ _ hclaim, hfree]
  rfl

theorem rwinClose_run (hpad : c.p 6 2 = 0) (hn : c.p 4 1 < 64) (hopen : ((D.cluster (c.p 0 1)).rwin (c.p 4 1)).isOpen = true)
    (hgen : ((D.cluster (c.p 0 1)).rwin (c.p 4 1)).gen = c.p 5 1) :
    runM (rwinClose c) D = (.ok [], D.onCluster (c.p 0 1) (fun C => { C with
      rwins := tabSet {} (c.p 4 1) { (D.cluster (c.p 0 1)).rwin (c.p 4 1) with isOpen := false } C.rwins })) := by
  unfold rwinClose
  rw [runM_rwinCluster_bind hk hz ho, runM_okField_bind _ _ _ (by simp [hpad]), runM_get_bind,
    runM_guardS_bind _ _ _ _ (by simp [hn, hopen, hgen]), runM_onD_bind]
  rfl

theorem rwinList_run : runM (rwinList c) D =
    (.ok (toLE 8 (((List.range 64).filter (fun n => ((D.cluster (c.p 0 1)).rwin n).isOpen)).map (fun n => 2 ^ n)).sum), D) := by
  unfold rwinList
  rw [runM_rwinCluster_bind hk hz ho, runM_get_bind]
  rfl

end

@[simp] theorem DieState.onCluster_acked (D : DieState) (k id : Nat) (f : Cluster → Cluster) :
    (D.onCluster k f).acked id = D.acked id := rfl

/-- Settles O20: an arriving access by its row, each command by the run of its action. -/
theorem remoteWindowsOpenAndClose : Obligations.RemoteWindowsOpenAndClose := by
  intro s a id rivals c hup D k
  refine ⟨fun n node die r off len data mark hn => ?_, fun hk hz ho => ⟨?_, ?_, ?_⟩⟩
  · refine onDie_eq hup ?_
    rw [Nat.mod_eq_of_lt hn]
    rfl
  · intro n hr hbase hsize hsize64 hnode hdies hrights hflags hpad href hend hn hclosed hfirst hrivals gen w
    obtain ⟨rest, hrest⟩ := D.closedWins_eq_cons k n hn hclosed hfirst
    have hsole (hnil : rest = []) : rivals = [] := by
      rcases hrivals with h | ⟨m, hnm, hm, hmclosed⟩
      · exact h
      · have hmem := (D.mem_closedWins k m).2 ⟨hm, hmclosed⟩
        rw [hrest, hnil] at hmem
        exact absurd (List.mem_singleton.1 hmem) (Nat.ne_of_gt hnm)
    exact onDie_eq hup (DieState.runCmd_replyM hr
      (rwinOpen_run hk hz ho rivals hbase hsize hsize64 hnode hdies hrights hflags hpad href hend n rest hrest hsole)
      ((DieState.onCluster_acked ..).trans hr.acked))
  · intro hr hpad hn hopen hgen
    exact onDie_eq hup (DieState.runCmd_replyM hr (rwinClose_run hk hz ho hpad hn hopen hgen)
      ((DieState.onCluster_acked ..).trans hr.acked))
  · exact fun hr => onDie_eq hup (DieState.runCmd_replyM hr (rwinList_run hk hz ho) hr.acked)

end Sys2Proof.Machine
end

section
/-! PROOFS. Power changes (R590-R593). -/

open Sys2Proof

namespace Sys2Proof.Machine

variable {α β : Type}

/-! ## What a flush of the coalescing buffers leaves alone (R150, R594) -/

/-- What every step of a loop keeps, the loop keeps. -/
theorem foldl_keeps {γ : Type} (F : β → γ) (f : β → α → β) (h : ∀ b x, F (f b x) = F b) (l : List α) (b : β) :
    F (l.foldl f b) = F b := by
  induction l generalizing b with
  | nil => rfl
  | cons x l ih => exact (ih (f b x)).trans (h b x)

@[simp] theorem DieState.work_pwr (D : DieState) (b : Nat) : (D.work b).pwr = D.pwr := by
  obtain ⟨c, h⟩ := work_only D b
  rw [h]

@[simp] theorem DieState.work_now (D : DieState) (b : Nat) : (D.work b).now = D.now := by
  obtain ⟨c, h⟩ := work_only D b
  rw [h]

/-- What of a die the changes of power are entered with: their list, and the time. -/
def DieState.powerBook (D : DieState) : PwrState × Nat := (D.pwr, D.now)

theorem DieState.releaseEntry_powerBook (D : DieState) (c port : Nat) (e : CbEntry) (why : Release) :
    (D.releaseEntry c port e why).powerBook = D.powerBook := by
  unfold DieState.releaseEntry DieState.powerBook
  simp [DieState.onCluster]

theorem DieState.boundary_powerBook (D : DieState) (c port : Nat) : (D.boundary c port).powerBook = D.powerBook :=
  foldl_keeps DieState.powerBook (fun D e => D.releaseEntry c port e .boundary)
    (fun D e => D.releaseEntry_powerBook c port e .boundary) _ _

theorem DieState.closeGate_powerBook (D : DieState) (u : Nat) : (D.closeGate u).powerBook = D.powerBook := by
  unfold DieState.closeGate
  split
  · exact foldl_keeps DieState.powerBook (fun (D : DieState) (pb : Nat × List CbEntry) => D.boundary u pb.1)
      (fun D pb => D.boundary_powerBook u pb.1) _ _
  · exact foldl_keeps DieState.powerBook (fun (D : DieState) e => D.boundary (unitCluster u) (enginePort ((u - 4) % 4) e))
      (fun D e => D.boundary_powerBook _ _) _ _

/-! ## Power commands (R591, R592) -/

/-- The die on which the change of a unit has started for a command. -/
def DieState.powerStarts (D : DieState) (c : Cmd) (u : Nat) (on : Bool) : DieState :=
  { D.started c.id with pwr := { D.pwr with
    changes := D.pwr.changes ++ [{ unit := u, on := on, start := D.now, cmd := c.id }] } }

/-- Is the unit one that may be switched off: powered, a core's cluster too? -/
def DieState.switchedOn (D : DieState) (u : Nat) : Prop :=
  D.unitOn u = true ∧ (4 ≤ u → (D.cluster (unitCluster u)).powered = true)

/-- Is the unit in use: a task on one of its cores, or an open remote window of its cluster? -/
def DieState.powerUsed (D : DieState) (u : Nat) : Prop :=
  D.coresBusy (unitCores u) = true ∨ (u < 4 ∧ (D.cluster u).rwins.any (fun e => e.2.isOpen) = true)

section
variable {D : DieState} {c : Cmd} {u : Nat} (ho : D.clusterOwner (unitCluster u) = some c.inst)
include ho

theorem powerUnit_after (on : Bool) (hbusy : D.powerBusy u = true) : runM (powerUnit c u on) D =
    (.ok none, { D.started c.id with pwr := { D.pwr with waiting := D.pwr.waiting ++ [(u, c.id)] } }) := by
  unfold powerUnit
  rw [runM_get_bind, runM_guardS_bind _ _ _ _ (by simp [ho]), if_pos hbusy, runM_onD_bind]
  rfl

variable (hfree : D.powerBusy u = false)
include hfree

theorem powerUnit_on_same (h : D.unitOn u = true) : runM (powerUnit c u true) D = (.ok (some []), D) := by
  unfold powerUnit
  rw [runM_get_bind, runM_guardS_bind _ _ _ _ (by simp [ho]), if_neg (by simp [hfree]), if_pos rfl, if_pos h]
  rfl

theorem powerUnit_on (h : D.unitOn u = false) : runM (powerUnit c u true) D = (.ok none, D.powerStarts c u true) := by
  unfold powerUnit
  rw [runM_get_bind, runM_guardS_bind _ _ _ _ (by simp [ho]), if_neg (by simp [hfree]), if_pos rfl, if_neg (by simp [h]),
    runM_onD_bind]
  rfl

theorem powerUnit_off_same (h : ¬ D.switchedOn u) : runM (powerUnit c u false) D = (.ok (some []), D) := by
  unfold powerUnit
  rw [runM_get_bind, runM_guardS_bind _ _ _ _ (by simp [ho]), if_neg (by simp [hfree]), if_neg Bool.false_ne_true, runM_ite]
  split
  case isTrue => rfl
  case isFalse hcluster =>
    have hunit : D.unitOn u = false := by
      unfold DieState.switchedOn at h
      simp only [not_and, Bool.not_eq_false] at hcluster
      exact Bool.eq_false_iff.2 fun hon => h ⟨hon, hcluster⟩
    rw [if_pos hunit]
    rfl

variable (hon : D.switchedOn u)
include hon

/-- Switching off a unit that is on comes to the checks of R592. -/
theorem powerUnit_off_checks : runM (powerUnit c u false) D = runM (do
    guardS (!D.coresBusy (unitCores u)) .faultStaleGeneration
    guardS (4 ≤ u || !((D.cluster u).rwins.any (fun e => e.2.isOpen))) .faultStaleGeneration
    guardS (D.clusterOwner (unitCluster u) != some 0 || D.saf.service.isSome) .refusedServiceMode
    onD (fun D => (D.closeGate u).powerStarts c u false)
    pure (none : Option (List Byte))) D := by
  obtain ⟨hunit, hcluster⟩ := hon
  unfold powerUnit
  rw [runM_get_bind, runM_guardS_bind _ _ _ _ (by simp [ho]), if_neg (by simp [hfree]), if_neg Bool.false_ne_true,
    if_neg (fun ⟨h4, hoff⟩ => by rw [hcluster h4] at hoff; cases hoff), if_neg (by simp [hunit])]
  rfl

theorem powerUnit_off_used (h : D.powerUsed u) :
    runM (powerUnit c u false) D = (.error { status := .faultStaleGeneration }, D) := by
  rw [powerUnit_off_checks ho hfree hon]
  by_cases hcores : D.coresBusy (unitCores u) = true
  · rw [hcores, Bool.not_true, runM_bind_error _ _ _ _ _ (runM_guardS_false _ _ D)]
  · obtain ⟨hu, hwin⟩ := h.resolve_left hcores
    rw [runM_guardS_bind _ _ _ _ (by simp [hcores]), hwin, decide_eq_false (Nat.not_le.2 hu),
      show (false || !true) = false from rfl, runM_bind_error _ _ _ _ _ (runM_guardS_false _ _ D)]

theorem powerUnit_off_refused (h : ¬ D.powerUsed u) (hinst : c.inst = 0) (hserv : D.saf.service = none) :
    runM (powerUnit c u false) D = (.error { status := .refusedServiceMode }, D) := by
  unfold DieState.powerUsed at h
  simp only [not_or, not_and, Bool.not_eq_true] at h
  obtain ⟨hcores, hwin⟩ := h
  rw [powerUnit_off_checks ho hfree hon, runM_guardS_bind _ _ _ _ (by simp [hcores]), runM_guardS_bind _ _ _ _ ?_, ho, hserv, hinst,
    show (some 0 != some 0 || (none : Option Nat).isSome) = false from rfl, runM_bind_error _ _ _ _ _ (runM_guardS_false _ _ D)]
  by_cases hu : u < 4
  · simp [hwin hu]
  · simp [Nat.not_lt.1 hu]

theorem powerUnit_off (h : ¬ D.powerUsed u) (hserv : c.inst = 0 → D.saf.service ≠ none) :
    runM (powerUnit c u false) D = (.ok none, (D.closeGate u).powerStarts c u false) := by
  unfold DieState.powerUsed at h
  simp only [not_or, not_and, Bool.not_eq_true] at h
  obtain ⟨hcores, hwin⟩ := h
  have hwins : (decide (4 ≤ u) || !((D.cluster u).rwins.any (fun e => e.2.isOpen))) = true := by
    by_cases hu : u < 4
    · simp [hwin hu]
    · simp [Nat.not_lt.1 hu]
  have hservice : (D.clusterOwner (unitCluster u) != some 0 || D.saf.service.isSome) = true := by
    by_cases hinst : c.inst = 0
    · simp [Option.isSome_iff_ne_none.2 (hserv hinst)]
    · simp [ho, hinst]
  rw [powerUnit_off_checks ho hfree hon, runM_guardS_bind _ _ _ _ (by simp [hcores]), runM_guardS_bind _ _ _ _ hwins,
    runM_guardS_bind _ _ _ _ hservice, runM_onD_bind]
  rfl

end

end Sys2Proof.Machine
end

section
/-! PROOFS. The power commands' statement (R590-R593). -/

open Sys2Proof

namespace Sys2Proof.Machine

/-! ## How a power command ends (R591, R592) -/

section
variable {D : DieState} {c : Cmd} {u op id : Nat} (hr : D.readyCmd op id c)
  (ho : D.clusterOwner (unitCluster u) = some c.inst)
include hr ho

/-- A power command ends by the state of its unit. -/
theorem powerUnit_ends :
    (D.powerBusy u = true → D.replyOpt c (powerUnit c u (c.p 4 4 == 1)) =
      { D.started c.id with pwr := { D.pwr with waiting := D.pwr.waiting ++ [(u, c.id)] } }) ∧
    (D.powerBusy u = false → c.p 4 4 = 1 →
      (D.unitOn u = true → D.replyOpt c (powerUnit c u (c.p 4 4 == 1)) = D.reply c .ok 0 []) ∧
      (D.unitOn u = false → D.replyOpt c (powerUnit c u (c.p 4 4 == 1)) = D.powerStarts c u true)) ∧
    (D.powerBusy u = false → c.p 4 4 = 0 →
      (¬ D.switchedOn u → D.replyOpt c (powerUnit c u (c.p 4 4 == 1)) = D.reply c .ok 0 []) ∧
      (D.switchedOn u → D.powerUsed u → D.replyOpt c (powerUnit c u (c.p 4 4 == 1)) = D.reply c .faultStaleGeneration) ∧
      (D.switchedOn u → ¬ D.powerUsed u → c.inst = 0 → D.saf.service = none →
        D.replyOpt c (powerUnit c u (c.p 4 4 == 1)) = D.reply c .refusedServiceMode) ∧
      (D.switchedOn u → ¬ D.powerUsed u → (c.inst = 0 → D.saf.service ≠ none) →
        D.replyOpt c (powerUnit c u (c.p 4 4 == 1)) = (D.closeGate u).powerStarts c u false)) := by
  have hack : D.acked c.id = true := hr.id_eq.symm ▸ hr.acked
  refine ⟨fun hbusy => D.replyOpt_none _ c _ (powerUnit_after ho _ hbusy), fun hfree hp => ?_, fun hfree hp => ?_⟩
  · have hval : (c.p 4 4 == 1) = true := beq_iff_eq.2 hp
    rw [hval]
    exact ⟨fun h => D.replyOpt_some D c _ _ (powerUnit_on_same ho hfree h) hack,
      fun h => D.replyOpt_none _ c _ (powerUnit_on ho hfree h)⟩
  · have hval : (c.p 4 4 == 1) = false := beq_false_of_ne (by omega)
    rw [hval]
    refine ⟨fun h => D.replyOpt_some D c _ _ (powerUnit_off_same ho hfree h) hack, fun hon h => ?_, fun hon h hinst hserv => ?_,
      fun hon h hserv => D.replyOpt_none _ c _ (powerUnit_off ho hfree hon h hserv)⟩
    · have hend := DieState.replyOpt_error (c := c) (powerUnit_off_used ho hfree hon h) rfl
      exact hend
    · have hend := DieState.replyOpt_error (c := c) (powerUnit_off_refused ho hfree hon h hinst hserv) rfl
      exact hend

end

/-- The change that a power-down starts stands beside those of the die as it was. -/
theorem DieState.closeGate_powerStarts (D : DieState) (c : Cmd) (u : Nat) :
    (D.closeGate u).powerStarts c u false = { (D.closeGate u).started c.id with pwr := { D.pwr with
      changes := D.pwr.changes ++ [{ unit := u, on := false, start := D.now, cmd := c.id }] } } := by
  obtain ⟨hpwr, hnow⟩ := Prod.mk.inj (D.closeGate_powerBook u)
  unfold DieState.powerStarts
  rw [hpwr, hnow]

theorem powerCluster_run {D : DieState} {c : Cmd} (hk : c.p 0 4 < 4) (hon : c.p 4 4 < 2) :
    runM (powerCluster c) D = runM (powerUnit c (c.p 0 4) (c.p 4 4 == 1)) D := by
  unfold powerCluster
  rw [runM_okField_bind _ _ _ (by simpa using hk), runM_okField_bind _ _ _ (by simpa using hon)]

theorem powerCore_run {D : DieState} {c : Cmd} (hd : c.p 0 4 / 16 = D.num) (hon : c.p 4 4 < 2) :
    runM (powerCore c) D = runM (powerUnit c (4 + c.p 0 4 % 16) (c.p 4 4 == 1)) D := by
  unfold powerCore
  rw [runM_get_bind, runM_okField_bind _ _ _ (by simp [hd]), runM_okField_bind _ _ _ (by simpa using hon)]

theorem DieState.replyOpt_congr {D : DieState} {c : Cmd} {m m' : M (Option (List Byte))} (h : runM m D = runM m' D) :
    D.replyOpt c m = D.replyOpt c m' := by
  unfold DieState.replyOpt DieState.withParams
  rw [h]

/-! ## POWER_SEGMENTS and POWER_STATUS (R590) -/

/-- The segments that a write of CST_SEG_ON leaves on beside those that are asked for. -/
def DieState.segRefused (W : DieState) (k want : Nat) : Nat := andNot (W.reg64 (B_CST k) CST_SEG_ON) want

section
variable {D : DieState} {c : Cmd} (hk : c.p 0 4 < 4) (ho : D.clusterOwner (c.p 0 4) = some c.inst)
  (hpow : (D.cluster (c.p 0 4)).powered = true)
include hk ho hpow

theorem powerSegments_run : runM (powerSegments c) D =
    let W := D.writeSegOn (c.p 0 4) (c.p 4 8)
    if (W.cluster (c.p 0 4)).segReady = orN (c.p 4 8) (W.segRefused (c.p 0 4) (c.p 4 8))
    then (.ok (some (toLE 8 (W.segRefused (c.p 0 4) (c.p 4 8)))), W)
    else (.ok none, { W.started c.id with pwr := { W.pwr with
      segs := W.pwr.segs ++ [(c.p 0 4, c.p 4 8, W.segRefused (c.p 0 4) (c.p 4 8), c.id)] } }) := by
  unfold powerSegments
  rw [runM_get_bind, runM_okField_bind _ _ _ (by simpa using hk), runM_guardS_bind _ _ _ _ (by simp [ho]),
    runM_guardS_bind _ _ _ _ hpow, runM_onD_bind, runM_get_bind, runM_ite, runM_onD_bind]
  rfl

end

/-! ## Changes that complete (R592, R593) -/

theorem DieState.clusterUp_cluster (D : DieState) (k : Nat) (hk : k < 4) :
    (D.clusterUp k).cluster k =
      { retired := (D.cluster k).retired, rwins := (D.cluster k).rwins, segReady := 2 ^ 64 - 1, powered := true } := by
  have hcores : (D.clusterUp k).clusters = (D.onCluster k (fun C =>
      { retired := C.retired, rwins := C.rwins, segReady := 2 ^ 64 - 1, powered := true })).clusters :=
    foldl_keeps (DieState.clusters) (fun (D : DieState) i => D.onCore i (fun _ => { powered := true })) (fun _ _ => rfl) _ _
  unfold DieState.cluster
  rw [hcores]
  exact quadGet_set_same D.clusters ⟨k, hk⟩ _

theorem DieState.drainExpire_due {D : DieState} {u : Nat} {p : PwrChange} (hp : D.powerChange u false = some p)
    (hnot : p.drained = false) (hdue : p.start + 5000 ≤ D.now) :
    ∃ back : Packet → Bool, back = (fun q => decide (u < 4) && (q.kind == pkWrite || q.kind == pkRead) &&
        (match place (gLocal q.addr) with | .store c _ => c == u | _ => false)) ∧
      D.drainExpire u =
        (let X : DieState := { D with fab := { D.fab with inbox := D.fab.inbox.filter (fun q => !(back q)) } }
         let Y := (D.fab.inbox.filter back).foldl (fun F q =>
           (F.count B_GLB GLB_DOMAIN_BOUNCED).answer q pkError Status.refusedDomainOff.code []) X
         { Y with pwr := { Y.pwr with changes := Y.pwr.changes.map (fun x => if x = p then { x with drained := true } else x) } }) := by
  refine ⟨_, rfl, ?_⟩
  unfold DieState.drainExpire
  rw [hp]
  dsimp only
  rw [if_neg (by simp [hnot]; omega), List.partition_eq_filter_filter]
  rfl

/-- The die with a change gone from the list. -/
def DieState.changeDone (D : DieState) (p : PwrChange) : DieState :=
  { D with pwr := { D.pwr with changes := D.pwr.changes.erase p } }

theorem DieState.downComplete_core {D : DieState} {u : Nat} {p : PwrChange} (hp : D.powerChange u false = some p) (hu : 4 ≤ u) :
    D.downComplete u =
      ((((D.changeDone p).onCore (u - 4) (fun _ => { powered := false })).cause B_PWR 3).replyId p.cmd .ok).powerNext u := by
  unfold DieState.downComplete
  rw [hp]
  dsimp only
  rw [if_neg (Nat.not_lt.2 hu)]
  rfl

theorem DieState.downComplete_cluster {D : DieState} {u : Nat} {p : PwrChange} (hp : D.powerChange u false = some p) (hu : u < 4) :
    D.downComplete u = ((((unitCores u).foldl (fun D i => D.onCore i (fun _ => { powered := false }))
      ((D.changeDone p).onCluster u (fun C => { retired := C.retired, rwins := C.rwins, powered := false }))).cause B_PWR 3).replyId
        p.cmd .ok).powerNext u := by
  unfold DieState.downComplete
  rw [hp]
  dsimp only
  rw [if_pos hu]
  rfl

theorem DieState.upComplete_done {D : DieState} {u : Nat} {p : PwrChange} (hp : D.powerChange u true = some p) :
    D.upComplete u = (((if u < 4 then (D.changeDone p).clusterUp u
      else (D.changeDone p).onCore (u - 4) (fun _ => { powered := true })).cause B_PWR 3).replyId p.cmd .ok).powerNext u := by
  unfold DieState.upComplete
  rw [hp]
  rfl

/-! ## The statement -/

section
variable {s : State} {a : At} {id : Nat} {c : Cmd} (hup : s.up a)
include hup

theorem exec_powerCluster (hr : (s.dieAt a).readyCmd 0x0800 id c) (hk : c.p 0 4 < 4) (hon : c.p 4 4 < 2) :
    exec (.powerCluster a id) s =
      .next (s.put a ((s.dieAt a).replyOpt c (powerUnit c (c.p 0 4) (c.p 4 4 == 1)))) :=
  onDie_eq hup ((DieState.runCmd_ready _ _ _ c _ hr).trans (DieState.replyOpt_congr (powerCluster_run hk hon)))

theorem exec_powerCore (hr : (s.dieAt a).readyCmd 0x0802 id c) (hd : c.p 0 4 / 16 = (s.dieAt a).num) (hon : c.p 4 4 < 2) :
    exec (.powerCore a id) s =
      .next (s.put a ((s.dieAt a).replyOpt c (powerUnit c (4 + c.p 0 4 % 16) (c.p 4 4 == 1)))) :=
  onDie_eq hup ((DieState.runCmd_ready _ _ _ c _ hr).trans (DieState.replyOpt_congr (powerCore_run hd hon)))

theorem exec_powerSegments (hr : (s.dieAt a).readyCmd 0x0801 id c) :
    exec (.powerSegments a id) s = .next (s.put a ((s.dieAt a).replyOpt c (powerSegments c))) :=
  onDie_eq hup (DieState.runCmd_ready _ _ _ c _ hr)

end

/-- Settles O21: each command by how its unit stands, each change by its kind. -/
theorem powerChangesStartAndComplete : Obligations.PowerChangesStartAndComplete := by
  refine ⟨?_, ?_⟩
  · intro s a id c hup D ends
    have hends (u op : Nat) (hr : D.readyCmd op id c) (ho : D.clusterOwner (unitCluster u) = some c.inst) :
        ends u (D.replyOpt c (powerUnit c u (c.p 4 4 == 1))) := by
      have h := powerUnit_ends (u := u) hr ho
      rw [D.closeGate_powerStarts] at h
      exact h
    refine ⟨fun hr hk hon ho => ⟨_, exec_powerCluster hup hr hk hon, ?_⟩, fun hr hd hon ho => ⟨_, exec_powerCore hup hr hd hon, ?_⟩,
      fun hr hk ho hpow => ?_, fun hr => ?_⟩
    · exact hends _ _ hr (by rw [unitCluster, if_pos hk]; exact ho)
    · refine hends _ _ hr ?_
      rw [unitCluster, if_neg (by omega), Nat.add_sub_cancel_left]
      exact ho
    · intro W refused
      refine ⟨_, exec_powerSegments hup hr, fun hmatch hack => ?_, fun hmiss => ?_⟩
      · exact D.replyOpt_some W c _ _ ((powerSegments_run hk ho hpow).trans (if_pos hmatch)) (hr.id_eq.symm ▸ hack)
      · exact D.replyOpt_none _ c _ ((powerSegments_run hk ho hpow).trans (if_neg hmiss))
    · exact onDie_eq hup (DieState.runCmd_replyM (m := fun _ => powerStatus) hr rfl hr.acked)
  · intro s a u p hup D E
    refine ⟨fun hp hnot hdue => ?_, fun hp hu => onDie_eq hup (DieState.downComplete_core hp hu),
      fun hp hu => onDie_eq hup (DieState.downComplete_cluster hp hu), fun hp => onDie_eq hup (DieState.upComplete_done hp),
      fun k hk => ?_⟩
    · obtain ⟨back, rfl, hdrain⟩ := DieState.drainExpire_due hp hnot hdue
      exact onDie_eq hup hdrain
    · rw [D.clusterUp_cluster k hk]
      exact ⟨rfl, rfl⟩

end Sys2Proof.Machine
end

section
/-! PROOFS. Clocks: frequency changes, monitors and references (R586-R590, R598). -/

open Sys2Proof

namespace Sys2Proof.Machine

/-! ## Frequency changes (R586, R587) -/

theorem setOp_run {D : DieState} {c : Cmd} (hg : c.p 0 4 < 8) (hp : c.p 4 4 < groupPoints (c.p 0 4)) :
    runM (setOp c) D = (.ok none,
      let X := D.onClk (fun k => { k with sets := k.sets.set (c.p 0 4) (c.p 4 4) })
      (X.started c.id).requestChange (c.p 0 4) (X.wantPoint (c.p 0 4)) (some c.id)) := by
  unfold setOp
  rw [runM_okField_bind _ _ _ (by simpa using hg), runM_okField_bind _ _ _ (by simpa using hp), runM_onD_bind, runM_onD_bind]
  rfl

section
variable {D : DieState} {g : Nat} {o : OpChange} (ho : D.changeOf g = some o)
include ho

theorem DieState.voltageStep_raised (h : o.stage = 0) : D.voltageStep g =
    ((D.onClk (fun k => { k with volts := k.volts.set g o.point })).mapChange g (fun c =>
      { c with stage := 1, bridgeSince := D.now })).toBridge g := by
  unfold DieState.voltageStep
  rw [ho]
  dsimp only
  rw [if_pos h]
  rfl

theorem DieState.voltageStep_lowered (h : o.stage = 2) :
    D.voltageStep g = (D.onClk (fun k => { k with volts := k.volts.set g o.point })).endChange o .ok := by
  unfold DieState.voltageStep
  rw [ho]
  dsimp only
  rw [if_neg (by omega), if_pos h]

/-- The die with a group at its new point, off the bridge clock. -/
def DieState.offBridge (D : DieState) (g : Nat) (o : OpChange) : DieState :=
  (groupIslands g).foldl (fun D' i => (D'.count32 B_CLK CLK_ISL_CHANGES 1 i).setReg B_CLK CLK_LAST_HOLD_NS (D.now - o.bridgeSince) i)
    (D.onClk (fun k => { k with
      bridge := k.bridge.filter (fun i => !((groupIslands g).contains i)), points := k.points.set g o.point }))

theorem DieState.freqDone_passed (h : o.stage = 1) : D.freqDone g =
    if g < 4 ∧ o.point < (D.offBridge g o).clk.volts.getD g 0
    then (D.offBridge g o).mapChange g (fun x => { x with stage := 2, hold := D.now - o.bridgeSince })
    else (D.offBridge g o).endChange { o with hold := D.now - o.bridgeSince } .ok := by
  unfold DieState.freqDone
  rw [ho]
  dsimp only
  rw [if_neg (fun hne => hne h)]
  rfl

/-- The die whose change of a group has failed, its command answered. -/
def DieState.changeFailed (D : DieState) (g : Nat) (o : OpChange) : DieState :=
  (((D.cause B_CLK 2).event
    { cls := 2, code := 0x03, island := (groupIslands g).headD 0, ident := g, status := Status.faultInternal.code }).onClk (fun k =>
      { k with changes := k.changes.filter (fun x => x.group != g) })).replyHold o.cmd .faultInternal 0

theorem DieState.freqTimeout_due (h : o.stage = 1) (hdue : o.bridgeSince + 3000 ≤ D.now) : D.freqTimeout g =
    match (D.changeFailed g o).clk.waiting.find? (fun w => w.1 == g) with
    | some _ => (D.changeFailed g o).nextChange g ((D.changeFailed g o).clk.waiting.length + 1)
    | none => D.changeFailed g o := by
  unfold DieState.freqTimeout
  rw [ho]
  dsimp only
  exact if_pos ⟨h, hdue⟩

end

/-! ## Monitors and references (R588, R598) -/

theorem DieState.monitorFault_judged (D : DieState) (i : Nat) (hi : i < 40)
    (hnone : ∀ c ∈ D.clk.changes, (groupIslands c.group).contains i = false) :
    D.monitorFault i = (((((D.onClk (fun k => { k with bridge := if k.bridge.contains i then k.bridge else k.bridge ++ [i] })).count32
      B_CLK CLK_ISL_MON_FAULTS 1 i).cause B_CLK 1).event { cls := 2, code := 0x02, island := i, ident := i }).clockSeen).doubt 7 := by
  have hany : D.clk.changes.any (fun c => (groupIslands c.group).contains i) = false :=
    List.any_eq_false.2 fun c hc => by simp only [hnone c hc]; exact Bool.false_ne_true
  unfold DieState.monitorFault
  rw [hany, if_neg (by simp only [Bool.false_eq_true, or_false]; omega)]

theorem DieState.monitorFault_changing (D : DieState) (i : Nat) (c : OpChange) (hc : c ∈ D.clk.changes)
    (hi : (groupIslands c.group).contains i = true) : D.monitorFault i = D := by
  unfold DieState.monitorFault
  exact if_pos (.inr (List.any_eq_true.2 ⟨c, hc, hi⟩))

/-- Is the 100 MHz input present: 0 is A, 1 is B? -/
def ClkState.input (k : ClkState) (i : Nat) : Bool := if i = 0 then k.refA else k.refB

/-- The die with an input lost, its cause raised and its event recorded. -/
def DieState.inputLost (D : DieState) (i : Nat) : DieState :=
  ((D.onClk (fun k => if i = 0 then { k with refA := false } else { k with refB := false })).cause B_CLK 0).event
    { cls := 2, code := 0x01, ident := i }

theorem DieState.inputLost_clk (D : DieState) (i : Nat) :
    (D.inputLost i).clk = if i = 0 then { D.clk with refA := false } else { D.clk with refB := false } := by
  simp [DieState.inputLost, DieState.onClk]

theorem DieState.refLoss_absent (D : DieState) (i : Nat) (h : D.clk.input i = false) : D.refLoss i = D := by
  unfold ClkState.input at h
  unfold DieState.refLoss
  dsimp only
  rw [h]
  rfl

/-- A lost input leaves the clock to the other one, or to the oscillator. -/
def DieState.afterLoss (X : DieState) : DieState :=
  if X.clk.refA || X.clk.refB then X.onClk (fun k => { k with selB := !k.refA })
  else (X.onClk (fun k => { k with osc := true })).clockSeen.doubt 7

theorem DieState.refLoss_present (D : DieState) (i : Nat) (hi : i < 2) (h : D.clk.input i = true) :
    D.refLoss i = (D.inputLost i).afterLoss := by
  unfold ClkState.input at h
  unfold DieState.refLoss
  dsimp only
  rw [h, if_neg (by simp; omega)]
  rfl

theorem DieState.afterLoss_other (X : DieState) (b : Bool) (hb : X.clk.refA = b) (h : X.clk.refA = true ∨ X.clk.refB = true) :
    X.afterLoss = X.onClk (fun k => { k with selB := !b }) := by
  unfold DieState.afterLoss
  rw [if_pos (by simpa using h)]
  simp only [DieState.onClk, hb]

theorem DieState.afterLoss_none (X : DieState) (ha : X.clk.refA = false) (hb : X.clk.refB = false) :
    X.afterLoss = (X.onClk (fun k => { k with osc := true })).clockSeen.doubt 7 := by
  unfold DieState.afterLoss
  rw [ha, hb]
  rfl

/-- The other input than the lost one. -/
theorem DieState.inputLost_refs (D : DieState) (i : Nat) (hi : i < 2) :
    ((D.inputLost i).clk.refA = false ∧ (D.inputLost i).clk.refB = D.clk.refB ∧ i = 0) ∨
      ((D.inputLost i).clk.refA = D.clk.refA ∧ (D.inputLost i).clk.refB = false ∧ i = 1) := by
  rw [D.inputLost_clk i]
  rcases Nat.eq_zero_or_pos i with rfl | hpos
  · exact .inl ⟨rfl, rfl, rfl⟩
  · obtain rfl : i = 1 := by omega
    exact .inr ⟨rfl, rfl, rfl⟩

theorem DieState.refLoss_switches (D : DieState) (i : Nat) (hi : i < 2) (h : D.clk.input i = true)
    (hother : (if i = 0 then D.clk.refB else D.clk.refA) = true) :
    D.refLoss i = (D.inputLost i).onClk (fun k => { k with selB := decide (i = 0) }) := by
  rw [D.refLoss_present i hi h]
  rcases D.inputLost_refs i hi with ⟨ha, hb, rfl⟩ | ⟨ha, hb, rfl⟩
  · exact DieState.afterLoss_other _ false ha (.inr (hb.trans hother))
  · exact DieState.afterLoss_other _ true (ha.trans hother) (.inl (ha.trans hother))

theorem DieState.refLoss_oscillator (D : DieState) (i : Nat) (hi : i < 2) (h : D.clk.input i = true)
    (hother : (if i = 0 then D.clk.refB else D.clk.refA) = false) :
    D.refLoss i = ((D.inputLost i).onClk (fun k => { k with osc := true })).clockSeen.doubt 7 := by
  rw [D.refLoss_present i hi h]
  rcases D.inputLost_refs i hi with ⟨ha, hb, rfl⟩ | ⟨ha, hb, rfl⟩
  · exact DieState.afterLoss_none _ ha (hb.trans hother)
  · exact DieState.afterLoss_none _ (ha.trans hother) hb

theorem DieState.refReturn_input (D : DieState) (i : Nat) (hi : i < 2) (h : D.clk.input i = false) :
    D.refReturn i =
      let X := D.onClk (fun k => if i = 0 then { k with refA := true } else { k with refB := true })
      if D.clk.osc = true then (X.onClk (fun k => { k with osc := false, selB := decide (i = 1) })).clockSeen else X := by
  unfold ClkState.input at h
  unfold DieState.refReturn
  dsimp only
  rw [h, if_neg (by omega), if_neg (by simp; omega)]
  rcases Nat.eq_zero_or_pos i with rfl | hpos
  · rfl
  · obtain rfl : i = 1 := by omega
    rfl

/-! ## The statement -/

/-- A pin of the clocks on a die that runs. -/
theorem next_atDie_running {s : State} {a : At} (hup : s.up a) (f g : DieState → DieState) {E : DieState}
    (h : g (s.dieAt a) = E) :
    Host.Outcome.next (s.atDie a (fun D => if D.boot.held then f D else g D)) = (.next (s.put a E) : Out) := by
  have hheld : (s.dieAt a).boot.held = false := hup
  rw [State.atDie_eq_put, hheld, if_neg Bool.false_ne_true, h]

/-- Settles O22: each row by the stage of its change, or the inputs present. -/
theorem clocksChangeAndFail : Obligations.ClocksChangeAndFail := by
  refine ⟨?_, ?_⟩
  · intro s a id c g o hup D
    refine ⟨fun hr hg hp => ?_, fun ho h => onDie_eq hup (DieState.voltageStep_raised ho h),
      fun ho h => onDie_eq hup (DieState.freqDone_passed ho h), fun ho h => onDie_eq hup (DieState.voltageStep_lowered ho h),
      fun ho h hdue => ?_⟩
    · exact onDie_eq hup (DieState.runCmd_replyOpt_none hr (setOp_run hg hp))
    · exact onDie_eq hup (DieState.freqTimeout_due ho h hdue)
  · intro s a i hup D
    refine ⟨fun hi hnone => onDie_eq hup (D.monitorFault_judged i hi hnone),
      fun c hc hi => onDie_eq hup (D.monitorFault_changing i c hc hi), fun hi h => ⟨fun hother => ?_, fun hother => ?_⟩,
      fun hi h => ?_, fun hi h => ?_, ?_⟩
    · exact next_atDie_running hup _ _ (D.refLoss_switches i hi h hother)
    · exact next_atDie_running hup _ _ (D.refLoss_oscillator i hi h hother)
    · exact next_atDie_running hup _ _ (D.refLoss_absent i h)
    · exact next_atDie_running hup _ _ (D.refReturn_input i hi h)
    · exact next_atDie_running hup (fun D => D.pinRef 2 true) (fun D => D.refReturn 2) rfl

end Sys2Proof.Machine
end

section
/-! PROOFS. Rails, temperatures and stacks (R383, R393-R400, R596, R597). -/

open Sys2Proof

namespace Sys2Proof.Machine

/-! ## Conditions of a temperature (R394, R597) -/

section
variable (t : TempState) (now w c x : Nat)

theorem TempState.sample_valid :
    (t.sample now (some x) w c).value = some x ∧ (t.sample now (some x) w c).lastValid = now := ⟨rfl, rfl⟩

/-- With a reading, a condition holds above its threshold, and goes on until it ends. -/
theorem TempState.sample_warm : (t.sample now (some x) w c).warm =
    (decide (w < x) || (t.warm && !(if x + 3 ≤ w then decide (t.warmBelow.getD now + 100000000 ≤ now) else false))) := by
  unfold TempState.sample
  by_cases h : x + 3 ≤ w <;> simp [h]

theorem TempState.sample_critical : (t.sample now (some x) w c).critical =
    (decide (c < x) || (t.critical && !(if x + 3 ≤ c then decide (t.critBelow.getD now + 100000000 ≤ now) else false))) := by
  unfold TempState.sample
  by_cases h : x + 3 ≤ c <;> simp [h]

theorem TempState.sample_kept (h : now < t.lastValid + 3000000) : (t.sample now none w c).value = t.value ∧
    (t.sample now none w c).warm = t.warm ∧ (t.sample now none w c).critical = t.critical := by
  unfold TempState.sample
  simp [Nat.not_le.2 h]

theorem TempState.sample_silent (h : t.lastValid + 3000000 ≤ now) : (t.sample now none w c).value = none ∧
    (t.sample now none w c).warm = true ∧ (t.sample now none w c).critical = true := by
  unfold TempState.sample
  simp [h]

end

/-! ## Samples (R394, R395, R596, R597) -/

theorem DieState.tempSample_trips (D : DieState) (die opt0 opt1 : Option Nat) (hinj : ∀ e ∈ D.log.injections, e.2.kind ≠ 7)
    (h : overTrip die opt0 opt1 = true) : D.tempSample die opt0 opt1 = D.dieReset true := by
  have hnone : D.log.injections.find? (fun e => e.2.kind == 7) = none :=
    List.find?_eq_none.2 fun e he => by simpa using hinj e he
  unfold DieState.tempSample
  dsimp only
  rw [hnone]
  exact if_pos h

theorem DieState.tempSample_judged (D : DieState) (die opt0 opt1 : Option Nat) (hinj : ∀ e ∈ D.log.injections, e.2.kind ≠ 7)
    (h : overTrip die opt0 opt1 = false) : D.tempSample die opt0 opt1 =
      let th := D.reg B_PWR PWR_TEMP_THRESH
      let d := D.pwr.die.sample D.now die (bits th 0 8) (bits th 8 8)
      let o0 := D.pwr.opt0.sample D.now opt0 (bits th 16 8) (bits th 24 8)
      let o1 := D.pwr.opt1.sample D.now opt1 (bits th 16 8) (bits th 24 8)
      let X : DieState := { D with pwr := { D.pwr with die := d, opt0 := o0, opt1 := o1 } }
      let Y := ((X.tempEvents D.pwr.die d 0).tempEvents D.pwr.opt0 o0 1).tempEvents D.pwr.opt1 o1 2
      ((Y.opticHot 0 o0.critical).opticHot 1 o1.critical).applyCap := by
  have hnone : D.log.injections.find? (fun e => e.2.kind == 7) = none :=
    List.find?_eq_none.2 fun e he => by simpa using hinj e he
  unfold DieState.tempSample
  dsimp only
  rw [hnone]
  exact if_neg (by rw [h]; exact Bool.false_ne_true)

/-- The die with a stack's temperature noted, and the event of one that gets warm (R394). -/
def DieState.stackWarm (D : DieState) (n : Nat) (v : Option Nat) (old new : TempState) : DieState :=
  let X := D.onHbm n (fun h => { h with temp := new })
  if new.warm = true ∧ old.warm = false then (X.cause (B_HBMn n) 3).event
    { cls := 3, code := 0x04, island := 27 + n, ident := n, count := v.getD 0 } else X

theorem DieState.hbmTemp_eq (D : DieState) (n : Nat) (v : Option Nat) : D.hbmTemp n v =
    let th := D.reg (B_HBMn n) HBM_TEMP_THRESH
    let old := (D.mem.hbm n).temp
    let new := old.sample D.now v (bits th 0 8) (bits th 8 8)
    let Y := D.stackWarm n v old new
    if new.critical = true ∧ old.critical = false then ((Y.cause (B_HBMn n) 4).event
      { cls := 3, code := 0x05, island := 27 + n, ident := n, count := v.getD 0 }).doubt 8 else Y := by
  have hand (x y : Bool) : ((x && !y) = true) = (x = true ∧ y = false) := by simp
  unfold DieState.hbmTemp DieState.stackWarm
  simp only [hand]

/-- A sample of a die in reset, or of one that runs. -/
theorem next_atDie_eq {s : State} {a : At} {f : DieState → DieState} {E : DieState} (h : f (s.dieAt a) = E) :
    s.atDie a f = s.put a E := (State.atDie_eq_put s a f).trans (congrArg (s.put a) h)

/-- Settles O23: the samples by whether the die is held, the conditions by their rule. -/
theorem samplesAreJudged : Obligations.SamplesAreJudged := by
  refine ⟨?_, ?_, ?_, ?_⟩
  · intro s a rails energy D
    exact ⟨fun hrun => congrArg Host.Outcome.next (next_atDie_eq (if_neg (by rw [hrun]; exact Bool.false_ne_true))),
      fun hheld => congrArg Host.Outcome.next (next_atDie_eq (if_pos hheld))⟩
  · intro s a die opt0 opt1 D
    have hrow {E : DieState}
        (h : (if D.boot.held then D.tempHeld die opt0 opt1 else D.tempSample die opt0 opt1) = E) :
        exec (.dieTempSample a die opt0 opt1) s = .next (State.thermtrip s a.die (s.put a E)) :=
      congrArg (fun t => Host.Outcome.next (State.thermtrip s a.die t)) (next_atDie_eq h)
    refine ⟨fun hrun hinj => ⟨fun hover => hrow ?_, fun hover => hrow ?_⟩, fun hheld => hrow (if_pos hheld)⟩
    · rw [hrun]
      exact D.tempSample_trips die opt0 opt1 hinj hover
    · rw [hrun]
      exact D.tempSample_judged die opt0 opt1 hinj hover
  · intro s a n v hup D th old new X Y hn
    refine onDie_eq hup ?_
    rw [Nat.mod_eq_of_lt hn]
    exact D.hbmTemp_eq n v
  · intro t now w c x
    refine ⟨t.sample_valid now w c x, fun h => ?_, fun h => ?_, fun h hold => ?_, fun h hold => ?_, fun h => ?_, fun h => ?_,
      t.sample_kept now w c, t.sample_silent now w c⟩
    · rw [t.sample_warm, decide_eq_true h, Bool.true_or]
    · rw [t.sample_critical, decide_eq_true h, Bool.true_or]
    · rw [t.sample_warm, decide_eq_false (Nat.not_lt.2 h), hold, Bool.false_and, Bool.or_self]
    · rw [t.sample_critical, decide_eq_false (Nat.not_lt.2 h), hold, Bool.false_and, Bool.or_self]
    · rw [t.sample_warm, if_neg (by omega), Bool.not_false, Bool.and_true]
    · rw [t.sample_warm, decide_eq_false (by omega), if_pos h, Bool.false_or]

/-! ## Stacks (R383, R393, R397, R400) -/

theorem MemState.hbm_setHbm (m : MemState) (n : Nat) (h : HbmState) : (m.setHbm n h).hbm n = h := by
  unfold MemState.setHbm MemState.hbm
  split <;> rfl

theorem DieState.trained_ok (D : DieState) (n : Nat) (hstage : D.boot.stage = 3) (hready : (D.mem.hbm n).ready = false)
    (hfailed : (D.mem.hbm n).failed = false) :
    ((D.trained n true).mem.hbm n).ready = true ∧
      (D.trained n true).mem.bytes = D.mem.bytes.filter (fun e => !(e.1 / 2 ^ 36 == n)) := by
  unfold DieState.trained
  rw [if_neg (by simp [hstage, hready, hfailed]), if_pos rfl]
  unfold DieState.onHbm
  refine ⟨by rw [MemState.hbm_setHbm], ?_⟩
  unfold MemState.setHbm
  split <;> rfl

theorem DieState.trained_failed (D : DieState) (n : Nat) (hstage : D.boot.stage = 3) (hready : (D.mem.hbm n).ready = false)
    (hfailed : (D.mem.hbm n).failed = false) : D.trained n false = (D.onHbm n (fun h => { h with failed := true })).event
      { cls := 3, code := 0x06, island := 27 + n, ident := n } := by
  unfold DieState.trained
  rw [if_neg (by simp [hstage, hready, hfailed]), if_neg Bool.false_ne_true]

/-- A byte of the table that is left of a trained stack: none of its own. -/
theorem memGet_stack_filter (m : List (Nat × Byte)) (n j k : Nat) (hk : k < 2 ^ 36) :
    memGet (m.filter (fun e => !(e.1 / 2 ^ 36 == n))) (j * 2 ^ 36 + k) = if j = n then 0 else memGet m (j * 2 ^ 36 + k) := by
  have hdiv : (j * 2 ^ 36 + k) / 2 ^ 36 = j := by omega
  refine (tabGetF_filter (fun _ => (0 : Byte)) (fun i => i / 2 ^ 36 == n) m (j * 2 ^ 36 + k)).trans ?_
  simp only [hdiv, beq_iff_eq]
  rfl

theorem DieState.patrol_reads (D : DieState) (n : Nat) (hper : bits (D.reg (B_HBMn n) HBM_SCRUB_PERIOD) 0 8 ≠ 0)
    (hready : (D.mem.hbm n).ready = true) : D.patrol n =
      let l := (D.mem.hbm n).scrubPos
      let X := (D.scrubGran n (64 * l)).scrubGran n (64 * l + 32)
      if stackGiB * 2 ^ 24 ≤ l + 1 then
        ((X.onHbm n (fun h => { h with scrubPos := 0 })).count32 (B_HBMn n) HBM_SCRUB_PASSES).cause (B_HBMn n) 5
      else X.onHbm n (fun h => { h with scrubPos := l + 1 }) := by
  unfold DieState.patrol
  exact if_neg (by simp [hper, hready])

theorem DieState.hbmCtrl_restarts (D : DieState) (r : Req) (n v : Nat) (hadmit : D.admits r (B_HBMn n) HBM_CTRL true)
    (hbit : bit v 2 = true) : D.hbmCtrl r n v =
      ((D.touchSession r).ctrlWrite r (B_HBMn n) v).onHbm n (fun h => { h with scrubPos := 0 }) := by
  unfold DieState.hbmCtrl
  dsimp only
  rw [DieState.csrDo_admitted _ _ _ _ _ hadmit]
  exact if_pos hbit

/-- Settles O24: training by its outcome, a patrol read by its place, a restart by its bit. -/
theorem stacksTrainAndScrub : Obligations.StacksTrainAndScrub := by
  intro s a r n v hup hn D
  have hn2 : n % 2 = n := Nat.mod_eq_of_lt hn
  refine ⟨fun hstage hready hfailed => ⟨⟨s.put a (D.trained n true), ?_, ?_⟩, ?_⟩, onDie_eq hup rfl,
    fun hper hready => ⟨fun hl => ?_, fun hl => ?_⟩, fun hadmit hbit => ?_⟩
  · refine onDie_eq hup ?_
    rw [hn2]
  · obtain ⟨hok, hbytes⟩ := D.trained_ok n hstage hready hfailed
    rw [State.die_put, hbytes]
    refine ⟨hok, fun k hk => ?_, fun m k hm hk => ?_⟩
    · rw [memGet_stack_filter _ n n k hk, if_pos rfl]
    · rw [memGet_stack_filter _ n m k hk, if_neg hm]
  · refine onDie_eq hup ?_
    rw [hn2]
    exact D.trained_failed n hstage hready hfailed
  · refine onDie_eq hup ?_
    rw [hn2, D.patrol_reads n hper hready]
    exact if_neg (Nat.not_le.2 hl)
  · refine onDie_eq hup ?_
    rw [hn2, D.patrol_reads n hper hready]
    exact if_pos hl
  · refine onDie_eq hup ?_
    rw [hn2]
    exact D.hbmCtrl_restarts r n v.toNat hadmit hbit

end Sys2Proof.Machine
end

section
/-! PROOFS. The PCIe endpoint (O25). -/

open Sys2Proof

namespace Sys2Proof.Machine

/-! ## Aperture accesses (R557) -/

/-- An access past the aperture, or through a base that R557 does not admit, fails. -/
theorem runM_apertureAccess_outside {fn off n : Nat} {w : Option (List Byte)} {D : DieState}
    (h : D.apertureOk fn = false ∨ D.apertureSize fn < off + n) :
    ∃ f D', runM (apertureAccess fn off n w) D = (.error f, D') ∧ f.status = .faultBounds := by
  refine ⟨{ status := .faultBounds, loc := D.apertureBase fn + off },
    D.unpopulated { inst := D.fnInst fn, req := 0x0A0 + fn, cls := 3 } (D.apertureBase fn + off), ?_, rfl⟩
  unfold apertureAccess
  rw [runM_get_bind]
  rw [if_pos h]
  exact runM_onD_bind _ _ D

section
variable {D : DieState} {fn off n : Nat} (hup : D.pcie.up = true) (hfn : fn ≤ 8)
include hup hfn

/-- On a link that is up, an access of one of the endpoint's functions is looked at. -/
theorem apertureLooked : ¬ ((!D.pcie.up || decide (8 < fn)) = true) := by simp [hup]; omega

theorem DieState.aperture_read_ok {d : List Byte} {D' : DieState}
    (h : runM (apertureAccess fn off n none) (D.count B_PCI PCI_RX_TLPS) = (.ok d, D')) :
    D.aperture fn off n none = (D'.count B_PCI PCI_TX_TLPS).out (.pcieData fn (some d)) := by
  unfold DieState.aperture
  rw [if_neg (apertureLooked hup hfn)]
  simp only [h]

theorem DieState.aperture_read_error {f : Fail} {D' : DieState}
    (h : runM (apertureAccess fn off n none) (D.count B_PCI PCI_RX_TLPS) = (.error f, D')) :
    D.aperture fn off n none = ((D'.count B_PCI PCI_TX_TLPS).count B_PCI
      (if f.status = .faultUncorrectable then PCI_CA_SENT else PCI_UR_SENT)).out (.pcieData fn none) := by
  unfold DieState.aperture
  rw [if_neg (apertureLooked hup hfn)]
  simp only [h]
  by_cases hc : f.status = .faultUncorrectable
  · rw [if_pos hc, if_pos hc]
  · rw [if_neg hc, if_neg hc]

theorem DieState.aperture_write_ok {b d : List Byte} {D' : DieState}
    (h : runM (apertureAccess fn off n (some b)) (D.count B_PCI PCI_RX_TLPS) = (.ok d, D')) :
    D.aperture fn off n (some b) = D' := by
  unfold DieState.aperture
  rw [if_neg (apertureLooked hup hfn)]
  simp only [h]

theorem DieState.aperture_write_error {b : List Byte} {f : Fail} {D' : DieState}
    (h : runM (apertureAccess fn off n (some b)) (D.count B_PCI PCI_RX_TLPS) = (.error f, D')) :
    D.aperture fn off n (some b) = (D'.count B_PCI PCI_DROPPED_WRITES).cause B_PCI 2 := by
  unfold DieState.aperture
  rw [if_neg (apertureLooked hup hfn)]
  simp only [h]

end

/-- Settles O25: the access either succeeds or fails, and the endpoint answers, counts or drops accordingly. -/
theorem apertureAccessesComplete : Obligations.ApertureAccessesComplete := by
  unfold Obligations.ApertureAccessesComplete
  intro s a fn off n b hup hfn D hlink X
  refine ⟨⟨_, onDie_eq hup rfl, fun d D' h => ?_, fun f D' h => ?_⟩,
    ⟨_, onDie_eq hup rfl, fun d D' h => ?_, fun f D' h => ?_⟩, fun h w => runM_apertureAccess_outside h⟩
  · exact DieState.aperture_read_ok hlink hfn h
  · exact DieState.aperture_read_error hlink hfn h
  · exact DieState.aperture_write_ok hlink hfn h
  · exact DieState.aperture_write_error hlink hfn h

end Sys2Proof.Machine
end

section
/-! PROOFS. The PCIe link and its pins (O26). -/

open Sys2Proof

namespace Sys2Proof.Machine

/-! ## What interrupts leave of the endpoint (R558) -/

/-- Of the endpoint and the outputs, E differs from D only by further pending and sent messages. -/
def DieState.Notified (D E : DieState) : Prop :=
  ∃ w o, E.pcie = { D.pcie with waiting := D.pcie.waiting ++ w } ∧ E.outs = D.outs ++ o

theorem DieState.notified_of_eq {D E : DieState} (hp : E.pcie = D.pcie) (ho : E.outs = D.outs) : D.Notified E :=
  ⟨[], [], by rw [hp, List.append_nil], by rw [ho, List.append_nil]⟩

theorem DieState.Notified.trans {D E F : DieState} (h : D.Notified E) (h' : E.Notified F) : D.Notified F := by
  obtain ⟨w, o, hp, ho⟩ := h
  obtain ⟨w', o', hp', ho'⟩ := h'
  exact ⟨w ++ w', o ++ o', by rw [hp', hp, List.append_assoc], by rw [ho', ho, List.append_assoc]⟩

theorem DieState.Notified.up_eq {D E : DieState} (h : D.Notified E) : E.pcie.up = D.pcie.up := by
  obtain ⟨w, o, hp, ho⟩ := h
  rw [hp]

theorem DieState.msix_notified (D : DieState) (fn v : Nat) : D.Notified (D.msix fn v) := by
  unfold DieState.msix
  split
  · split
    · exact notified_of_eq rfl rfl
    · exact ⟨[_], [], rfl, (List.append_nil _).symm⟩
  · exact ⟨[], [_], by rw [List.append_nil]; rfl, rfl⟩

theorem DieState.cause_notified (D : DieState) (b k : Nat) : D.Notified (D.cause b k) := by
  unfold DieState.cause
  dsimp only
  split
  · exact notified_of_eq rfl rfl
  · split
    · exact (notified_of_eq rfl rfl).trans (msix_notified (D.setReg b 0x000C (orN (D.reg b 0x000C) (2 ^ k))) 0 (intVector b))
    · exact notified_of_eq rfl rfl

theorem DieState.coalesce_notified (D : DieState) (e : Event) : D.Notified (D.coalesce e) := by
  unfold DieState.coalesce
  refine DieState.Notified.trans (notified_of_eq ?_ ?_) (cause_notified _ _ _)
  · simp
  · simp

theorem DieState.event_notified (D : DieState) (e : Event) : D.Notified (D.event e) := by
  unfold DieState.event
  dsimp only
  split
  · exact (notified_of_eq (by simp) (by simp)).trans (coalesce_notified _ _)
  · split
    · exact notified_of_eq (by simp) (by simp)
    · exact (notified_of_eq (by simp) (by simp)).trans (coalesce_notified _ _)

/-! ## PERST# (R559, R561) -/

theorem DieState.resetFunctions_mem (l : List Nat) (D : DieState) :
    (l.foldl (fun D fn => D.resetFunction fn) D).mem = D.mem :=
  foldl_keeps DieState.mem (fun D fn => D.resetFunction fn) (fun _ _ => rfl) l D

theorem DieState.resetFunctions_up (l : List Nat) (D : DieState) :
    (l.foldl (fun D fn => D.resetFunction fn) D).pcie.up = D.pcie.up :=
  foldl_keeps (fun D => D.pcie.up) (fun D fn => D.resetFunction fn) (fun _ _ => rfl) l D

/-- The functions that are reset have MSI-X disabled. -/
theorem DieState.resetFunctions_msixOff (l : List Nat) (D : DieState) (fn : Nat) :
    fn ∈ (l.foldl (fun D fn => D.resetFunction fn) D).pcie.msixOff ↔ fn ∈ D.pcie.msixOff ∨ fn ∈ l := by
  induction l generalizing D with
  | nil => simp
  | cons x l ih =>
    have hx : fn ∈ (D.resetFunction x).pcie.msixOff ↔ fn ∈ D.pcie.msixOff ∨ fn = x := by
      unfold DieState.resetFunction
      by_cases h : D.pcie.msixOff.contains x = true
      · have hmem : x ∈ D.pcie.msixOff := List.contains_iff_mem.mp h
        simp only [h, if_true]
        exact ⟨.inl, fun h => h.elim id (fun e => e ▸ hmem)⟩
      · simp only [h]
        simp
    rw [List.foldl_cons, ih, hx, List.mem_cons, or_assoc]

/-- No vector of a function that is reset stays masked, nor is a message of it pending. -/
theorem DieState.resetFunctions_vectors (l : List Nat) (D : DieState) (v : Nat) :
    (v ∈ (l.foldl (fun D fn => D.resetFunction fn) D).pcie.masked → v / 2048 ∉ l) ∧
    (v ∈ (l.foldl (fun D fn => D.resetFunction fn) D).pcie.waiting → v / 2048 ∉ l) := by
  have kept : ∀ (l : List Nat) (D : DieState),
      (v ∈ (l.foldl (fun D fn => D.resetFunction fn) D).pcie.masked → v ∈ D.pcie.masked ∧ v / 2048 ∉ l) ∧
      (v ∈ (l.foldl (fun D fn => D.resetFunction fn) D).pcie.waiting → v ∈ D.pcie.waiting ∧ v / 2048 ∉ l) := by
    intro l
    induction l with
    | nil => exact fun D => ⟨fun h => ⟨h, List.not_mem_nil⟩, fun h => ⟨h, List.not_mem_nil⟩⟩
    | cons x l ih =>
      intro D
      rw [List.foldl_cons]
      obtain ⟨hmask, hwait⟩ := ih (D.resetFunction x)
      constructor
      · intro h
        obtain ⟨hm, hl⟩ := hmask h
        obtain ⟨hin, hne⟩ := List.mem_filter.mp hm
        exact ⟨hin, fun h => (List.mem_cons.mp h).elim (by simpa using hne) hl⟩
      · intro h
        obtain ⟨hm, hl⟩ := hwait h
        obtain ⟨hin, hne⟩ := List.mem_filter.mp hm
        exact ⟨hin, fun h => (List.mem_cons.mp h).elim (by simpa using hne) hl⟩
  exact ⟨fun h => ((kept l D).1 h).2, fun h => ((kept l D).2 h).2⟩

/-- After all nine, no virtual function is enabled and the aperture has its smallest size. -/
theorem DieState.resetFunctions_sizes (D : DieState) :
    ((List.range 9).foldl (fun D fn => D.resetFunction fn) D).pcie.vfs = 0 ∧
    ((List.range 9).foldl (fun D fn => D.resetFunction fn) D).pcie.bar2 = 28 := ⟨rfl, rfl⟩

theorem DieState.linkDown_mem (D : DieState) : D.linkDown.mem = D.mem := by
  unfold DieState.linkDown
  split
  · simp
  · rfl

theorem DieState.linkDown_up (D : DieState) : D.linkDown.pcie.up = false := by
  unfold DieState.linkDown
  by_cases hup : D.pcie.up = true
  · rw [if_pos hup]
    exact ((DieState.cause_notified _ _ _).trans (DieState.event_notified _ _)).up_eq
  · rw [if_neg hup]
    exact Bool.eq_false_iff.mpr hup

/-- The die with its link down and every function reset. -/
def DieState.functionsReset (D : DieState) : DieState := (List.range 9).foldl (fun D fn => D.resetFunction fn) D.linkDown

theorem DieState.perst_eq (D : DieState) : D.perst = { D.functionsReset with pcie := { D.functionsReset.pcie with
    perst := true, config := false, deasserted := none, flrs := [], ide := 0 } } := rfl

/-- What PERST# leaves. -/
theorem DieState.perst_resets (D : DieState) : D.perst.pcie.up = false ∧ D.perst.pcie.perst = true ∧
    D.perst.pcie.config = false ∧ D.perst.pcie.vfs = 0 ∧ D.perst.pcie.bar2 = 28 ∧ D.perst.pcie.flrs = [] ∧
    (∀ fn < 9, fn ∈ D.perst.pcie.msixOff) ∧ (∀ v ∈ D.perst.pcie.masked, 9 ≤ v / 2048) ∧
    (∀ v ∈ D.perst.pcie.waiting, 9 ≤ v / 2048) ∧ D.perst.mem = D.mem := by
  have hup : D.functionsReset.pcie.up = false := (DieState.resetFunctions_up (List.range 9) D.linkDown).trans D.linkDown_up
  have hmem : D.functionsReset.mem = D.mem := (DieState.resetFunctions_mem (List.range 9) D.linkDown).trans D.linkDown_mem
  have hoff : ∀ fn < 9, fn ∈ D.functionsReset.pcie.msixOff := fun fn hfn =>
    (DieState.resetFunctions_msixOff (List.range 9) D.linkDown fn).mpr (.inr (List.mem_range.mpr hfn))
  have hmask : ∀ v ∈ D.functionsReset.pcie.masked, 9 ≤ v / 2048 := fun v hv => Nat.le_of_not_lt (fun h =>
    (DieState.resetFunctions_vectors (List.range 9) D.linkDown v).1 hv (List.mem_range.mpr h))
  have hwait : ∀ v ∈ D.functionsReset.pcie.waiting, 9 ≤ v / 2048 := fun v hv => Nat.le_of_not_lt (fun h =>
    (DieState.resetFunctions_vectors (List.range 9) D.linkDown v).2 hv (List.mem_range.mpr h))
  have hvfs : D.functionsReset.pcie.vfs = 0 := (DieState.resetFunctions_sizes D.linkDown).1
  have hbar : D.functionsReset.pcie.bar2 = 28 := (DieState.resetFunctions_sizes D.linkDown).2
  rw [DieState.perst_eq]
  dsimp only
  exact ⟨hup, rfl, rfl, hvfs, hbar, rfl, hoff, hmask, hwait, hmem⟩

/-! ## The host's settings (R558, R560) -/

theorem foldl_out {α : Type} (g : α → Output) (l : List α) (D : DieState) :
    l.foldl (fun (D : DieState) v => D.out (g v)) D = { D with outs := D.outs ++ l.map g } := by
  induction l generalizing D with
  | nil => rw [List.foldl_nil, List.map_nil, List.append_nil]
  | cons x l ih => rw [List.foldl_cons, ih, List.map_cons]; simp [DieState.out]

/-- The settings hold the message of this vector: its function has MSI-X disabled, or the vector is masked. -/
def settingsHold (c : PcieConfig) (v : Nat) : Bool :=
  ((List.range 9).filter (fun fn => !bit c.msix fn)).contains (v / 2048) || c.masked.contains v

theorem settingsHold_iff (c : PcieConfig) (v : Nat) :
    settingsHold c v = true ↔ (v / 2048 < 9 ∧ bit c.msix (v / 2048) = false) ∨ v ∈ c.masked := by
  unfold settingsHold
  simp

/-- The die with the host's settings, its free messages sent. -/
def DieState.withSettings (D : DieState) (c : PcieConfig) : DieState :=
  { D with
    pcie := { D.pcie with
      vfs := c.vfs % 512 / 2 * 2, bar2 := max 28 (min 36 c.bar2)
      msixOff := (List.range 9).filter (fun fn => !bit c.msix fn), masked := c.masked, ide := c.ide % 16
      waiting := D.pcie.waiting.filter (fun v => settingsHold c v) }
    outs := D.outs ++ (D.pcie.waiting.filter (fun v => !settingsHold c v)).map (fun v => .msix (v / 2048) (v % 2048)) }

theorem DieState.hostConfig_eq (D : DieState) (c : PcieConfig) :
    D.hostConfig c = if c.ideFailed then (D.withSettings c).cause B_PCI 3 else D.withSettings c := by
  have hfree : (fun v => !((List.range 9).filter (fun fn => !bit c.msix fn)).contains (v / 2048) && !c.masked.contains v) =
      fun v => !settingsHold c v := by
    funext v
    exact (Bool.not_or _ _).symm
  have hheld : (fun v => !(!((List.range 9).filter (fun fn => !bit c.msix fn)).contains (v / 2048) &&
      !c.masked.contains v)) = fun v => settingsHold c v := by
    funext v
    rw [congrFun hfree v, Bool.not_not]
  unfold DieState.hostConfig DieState.withSettings
  dsimp only
  rw [foldl_out, hfree, hheld]

theorem DieState.hostConfig_notified (D : DieState) (c : PcieConfig) : (D.withSettings c).Notified (D.hostConfig c) := by
  rw [DieState.hostConfig_eq]
  split
  · exact DieState.cause_notified _ B_PCI 3
  · exact DieState.notified_of_eq rfl rfl

theorem DieState.hostConfig_takes (D : DieState) (c : PcieConfig) :
    (D.hostConfig c).pcie.masked = c.masked ∧
    (∀ fn, fn ∈ (D.hostConfig c).pcie.msixOff ↔ fn < 9 ∧ bit c.msix fn = false) ∧
    (D.hostConfig c).pcie.bar2 = max 28 (min 36 c.bar2) ∧
    (c.ideFailed = false → ∀ v, v ∈ (D.hostConfig c).pcie.waiting → v ∈ D.pcie.waiting) ∧
    (∀ v ∈ D.pcie.waiting, settingsHold c v = true → v ∈ (D.hostConfig c).pcie.waiting) ∧
    (∀ v ∈ D.pcie.waiting, ¬ settingsHold c v = true → .msix (v / 2048) (v % 2048) ∈ (D.hostConfig c).outs) := by
  obtain ⟨w, o, hp, ho⟩ := D.hostConfig_notified c
  refine ⟨by rw [hp]; rfl, fun fn => ?_, by rw [hp]; rfl, fun hide v hv => ?_, fun v hv hheld => ?_, fun v hv hfree => ?_⟩
  · rw [hp]
    unfold DieState.withSettings
    simp
  · rw [DieState.hostConfig_eq, hide, if_neg Bool.false_ne_true] at hv
    exact (List.mem_filter.mp hv).1
  · rw [hp]
    exact List.mem_append_left w (List.mem_filter.mpr ⟨hv, hheld⟩)
  · rw [ho]
    refine List.mem_append_left o (List.mem_append_right D.outs (List.mem_map.mpr ⟨v, List.mem_filter.mpr ⟨hv, ?_⟩, rfl⟩))
    rw [Bool.not_eq_true] at hfree
    rw [hfree, Bool.not_false]

/-- Settles O26: each row by the level of its pin or the state of the link, the settings by what they hold. -/
theorem pcieLinkAndPins : Obligations.PcieLinkAndPins := by
  refine ⟨?_, ?_⟩
  · intro s a q link cfg index hup D
    refine ⟨?_, fun h => ?_, fun hperst hlink => ?_, fun hperst hlink => ?_, fun hlink => ?_, fun hact hhost => ?_,
      onDie_eq hup rfl, fun hnum => onDie_eq hup (if_pos hnum)⟩
    · refine ⟨s.put a D.perst, next_atDie_running hup _ _ rfl, ?_⟩
      rw [State.die_put]
      exact D.perst_resets
    · exact next_atDie_running hup _ _ (if_pos h)
    · refine onDie_eq hup ?_
      have hlow : ¬ D.pcie.perst = true := by rw [hperst]; exact Bool.false_ne_true
      have hdown : ¬ (D.pcie.perst = true ∨ D.pcie.up = true) := by simp [hperst, hlink]
      refine (if_pos rfl).trans ((if_neg hlow).trans ?_)
      exact congrArg (fun E => DieState.hostConfig E cfg) (if_neg hdown)
    · refine onDie_eq hup ?_
      have hlow : ¬ D.pcie.perst = true := by rw [hperst]; exact Bool.false_ne_true
      refine (if_pos rfl).trans ((if_neg hlow).trans ?_)
      exact congrArg (fun E => DieState.hostConfig E cfg) (if_pos (Or.inr hlink))
    · exact onDie_eq hup ((if_neg Bool.false_ne_true).trans (if_pos hlink))
    · refine onDie_eq hup (if_pos ?_)
      exact Bool.and_eq_true_iff.mpr ⟨beq_iff_eq.mpr hact, congrArg Bool.not hhost⟩
  · intro D c E held
    obtain ⟨hmask, hoff, hbar, hwait, hheld, hfree⟩ := D.hostConfig_takes c
    have hsize : E.pcie.bar2 = max 28 (min 36 c.bar2) := hbar
    refine ⟨hmask, hoff, ?_, ?_, fun hlo hhi => ?_, hwait, fun v hv h => hheld v hv ((settingsHold_iff c v).mpr h),
      fun v hv h => hfree v hv (fun hc => h ((settingsHold_iff c v).mp hc))⟩
    · omega
    · omega
    · omega

end Sys2Proof.Machine
end

section
/-! PROOFS. The event log: admission, writing, flushes and copies (O27). -/

open Sys2Proof

namespace Sys2Proof.Machine

/-! ## Admission and writing (R616-R619) -/

/-- An event that finds room is noted, stamped and admitted. -/
theorem DieState.event_of_room (D : DieState) (e : Event) (hlost : D.log.isLost = false) (hroom : D.log.intake.length < 32) :
    (D.event e).log = { D.log with
      intake := D.log.intake ++ [D.stamped e], intakeMax := max D.log.intakeMax (D.log.intake.length + 1) } := by
  have hlost' : ¬ (D.noted e.cls).log.isLost = true := by rw [D.noted_log, hlost]; exact Bool.false_ne_true
  have hroom' : (D.noted e.cls).log.intake.length < 32 := by rw [D.noted_log]; exact hroom
  have hevent : D.event e = { D.noted e.cls with log := { (D.noted e.cls).log with
      intake := (D.noted e.cls).log.intake ++ [D.stamped e]
      intakeMax := max (D.noted e.cls).log.intakeMax ((D.noted e.cls).log.intake.length + 1) } } :=
    (if_neg hlost').trans (if_pos hroom')
  rw [hevent, D.noted_log]

/-- Does appending a record to a full ring lose one that no flush has kept? -/
def LogState.losing (l : LogState) : Bool := decide (4096 ≤ l.ring.length) && decide (l.flushedSeq ≤ l.oldest)

/-- Its effect on the log: the record is appended under the next sequence number. -/
theorem DieState.putRecord_log (D : DieState) (e : Event) (summary : Bool) : (D.putRecord e summary).log = { D.log with
    ring := (if 4096 ≤ D.log.ring.length then D.log.ring.tail else D.log.ring) ++
      [{ seq := D.log.nextSeq, summary := summary, ev := e }]
    nextSeq := D.log.nextSeq + 1
    flushedSeq := if D.log.losing then D.log.flushedSeq + 1 else D.log.flushedSeq
    lost := if D.log.losing then D.log.lost + 1 else D.log.lost
    critical := D.log.critical || e.sev == 3 } := by
  unfold DieState.putRecord
  dsimp only
  rw [← LogState.losing]
  have hlog : ∀ E : DieState, (if e.sev = 3 then E.cause B_EVL 2 else E).log = E.log := fun E => by
    split
    · exact DieState.cause_log E B_EVL 2
    · rfl
  rw [hlog]
  split
  · rw [DieState.cause_log, DieState.count32_log, DieState.count_log]
    simp
  · rw [DieState.count_log]
    simp

/-- The log with its summary of coalesced events taken. -/
def LogState.summarised (l : LogState) : LogState := { l with coalFirst := none, coalCount := 0, coalBy := [] }

section
variable {D : DieState} (hlost : D.log.isLost = false)
include hlost

theorem DieState.writeEvent_head {e : Event} {rest : List Event} (hcoal : D.log.coalCount = 0)
    (hin : D.log.intake = e :: rest) :
    D.writeEvent = ({ D with log := { D.log with intake := rest } } : DieState).putRecord e false := by
  unfold DieState.writeEvent
  rw [if_neg (by rw [hlost]; exact Bool.false_ne_true), if_neg (not_not_intro hcoal)]
  simp only [hin]

theorem DieState.writeEvent_summary (hcoal : D.log.coalCount ≠ 0) :
    D.writeEvent = ({ D with log := D.log.summarised } : DieState).putRecord
      { D.log.summaryEvent D.now with injection := !D.log.injections.isEmpty } true := by
  unfold DieState.writeEvent
  rw [if_neg (by rw [hlost]; exact Bool.false_ne_true), if_pos hcoal]
  rfl

end

/-! ## Flushing (R620) -/

theorem DieState.startFlush_idle {D : DieState} (hidle : D.log.flushing = none) (hreach : D.flashReach = true) :
    D.startFlush = { D with log := { D.log with flushing := some D.log.nextSeq, critical := false } } := by
  unfold DieState.startFlush
  exact if_neg (by simp [hidle, hreach])

theorem DieState.evlCtrl_flushes {D : DieState} {r : Req} {v : Nat} (hadmit : D.admits r B_EVL EVL_CTRL true)
    (hbit : bit v 2 = true) : D.evlCtrl r v = ((D.touchSession r).ctrlWrite r B_EVL v).startFlush := by
  unfold DieState.evlCtrl
  rw [DieState.csrDo_admitted _ _ _ _ _ hadmit]
  exact if_pos hbit

theorem Flash.ringOf_putRing (f : Flash) (d : Nat) (l : List EvRec) : (f.putRing d l).ringOf d = l := by
  have hnone : (f.rings.filter (fun r => r.1 != d)).find? (fun r => r.1 == d) = none := by
    rw [List.find?_eq_none]
    intro r hr
    simpa using (List.mem_filter.mp hr).2
  unfold Flash.ringOf Flash.putRing
  dsimp only
  rw [List.find?_append, hnone]
  simp

/-- The die whose flush up to a sequence number has ended well. -/
def DieState.flushed (D : DieState) (upTo : Nat) : DieState :=
  { D with log := { D.log with flushing := none, flushedSeq := max upTo D.log.flushedSeq, lost := 0, lastFlush := D.now } }

/-- The flash with further records in a die's ring. -/
def Flash.appendTo (f : Flash) (d : Nat) (recs : List EvRec) : Flash := f.putRing d (ringAppend (f.ringOf d) recs)

section
variable {s : State} {a : At} {upTo : Nat} (h : (s.dieAt a).log.flushing = some upTo)
include h

theorem State.flushDone_ok : s.flushDone a true = { (s.put a ((s.dieAt a).flushed upTo)) with
    pkg := { s.pkg with flash := s.pkg.flash.appendTo (s.dieAt a).num ((s.dieAt a).flushRecords upTo) } } := by
  unfold State.dieAt at h ⊢
  unfold State.flushDone
  simp only [h, if_true]
  exact rfl

theorem State.flushDone_failed : s.flushDone a false = s.put a
    (({ s.dieAt a with log := { (s.dieAt a).log with flushing := none, lastFlush := (s.dieAt a).now } } : DieState).event
      { cls := 0, code := 0x05, island := 39 }) := by
  unfold State.dieAt at h ⊢
  unfold State.flushDone
  simp only [h, Bool.false_eq_true, if_false]
  exact rfl

end

theorem DieState.flushRecords_kept {D : DieState} {upTo : Nat} (h : D.log.lost = 0) :
    D.flushRecords upTo = D.log.ring.filter (fun x => D.log.flushedSeq ≤ x.seq && x.seq < upTo) := by
  unfold DieState.flushRecords
  exact if_pos h

/-- A loss before the records of a flush is told first. -/
theorem DieState.flushRecords_lost {D : DieState} {upTo : Nat} (h : D.log.lost ≠ 0) :
    ∃ x, D.flushRecords upTo = x :: D.log.ring.filter (fun x => D.log.flushedSeq ≤ x.seq && x.seq < upTo) ∧
      x.ev.cls = 0 ∧ x.ev.code = 0x04 ∧ x.ev.count = D.log.lost := by
  unfold DieState.flushRecords
  exact ⟨_, if_neg h, rfl, rfl, rfl⟩

/-! ## Copies (R621) -/

section
variable {D : DieState} {x : Nat × Nat} (hwell : (if x.1 = 0 then D.log.fail0 else D.log.fail1) = false)
include hwell

theorem DieState.copyError_first (h : D.log.rewritten.contains x = false) : D.copyError x =
    ({ D with log := { D.log with rewritten := D.log.rewritten ++ [x] } } : DieState).count32 B_EVL EVL_COPY_ERRORS := by
  unfold DieState.copyError
  rw [if_neg (by rw [hwell]; exact Bool.false_ne_true), if_neg (by rw [h]; exact Bool.false_ne_true)]

theorem DieState.copyError_again (h : D.log.rewritten.contains x = true) : D.copyError x = D.failCopy x.1 := by
  unfold DieState.copyError
  rw [if_neg (by rw [hwell]; exact Bool.false_ne_true), if_pos h]

end

/-- What a change of a running die's log makes of it. -/
theorem onLog_eq {s : State} {a : At} {f : DieState → DieState} {E : DieState} (hup : s.up a) (h : f (s.dieAt a) = E) :
    onLog a s f = .next ((s.put a E).logLostRecord (s.dieAt a).log.isLost a) :=
  running_eq hup (congrArg (fun t => State.logLostRecord t (s.dieAt a).log.isLost a) (next_atDie_eq h))

/-- Settles O27: raising by the room of the intake, writing by what is coalesced, a flush by its outcome. -/
theorem eventsAreLoggedAndFlushed : Obligations.EventsAreLoggedAndFlushed := by
  refine ⟨?_, ?_⟩
  · intro s a e D
    refine ⟨fun hlost hroom => ⟨D.stamped e, ?_⟩, fun hlost hfull => ?_, fun hlost hcoal rest hin => ?_,
      fun hlost hcoal => ?_, fun hup nack => onLog_eq hup rfl⟩
    · rw [D.event_of_room e hlost hroom]
      exact ⟨rfl, rfl, rfl, rfl, rfl, rfl, rfl, fun hsev => if_pos hsev, rfl⟩
    · rw [D.event_of_full e hlost hfull, DieState.coalesce_log, D.noted_log]
      exact ⟨rfl, rfl⟩
    · intro E
      have hE : E.log = _ :=
        (congrArg DieState.log (DieState.writeEvent_head hlost hcoal hin)).trans (DieState.putRecord_log _ e false)
      refine ⟨{ seq := D.log.nextSeq, summary := false, ev := e }, ?_⟩
      rw [hE]
      exact ⟨rfl, rfl, rfl, rfl, rfl, fun h => congrArg (· ++ _) (if_neg (Nat.not_le.mpr h)),
        fun h => congrArg (· ++ _) (if_pos h)⟩
    · intro E
      have hE : E.log = _ :=
        (congrArg DieState.log (DieState.writeEvent_summary hlost hcoal)).trans (DieState.putRecord_log _ _ true)
      refine ⟨{ seq := D.log.nextSeq, summary := true,
                ev := { D.log.summaryEvent D.now with injection := !D.log.injections.isEmpty } }, ?_⟩
      rw [hE]
      exact ⟨rfl, rfl, rfl, rfl, rfl, rfl, rfl, rfl, fun h => congrArg (· ++ _) (if_neg (Nat.not_le.mpr h))⟩
  · intro s a r v hup D
    refine ⟨fun hdue hidle hreach => ?_, fun hadmit hbit => ?_, fun upTo hflush => ⟨⟨s.flushDone a true, D.flushRecords upTo,
      running_eq hup rfl, ?_, ?_, ?_, fun h => D.flushRecords_kept h, fun h => D.flushRecords_lost h, ?_⟩, ?_⟩,
      fun errors => onLog_eq hup rfl,
      fun D x hwell => ⟨fun h => DieState.copyError_first hwell h, fun h => DieState.copyError_again hwell h⟩⟩
    · exact onDie_eq hup ((if_pos hdue).trans (DieState.startFlush_idle hidle hreach))
    · exact onDie_eq hup (DieState.evlCtrl_flushes hadmit hbit)
    · rw [State.flushDone_ok hflush]
      exact congrArg (fun E : DieState => E.log.flushing) (State.die_put s a (D.flushed upTo))
    · rw [State.flushDone_ok hflush]
      exact congrArg (fun E : DieState => E.log.flushedSeq) (State.die_put s a (D.flushed upTo))
    · rw [State.flushDone_ok hflush]
      exact congrArg (fun E : DieState => E.log.lost) (State.die_put s a (D.flushed upTo))
    · rw [State.flushDone_ok hflush]
      exact Flash.ringOf_putRing _ _ _
    · exact running_eq hup (State.flushDone_failed hflush)

end Sys2Proof.Machine
end

section
/-! PROOFS. The diagnostics commands (O28). -/

open Sys2Proof

namespace Sys2Proof.Machine

/-- The branch that a conditional action took. -/
theorem runM_ite_inv {α : Type} {p : Prop} [Decidable p] {m n : M α} {D : DieState} {y : Except Fail α × DieState}
    (h : runM (if p then m else n) D = y) : (p ∧ runM m D = y) ∨ (¬p ∧ runM n D = y) := by
  rw [runM_ite] at h
  by_cases hp : p
  · exact .inl ⟨hp, (if_pos hp).symm.trans h⟩
  · exact .inr ⟨hp, (if_neg hp).symm.trans h⟩

/-! ## EVENT_READ (R624) -/

/-- What EVENT_READ answers: how many records it wrote, and the range held. -/
def DieState.readDetail (D : DieState) (c : Cmd) : List Byte :=
  toLE 4 (D.log.from (c.p 0 4) (c.p 4 2)).length ++ toLE 4 D.log.oldest ++ toLE 4 D.log.nextSeq

theorem runM_eventRead_inv {c : Cmd} {D D' : DieState} {d : List Byte} (h : runM (eventRead c) D = (.ok d, D')) :
    d = D.readDetail c := by
  unfold eventRead at h
  rw [runM_get_bind] at h
  obtain ⟨_, h⟩ := okField_bind_inv h
  obtain ⟨_, h⟩ := okField_bind_inv h
  dsimp only at h
  rcases runM_ite_inv h with ⟨_, h⟩ | ⟨_, h⟩
  · cases h
    rfl
  · obtain ⟨_, D1, _, h⟩ := runM_bind_inv h
    cases h
    rfl

/-- With no record to write, nothing else happens. -/
theorem runM_eventRead_none {c : Cmd} {D : DieState} (hlo : 1 ≤ c.p 4 2) (hhi : c.p 4 2 ≤ 4096) (hzero : c.p 6 2 = 0)
    (hnone : D.log.from (c.p 0 4) (c.p 4 2) = []) : runM (eventRead c) D = (.ok (D.readDetail c), D) := by
  unfold eventRead
  rw [runM_get_bind, runM_okField_bind _ _ _ (by simp [hlo, hhi]), runM_okField_bind _ _ _ (by simp [hzero])]
  dsimp only
  rw [hnone, List.flatMap_nil, if_pos List.isEmpty_nil, DieState.readDetail, hnone]
  exact runM_pure _ D

/-! ## EVENT_MARK (R626) -/

section
variable (D : DieState) (c : Cmd)

/-- The marks of the command's INS entry in this second. -/
def DieState.marksNow : Nat :=
  if (tabGet (0, 0) D.log.marks c.inst).1 = D.now / 10 ^ 9 then (tabGet (0, 0) D.log.marks c.inst).2 else 0

/-- The die with one mark more. -/
def DieState.marked : DieState :=
  { D with log := { D.log with marks := tabSet (0, 0) c.inst (D.now / 10 ^ 9, D.marksNow c + 1) D.log.marks } }

/-- The event of a mark. -/
def markEvent : Event :=
  { cls := 14, code := 0x01, island := 1, inst := some c.inst, loc := c.p 0 8, ident := c.p 8 4, status := c.p 12 1,
    cause := c.p 13 1, count := c.p 14 2 }

theorem runM_eventMark_left (h : D.marksNow c < 1000) :
    runM (eventMark c) D = (.ok [], (D.marked c).event (markEvent c)) := by
  unfold DieState.marksNow at h
  unfold eventMark
  rw [runM_get_bind]
  dsimp only
  rw [runM_guardS_bind _ _ _ _ (decide_eq_true h), runM_onD_bind, runM_onD_bind]
  exact rfl

theorem runM_eventMark_past (h : 1000 ≤ D.marksNow c) :
    runM (eventMark c) D = (.error { status := .refusedQuota, reason := 15 }, D) := by
  unfold eventMark
  rw [runM_get_bind]
  dsimp only
  rw [show (decide ((if (tabGet (0, 0) D.log.marks c.inst).1 = D.now / 10 ^ 9 then (tabGet (0, 0) D.log.marks c.inst).2
    else 0) < 1000)) = false from decide_eq_false (Nat.not_lt.mpr h)]
  exact runM_bind_error _ _ _ _ _ (runM_guardS_false _ _ D)

end

/-! ## Injections (R627, R630) -/

theorem DieState.coalesce_nextInj (D : DieState) (e : Event) : (D.coalesce e).log.nextInj = D.log.nextInj := by
  rw [DieState.coalesce_log]

theorem DieState.event_nextInj (D : DieState) (e : Event) : (D.event e).log.nextInj = D.log.nextInj := by
  unfold DieState.event
  dsimp only
  split
  · rw [DieState.coalesce_nextInj, DieState.setReg64_log, DieState.count_log]
  · split
    · dsimp only
      rw [DieState.setReg64_log, DieState.count_log]
    · rw [DieState.coalesce_nextInj, DieState.setReg64_log, DieState.count_log]

theorem DieState.failCopy_nextInj (D : DieState) (k : Nat) : (D.failCopy k).log.nextInj = D.log.nextInj := by
  have hcopy : (if k = 0 then { D.log with fail0 := true } else { D.log with fail1 := true } : LogState).nextInj =
      D.log.nextInj := by
    split
    · rfl
    · rfl
  unfold DieState.failCopy
  dsimp only
  by_cases hgone : ((if k = 0 then D.log.fail0 else D.log.fail1) || D.log.isLost) = true
  · rw [if_pos hgone]
  rw [if_neg hgone]
  generalize (if k = 0 then { D.log with fail0 := true } else { D.log with fail1 := true } : LogState) = l at hcopy ⊢
  split
  · refine (foldl_keeps (fun D : DieState => D.log.nextInj) (fun D e => D.coalesce e) DieState.coalesce_nextInj _ _).trans ?_
    dsimp only
    rw [DieState.cause_log, DieState.cause_log]
    exact hcopy
  · rw [DieState.event_nextInj, DieState.cause_log]
    exact hcopy

theorem DieState.applyInjection_nextInj (D : DieState) (d : List Byte) :
    (D.applyInjection d).log.nextInj = D.log.nextInj := by
  unfold DieState.applyInjection
  dsimp only
  split
  case h_5 => exact DieState.failCopy_nextInj D _
  all_goals exact rfl

theorem DieState.endInjection_nextInj (D : DieState) (slot : Nat) : (D.endInjection slot).log.nextInj = D.log.nextInj := by
  unfold DieState.endInjection
  split
  · rfl
  · dsimp only
    split
    · exact DieState.event_nextInj D _
    · exact DieState.event_nextInj D _

theorem runM_startInjection_inv {d : List Byte} {queue : Nat} {rivals : List Nat} {D D' : DieState} {x : List Byte}
    (h : runM (startInjection d queue rivals) D = (.ok x, D')) :
    x = toLE 4 D.log.nextInj ∧ D'.log.nextInj = D.log.nextInj + 1 := by
  unfold startInjection at h
  rw [runM_get_bind] at h
  obtain ⟨_, D1, hclaim, h⟩ := runM_bind_inv h
  obtain ⟨bases, contest, rfl⟩ := claim_only hclaim
  split at h
  · cases h
  · dsimp only at h
    rw [runM_onD_bind, runM_onD_bind] at h
    rcases runM_ite_inv h with ⟨_, h⟩ | ⟨_, h⟩
    · rw [runM_onD_bind, runM_pure] at h
      cases h
      refine ⟨rfl, ?_⟩
      rw [DieState.endInjection_nextInj, DieState.applyInjection_nextInj, DieState.event_nextInj]
    · rw [runM_pure] at h
      cases h
      refine ⟨rfl, ?_⟩
      rw [DieState.applyInjection_nextInj, DieState.event_nextInj]

theorem runM_faultInject_inv {c : Cmd} {rivals : List Nat} {D D' : DieState} {x : List Byte}
    (h : runM (faultInject c rivals) D = (.ok x, D')) :
    x = toLE 4 D.log.nextInj ∧ D'.log.nextInj = D.log.nextInj + 1 := by
  unfold faultInject at h
  rw [runM_get_bind] at h
  obtain ⟨_, h⟩ := okField_bind_inv h
  obtain ⟨_, h⟩ := guardS_bind_inv h
  exact runM_startInjection_inv h

section
variable {c : Cmd} {D : DieState}

theorem runM_faultInjectStop_found {e : Nat × Injection}
    (h : D.log.injections.find? (fun e => e.2.id == c.p 0 4) = some e) :
    runM (faultInjectStop c) D = (.ok [], D.endInjection e.1) := by
  unfold faultInjectStop
  rw [runM_get_bind, h]
  exact rfl

theorem runM_faultInjectStop_none (h : D.log.injections.find? (fun e => e.2.id == c.p 0 4) = none) :
    runM (faultInjectStop c) D = (.error { status := .faultStaleGeneration }, D) := by
  unfold faultInjectStop
  rw [runM_get_bind, h]
  exact rfl

theorem DieState.endInjection_cmd (D : DieState) (slot : Nat) : (D.endInjection slot).cmd = D.cmd := by
  unfold DieState.endInjection
  split
  · rfl
  · dsimp only
    split
    · exact DieState.event_cmd D _
    · exact DieState.event_cmd D _

end

/-- Settles O28: each command by its checks, the injections by what the start and the end of one do. -/
theorem diagnosticsCommandsAnswer : Obligations.DiagnosticsCommandsAnswer := by
  intro s a id rivals c hup D
  refine ⟨fun hr => ⟨_, onDie_eq hup (D.runCmd_ready 0x0702 id c _ hr), D.replyM_endsAs c (eventRead c),
      fun d D' h => runM_eventRead_inv h, fun hlo hhi hzero hnone => ?_⟩,
    fun hr => ⟨fun hleft => ?_, fun hpast => ?_⟩,
    fun hr => ⟨_, onLog_eq hup (D.runCmd_ready 0x0700 id c _ hr), D.replyM_endsAs c (faultInject c rivals),
      fun d D' h => runM_faultInject_inv h⟩,
    fun hr => ⟨fun e hfound => ?_, fun hnone => ?_⟩⟩
  · have hrun := runM_eventRead_none hlo hhi hzero hnone
    rw [DieState.readDetail, hnone] at hrun
    exact D.replyM_ok D c (eventRead c) _ hrun (by rw [hr.id_eq]; exact hr.acked)
  · have hack : ((D.marked c).event (markEvent c)).acked id = true :=
      (DieState.acked_congr id (congrArg CmdState.cmds (DieState.event_cmd _ _))).trans hr.acked
    have hans := DieState.runCmd_replyM hr (runM_eventMark_left D c hleft) hack
    exact onDie_eq hup hans
  · have hans := DieState.runCmd_replyM_error hr (runM_eventMark_past D c hpast) rfl
    exact onDie_eq hup hans
  · have hack : (D.endInjection e.1).acked id = true :=
      (DieState.acked_congr id (congrArg CmdState.cmds (D.endInjection_cmd e.1))).trans hr.acked
    have hans := DieState.runCmd_replyM hr (runM_faultInjectStop_found hfound) hack
    exact onDie_eq hup hans
  · have hans := DieState.runCmd_replyM_error hr (runM_faultInjectStop_none hnone) rfl
    exact onDie_eq hup hans

end Sys2Proof.Machine
end

section
/-! PROOFS. Nonces and sessions (O29). -/

open Sys2Proof

namespace Sys2Proof.Machine

/-! ## Tables -/

section
variable {α : Type}

theorem tabFind_eq_none {t : List (Nat × α)} {k : Nat} (h : k ∉ t.map (·.1)) : tabFind t k = none := by
  induction t with
  | nil => rfl
  | cons e t ih =>
    rw [List.map_cons, List.mem_cons] at h
    exact (if_neg (fun he => h (.inl he.symm))).trans (ih (fun hk => h (.inr hk)))

/-- Where no key is listed twice, the one that is deleted is gone. -/
theorem tabFind_tabDel_same {t : List (Nat × α)} (k : Nat) (h : (t.map (·.1)).Nodup) : tabFind (tabDel k t) k = none := by
  induction t with
  | nil => rfl
  | cons e t ih =>
    rw [List.map_cons, List.nodup_cons] at h
    by_cases hk : k = e.1
    · rw [show tabDel k (e :: t) = t from if_pos hk]
      exact tabFind_eq_none (hk ▸ h.1)
    · rw [show tabDel k (e :: t) = e :: tabDel k t from if_neg hk]
      exact (if_neg (Ne.symm hk)).trans (ih h.2)

theorem tabFind_tabDel_other (t : List (Nat × α)) {k j : Nat} (h : j ≠ k) : tabFind (tabDel k t) j = tabFind t j := by
  induction t with
  | nil => rfl
  | cons e t ih =>
    by_cases hk : k = e.1
    · rw [show tabDel k (e :: t) = t from if_pos hk]
      exact (if_neg (fun he => h (he.symm.trans hk.symm))).symm
    · rw [show tabDel k (e :: t) = e :: tabDel k t from if_neg hk]
      unfold tabFind
      rw [ih]

/-- A change of every value that leaves the default alone is seen at every key. -/
theorem tabGet_tabMap (d : α) (f : Nat → α → α) (hd : ∀ k, f k d = d) (t : List (Nat × α)) (k : Nat) :
    tabGet d (tabMap f t) k = f k (tabGet d t k) := by
  induction t with
  | nil => exact (hd k).symm
  | cons e t ih =>
    by_cases hk : e.1 = k
    · subst hk
      exact (if_pos rfl).trans (congrArg (f e.1) (if_pos rfl).symm)
    · exact (if_neg hk).trans (ih.trans (congrArg (f k) (if_neg hk).symm))

end

/-! ## Nonces (R457) -/

section
variable (D : DieState) (req : Nat)

theorem DieState.makeNonce_nonceOf : (D.makeNonce req).nonceOf req = some { req := req, bytes := D.newNonce, made := D.now } := by
  have hrest : ∀ l : List Nonce, (∀ n ∈ l, n.req ≠ req) →
      l.find? (fun n => n.req == req && decide (D.tick.now < n.made + 10000000000)) = none := by
    intro l hl
    rw [List.find?_eq_none]
    intro n hn
    simp [hl n hn]
  have hother : ∀ n ∈ D.rol.nonces.filter (fun n => n.req != req), n.req ≠ req := fun n hn => by
    simpa using (List.mem_filter.mp hn).2
  unfold DieState.nonceOf DieState.makeNonce
  dsimp only
  rw [List.find?_append, hrest]
  · simp [DieState.tick]
  · split
    · exact fun n hn => hother n (List.mem_of_mem_tail hn)
    · exact hother

theorem DieState.makeNonce_word : (D.makeNonce req).nonceWord req 0 = field D.newNonce 0 4 := by
  unfold DieState.nonceWord
  rw [DieState.makeNonce_nonceOf]

end

/-! ## Authentication (R456-R458) -/

theorem DieState.authDone_pending {D : DieState} {f : Flash} {req : Nat} {p : Nat × Nat × Nat}
    (h : D.rol.pend.find? (fun p => p.1 == req) = some p) :
    let E : DieState := { D with rol := { D.rol with pend := D.rol.pend.filter (fun x => x.1 != req) } }
    let read := runM (stackRead (cpCtx p.2.1) p.2.2 512) E
    let b := match read.1 with | .ok b => b | .error _ => []
    let result := if b.isEmpty = true then 3 else read.2.authResult f req b
    let Z := read.2.dropNonce req
    D.authDone f req = if result = 2 then
      Z.audit (Z.sessionRecord 1 req p.2.1 (field b 352 1) (field b 4 4) 0 (b.take 256))
        (.sessionOpen { role := field b 352 1, req := req, queue := if field b 354 2 = 0xFFFF then none else some (field b 354 2),
                        anchor := field b 2 1, serial := field b 4 4, opened := Z.now, lastUse := Z.now,
                        notAfter := field b 16 8 * 1000000000 })
      else Z.authFailed f req p.2.1 result b := by
  intro E read b result Z
  unfold DieState.authDone
  rw [h] <;> rfl

/-! ## The end of a session (R459) -/

section
variable {D : DieState} {slot : Nat} {x : Session} (h : tabFind D.rol.sessions slot = some x)
include h

/-- The sessions and queues that the end of a session leaves. -/
theorem DieState.endSession_leaves : (D.endSession slot).rol.sessions = tabDel slot D.rol.sessions ∧
    (D.endSession slot).cmd.queues =
      tabMap (fun _ q => if q.bound = some slot then { q with bound := none } else q) D.cmd.queues := by
  unfold DieState.endSession
  rw [h]
  dsimp only
  split
  · rw [DieState.event_rol, DieState.event_cmd]
    exact ⟨rfl, rfl⟩
  · unfold DieState.audit
    dsimp only
    rw [DieState.event_rol, DieState.event_cmd]
    exact ⟨rfl, rfl⟩

theorem DieState.endSession_bound (q : Nat) : ((D.endSession slot).queue q).bound =
    if (D.queue q).bound = some slot then none else (D.queue q).bound := by
  unfold DieState.queue
  rw [(DieState.endSession_leaves h).2, tabGet_tabMap]
  · split
    · rfl
    · rfl
  · exact fun _ => if_neg (by simp)

end

/-- Settles O29: nonces by who reads, authentication by its bits and its checks, the end of a session by its slot. -/
theorem noncesAndSessionsOpenAndEnd : Obligations.NoncesAndSessionsOpenAndEnd := by
  refine ⟨?_, ?_, ?_⟩
  · intro s a r hup D
    refine ⟨fun hbar hadmit => ⟨s.put a ((D.makeNonce r.id).out (.csrData r.id ((D.makeNonce r.id).nonceWord r.id 0))), ?_, ?_⟩,
      ⟨_, onDie_eq hup rfl, ?_⟩, ⟨_, onDie_eq hup rfl, ?_⟩⟩
    · have hopen : ¬ (!D.barOpen r B_ROL) = true := by rw [hbar]; exact Bool.false_ne_true
      exact onDie_eq hup ((if_neg hopen).trans (if_pos hadmit))
    · rw [State.die_put, DieState.makeNonce_word]
      exact ⟨D.makeNonce_nonceOf r.id, rfl, rfl⟩
    · rw [State.die_put]
      exact ⟨rfl, fun n => List.mem_filter.trans (and_congr_right fun _ => decide_eq_true_iff), rfl⟩
    · rw [State.die_put]
      exact ⟨rfl, fun l => List.mem_filter.trans (and_congr_right fun _ => decide_eq_true_iff), rfl⟩
  · intro s a r v hup D T X Y
    refine ⟨fun hadmit => ⟨fun hbit => ?_, fun hbit => ?_⟩, fun p hp => ?_, onDie_eq hup rfl⟩
    · exact onDie_eq hup ((if_pos hbit).trans (D.csrDo_admitted r B_ROL ROL_AUTH_CTRL _ hadmit))
    · exact onDie_eq hup ((if_pos hbit).trans (D.csrDo_admitted r B_ROL ROL_AUTH_CTRL _ hadmit))
    · exact onDie_eq hup (DieState.authDone_pending hp)
  · intro D slot x hnodup hfind E
    obtain ⟨hsess, _⟩ := DieState.endSession_leaves hfind
    refine ⟨?_, fun k hk => ?_, DieState.endSession_bound hfind⟩
    · exact (congrArg (fun t => tabFind t slot) hsess).trans (tabFind_tabDel_same slot hnodup)
    · exact (congrArg (fun t => tabFind t k) hsess).trans (tabFind_tabDel_other _ hk)

end Sys2Proof.Machine
end

section
/-! PROOFS. The locks and the audit log (O30). -/

open Sys2Proof

namespace Sys2Proof.Machine

/-! ## The log of the flash (R463) -/

/-- A record as the log keeps it: under the next sequence number, chained to the record before. -/
def Flash.auditKept (f : Flash) (r : AuditRec) : AuditRec :=
  { r with seq := f.auditSeq, chain := if r.kind = 7 then Config.packageSign f.auditPrev else Config.sha384 f.auditPrev }

theorem Flash.auditPut_eq (f : Flash) (r : AuditRec) :
    f.auditPut r = { f with audit := f.audit ++ [f.auditKept r], auditSeq := f.auditSeq + 1 } := rfl

theorem Flash.auditAdd_plain {f : Flash} (r : AuditRec) (h : (f.auditSeq + 1) % 256 ≠ 0) : f.auditAdd r = f.auditPut r := by
  unfold Flash.auditAdd
  exact if_neg h

/-- After every 256th record a checkpoint follows. -/
theorem Flash.auditAdd_checkpoint {f : Flash} (r : AuditRec) (h : (f.auditSeq + 1) % 256 = 0)
    (hroom : f.audit.length + 1 < 65536) : f.auditAdd r = (f.auditPut r).auditPut { time := r.time, kind := 7 } := by
  have hfree : ¬ (f.auditPut r).auditFree = 0 := by
    have hlen : (f.auditPut r).audit.length = f.audit.length + 1 := List.length_append
    unfold Flash.auditFree
    omega
  unfold Flash.auditAdd
  dsimp only
  rw [if_pos (show (f.auditPut r).auditSeq % 256 = 0 from h), Flash.checkpoint, if_neg hfree]

/-! ## Requests that wait for their record (R461, R464, R468) -/

/-- An action whose record is queued, or that is refused where the log is lost. -/
def DieState.auditOr (D : DieState) (r : AuditRec) (act : AuditAct) : DieState :=
  if D.auditLost = true then D.unrecorded else D.audit r act

section
variable (D : DieState) (r : Req) (v : Nat)

/-- The record of a change of the locks of the block that the requester has selected. -/
def DieState.lockRecord (b : Nat) : AuditRec :=
  { time := D.now, inst := r.inst, role := D.roleOf r, req := r.id, op := b, digest := (Config.sha384 (D.rwlImage b)).take 32 }

theorem DieState.lockCtrl_eq :
    let b := D.sel r.id B_ROL ROL_LOCK_SEL
    let x := D.lockRecord r b
    let X := if bit v 0 = true ∧ hasRwl b = true then D.auditOr { x with kind := 4 } (.lockOpen b) else D
    D.lockCtrl r v = if bit v 1 = true ∧ hasRwl b = true then X.auditOr { x with kind := 5 } (.lockCommit b) else X := by
  intro b x X
  have hX : (if (bit v 0 && hasRwl b) = true then D.auditOr { x with kind := 4 } (.lockOpen b) else D) = X := by
    simp only [Bool.and_eq_true, X]
  unfold DieState.lockCtrl
  dsimp only
  refine (congrArg (fun X : DieState => if (bit v 1 && hasRwl b) = true then
    X.auditOr { x with kind := 5 } (.lockCommit b) else X) hX).trans ?_
  simp only [Bool.and_eq_true]

end

/-! ## Records that become durable (R461) -/

theorem State.put_onDie (s : State) (a : At) (D : DieState) (f : DieState → DieState) :
    (s.put a D).onDie a.die f = s.put a (f D) := by
  unfold State.put State.onDie quadMod
  match a.die with
  | 0 => rfl
  | 1 => rfl
  | 2 => rfl
  | 3 => rfl

/-- The die with its oldest record taken. -/
def DieState.auditPopped (D : DieState) (rest : List AuditPend) : DieState := { D with rol := { D.rol with auditQ := rest } }

section
variable {s : State} {a : At} {p : AuditPend} {rest : List AuditPend} (hq : (s.dieAt a).rol.auditQ = p :: rest)
include hq

theorem State.auditDurable_taken (hreach : (s.dieAt a).reachesFlash = true) (htake : s.pkg.flash.auditTakes p.record.kind = true) :
    let f := s.pkg.flash.auditAdd { p.record with time := (s.dieAt a).now }
    let g := match p.act with | .trim n => f.auditTrim n | _ => f
    (s.atDie a id).auditDurable a.die = ({ s.put a (((s.dieAt a).auditPopped rest).auditAct p.act) with
      pkg := { s.pkg with flash := g } } : State).auditHigh s.pkg.flash.audit.length := by
  intro f g
  have hguard : (((s.dieAt a).auditPopped rest).reachesFlash && s.pkg.flash.auditTakes p.record.kind) = true :=
    Bool.and_eq_true_iff.mpr ⟨hreach, htake⟩
  rw [next_atDie_eq (f := id) (E := s.dieAt a) rfl]
  unfold State.auditDurable
  simp only [State.die_put, hq, State.put_onDie]
  refine (if_pos hguard).trans (congrArg (fun t => State.auditHigh t s.pkg.flash.audit.length) ?_)
  have hact := s.put_onDie a ((s.dieAt a).auditPopped rest) (fun D => D.auditAct p.act)
  exact congrArg (fun t : State => { t with pkg := { s.pkg with flash := g } }) hact

theorem State.auditDurable_denied (h : (s.dieAt a).reachesFlash = false ∨ s.pkg.flash.auditTakes p.record.kind = false) :
    (s.atDie a id).auditDurable a.die = s.put a (((s.dieAt a).auditPopped rest).auditDeny p.act) := by
  have hguard : ¬ (((s.dieAt a).auditPopped rest).reachesFlash && s.pkg.flash.auditTakes p.record.kind) = true := by
    rw [Bool.and_eq_true_iff]
    exact fun ⟨hreach, htake⟩ => h.elim (fun h => Bool.false_ne_true (h.symm.trans hreach))
      (fun h => Bool.false_ne_true (h.symm.trans htake))
  rw [next_atDie_eq (f := id) (E := s.dieAt a) rfl]
  unfold State.auditDurable
  simp only [State.die_put, hq, State.put_onDie]
  exact if_neg hguard

end

/-- Settles O30: the requests by their bits, a record by whether the log takes it. -/
theorem locksAndAuditAreRecorded : Obligations.LocksAndAuditAreRecorded := by
  refine ⟨?_, fun f r => ⟨f.auditKept r, rfl, rfl, rfl, rfl, rfl, fun h => ?_, fun h hroom =>
    ⟨(f.auditPut r).auditKept { time := r.time, kind := 7 }, rfl, rfl, ?_⟩⟩, fun D b => ⟨?_, ?_⟩⟩
  · intro s a r v hup D T b x X Y
    refine ⟨fun hadmit => ⟨fun hbit => ?_, fun hbit => ?_⟩, fun hadmit hbit => ?_, fun p rest hq => ?_, fun hq => ?_⟩
    · exact onDie_eq hup ((if_pos hbit).trans ((D.csrDo_admitted r B_ROL ROL_LOCK_CTRL _ hadmit).trans (T.lockCtrl_eq r v.toNat)))
    · exact onDie_eq hup ((if_pos hbit).trans ((D.csrDo_admitted r B_ROL ROL_LOCK_CTRL _ hadmit).trans (T.lockCtrl_eq r v.toNat)))
    · exact onDie_eq hup ((if_pos hbit).trans (D.csrDo_admitted r B_ROL ROL_AUDIT_CTRL _ hadmit))
    · intro E f g
      exact ⟨fun hreach htake => running_eq hup (State.auditDurable_taken hq hreach htake),
        fun h => running_eq hup (State.auditDurable_denied hq h)⟩
    · refine running_eq hup ?_
      have hempty : (s.dieAt a).rol.auditQ = [] := hq
      rw [next_atDie_eq (f := id) (E := s.dieAt a) rfl]
      unfold State.auditDurable
      rw [State.die_put, hempty]
  · rw [Flash.auditAdd_plain r h]
    exact ⟨rfl, rfl⟩
  · rw [Flash.auditAdd_checkpoint r h hroom]
    exact ⟨List.append_assoc _ _ _, rfl⟩
  · unfold DieState.auditAct
    dsimp only
    split
    case isTrue h => exact List.contains_iff_mem.mp h
    case isFalse => exact List.mem_append_right _ (List.mem_singleton.mpr rfl)
  · unfold DieState.auditAct
    simp

end Sys2Proof.Machine
end

section
/-! PROOFS. What reads of a command leave of the die: accesses of memory, stores and hosts keep every state of their own
that is not counted, logged, reported or held in the memories. -/

open Sys2Proof

namespace Sys2Proof.Machine

/-! ## Accesses of a die -/

/-- E differs from D only where an access can leave a trace: registers, the log, the memories and stores, pending
messages, doubts, outputs and free values. -/
def DieState.AccessOf (D E : DieState) : Prop :=
  E = { D with csr := E.csr, log := E.log, mem := E.mem, pcie := E.pcie, clusters := E.clusters, doubts := E.doubts,
               outs := E.outs, fresh := E.fresh }

namespace DieState.AccessOf

variable {D E F : DieState}

theorem refl (D : DieState) : D.AccessOf D := rfl

theorem trans (h : D.AccessOf E) (h' : E.AccessOf F) : D.AccessOf F := by
  unfold DieState.AccessOf at h h' ⊢
  refine h'.trans ?_
  rw [h]

theorem toFlash_eq (h : D.AccessOf E) : E.toFlash = D.toFlash := by rw [h]
theorem cmd_eq (h : D.AccessOf E) : E.cmd = D.cmd := by rw [h]
theorem boot_eq (h : D.AccessOf E) : E.boot = D.boot := by rw [h]
theorem fgr_eq (h : D.AccessOf E) : E.fgr = D.fgr := by rw [h]
theorem fab_eq (h : D.AccessOf E) : E.fab = D.fab := by rw [h]
theorem now_eq (h : D.AccessOf E) : E.now = D.now := by rw [h]
theorem num_eq (h : D.AccessOf E) : E.num = D.num := by rw [h]
theorem comb_eq (h : D.AccessOf E) : E.comb = D.comb := by rw [h]
theorem stp_eq (h : D.AccessOf E) : E.stp = D.stp := by rw [h]
theorem saf_eq (h : D.AccessOf E) : E.saf = D.saf := by rw [h]
theorem ins_eq (h : D.AccessOf E) : E.ins = D.ins := by rw [h]
theorem rol_eq (h : D.AccessOf E) : E.rol = D.rol := by rw [h]
theorem d2d_eq (h : D.AccessOf E) : E.d2d = D.d2d := by rw [h]


/-! Each further trace of an access leaves one. -/

variable {b off n i k v : Nat} {e : Event}

theorem count (h : D.AccessOf E) : D.AccessOf (E.count b off n i) :=
  h.trans (by unfold DieState.AccessOf; rw [DieState.count_frame])

theorem count32 (h : D.AccessOf E) : D.AccessOf (E.count32 b off n i) :=
  h.trans (by unfold DieState.AccessOf; rw [DieState.count32_frame])

theorem cause (h : D.AccessOf E) : D.AccessOf (E.cause b k) :=
  h.trans (by unfold DieState.AccessOf; rw [DieState.cause_frame])

theorem event (h : D.AccessOf E) : D.AccessOf (E.event e) :=
  h.trans (by unfold DieState.AccessOf; rw [DieState.event_frame])

theorem work (h : D.AccessOf E) : D.AccessOf (E.work b) := by
  obtain ⟨c, hc⟩ := work_only E b
  rw [hc]
  exact h.trans rfl

theorem setReg (h : D.AccessOf E) : D.AccessOf (E.setReg b off v i) := h.trans rfl
theorem setReg64 (h : D.AccessOf E) : D.AccessOf (E.setReg64 b off v i) := h.trans rfl
theorem doubt (h : D.AccessOf E) : D.AccessOf (E.doubt k i) := h.trans rfl
theorem tick (h : D.AccessOf E) : D.AccessOf E.tick := h.trans rfl
theorem onHbm {f : HbmState → HbmState} (h : D.AccessOf E) : D.AccessOf (E.onHbm n f) := h.trans rfl
theorem onCluster {f : Cluster → Cluster} (h : D.AccessOf E) : D.AccessOf (E.onCluster n f) := h.trans rfl
theorem setGran {g : Gran} (h : D.AccessOf E) : D.AccessOf (E.setGran n off g) := h.trans rfl

theorem ite {p : Prop} [Decidable p] (h : D.AccessOf E) (h' : D.AccessOf F) : D.AccessOf (if p then E else F) := by
  split
  · exact h
  · exact h'

/-- A fold of accesses is one. -/
theorem foldl {α : Type} {f : DieState → α → DieState} (hf : ∀ E x, D.AccessOf E → D.AccessOf (f E x)) (l : List α)
    (h : D.AccessOf E) : D.AccessOf (l.foldl f E) := by
  induction l generalizing E with
  | nil => exact h
  | cons x l ih => exact ih (hf E x h)

/-! ## Stacked memory (R389-R391, R445) -/

variable {r : Req} {w x : Bool} {cx : Ctx} {cls code : Nat}

theorem refuse (h : D.AccessOf E) : D.AccessOf (E.refuse r k v w x cls code) := by
  unfold DieState.refuse
  exact (h.count.setReg64.setReg.cause.event.count.cause.doubt).ite h.count.setReg64.setReg.cause.event

theorem refuseMem (h : D.AccessOf E) : D.AccessOf (E.refuseMem cx v w) := h.refuse

theorem unpopulated (h : D.AccessOf E) : D.AccessOf (E.unpopulated cx v) := h.event

theorem lineRead (h : D.AccessOf E) : D.AccessOf (E.lineRead n off) := h.count.count.work

theorem corrected (h : D.AccessOf E) : D.AccessOf (E.corrected n off) := by
  unfold DieState.corrected
  exact h.count.onHbm.event.onHbm.cause.ite h.count.onHbm

theorem poison (h : D.AccessOf E) : D.AccessOf (E.poison n off) := h.setGran.count.cause

theorem miscorrect {l : List Byte} (h : D.AccessOf E) : D.AccessOf (E.miscorrect n off l) := h.trans rfl

theorem reportBadRead (h : D.AccessOf E) : D.AccessOf (E.reportBadRead cx n off w) := by
  unfold DieState.reportBadRead
  exact h.count.setReg64.setReg.cause.event.doubt.ite h.count.setReg64.setReg.cause.event

/-! ## Stores (R150, R151, R159, R168) -/

theorem refuseStore (h : D.AccessOf E) : D.AccessOf (E.refuseStore n r off w) := h.setReg64.cause.refuse

theorem releaseEntry {c port : Nat} {y : CbEntry} {z : Release} (h : D.AccessOf E) :
    D.AccessOf (E.releaseEntry c port y z) := h.onCluster.count.count.work

theorem boundary {c port : Nat} (h : D.AccessOf E) : D.AccessOf (E.boundary c port) :=
  (foldl (fun _ _ h => h.releaseEntry) _ h.onCluster).onCluster

theorem holdLine {c port : Nat} (h : D.AccessOf E) : D.AccessOf (E.holdLine c port off) := by
  unfold DieState.holdLine
  exact h.ite h.onCluster.count.work

theorem parityError {c port : Nat} (h : D.AccessOf E) : D.AccessOf (E.parityError c port off) :=
  h.setReg.setReg.count.cause.event

theorem segOff {c : Nat} (h : D.AccessOf E) : D.AccessOf (E.segOff c off) := h.cause.event

theorem csrBytes (h : D.AccessOf E) : D.AccessOf (E.csrBytes cx v) := h.event

end DieState.AccessOf

/-! ## Actions that only access -/

/-- The action leaves no other trace on the die than an access does. -/
def Accesses {α : Type} (m : M α) : Prop := ∀ D : DieState, D.AccessOf (runM m D).2

section
variable {α β : Type}

theorem accesses_of_still {m : M α} (h : ∀ D, (runM m D).2 = D) : Accesses m := fun D => by
  rw [h D]
  exact .refl D

theorem accesses_pure (x : α) : Accesses (pure x : M α) := accesses_of_still fun _ => rfl
theorem accesses_throw (f : Fail) : Accesses (throw f : M α) := accesses_of_still fun _ => rfl
theorem accesses_get : Accesses (get : M DieState) := accesses_of_still fun _ => rfl

theorem accesses_onD {f : DieState → DieState} (h : ∀ D : DieState, D.AccessOf (f D)) : Accesses (onD f) := h

theorem accesses_guardS (b : Bool) (st : Status) (r : Nat) : Accesses (guardS b st r) := by
  unfold guardS
  cases b
  · exact accesses_throw _
  · exact accesses_pure _

theorem Accesses.bind {m : M α} {f : α → M β} (hm : Accesses m) (hf : ∀ x, Accesses (f x)) : Accesses (m >>= f) := fun D => by
  have hD := hm D
  rw [runM_bind]
  cases hrun : runM m D with
  | mk y E =>
    rw [hrun] at hD
    cases y with
    | error e => exact hD
    | ok x => exact hD.trans (hf x E)

theorem Accesses.ite {p : Prop} [Decidable p] {m n : M α} (hm : Accesses m) (hn : Accesses n) :
    Accesses (if p then m else n) := by
  split
  · exact hm
  · exact hn

theorem Accesses.tryCatch {m : M α} {f : Fail → M α} (hm : Accesses m) (hf : ∀ x, Accesses (f x)) :
    Accesses (tryCatch m f) := fun D => by
  have hD := hm D
  cases hrun : runM m D with
  | mk y E =>
    rw [hrun] at hD
    cases y with
    | error e =>
      have hcaught : runM (MonadExcept.tryCatch m f) D = runM (f e) E := by
        have hm : m D = (.error e, E) := hrun
        change (ExceptT.tryCatch m f) D = _
        simp only [ExceptT.tryCatch, ExceptT.mk, Bind.bind, StateT.bind, hm]
        rfl
      rw [hcaught]
      exact hD.trans (hf e E)
    | ok x =>
      rw [runM_tryCatch_ok hrun]
      exact hD

theorem Accesses.mapM {f : α → M β} (l : List α) (hf : ∀ x, Accesses (f x)) : Accesses (l.mapM f) := by
  induction l with
  | nil => exact accesses_pure _
  | cons x l ih =>
    rw [List.mapM_cons]
    exact (hf x).bind fun _ => ih.bind fun _ => accesses_pure _

end

/-! ## Reads -/

section
variable (cx : Ctx) (a n : Nat)

theorem accesses_fail (f : DieState → DieState) (e : Fail) (h : ∀ D : DieState, D.AccessOf (f D)) {α : Type} :
    Accesses (onD f >>= fun _ => (throw e : M α)) := (accesses_onD h).bind fun _ => accesses_throw e

theorem readGran_accesses (off k : Nat) : Accesses (readGran cx n off k) := by
  unfold readGran
  refine accesses_get.bind fun D => (accesses_onD fun E => (DieState.AccessOf.refl E).count).bind fun _ => ?_
  split
  · exact accesses_pure _
  · exact (accesses_onD fun E => (DieState.AccessOf.refl E).setGran.corrected).bind fun _ => accesses_pure _
  · exact (accesses_onD fun E => (DieState.AccessOf.refl E).miscorrect.corrected).bind fun _ => accesses_pure _
  · exact accesses_fail _ _ fun E => (DieState.AccessOf.refl E).tick.poison.reportBadRead
  · exact accesses_fail _ _ fun E => (DieState.AccessOf.refl E).reportBadRead

theorem checkStack_accesses (w : Bool) : Accesses (checkStack cx a n w) := by
  unfold checkStack
  exact accesses_get.bind fun D => .ite (accesses_fail _ _ fun E => (DieState.AccessOf.refl E).unpopulated)
    (.ite (accesses_fail _ _ fun E => (DieState.AccessOf.refl E).refuseMem) (accesses_pure _))

theorem rawStackRead_accesses : Accesses (rawStackRead cx a n) := by
  unfold rawStackRead
  refine (Accesses.mapM _ fun p => ?_).bind fun _ => accesses_pure _
  split
  · exact .ite ((accesses_onD fun E => (DieState.AccessOf.refl E).lineRead).bind fun _ => readGran_accesses cx _ _ _)
      (readGran_accesses cx _ _ _)
  · exact accesses_throw _

theorem stackRead_accesses : Accesses (stackRead cx a n) := by
  unfold stackRead
  exact .ite (accesses_pure _) ((checkStack_accesses cx a n false).bind fun _ => rawStackRead_accesses cx a n)

theorem hostRead_accesses : Accesses (hostRead a n) :=
  accesses_get.bind fun _ => (accesses_guardS _ _ _).bind fun _ => accesses_pure _

theorem readPiece_accesses (c port off : Nat) : Accesses (readPiece c port off n) := by
  unfold readPiece
  refine (accesses_onD fun E => .ite (.refl E) (DieState.AccessOf.refl E).holdLine).bind fun _ => accesses_get.bind fun D => ?_
  split
  · exact accesses_fail _ _ fun E => (DieState.AccessOf.refl E).parityError
  · exact accesses_pure _

theorem storeRead_accesses (c port off : Nat) : Accesses (storeRead c port off n) := by
  unfold storeRead
  exact accesses_get.bind fun D => .ite (accesses_pure _) (.ite (accesses_throw _)
    (.ite (accesses_fail _ _ fun E => (DieState.AccessOf.refl E).segOff) (.ite (accesses_throw _)
      ((Accesses.mapM _ fun p => readPiece_accesses _ _ _ _).bind fun _ => accesses_pure _))))

theorem bounceOff_accesses (c : Nat) : Accesses (bounceOff c) := by
  unfold bounceOff
  exact accesses_get.bind fun D => .ite (accesses_pure _) (accesses_fail _ _ fun E => (DieState.AccessOf.refl E).count)

theorem Accesses.oneOp {α : Type} {m : M α} (c port : Nat) (h : Accesses m) : Accesses (oneOp c port m) := by
  have hend : Accesses (onD (fun D => D.boundary c port)) := accesses_onD fun E => (DieState.AccessOf.refl E).boundary
  exact (h.tryCatch fun f => hend.bind fun _ => accesses_throw f).bind fun _ => hend.bind fun _ => accesses_pure _

theorem remoteRead_accesses (c port off : Nat) (src : Source) (r : Req) : Accesses (remoteRead c port src r off n) := by
  unfold remoteRead
  have hrefuse : Accesses (onD (fun D => D.refuseStore c r off false) >>= fun _ =>
      (throw { status := .faultBounds, loc := off } : M (List Byte))) :=
    accesses_fail _ _ fun E => (DieState.AccessOf.refl E).refuseStore
  refine (bounceOff_accesses c).bind fun _ => accesses_get.bind fun D => ?_
  split
  · exact .ite hrefuse ((storeRead_accesses n c port off).oneOp c port)
  · exact hrefuse

theorem spineRead_accesses (c inst off : Nat) (r : Req) : Accesses (spineRead c inst r off n) := by
  unfold spineRead
  exact accesses_get.bind fun D => .ite
    ((bounceOff_accesses c).bind fun _ => (storeRead_accesses n c 32 off).oneOp c 32) (remoteRead_accesses n c 32 off _ r)

theorem checkPopulated_accesses : Accesses (checkPopulated cx a n) := by
  unfold checkPopulated
  exact .ite (accesses_pure _) (accesses_fail _ _ fun E => (DieState.AccessOf.refl E).unpopulated)

theorem localRead_accesses : Accesses (localRead cx a n) := by
  unfold localRead
  refine .ite (accesses_pure _) ((checkPopulated_accesses cx a n).bind fun _ => accesses_get.bind fun D => ?_)
  split
  · exact stackRead_accesses cx a n
  · exact spineRead_accesses n _ _ _ _
  · exact accesses_pure _
  · exact accesses_pure _
  · exact (accesses_onD fun E => (DieState.AccessOf.refl E).csrBytes).bind fun _ => accesses_pure _

theorem farRead_accesses (id g : Nat) : Accesses (farRead id g n) := by
  unfold farRead
  refine accesses_get.bind fun D => ?_
  split
  · exact accesses_throw _
  · exact .ite (accesses_pure _) (accesses_throw _)

/-- What a command reads at an address of its parameters leaves only the traces of accesses. -/
theorem paramRead_accesses (id : Nat) (stacked : Bool) : Accesses (paramRead id stacked cx a n) := by
  unfold paramRead
  exact accesses_get.bind fun D => .ite (hostRead_accesses a n) (.ite (accesses_throw _)
    (.ite (localRead_accesses cx _ n) ((Accesses.mapM _ fun p => farRead_accesses _ _ _).bind fun _ => accesses_pure _)))

end

end Sys2Proof.Machine
end

section
/-! PROOFS. The maker commands (O31). -/

open Sys2Proof

namespace Sys2Proof.Machine

/-- A change of one die whose flash changes are made before it ends, on a running die. -/
theorem onFlash_eq {s : State} {a : At} {f : DieState → DieState} {E : DieState} (hup : s.up a) (h : f (s.dieAt a) = E) :
    onFlash a s f = .next (s.put a E).settleFlash :=
  running_eq hup (congrArg State.settleFlash (next_atDie_eq h))

/-- The die that has sent a change to the boot flash. -/
def DieState.sent (D : DieState) (o : FlashOp) : DieState := { D with toFlash := D.toFlash ++ [o] }

theorem runM_fwStage_inv {c : Cmd} {D D' : DieState} {d : List Byte} (h : runM (fwStage c) D = (.ok d, D')) :
    d = [] ∧ c.p 12 4 < 2 ∧ c.p 12 4 ≠ D.boot.slot ∧
      ∃ b, Config.imageOk b = true ∧ D'.toFlash = D.toFlash ++ [.image (c.p 12 4) b] := by
  unfold fwStage at h
  rw [runM_get_bind] at h
  dsimp only at h
  obtain ⟨_, h⟩ := okField_bind_inv h
  obtain ⟨hslot, h⟩ := okField_bind_inv h
  obtain ⟨b, E, hread, h⟩ := runM_bind_inv h
  obtain ⟨himage, h⟩ := guardS_bind_inv h
  rw [runM_onD_bind] at h
  cases h
  have hE := paramRead_accesses c.ctx (c.p 0 8) (c.p 8 4) c.id c.stacked D
  rw [hread] at hE
  simp only [Bool.and_eq_true, decide_eq_true_eq, bne_iff_ne] at hslot
  exact ⟨rfl, hslot.1, hslot.2, b, himage, congrArg (· ++ _) hE.toFlash_eq⟩

section
variable (c : Cmd) (D : DieState)

theorem runM_fwActivate (h : c.p 0 4 < 2) : runM (fwActivate c) D = (.ok [], D.sent (.slot (c.p 0 4))) := by
  unfold fwActivate
  rw [runM_okField_bind _ _ _ (decide_eq_true h), runM_onD_bind]
  exact rfl

theorem runM_repairEdit (hkind : c.p 0 4 < 2) (hdie : c.p 4 4 < 4) (htarget : c.p 0 4 = 1 ∨ c.p 8 8 < 2 ^ 15)
    (hedit : c.p 16 4 < 2) : runM (repairEdit c) D =
      (.ok [], D.sent (.repair (c.p 0 4) (c.p 4 4) (c.p 8 8) (c.p 16 4 == 1))) := by
  unfold repairEdit
  have hfits : (c.p 0 4 == 1 || decide (c.p 8 8 < 2 ^ 15)) = true := by
    rw [Bool.or_eq_true, beq_iff_eq, decide_eq_true_eq]
    exact htarget
  rw [runM_okField_bind _ _ _ (decide_eq_true hkind), runM_okField_bind _ _ _ (decide_eq_true hdie),
    runM_okField_bind _ _ _ hfits, runM_okField_bind _ _ _ (decide_eq_true hedit), runM_onD_bind]
  exact rfl

/-- What ANCHOR_SET stores: the key and the minimum serial, or nothing. -/
def anchorBytes : List Byte := if c.params.length ≤ 4 then [] else padTo 100 (c.params.drop 4)

theorem runM_anchorSet (hlo : 1 ≤ c.p 0 4) (hhi : c.p 0 4 < 8) :
    runM (anchorSet c) D = (.ok [], D.sent (.anchor (c.p 0 4) (anchorBytes c))) := by
  unfold anchorSet
  rw [runM_okField_bind _ _ _ (by simp [hlo, hhi]), runM_onD_bind]
  exact rfl

/-- FUSE_DUMP ends as its write ends. -/
theorem DieState.fuseDump_endsAs (f : Flash) :
    D.EndsAs c (paramWrite c.id c.stacked c.ctx (c.p 0 8) (fuseMaps D.num f)) (fun _ => some [])
      (D.replyM c (fuseDump f c)) := by
  have hdump : runM (fuseDump f c) D = runM (paramWrite c.id c.stacked c.ctx (c.p 0 8) (fuseMaps D.num f) >>=
      fun _ => pure []) D := runM_get_bind _ D
  obtain ⟨hok, _, herror, hneed⟩ := D.replyM_endsAs c (fuseDump f c)
  refine ⟨fun _ D' d hrun hd hack => ?_, fun _ D' _ hd => (by cases hd), fun e D' hrun hn => ?_, fun e D' g n hrun hn => ?_⟩
  · cases hd
    exact hok [] D' [] (hdump.trans (runM_bind_ok _ _ _ _ _ hrun)) rfl hack
  · exact herror e D' (hdump.trans (runM_bind_error _ _ _ _ _ hrun)) hn
  · exact hneed e D' g n (hdump.trans (runM_bind_error _ _ _ _ _ hrun)) hn

theorem runM_safetyInject_inv {rivals : List Nat} {D' : DieState} {d : List Byte}
    (h : runM (safetyInject c rivals) D = (.ok d, D')) : d = toLE 4 D.log.nextInj :=
  (runM_startInjection_inv (okField_bind_inv h).2).1

end

/-! ## RFA_CAPTURE -/

theorem toLE_length (n v : Nat) : (toLE n v).length = n := by
  induction n generalizing v with
  | zero => rfl
  | succ n ih => exact congrArg (· + 1) (ih (v / 256))

theorem EvRec.bytes_length (r : EvRec) (die : Nat) : (r.bytes die).length = 32 := by
  unfold EvRec.bytes
  simp [toLE_length]

/-- The records of the log, as a capture spells them. -/
def DieState.logBytes (D : DieState) : List Byte := D.log.ring.flatMap (fun r => r.bytes D.num)

theorem DieState.logBytes_length (D : DieState) : D.logBytes.length = 32 * D.log.ring.length := by
  unfold DieState.logBytes
  rw [List.length_flatMap]
  simp [EvRec.bytes_length, Nat.mul_comm]

/-- What a capture of n bytes writes: the log's records, then bytes that the layout leaves free. -/
def DieState.captured (D : DieState) (n : Nat) : List Byte :=
  D.logBytes.take n ++ (List.range (n - D.logBytes.length)).map (fun i => Config.freeByte (4 * (D.fresh + i) + D.num))

theorem DieState.captured_length (D : DieState) (n : Nat) : (D.captured n).length = n := by
  unfold DieState.captured
  rw [List.length_append, List.length_take, List.length_map, List.length_range]
  omega

theorem DieState.captured_log (D : DieState) (n : Nat) : (D.captured n).take (32 * D.log.ring.length) <+: D.logBytes := by
  rw [← DieState.logBytes_length]
  unfold DieState.captured
  rcases Nat.le_total n D.logBytes.length with hn | hn
  · rw [Nat.sub_eq_zero_of_le hn, List.range_zero, List.map_nil, List.append_nil]
    exact (List.take_prefix _ _).trans (List.take_prefix _ _)
  · rw [List.take_of_length_le hn, List.take_left]

theorem runM_rfaCapture_inv {c : Cmd} {D D' : DieState} {d : List Byte} (h : runM (rfaCapture c) D = (.ok d, D')) :
    d = [] ∧ ∃ D1, runM (paramWrite c.id c.stacked c.ctx (c.p 0 8) (D.captured (c.p 8 4))) D1 = (.ok (), D') ∧
      D1.mem = D.mem := by
  unfold rfaCapture at h
  rw [runM_get_bind] at h
  dsimp only at h
  rw [runM_onD_bind] at h
  obtain ⟨_, E, hwrite, h⟩ := runM_bind_inv h
  cases h
  exact ⟨rfl, _, hwrite, rfl⟩

/-- Settles O31: each command by its field checks and the change it sends, the reports by the bytes they write. -/
theorem makerCommandsAnswer : Obligations.MakerCommandsAnswer := by
  intro s a id rivals c hup D send
  refine ⟨fun hr => ⟨_, onFlash_eq hup (D.runCmd_ready 0x0F00 id c _ hr), D.replyM_endsAs c (fwStage c),
      fun d D' h => runM_fwStage_inv h⟩,
    fun hr hslot => ?_, fun hr hkind hdie htarget hedit => ?_,
    fun hr => ⟨_, onDie_eq hup (D.runCmd_ready 0x0F03 id c _ hr), ?_⟩,
    fun hr => ⟨_, onLog_eq hup (D.runCmd_ready 0x0F04 id c _ hr), D.replyM_endsAs c (safetyInject c rivals),
      fun d D' h => runM_safetyInject_inv c D h⟩,
    fun hr => ⟨_, D.captured (c.p 8 4), onDie_eq hup (D.runCmd_ready 0x0F05 id c _ hr), D.replyM_endsAs c (rfaCapture c),
      D.captured_length _, D.captured_log _, fun d D' h => ?_⟩,
    fun hr hlo hhi => ?_⟩
  · have hans := DieState.runCmd_replyM hr (runM_fwActivate c D hslot) hr.acked
    exact onFlash_eq hup hans
  · have hans := DieState.runCmd_replyM hr (runM_repairEdit c D hkind hdie htarget hedit) hr.acked
    exact onFlash_eq hup hans
  · rw [← hr.id_eq]
    exact D.fuseDump_endsAs c s.pkg.flash
  · rw [← hr.id_eq]
    exact runM_rfaCapture_inv h
  · have hans := DieState.runCmd_replyM hr (runM_anchorSet c D hlo hhi) hr.acked
    exact running_eq hup (congrArg (fun t : State => t.settleFlash.endRevoked) (next_atDie_eq hans))

end Sys2Proof.Machine
end

section
/-! PROOFS. Commits of the bank of instances and the resets of instances (O32). -/

open Sys2Proof

namespace Sys2Proof.Machine

/-- What a change of a running die makes of it where works follow. -/
theorem onWorks_eq {s : State} {a : At} {f : DieState → DieState} {E : DieState} (hup : s.up a) (h : f (s.dieAt a) = E) :
    onWorks a s f = .next (s.put a E).settleWorks :=
  running_eq hup (congrArg State.settleWorks (next_atDie_eq h))

/-! ## Commits (R438, R439) -/

section
variable {D : DieState}

theorem DieState.insCtrl_commits {r : Req} {v : Nat} (hadmit : D.admits r B_INS INS_CTRL true) (hbit : bit v 2 = true) :
    D.insCtrl r v = ((D.touchSession r).ctrlWrite r B_INS v).commitBank := by
  unfold DieState.insCtrl
  rw [DieState.csrDo_admitted _ _ _ _ _ hadmit]
  exact if_pos hbit

theorem DieState.commitBank_refused {code i k : Nat} (h : D.commitCheck = some (code, i, k)) :
    D.commitBank = (D.setReg B_INS INS_COMMIT_STATUS (code + i * 2 ^ 8 + k * 2 ^ 16)).cause B_INS 2 := by
  unfold DieState.commitBank
  rw [h]

theorem DieState.commitBank_made (h : D.commitCheck = none) :
    let gone := (List.range 8).filter (fun i => insEnabled D.ins.active i && !insEnabled D.ins.staged i)
    let X := (gone.foldl (fun D i => D.beginReset i true) D).setReg B_INS INS_COMMIT_STATUS 0
    let Y : DieState := { X with
      ins := { X.ins with active := X.ins.staged, commitBusy := !gone.isEmpty }
      toFlash := X.toFlash ++ [.instances X.num (memRead X.ins.staged 0 3072)] }
    D.commitBank = if gone = [] then Y.cause B_INS 2 else Y := by
  intro gone X Y
  unfold DieState.commitBank
  rw [h]
  dsimp only
  by_cases hgone : gone = []
  · rw [if_pos hgone]
    exact if_pos (List.isEmpty_iff.mpr hgone)
  · rw [if_neg hgone]
    exact if_neg (fun he => hgone (List.isEmpty_iff.mp he))

/-! ## Requests for a reset (R449) -/

section
variable {r : Req} {v : Nat} (hadmit : D.admits r B_INS INS_RESET true)
include hadmit

theorem DieState.insReset_installer (hrole : 1 ≤ (D.touchSession r).roleOf r) :
    D.insReset r v = ((List.range 8).filter (bit v)).foldl (fun D i => D.beginReset i) (D.touchSession r) := by
  unfold DieState.insReset
  rw [DieState.csrDo_admitted _ _ _ _ _ hadmit]
  exact if_pos hrole

theorem DieState.insReset_operator (hrole : (D.touchSession r).roleOf r = 0) :
    let T := D.touchSession r
    let other := v % 256 - (if bit v r.inst = true then 2 ^ r.inst else 0)
    let X := if other = 0 then T else T.event
      { cls := 7, code := 0x02, inst := some r.inst, loc := other, ident := refusalIdent r T.num 4 true }
    D.insReset r v = if bit v r.inst = true then X.beginReset r.inst else X := by
  intro T other X
  unfold DieState.insReset
  rw [DieState.csrDo_admitted _ _ _ _ _ hadmit]
  exact if_neg (by omega)

end

end

/-! ## Regions (R378, R438, R452) -/

/-- The bytes of one stack, and where a view of it begins (R30). -/
def stackBytes : Nat := stackGiB * 2 ^ 30
def viewStart (view : Nat) : Nat := [0, 0x0040_0000_0000, 0x0050_0000_0000].getD view 0

theorem Region.populated_range {r : Region} (h : r.populated = true) (hsize : r.size ≠ 0) :
    viewStart r.view ≤ r.base ∧ r.base + r.size ≤ viewStart r.view + if r.view = 0 then 2 * stackGiB * 2 ^ 30 else stackBytes := by
  unfold Region.populated at h
  dsimp only at h
  rw [beq_eq_false_iff_ne.mpr hsize, Bool.false_or, Bool.and_eq_true, decide_eq_true_eq, decide_eq_true_eq] at h
  exact h

theorem Region.extents_interleaved {r : Region} (hsize : r.size ≠ 0) (hv : r.view = 0) :
    r.extents = [(0, r.base / 2, min (r.size / 2) (stackBytes - r.base / 2)),
      (1, r.base / 2, min (r.size / 2) (stackBytes - r.base / 2))] := by
  unfold Region.extents
  exact (if_neg hsize).trans (if_pos hv)

/-- A region of one stack's view, from the start of that view on. -/
theorem Region.extents_single {r : Region} (hsize : r.size ≠ 0) (hv : r.view = 1 ∨ r.view = 2) :
    r.extents = [(r.view - 1, r.base - viewStart r.view,
      min (r.size - (viewStart r.view - r.base)) (stackBytes - (r.base - viewStart r.view)))] := by
  unfold Region.extents
  rcases hv with hv | hv
  · rw [hv]
    exact (if_neg hsize).trans rfl
  · rw [hv]
    exact (if_neg hsize).trans rfl

/-- A region in the populated range of its view covers the stack bytes at its own place. -/
theorem Region.extents_populated {r : Region} (h : r.populated = true) (hsize : r.size ≠ 0) :
    (r.view = 1 ∨ r.view = 2 → r.extents = [(r.view - 1, r.base - viewStart r.view, r.size)]) ∧
    (r.view = 0 → r.extents = [(0, r.base / 2, r.size / 2), (1, r.base / 2, r.size / 2)]) := by
  obtain ⟨hlo, hhi⟩ := r.populated_range h hsize
  refine ⟨fun hv => ?_, fun hv => ?_⟩
  · rw [if_neg (by omega)] at hhi
    rw [Region.extents_single hsize hv, Nat.sub_eq_zero_of_le hlo, Nat.sub_zero, Nat.min_eq_left (by omega)]
  · have hstart : viewStart r.view = 0 := by rw [hv]; rfl
    rw [if_pos hv, hstart] at hhi
    have hfits : r.size / 2 ≤ stackBytes - r.base / 2 := by
      unfold stackBytes
      omega
    rw [Region.extents_interleaved hsize hv, Nat.min_eq_left hfits]

/-- Every extent of a region lies in one of the two stacks. -/
theorem Region.extents_in_stack {r : Region} {e : Nat × Nat × Nat} (h : e ∈ r.extents) :
    e.1 < 2 ∧ (e.2.2 = 0 ∨ e.2.1 + e.2.2 ≤ 2 ^ 36) := by
  have hcap : stackGiB * 2 ^ 30 ≤ 2 ^ 36 := by
    have := stackGiB_range
    omega
  have hpart : ∀ start len : Nat, min len (stackGiB * 2 ^ 30 - start) = 0 ∨
      start + min len (stackGiB * 2 ^ 30 - start) ≤ 2 ^ 36 := by omega
  unfold Region.extents at h
  dsimp only at h
  split at h
  · exact absurd h List.not_mem_nil
  · split at h
    · rcases List.mem_pair.mp h with rfl | rfl
      · exact ⟨Nat.zero_lt_two, hpart _ _⟩
      · exact ⟨Nat.one_lt_two, hpart _ _⟩
    · obtain rfl := List.mem_singleton.mp h
      refine ⟨?_, hpart _ _⟩
      dsimp only
      split
      · decide
      · decide

theorem memGet_memZero (m : List (Nat × Byte)) (a n k : Nat) :
    memGet (memZero m a n) k = if a ≤ k ∧ k < a + n then 0 else memGet m k := by
  have hkeep : (fun e : Nat × Byte => decide (e.1 < a) || decide (a + n ≤ e.1)) =
      fun e => !(decide (a ≤ e.1) && decide (e.1 < a + n)) := by
    funext e
    rw [Bool.not_and, ← decide_not, ← decide_not, Bool.eq_iff_iff]
    simp
  unfold memGet memZero tabGet
  rw [hkeep, tabGetF_filter (fun _ => (0 : Byte)) (fun k => decide (a ≤ k) && decide (k < a + n)) m k]
  simp only [Bool.and_eq_true, decide_eq_true_eq]

/-- The memory with one extent zeroed, in whole granules. -/
def DieState.zeroExtent (D : DieState) (e : Nat × Nat × Nat) : DieState :=
  { D with mem := { D.mem with
      bytes := memZero D.mem.bytes (stackKey e.1 e.2.1) e.2.2
      grans := D.mem.grans.filter (fun g => g.1 < stackKey e.1 e.2.1 / 32 || (stackKey e.1 e.2.1 + e.2.2) / 32 ≤ g.1) } }

theorem DieState.zeroExtents_ins (l : List (Nat × Nat × Nat)) (D : DieState) : (l.foldl DieState.zeroExtent D).ins = D.ins :=
  foldl_keeps DieState.ins DieState.zeroExtent (fun _ _ => rfl) l D

/-- A byte of one of the extents reads zero, and every other as before. -/
theorem DieState.zeroExtents_byte (l : List (Nat × Nat × Nat)) (D : DieState) (k : Nat) :
    ((∃ e ∈ l, stackKey e.1 e.2.1 ≤ k ∧ k < stackKey e.1 e.2.1 + e.2.2) →
      memGet (l.foldl DieState.zeroExtent D).mem.bytes k = 0) ∧
    ((∀ e ∈ l, ¬ (stackKey e.1 e.2.1 ≤ k ∧ k < stackKey e.1 e.2.1 + e.2.2)) →
      memGet (l.foldl DieState.zeroExtent D).mem.bytes k = memGet D.mem.bytes k) := by
  have stays : ∀ (l : List (Nat × Nat × Nat)) (D : DieState), memGet D.mem.bytes k = 0 →
      memGet (l.foldl DieState.zeroExtent D).mem.bytes k = 0 := by
    intro l
    induction l with
    | nil => exact fun _ h => h
    | cons e l ih =>
      refine fun D h => ih (D.zeroExtent e) ?_
      refine (memGet_memZero _ _ _ _).trans ?_
      rw [h, ite_self]
  induction l generalizing D with
  | nil => exact ⟨fun ⟨_, h, _⟩ => absurd h List.not_mem_nil, fun _ => rfl⟩
  | cons e l ih =>
    have hstep : memGet (D.zeroExtent e).mem.bytes k =
        if stackKey e.1 e.2.1 ≤ k ∧ k < stackKey e.1 e.2.1 + e.2.2 then 0 else memGet D.mem.bytes k :=
      memGet_memZero _ _ _ _
    refine ⟨fun ⟨x, hx, hin⟩ => ?_, fun hout => ?_⟩
    · rcases List.mem_cons.mp hx with rfl | hx
      · exact stays l _ (hstep.trans (if_pos hin))
      · exact (ih (D.zeroExtent e)).1 ⟨x, hx, hin⟩
    · exact ((ih (D.zeroExtent e)).2 (fun x hx => hout x (List.mem_cons_of_mem _ hx))).trans
        (hstep.trans (if_neg (hout e List.mem_cons_self)))

/-- The region that a scrub covers. -/
def scrubbed (x : Scrub) : Region := { base := x.base, size := x.size, view := x.view, rights := 0, shared := 0 }

section
variable {D : DieState} {i k : Nat} {x : Scrub} (h : D.ins.scrubs.find? (fun s => s.inst == i && s.index == k) = some x)
include h

theorem DieState.scrubRegion_leaves : (D.scrubRegion i k).ins.scrubs = D.ins.scrubs.erase x ∧
    (D.scrubRegion i k).mem = ((scrubbed x).extents.foldl DieState.zeroExtent D).mem := by
  have hins := DieState.zeroExtents_ins (scrubbed x).extents D
  unfold DieState.scrubRegion
  rw [h]
  dsimp only
  have hpart : ∀ E : DieState, E.ins.scrubs = D.ins.scrubs.erase x →
      (if E.ins.scrubs.isEmpty then E.cause B_INS 4 else E).ins.scrubs = D.ins.scrubs.erase x ∧
      (if E.ins.scrubs.isEmpty then E.cause B_INS 4 else E).mem = E.mem := fun E hE => by
    split
    · exact ⟨(congrArg InsState.scrubs (DieState.cause_ins E B_INS 4)).trans hE, DieState.cause_mem E B_INS 4⟩
    · exact ⟨hE, rfl⟩
  generalize hF : (scrubbed x).extents.foldl DieState.zeroExtent D = F at hins
  have hE := hpart { F with ins := { F.ins with scrubs := F.ins.scrubs.erase x } }
    (congrArg (fun y : InsState => y.scrubs.erase x) hins)
  subst hF
  exact hE

end

/-- Settles O32: a commit by its checks, a request by the role, a scrub by the extents of its region. -/
theorem instancesCommitAndReset : Obligations.InstancesCommitAndReset := by
  refine ⟨?_, ?_, ?_⟩
  · intro s a r v hup hadmit hbit T
    have hmade : ∀ E, T.commitBank = E → exec (.insCommit a r v) s = .next (s.put a E).settleFlash.settleWorks := fun E hE =>
      running_eq hup (congrArg (fun t : State => t.settleFlash.settleWorks)
        (next_atDie_eq ((DieState.insCtrl_commits hadmit hbit).trans hE)))
    exact ⟨fun code i k h => hmade _ (DieState.commitBank_refused h), fun h => hmade _ (DieState.commitBank_made h)⟩
  · intro s a r v i k hup D T named
    refine ⟨fun hadmit hrole => onWorks_eq hup (DieState.insReset_installer hadmit hrole),
      fun hadmit hrole => onWorks_eq hup (DieState.insReset_operator hadmit hrole), fun x hx => ?_⟩
    intro extents
    obtain ⟨hscrubs, hmem⟩ := DieState.scrubRegion_leaves hx
    refine ⟨_, onDie_eq hup rfl, hscrubs, fun n o ho hin => ?_, fun n o hn ho hout => ?_⟩
    · obtain ⟨e, he, rfl, hlo, hhi⟩ := hin
      refine (congrArg (fun m : MemState => memGet m.bytes _) hmem).trans
        ((DieState.zeroExtents_byte (scrubbed x).extents D _).1 ⟨e, he, ?_⟩)
      unfold stackKey
      omega
    · refine (congrArg (fun m : MemState => memGet m.bytes _) hmem).trans
        ((DieState.zeroExtents_byte (scrubbed x).extents D _).2 fun e he hin => ?_)
      obtain ⟨hstack, hlen⟩ := Region.extents_in_stack he
      have hout := hout e he
      unfold stackKey at hin
      omega
  · intro r h
    refine ⟨fun hv hsize => ?_, fun hv hsize => ?_, fun hv hsize => (Region.extents_populated h hsize).2 hv⟩
    · have hext := (Region.extents_populated h hsize).1 (.inl hv)
      rw [hv] at hext
      exact hext
    · have hext := (Region.extents_populated h hsize).1 (.inr hv)
      rw [hv] at hext
      exact hext

end Sys2Proof.Machine
end

section
/-! PROOFS. The safety discrete outputs (O33). -/

open Sys2Proof

namespace Sys2Proof.Machine

/-! ## What driving the outputs changes (R540) -/

/-- E differs from D only in its two outputs and in what left on them. -/
def DieState.DrivenFrom (D E : DieState) : Prop :=
  E = { D with saf := { D.saf with sdoA := E.saf.sdoA, sdoB := E.saf.sdoB }, outs := E.outs }

theorem DieState.DrivenFrom.trans {D E F : DieState} (h : D.DrivenFrom E) (h' : E.DrivenFrom F) : D.DrivenFrom F := by
  unfold DieState.DrivenFrom at h h' ⊢
  refine h'.trans ?_
  rw [h]

theorem DieState.onSdo_driven (D : DieState) (w : Nat) (f : Sdo → Sdo) : D.DrivenFrom (D.onSdo w f) := by
  unfold DieState.onSdo DieState.onSaf DieState.DrivenFrom
  by_cases h : w = 0
  · simp only [if_pos h]
  · simp only [if_neg h]

theorem DieState.setSdo_driven (D : DieState) (w : Nat) (on : Bool) : D.DrivenFrom (D.setSdo w on) := by
  unfold DieState.setSdo
  dsimp only
  split
  · rfl
  · split
    · exact D.onSdo_driven w _
    · exact (D.onSdo_driven w _).trans rfl

theorem DieState.driveSdo_driven (D : DieState) : D.DrivenFrom D.driveSdo :=
  (D.setSdo_driven 0 _).trans (DieState.setSdo_driven _ 1 _)

/-! ## One output -/

theorem DieState.sdo_out (D : DieState) (w : Nat) (o : Output) : (D.out o).sdo w = D.sdo w := rfl

theorem DieState.sdo_onSdo_same (D : DieState) (w : Nat) (f : Sdo → Sdo) : (D.onSdo w f).sdo w = f (D.sdo w) := by
  unfold DieState.sdo DieState.onSdo DieState.onSaf
  by_cases h : w = 0
  · simp only [if_pos h]
  · simp only [if_neg h]

theorem DieState.sdo_onSdo_other (D : DieState) {w v : Nat} (h : w = 0 ↔ v ≠ 0) (f : Sdo → Sdo) :
    (D.onSdo w f).sdo v = D.sdo v := by
  unfold DieState.sdo DieState.onSdo DieState.onSaf
  by_cases hw : w = 0
  · simp only [if_pos hw, if_neg (h.mp hw)]
  · simp only [if_neg hw, if_pos (not_not.mp (fun hv => hw (h.mpr hv)))]

/-- An output that is switched off is off. -/
theorem DieState.setSdo_off (D : DieState) (w : Nat) : ((D.setSdo w false).sdo w).on = false := by
  unfold DieState.setSdo
  dsimp only
  by_cases h : (D.sdo w).on = false
  · rw [if_pos (beq_iff_eq.mpr h), h]
  · rw [if_neg (fun he => h (beq_iff_eq.mp he))]
    split
    · rw [DieState.sdo_onSdo_same D w]
    · rw [DieState.sdo_out, DieState.sdo_onSdo_same D w]

theorem DieState.setSdo_other (D : DieState) {w v : Nat} (h : w = 0 ↔ v ≠ 0) (on : Bool) : (D.setSdo w on).sdo v = D.sdo v := by
  unfold DieState.setSdo
  dsimp only
  split
  · rfl
  · split
    · exact D.sdo_onSdo_other h _
    · exact (DieState.sdo_out _ v _).trans (D.sdo_onSdo_other h _)

/-- With both outputs switched off, both are off. -/
theorem DieState.sdosOff (D : DieState) : (((D.setSdo 0 false).setSdo 1 false).sdo 0).on = false ∧
    (((D.setSdo 0 false).setSdo 1 false).sdo 1).on = false := by
  rw [DieState.setSdo_other _ (by decide : (1 = 0) ↔ (0 ≠ 0))]
  exact ⟨D.setSdo_off 0, DieState.setSdo_off _ 1⟩

/-- Outputs that are latched off are not driven. -/
theorem DieState.driveSdo_latched {D : DieState} (h : D.saf.sdoLatched = true) :
    D.driveSdo = (D.setSdo 0 false).setSdo 1 false := by
  have hoff : D.sdoAllowed = false := by
    unfold DieState.sdoAllowed
    simp [h]
  unfold DieState.driveSdo
  rw [hoff]

/-! ## Pulses and readbacks (R541, R542) -/

section
variable {D : DieState} {k : Nat}

theorem DieState.testPulse_rests (h : (D.sdo k).on = false ∨ D.now < (D.sdo k).lastPulse + 100000000) : D.testPulse k = D := by
  unfold DieState.testPulse
  refine if_neg fun hc => ?_
  simp only [Bool.and_eq_true, decide_eq_true_eq] at hc
  obtain ⟨⟨hon, _⟩, hdue⟩ := hc
  exact h.elim (fun h => Bool.false_ne_true (h.symm.trans hon)) (fun h => Nat.not_le.mpr h hdue)

theorem DieState.testPulse_starts (hon : (D.sdo k).on = true) (hpulse : (D.sdo k).pulse = none)
    (hdue : (D.sdo k).lastPulse + 100000000 ≤ D.now) : D.testPulse k =
      (D.onSdo k (fun x => { x with pulse := some D.now, edge := D.now, lastPulse := D.now })).out (.sdo k false) := by
  unfold DieState.testPulse
  exact if_pos (by simp [hon, hpulse, hdue])

theorem DieState.pulseEnd_ends {t : Nat} (h : (D.sdo k).pulse = some t) (hlong : t + 400000 ≤ D.now) :
    D.pulseEnd k = (D.onSdo k (fun x => { x with pulse := none, edge := D.now })).out (.sdo k true) := by
  unfold DieState.pulseEnd
  simp only [h]
  exact if_neg (Nat.not_lt.mpr hlong)

/-- The level that an output is expected to read back, and its case where it does not (R541). -/
def Sdo.wanted (x : Sdo) : Bool := x.on && x.pulse.isNone
def Sdo.faultCase (x : Sdo) : Nat := if x.wanted then 1 else if x.on then 2 else 3

/-- The die that has read back a level that its output should not have. -/
def DieState.outputFault (D : DieState) (k case : Nat) : DieState :=
  (((((D.onSaf (fun f => { f with sdoLatched := true, sdoCase := case, sdoOutput := k })).count32 B_SAF SAF_SDO_FAULTS).cause
    B_SAF 4).event { cls := 12, code := 0x05, island := 0, ident := k, cause := case })).driveSdo

/-- Without an injection on the output, its readback is judged by the time since its last edge and by its level. -/
theorem DieState.readback_eq (hinj : ∀ e ∈ D.log.injections, e.2.kind ≠ 6 ∨ e.2.target ≠ k) (level : Bool) :
    D.readback k level = if D.now < (D.sdo k).edge + 100000 ∨ level = (D.sdo k).wanted then
        D.onSdo k (fun x => { x with readback := level })
      else (D.onSdo k (fun x => { x with readback := level })).outputFault k (D.sdo k).faultCase := by
  have hnone : D.log.injections.find? (fun e => e.2.kind == 6 && e.2.target == k) = none := by
    rw [List.find?_eq_none]
    intro e he
    simpa [imp_iff_not_or] using hinj e he
  have hsdo := D.sdo_onSdo_same k (fun x => { x with readback := level })
  unfold DieState.readback
  simp only [hnone, Option.isSome_none, Bool.false_eq_true, if_false, hsdo]
  exact rfl

theorem DieState.outputFault_latches (D : DieState) (k case : Nat) :
    (D.outputFault k case).saf.sdoLatched = true ∧ ((D.outputFault k case).sdo 0).on = false ∧
    ((D.outputFault k case).sdo 1).on = false ∧ (D.outputFault k case).saf.sdoOutput = k ∧
    (D.outputFault k case).saf.sdoCase = case := by
  unfold DieState.outputFault
  generalize hE : ((((D.onSaf (fun f => { f with sdoLatched := true, sdoCase := case, sdoOutput := k })).count32 B_SAF
    SAF_SDO_FAULTS).cause B_SAF 4).event { cls := 12, code := 0x05, island := 0, ident := k, cause := case }) = E
  have hsaf : E.saf = { D.saf with sdoLatched := true, sdoCase := case, sdoOutput := k } := by
    rw [← hE, DieState.event_saf, DieState.cause_saf, DieState.count32_saf]
    rfl
  have hdriven := E.driveSdo_driven
  have hlatched : E.saf.sdoLatched = true := by rw [hsaf]
  obtain ⟨h0, h1⟩ := E.sdosOff
  rw [← DieState.driveSdo_latched hlatched] at h0 h1
  unfold DieState.DrivenFrom at hdriven
  refine ⟨?_, h0, h1, ?_, ?_⟩
  · rw [hdriven]; exact hlatched
  · rw [hdriven, hsaf]
  · rw [hdriven, hsaf]

end

/-- Settles O33: pulses and readbacks by the state of the output, the latch by what drives both outputs. -/
theorem outputsPulseLatchAndClear : Obligations.OutputsPulseLatchAndClear := by
  intro s a w id level c hup D k
  refine ⟨fun h => onDie_eq hup (DieState.testPulse_rests h),
    fun hon hpulse hdue => onDie_eq hup (DieState.testPulse_starts hon hpulse hdue),
    fun t hpulse hlong => onDie_eq hup (DieState.pulseEnd_ends hpulse hlong), fun hinj => ?_, fun hr => ?_⟩
  · intro E want
    have hread : D.readback k level = _ := DieState.readback_eq hinj level
    refine ⟨fun h => onDie_eq hup (hread.trans (if_pos h.symm)), fun hlevel hedge =>
      ⟨s.put a (E.outputFault k (D.sdo k).faultCase), onDie_eq hup (hread.trans (if_neg ?_)), ?_⟩⟩
    · exact fun h => h.elim (Nat.not_lt.mpr hedge) hlevel
    · rw [State.die_put]
      exact E.outputFault_latches k (D.sdo k).faultCase
  · have hdriven := (D.onSaf (fun x => { x with sdoLatched := false })).driveSdo_driven
    have hrun : runM (outputClear c) D = (.ok [], (D.onSaf (fun x => { x with sdoLatched := false })).driveSdo) := rfl
    have hack : ((D.onSaf (fun x => { x with sdoLatched := false })).driveSdo).acked id = true :=
      (DieState.acked_congr id (congrArg (fun E : DieState => E.cmd.cmds) hdriven)).trans hr.acked
    have hans := DieState.runCmd_replyM hr hrun hack
    exact onDie_eq hup hans

end Sys2Proof.Machine
end

section
/-! PROOFS. The safety island's modes and commands (O34). -/

open Sys2Proof

namespace Sys2Proof.Machine

/-! ## Commands of the package -/

section
variable {s : State} {a : At} {op id : Nat} {c : Cmd} {body : Cmd → State → State}

/-- A ready command acts on the package as its die finds it. -/
theorem State.runCmd_ready (hr : (s.dieAt a).readyCmd op id c) : s.runCmd a op id body = body c (s.put a (s.dieAt a)) := by
  obtain ⟨hc, hop, hphase, haudit, _⟩ := hr
  unfold State.runCmd
  rw [State.atDie_id]
  simp only [State.die_put, hc, hop, hphase, haudit, and_self, if_true, Bool.false_eq_true, if_false]

theorem onCmd_eq {t : State} (hup : s.up a) (hr : (s.dieAt a).readyCmd op id c) (h : body c (s.put a (s.dieAt a)) = t) :
    onCmd a op id s body = .next t.settleFlash :=
  running_eq hup (congrArg State.settleFlash ((State.runCmd_ready hr).trans h))

end

/-! ## What the island's changes leave of the commands -/

theorem DieState.DrivenFrom.cmd_eq {D E : DieState} (h : D.DrivenFrom E) : E.cmd = D.cmd := by
  unfold DieState.DrivenFrom at h
  rw [h]

theorem DieState.DrivenFrom.now_eq {D E : DieState} (h : D.DrivenFrom E) : E.now = D.now := by
  unfold DieState.DrivenFrom at h
  rw [h]

theorem DieState.toFallback_now (D : DieState) : D.toFallback.now = D.now := by
  unfold DieState.toFallback
  dsimp only
  split
  · rfl
  · split
    · exact DieState.count_now _ _ _ _ _
    · exact DieState.count_now _ _ _ _ _

theorem DieState.toFallback_cmd (D : DieState) : D.toFallback.cmd = D.cmd := by
  unfold DieState.toFallback
  dsimp only
  split
  · rfl
  · split
    · exact DieState.count_cmd _ _ _ _ _
    · exact DieState.count_cmd _ _ _ _ _

theorem DieState.remerge_cmd (D : DieState) : D.remerge.cmd = D.cmd := (DieState.driveSdo_driven _).cmd_eq

/-! ## Service mode (R545) -/

/-- The die in service mode for some minutes. -/
def DieState.inService (D : DieState) (minutes : Nat) : DieState :=
  (((D.toFallback.onSaf (fun x => { x with service := some (D.now + minutes * 60000000000) })).cause B_SAF 5).event
    { cls := 12, code := 0x06, island := 0, cause := 1 }).remerge

theorem DieState.inService_cmd (D : DieState) (minutes : Nat) : (D.inService minutes).cmd = D.cmd := by
  unfold DieState.inService
  rw [DieState.remerge_cmd, DieState.event_cmd, DieState.cause_cmd]
  exact D.toFallback_cmd

theorem runM_serviceEnter {c : Cmd} {D : DieState} (hlo : 1 ≤ c.p 0 2) (hhi : c.p 0 2 ≤ 480) :
    runM (serviceEnter c) D = (.ok [], if (D.inService (c.p 0 2)).num = 0 then (D.inService (c.p 0 2)).out .ibi
      else D.inService (c.p 0 2)) := by
  unfold serviceEnter
  rw [runM_okField_bind _ _ _ (by simp [hlo, hhi]), runM_onD_bind]
  dsimp only
  rw [DieState.toFallback_now]
  exact rfl

section
variable {s : State} {d : Die} {c : Cmd}

theorem State.serviceExit_in {e : Nat} (h : (s.die d).saf.service = some e) :
    s.serviceExit d c = (s.replyAt d c .ok).leaveService d := by
  unfold State.serviceExit
  exact if_neg (by rw [h]; exact Bool.false_ne_true)

theorem State.serviceExit_out (h : (s.die d).saf.service = none) : s.serviceExit d c = s.replyAt d c .refusedServiceMode := by
  unfold State.serviceExit
  exact if_pos (by rw [h]; rfl)

theorem State.serviceExpire_over {a : At} {e : Nat} (h : (s.dieAt a).saf.service = some e) (hover : e ≤ (s.dieAt a).now) :
    s.serviceExpire a = (s.put a (s.dieAt a)).leaveService a.die := by
  unfold State.serviceExpire
  rw [State.atDie_id]
  simp only [State.die_put, h]
  exact if_pos hover

end

/-! ## The island's own fault and restart (R529) -/

theorem DieState.islandFault_stops {D : DieState} (h : D.saf.running = true) : D.islandFault.saf.running = false ∧
    D.islandFault.saf.down = some D.now ∧ D.islandFault.saf.sdoLatched = true ∧ (D.islandFault.sdo 0).on = false ∧
    (D.islandFault.sdo 1).on = false ∧ D.islandFault.saf.network = false ∧ D.islandFault.saf.service = D.saf.service := by
  have hdriven := (D.setSdo_driven 0 false).trans (DieState.setSdo_driven _ 1 false)
  obtain ⟨h0, h1⟩ := D.sdosOff
  have hnow : ((D.setSdo 0 false).setSdo 1 false).now = D.now := hdriven.now_eq
  have hrun : ¬ (!D.saf.running) = true := by rw [h]; exact Bool.false_ne_true
  unfold DieState.islandFault
  rw [if_neg hrun]
  exact ⟨rfl, congrArg some hnow, rfl, h0, h1, rfl, rfl⟩

theorem DieState.islandRestart_runs {D : DieState} {t : Nat} (h : D.saf.down = some t) :
    let E := D.onSaf (fun x => { x with running := true, down := none })
    let F := ({ E with foe := { E.foe with states := [] } } : DieState).raiseHeld
    D.islandRestart = if F.netOn then F.safReset else F := by
  intro E F
  unfold DieState.islandRestart
  rw [h]

/-- The die with the latch of its restart cleared (R531). -/
def DieState.latchCleared (D : DieState) : DieState :=
  if D.saf.latched = true then
    D.onSaf (fun x => { x with latched := false, resets := [], atFrame := true, retried := false }) else D

theorem DieState.latchCleared_cmd (D : DieState) : D.latchCleared.cmd = D.cmd := by
  unfold DieState.latchCleared
  split
  · rfl
  · rfl

/-- Settles O34: the fault and the restart by the island's state, the commands by what their actions do. -/
theorem islandStopsRestartsAndServes : Obligations.IslandStopsRestartsAndServes := by
  intro s a id c hup D
  refine ⟨fun hrun => ⟨s.put a D.islandFault, onDie_eq hup rfl, ?_⟩, fun t0 hdown =>
    onWorks_eq hup (DieState.islandRestart_runs hdown), fun hr hlo hhi => ?_, fun e hr hservice => ?_,
    fun e hservice hover => running_eq hup (State.serviceExpire_over hservice hover), fun hr hservice => ?_, fun hr => ?_,
    fun hr => ?_⟩
  · rw [State.die_put]
    exact ⟨rfl, DieState.islandFault_stops hrun⟩
  · intro E F
    have hack : (if (D.inService (c.p 0 2)).num = 0 then (D.inService (c.p 0 2)).out .ibi
        else D.inService (c.p 0 2)).acked id = true := by
      have hcmd := D.inService_cmd (c.p 0 2)
      refine (DieState.acked_congr id ?_).trans hr.acked
      split
      · exact congrArg CmdState.cmds hcmd
      · exact congrArg CmdState.cmds hcmd
    have hans := DieState.runCmd_replyM hr (runM_serviceEnter hlo hhi) hack
    exact onDie_eq hup hans
  · exact onCmd_eq hup hr (State.serviceExit_in (by rw [State.die_put]; exact hservice))
  · exact onCmd_eq hup hr (State.serviceExit_out (by rw [State.die_put]; exact hservice))
  · have hrun : runM (latchClear c) D = (.ok [], D.latchCleared) := rfl
    have hack : D.latchCleared.acked id = true :=
      (DieState.acked_congr id (congrArg CmdState.cmds D.latchCleared_cmd)).trans hr.acked
    have hans := DieState.runCmd_replyM hr hrun hack
    exact onDie_eq hup hans
  · have hrun : runM (safetyStatus c) D = (.ok (toLE 1 D.safMode ++ toLE 1 (b2n D.saf.network) ++ toLE 1 D.saf.clean ++
      toLE 1 0 ++ toLE 4 D.saf.active ++ toLE 4 D.sdoState), D) := rfl
    have hans := DieState.runCmd_replyM hr hrun hr.acked
    exact onDie_eq hup hans

end Sys2Proof.Machine
end

section
/-! PROOFS. Doubts, results, merges and resets (O35). -/

open Sys2Proof

namespace Sys2Proof.Machine

/-! ## Bit masks -/

theorem land_add_ldiff (a b : Nat) : (a &&& b) + Nat.ldiff a b = a := by
  induction a using Nat.binaryRec generalizing b with
  | zero => simp [Nat.ldiff]
  | bit x a ih =>
    rw [← Nat.bit_bodd_div2 b, Nat.land_bit, Nat.ldiff_bit, Nat.bit_val, Nat.bit_val, Nat.bit_val]
    have := ih b.div2
    cases x <;> cases b.bodd <;> simp <;> omega

theorem bit_andNot (a b i : Nat) : bit (andNot a b) i = (bit a i && !bit b i) := by
  have h : andNot a b = Nat.ldiff a b := by
    have := land_add_ldiff a b
    show a - (a &&& b) = _
    omega
  rw [h, bit_eq_testBit, bit_eq_testBit, bit_eq_testBit, Nat.testBit_ldiff]

theorem bit_orN (a b i : Nat) : bit (orN a b) i = (bit a i || bit b i) := by
  rw [bit_eq_testBit, bit_eq_testBit, bit_eq_testBit]
  exact Nat.testBit_or a b i

theorem bit_two_pow (k i : Nat) : bit (2 ^ k) i = decide (k = i) := by
  rw [bit_eq_testBit, Nat.testBit_two_pow]

/-- The bits of a mask that further bits join. -/
theorem bit_foldl_orN {α : Type} (f : α → Nat) (l : List α) (m i : Nat) :
    bit (l.foldl (fun m x => orN m (2 ^ f x)) m) i = (bit m i || l.any (fun x => f x == i)) := by
  induction l generalizing m with
  | nil => rw [List.foldl_nil, List.any_nil, Bool.or_false]
  | cons x l ih =>
    rw [List.foldl_cons, ih, bit_orN, bit_two_pow, List.any_cons, Bool.or_assoc]
    rfl

theorem bit_bitMask (l : List Nat) (i : Nat) : bit (bitMask l) i = true ↔ i ∈ l := by
  have hfold : bit (l.foldl (fun m c => orN m (2 ^ c)) 0) i = (bit 0 i || l.any (fun x => x == i)) := bit_foldl_orN id l 0 i
  rw [bitMask, hfold, show bit 0 i = false by rw [bit_eq_testBit, Nat.zero_testBit], Bool.false_or]
  simp

/-! ## Taking doubts (R526-R528) -/

section
variable (D : DieState)

/-- E differs from D, in the doubts and the island, only in what a restart of the network path keeps. -/
def DieState.LaunchesOf (D E : DieState) : Prop := E.doubts = D.doubts ∧ E.saf =
  { D.saf with replies := E.saf.replies, launches := E.saf.launches, atFrame := E.saf.atFrame, retried := E.saf.retried }

theorem DieState.LaunchesOf.trans {D E F : DieState} (h : D.LaunchesOf E) (h' : E.LaunchesOf F) : D.LaunchesOf F := by
  obtain ⟨hdoubts, hsaf⟩ := h
  obtain ⟨hdoubts', hsaf'⟩ := h'
  refine ⟨hdoubts'.trans hdoubts, hsaf'.trans ?_⟩
  rw [hsaf]

theorem DieState.restartFailed_launches : D.LaunchesOf D.restartFailed := by
  unfold DieState.restartFailed DieState.LaunchesOf
  dsimp only
  split
  · rw [DieState.event_doubts, DieState.event_saf]
    exact ⟨rfl, rfl⟩
  · exact ⟨rfl, rfl⟩

theorem DieState.settleLaunches_keeps : D.LaunchesOf D.settleLaunches := by
  unfold DieState.settleLaunches
  dsimp only
  have hfirst : ∀ f : SafState → List (Nat × Nat × Bool), D.LaunchesOf (D.onSaf (fun x => { x with replies := f x })) :=
    fun _ => ⟨rfl, rfl⟩
  split
  · exact (hfirst _).trans (DieState.restartFailed_launches _)
  · exact ⟨rfl, rfl⟩

/-- One source of doubt is recorded and active. -/
def DieState.raiseDoubt (D : DieState) (d : Nat × Nat) : DieState :=
  let D := D.setReg B_SAF SAF_DOUBT_SEEN (orN (D.reg B_SAF SAF_DOUBT_SEEN) (2 ^ (d.1 - 1)))
  let D := D.setReg64 B_SAF SAF_LAST_DOUBT_TIME D.now
  let D := D.setReg B_SAF SAF_LAST_DOUBT (d.1 % 256 + (if d.1 = 1 then d.2 % 256 * 256 else 0))
  let D := (D.cause B_SAF 0).event { cls := 12, code := 0x01, island := 0, cause := d.1 }
  D.onSaf (fun x => { x with active := orN x.active (2 ^ (d.1 - 1)), dirty := true })

theorem DieState.raiseDoubt_saf (d : Nat × Nat) : (D.raiseDoubt d).doubts = D.doubts ∧
    (D.raiseDoubt d).saf = { D.saf with active := orN D.saf.active (2 ^ (d.1 - 1)), dirty := true } := by
  unfold DieState.raiseDoubt DieState.onSaf
  dsimp only
  rw [DieState.event_saf, DieState.cause_saf, DieState.event_doubts, DieState.cause_doubts]
  exact ⟨rfl, rfl⟩

theorem DieState.raiseDoubts_saf (l : List (Nat × Nat)) : (l.foldl DieState.raiseDoubt D).doubts = D.doubts ∧
    (l.foldl DieState.raiseDoubt D).saf = { D.saf with
      active := l.foldl (fun m d => orN m (2 ^ (d.1 - 1))) D.saf.active, dirty := D.saf.dirty || !l.isEmpty } := by
  induction l generalizing D with
  | nil =>
    refine ⟨rfl, ?_⟩
    rw [List.foldl_nil, List.foldl_nil, List.isEmpty_nil, Bool.not_true, Bool.or_false]
  | cons d l ih =>
    obtain ⟨hdoubts, hsaf⟩ := D.raiseDoubt_saf d
    obtain ⟨ihdoubts, ihsaf⟩ := ih (D.raiseDoubt d)
    refine ⟨ihdoubts.trans hdoubts, ihsaf.trans ?_⟩
    rw [hsaf]
    simp

theorem DieState.toFallback_saf : D.toFallback.doubts = D.doubts ∧
    D.toFallback.saf = { D.saf with clean := 0, network := false } := by
  unfold DieState.toFallback
  dsimp only
  cases hnet : D.saf.network with
  | false =>
    rw [if_pos (show (!(D.onSaf (fun x => { x with clean := 0 })).saf.network) = true by simp [DieState.onSaf, hnet])]
    refine ⟨rfl, ?_⟩
    unfold DieState.onSaf
    rw [← hnet]
  | true =>
    rw [if_neg (show ¬ (!(D.onSaf (fun x => { x with clean := 0 })).saf.network) = true by simp [DieState.onSaf, hnet])]
    split
    · rw [DieState.out_doubts, DieState.out_saf, DieState.count_doubts, DieState.count_saf]
      exact ⟨rfl, rfl⟩
    · rw [DieState.count_doubts, DieState.count_saf]
      exact ⟨rfl, rfl⟩

theorem DieState.remerge_saf : D.remerge.doubts = D.doubts ∧ D.remerge.saf =
    { D.saf with classes := D.remerge.saf.classes, sdoA := D.remerge.saf.sdoA, sdoB := D.remerge.saf.sdoB } := by
  have hdriven := DieState.driveSdo_driven (D.onSaf (fun x => { x with classes := D.mergeAt (D.saf.due.getD D.saf.merged).time }))
  unfold DieState.DrivenFrom at hdriven
  unfold DieState.remerge
  dsimp only
  rw [hdriven]
  exact ⟨rfl, rfl⟩

/-- The message leaves for destination k, unless that is off (R567). -/
def DieState.sendTo (m : List Byte) (D : DieState) (k : Nat) : DieState :=
  match D.safeFrame k m with
  | none => D
  | some f => (D.out (.safety k f)).count B_ETH ETH_TX_FRAMES 1 4

theorem DieState.sendAll_keeps (m : List Byte) : ([0, 1, 2, 3].foldl (DieState.sendTo m) D).doubts = D.doubts ∧
    ([0, 1, 2, 3].foldl (DieState.sendTo m) D).saf = D.saf := by
  have hone : ∀ (E : DieState) (k : Nat), (DieState.sendTo m E k).doubts = E.doubts ∧ (DieState.sendTo m E k).saf = E.saf := by
    intro E k
    unfold DieState.sendTo
    split
    · exact ⟨rfl, rfl⟩
    · exact ⟨DieState.count_doubts _ _ _ _ _, DieState.count_saf _ _ _ _ _⟩
  exact ⟨foldl_keeps DieState.doubts _ (fun E k => (hone E k).1) _ D, foldl_keeps DieState.saf _ (fun E k => (hone E k).2) _ D⟩

/-- A message uses the next sequence number and nothing else of the island but what it last told. -/
theorem DieState.sendMessage_saf (change : Bool) (time : Nat) (e : SliceEnd) :
    (D.sendMessage change time e).doubts = D.doubts ∧ (D.sendMessage change time e).saf =
      { D.saf with seq := (D.saf.seq + 1) % 2 ^ 32, lastSeq := D.saf.seq, sent := true, health := D.healthWord } := by
  unfold DieState.sendMessage
  dsimp only
  split
  · rw [DieState.cause_doubts, DieState.cause_saf, DieState.count32_doubts, DieState.count32_saf]
    exact ⟨rfl, rfl⟩
  · generalize D.message change time e = m
    have hkeeps := DieState.sendAll_keeps ((D.onSaf (fun x => { x with
      seq := (x.seq + 1) % 2 ^ 32, lastSeq := x.seq, sent := true, health := D.healthWord })).count B_SAF SAF_MSGS_SENT) m
    exact ⟨hkeeps.1.trans (DieState.count_doubts _ _ _ _ _), hkeeps.2.trans (DieState.count_saf _ _ _ _ _)⟩

/-- The die whose doubts are recorded, its authority FALLBACK, its classes merged again. -/
def DieState.doubtsRaised (D : DieState) : DieState :=
  (D.doubts.foldl DieState.raiseDoubt { D with doubts := [] }).toFallback.remerge

theorem DieState.doubtsRaised_saf : D.doubtsRaised.doubts = [] ∧ D.doubtsRaised.saf = { D.saf with
    active := D.doubts.foldl (fun m d => orN m (2 ^ (d.1 - 1))) D.saf.active, dirty := D.saf.dirty || !D.doubts.isEmpty
    clean := 0, network := false, classes := D.doubtsRaised.saf.classes, sdoA := D.doubtsRaised.saf.sdoA
    sdoB := D.doubtsRaised.saf.sdoB } := by
  obtain ⟨hd, hs⟩ := DieState.raiseDoubts_saf { D with doubts := [] } D.doubts
  obtain ⟨hd', hs'⟩ := DieState.toFallback_saf (D.doubts.foldl DieState.raiseDoubt { D with doubts := [] })
  obtain ⟨hd'', hs''⟩ := DieState.remerge_saf (D.doubts.foldl DieState.raiseDoubt { D with doubts := [] }).toFallback
  refine ⟨hd''.trans (hd'.trans hd), hs''.trans ?_⟩
  rw [hs', hs]
  exact rfl

end

/-- Doubts that start no reset are recorded, and a message may tell them. -/
theorem DieState.takeDoubts_told {D : DieState} (hrun : D.saf.running = true) (hdown : D.saf.down = none) (hd : D.doubts ≠ [])
    (hclass : ∀ d ∈ D.doubts, d.1 ∉ resetDoubts) : D.takeDoubts = D.settleLaunches.doubtsRaised ∨
      ∃ t e, D.takeDoubts = D.settleLaunches.doubtsRaised.sendMessage true t e := by
  obtain ⟨hdoubts, hsaf⟩ := D.settleLaunches_keeps
  have hgo : ¬ (D.settleLaunches.doubts.isEmpty || !D.settleLaunches.saf.running || D.settleLaunches.saf.down.isSome) = true := by
    rw [hdoubts, hsaf]
    simp [hrun, hdown, hd]
  have hnone : (D.settleLaunches.doubts.filter (fun d => resetDoubts.contains d.1)).isEmpty = true := by
    rw [hdoubts, List.isEmpty_iff, List.filter_eq_nil_iff]
    intro d hmem
    simpa using hclass d hmem
  unfold DieState.takeDoubts
  rw [if_neg hgo]
  dsimp only
  rw [if_pos hnone]
  split
  · exact .inr ⟨_, _, rfl⟩
  · exact .inl rfl

theorem DieState.takeDoubts_taken {D : DieState} (hrun : D.saf.running = true) (hdown : D.saf.down = none) (hd : D.doubts ≠ [])
    (hclass : ∀ d ∈ D.doubts, d.1 ∉ resetDoubts) : D.takeDoubts.doubts = [] ∧ D.takeDoubts.saf.network = false ∧
      D.takeDoubts.saf.clean = 0 ∧ D.takeDoubts.saf.dirty = true ∧
      D.takeDoubts.saf.active = D.doubts.foldl (fun m d => orN m (2 ^ (d.1 - 1))) D.saf.active ∧
      D.takeDoubts.saf.service = D.saf.service := by
  obtain ⟨hdoubts, hsaf⟩ := D.settleLaunches_keeps
  obtain ⟨hgone, hraised⟩ := D.settleLaunches.doubtsRaised_saf
  have hdirty : (D.settleLaunches.saf.dirty || !D.settleLaunches.doubts.isEmpty) = true := by
    rw [hdoubts]
    simp [hd]
  rw [hdirty, hdoubts, hsaf] at hraised
  rcases DieState.takeDoubts_told hrun hdown hd hclass with h | ⟨t, e, h⟩
  · rw [h, hraised]
    exact ⟨hgone, rfl, rfl, rfl, rfl, rfl⟩
  · obtain ⟨hkept, hsent⟩ := D.settleLaunches.doubtsRaised.sendMessage_saf true t e
    rw [h, hsent, hraised]
    exact ⟨hkept.trans hgone, rfl, rfl, rfl, rfl, rfl⟩

theorem DieState.takeDoubts_none {D : DieState} (h : D.doubts = []) : D.takeDoubts = D.settleLaunches := by
  have hstop : (D.settleLaunches.doubts.isEmpty || !D.settleLaunches.saf.running || D.settleLaunches.saf.down.isSome) = true := by
    rw [D.settleLaunches_keeps.1, h]
    rfl
  unfold DieState.takeDoubts
  exact if_pos hstop

/-! ## Doubts that end (R526) -/

/-- A lasting source whose condition has ended. -/
def DieState.doubtEnded (D : DieState) (k : Nat) : Bool :=
  bit D.saf.active (k - 1) && !D.doubtHolds k && (if k = 5 then D.fab.admitted else true)
    && (if k = 7 then (match D.saf.clockCalm with | some t => decide (t + 1000000000 ≤ D.now) | none => false) else true)

/-- The sources that last as long as their condition. -/
def lastingDoubts : List Nat := [5, 6, 7, 8, 10, 11]

section
variable {D : DieState}

theorem DieState.clearDoubts_eq (hrun : D.saf.running = true) (hdown : D.saf.down = none) :
    D.clearDoubts = D.onSaf (fun x => { x with
      active := andNot x.active (bitMask ((lastingDoubts.filter D.doubtEnded).map (· - 1))) }) := by
  unfold DieState.clearDoubts
  exact if_neg (by simp [hrun, hdown])

theorem DieState.clearDoubts_active (hrun : D.saf.running = true) (hdown : D.saf.down = none) {k : Nat} (hk : 1 ≤ k) :
    bit D.clearDoubts.saf.active (k - 1) = (bit D.saf.active (k - 1) && !(lastingDoubts.contains k && D.doubtEnded k)) := by
  have hmem : bit (bitMask ((lastingDoubts.filter D.doubtEnded).map (· - 1))) (k - 1) =
      (lastingDoubts.contains k && D.doubtEnded k) := by
    rw [Bool.eq_iff_iff, bit_bitMask, List.mem_map, Bool.and_eq_true, List.contains_iff_mem, ← List.mem_filter]
    refine ⟨fun ⟨j, hj, hjk⟩ => ?_, fun h => ⟨k, h, rfl⟩⟩
    have hpos : 1 ≤ j := (by decide : ∀ j ∈ lastingDoubts, 1 ≤ j) j (List.mem_filter.mp hj).1
    rwa [show k = j by omega]
  rw [DieState.clearDoubts_eq hrun hdown, ← hmem]
  exact bit_andNot _ _ _

/-- A source whose condition holds, or that does not last, stays as it is. -/
theorem DieState.clearDoubts_stays (hrun : D.saf.running = true) (hdown : D.saf.down = none) {k : Nat} (hk : 1 ≤ k)
    (h : k ∈ resetDoubts ∨ D.doubtHolds k = true) : bit D.clearDoubts.saf.active (k - 1) = bit D.saf.active (k - 1) := by
  have hno : (lastingDoubts.contains k && D.doubtEnded k) = false := by
    rcases h with h | h
    · rw [(by decide : ∀ k ∈ resetDoubts, lastingDoubts.contains k = false) k h, Bool.false_and]
    · rw [show D.doubtEnded k = false by unfold DieState.doubtEnded; simp [h], Bool.and_false]
  rw [DieState.clearDoubts_active hrun hdown hk, hno, Bool.not_false, Bool.and_true]

/-- A lasting source whose condition has ended is left. -/
theorem DieState.clearDoubts_leaves (hrun : D.saf.running = true) (hdown : D.saf.down = none) {k : Nat} (hk : k ∈ lastingDoubts)
    (hgone : D.doubtHolds k = false) (hfab : k = 5 → D.fab.admitted = true)
    (hclk : k = 7 → ∃ t, D.saf.clockCalm = some t ∧ t + 1000000000 ≤ D.now) :
    bit D.clearDoubts.saf.active (k - 1) = false := by
  have hended : D.doubtEnded k = bit D.saf.active (k - 1) := by
    have h5 : (if k = 5 then D.fab.admitted else true) = true := by
      split
      · next h => exact hfab h
      · rfl
    unfold DieState.doubtEnded
    rw [hgone, h5]
    by_cases h7 : k = 7
    · obtain ⟨t, ht, hlate⟩ := hclk h7
      simp [h7, ht, hlate]
    · simp [h7]
  rw [DieState.clearDoubts_active hrun hdown ((by decide : ∀ j ∈ lastingDoubts, 1 ≤ j) k hk),
    List.contains_iff_mem.mpr hk, hended, Bool.true_and, Bool.and_not_self]

end

/-! ## Merges, results and resets (R451, R519-R523, R559) -/

section
variable {D : DieState}

theorem DieState.merge_due {e : SliceEnd} (hrun : D.saf.running = true) (hdown : D.saf.down = none) (hdue : D.saf.due = some e) :
    let X := D.takeDoubts
    let f := X.saf.due.getD {}
    let Y := ((X.onSaf (fun x => { x with due := none, merged := f, classes := X.mergeAt f.time })).driveSdo).sendMessage false f.time f
    D.merge = Y.onSaf (fun x => { x with active := andNot x.active (bitMask (resetDoubts.map (· - 1))) }) := by
  intro X f Y
  unfold DieState.merge
  rw [hdue]
  exact if_neg (by simp [hrun, hdown])

/-- The result that a record spells (R519). -/
def DieState.resultOf (D : DieState) (b : List Byte) : NetResult :=
  { time := D.now, frame := field b 0 8, classes := (List.range (field b 8 2)).map (zoneClass ((b.drop 16).take 96)) }

section
variable {b : List Byte} {rest : List (List Byte)} (hrun : D.saf.running = true) (hdown : D.saf.down = none)
  (hrec : D.saf.records = b :: rest)
include hrun hdown hrec

theorem DieState.takeResult_taken (hok : D.recordOk b = true) :
    D.takeResult = (D.onSaf (fun x => { x with
      records := rest, results := D.resultOf b :: x.results.take 3, lastFrame := some (field b 0 8)
      accepted := field b 0 8 :: x.accepted.take 3 })).setReg64 B_SAF SAF_RESULT_FRAME (field b 0 8) := by
  unfold DieState.takeResult
  rw [if_neg (by simp [hrun, hdown]), hrec]
  refine if_neg ?_
  rw [show (D.onSaf (fun x => { x with records := rest })).recordOk b = true from hok]
  exact Bool.false_ne_true

theorem DieState.takeResult_rejected (hbad : D.recordOk b = false) :
    D.takeResult = (((D.onSaf (fun x => { x with records := rest })).count32 B_SAF SAF_RESULT_REJECTS).cause B_SAF 3).event
      { cls := 12, code := 0x04, island := 0, inst := some 0, ident := field b 0 8 % 2 ^ 32 } := by
  unfold DieState.takeResult
  rw [if_neg (by simp [hrun, hdown]), hrec]
  refine if_pos ?_
  rw [show (D.onSaf (fun x => { x with records := rest })).recordOk b = false from hbad]
  rfl

end

theorem DieState.resultNotice_reads {n : Nat} (hseal : D.saf.resultSeal = some n) (hready : D.cmd.ready = true)
    (halloc : (D.sealOf n).alloc = true) (hnew : D.saf.noticed < (D.sealOf n).counter) :
    let E := D.onSaf (fun x => { x with noticed := (D.sealOf n).counter })
    D.resultNotice = match runM (stackRead (cpCtx 0) (gLocal (field D.block 32 8)) 128) E with
      | (.ok b, D') => D'.onSaf (fun x => { x with records := x.records ++ [b] })
      | (.error _, D') => D' := by
  intro E
  unfold DieState.resultNotice
  rw [hseal]
  refine (if_neg ?_).trans rfl
  simp [hready, halloc, hnew]

theorem DieState.resetDone_other {i : Nat} (hgate : D.gateClosed i = true) (hi : i ≠ 0) : D.resetDone i = D.completeReset i := by
  unfold DieState.resetDone
  rw [if_neg (by rw [hgate]; exact Bool.false_ne_true)]
  exact (if_neg (fun h => hi h.1)).trans (if_neg hi)

theorem DieState.resetDone_zero (hgate : D.gateClosed 0 = true) : D.resetDone 0 =
    if (D.completeReset 0).saf.resetting = true then (D.completeReset 0).restartNetwork
    else (D.completeReset 0).onSaf (fun x => { x with resultSeal := none }) := by
  unfold DieState.resetDone
  rw [if_neg (by rw [hgate]; exact Bool.false_ne_true)]
  simp only [true_and, if_true]

theorem DieState.flr_eq (D : DieState) (fn : Nat) :
    let i := D.fnInst fn
    let E := ((((D.resetFunction fn).endSessions (fun x => x.req == 0x0A0 + fn)).count32 B_PCI PCI_FLRS).cause B_PCI 1)
    let F : DieState := { E with pcie := { E.pcie with flrs := E.pcie.flrs ++ [(fn, i)] } }
    let G := F.toFallback.remerge.countReset
    D.flr fn = if insEnabled E.ins.active i = false then E
      else if i ≠ 0 then F.beginReset i else if G.saf.resetting = true then G else G.safReset := by
  intro i E F G
  unfold DieState.flr
  dsimp only
  by_cases hon : insEnabled E.ins.active i = false
  · rw [if_pos hon]
    exact if_pos (by rw [hon]; rfl)
  · rw [if_neg hon]
    have hon' : ¬ (!insEnabled E.ins.active i) = true := by rw [Bool.not_eq_true']; exact hon
    refine (if_neg hon').trans ?_
    by_cases hi : i = 0
    · rw [if_neg (not_not_intro hi)]
      exact if_pos hi
    · rw [if_pos hi]
      exact if_neg hi

end

/-- Settles O35: the rows by the state of the island, the doubts by what recording them changes. -/
theorem doubtsResultsAndMergesMove : Obligations.DoubtsResultsAndMergesMove := by
  refine ⟨?_, ?_⟩
  · intro s a osc hup D
    refine ⟨onWorks_eq hup rfl, fun e hrun hdown hdue => onWorks_eq hup (DieState.merge_due hrun hdown hdue),
      fun b rest hrun hdown hrec => ?_, fun hrun hdown => ⟨_, onDie_eq hup rfl, ?_⟩, fun n hseal hready halloc hnew =>
        onDie_eq hup (DieState.resultNotice_reads hseal hready halloc hnew), fun i hgate => ?_, fun fn hfn => ?_⟩
    · intro X
      refine ⟨fun hok => ⟨_, D.resultOf b, onDie_eq hup (DieState.takeResult_taken hrun hdown hrec hok), ?_⟩,
        fun hbad => onDie_eq hup (DieState.takeResult_rejected hrun hdown hrec hbad)⟩
      rw [State.die_put]
      exact ⟨rfl, rfl, rfl, rfl, rfl, rfl⟩
    · rw [State.die_put]
      refine ⟨congrArg (s.put a) ?_, fun k hk _ => ⟨fun h => ?_, fun hmem hgone hfab => ?_, fun calm h7 hgone hcalm hlate => ?_,
        fun h => DieState.clearDoubts_stays hrun hdown hk h⟩⟩
      · rw [DieState.clearDoubts_eq hrun hdown]
        rfl
      · rw [DieState.clearDoubts_active hrun hdown hk, Bool.and_eq_true] at h
        exact h.1
      · refine DieState.clearDoubts_leaves hrun hdown ?_ hgone hfab (fun h7 => ?_)
        · exact (by decide : ∀ k ∈ [5, 6, 8, 10, 11], k ∈ lastingDoubts) k hmem
        · exact absurd (h7 ▸ hmem) (by decide)
      · refine DieState.clearDoubts_leaves hrun hdown ?_ hgone (fun h5 => ?_) (fun _ => ⟨calm, hcalm, hlate⟩)
        · rw [h7]; decide
        · omega
    · refine ⟨fun hi => onDie_eq hup (DieState.resetDone_other hgate hi), fun hi hres => ?_, fun hi hres => ?_⟩
      · subst hi
        exact onDie_eq hup ((DieState.resetDone_zero hgate).trans (if_neg (by rw [hres]; exact Bool.false_ne_true)))
      · subst hi
        exact onDie_eq hup ((DieState.resetDone_zero hgate).trans (if_pos hres))
    · exact onWorks_eq hup ((if_pos hfn).trans (D.flr_eq fn))
  · intro D hrun hdown
    refine ⟨fun hd hclass => ?_, fun hd => ?_, fun change time e => ?_⟩
    · intro E
      obtain ⟨hdoubts, hnet, hclean, hdirty, hactive, hservice⟩ := DieState.takeDoubts_taken hrun hdown hd hclass
      have hbit : ∀ j, bit E.saf.active j = (bit D.saf.active j || D.doubts.any (fun d => d.1 - 1 == j)) := fun j =>
        (congrArg (fun m => bit m j) hactive).trans (bit_foldl_orN (fun d : Nat × Nat => d.1 - 1) D.doubts D.saf.active j)
      refine ⟨hdoubts, hnet, hclean, hdirty, fun d hmem => ?_, fun j hj => ?_, hservice⟩
      · rw [hbit, Bool.or_eq_true, List.any_eq_true]
        exact .inr ⟨d, hmem, beq_self_eq_true _⟩
      · rw [hbit, hj, Bool.true_or]
    · rw [DieState.takeDoubts_none hd, D.settleLaunches_keeps.2]
      exact ⟨rfl, rfl, rfl⟩
    · rw [(D.sendMessage_saf change time e).2]
      exact ⟨rfl, rfl⟩

end Sys2Proof.Machine
end

section
/-! PROOFS. The proof pass and the command processor's watchdog (O36). -/

open Sys2Proof

namespace Sys2Proof.Machine

/-! ## The proof pass (R534-R536) -/

/-- A proof task of the island, launched at an address. -/
def DieState.proofLaunch (D : DieState) (addr : Nat) : Cmd :=
  { id := D.cmd.nextId, queue := 0, op := 0x0200, rq := 1, params := toLE 8 addr, stacked := true, island := true }

section
variable {D : DieState}

theorem DieState.proofNext_cons (c : Nat) (cs : List Nat) : ∃ addr, D.proofNext (c :: cs) = { D with
    cmd := { D.cmd with cmds := D.cmd.cmds ++ [D.proofLaunch addr], nextId := D.cmd.nextId + 1 }
    saf := { D.saf with proof := D.saf.proof.map (fun p => { p with running := some (c, D.cmd.nextId) }) } } := ⟨_, rfl⟩

theorem DieState.proofStart_starts (hrun : D.saf.running = true) (hdown : D.saf.down = none) (hnet : D.netOn = true)
    (hproof : D.saf.proof = none) (hgate : D.gateClosed 0 = false) {c : Nat} {cs : List Nat} (hcs : D.proofClusters = c :: cs)
    (hdue : D.stp.frameAt + field D.block 40 4 * 1000 ≤ D.now) :
    D.proofStart = (D.onSaf (fun x => { x with proof := some { frame := D.stp.frame, start := D.now } })).proofNext (c :: cs) := by
  unfold DieState.proofStart
  rw [hproof, ← hcs]
  exact if_pos (by simp [hrun, hdown, hnet, hgate, hcs, hdue])

section
variable {p : ProofPass} {c id : Nat} (hproof : D.saf.proof = some p) (hrun : p.running = some (c, id))
include hproof hrun

section
variable {r : Nat × Nat × Bool} (hr : D.saf.replies.find? (fun r => r.1 == id) = some r)
include hr

/-- The die whose reply to a proof task has been taken. -/
def DieState.replyTaken (D : DieState) (r : Nat × Nat × Bool) : DieState :=
  D.onSaf (fun x => { x with replies := x.replies.erase r })

theorem DieState.proofDone_cancelled (h : r.2.1 = Status.refusedInstanceReset.code ∨ D.gateClosed 0 = true) :
    D.proofDone = ((D.replyTaken r).proofFailed (c :: (D.replyTaken r).proofAfter c) false).proofNext [] := by
  unfold DieState.proofDone
  simp only [hproof, hrun, hr]
  exact if_pos h

theorem DieState.proofDone_failed (hst : r.2.1 ≠ Status.refusedInstanceReset.code) (hgate : D.gateClosed 0 = false)
    (h : ((Status.ofCode r.2.1).getD .faultInternal).isOk = false) :
    D.proofDone = ((D.replyTaken r).proofFailed [c] true).proofNext ((D.replyTaken r).proofAfter c) := by
  have hgo : ¬ (r.2.1 = Status.refusedInstanceReset.code ∨ (D.replyTaken r).gateClosed 0 = true) := fun hc =>
    hc.elim hst (fun hc => Bool.false_ne_true (hgate.symm.trans hc))
  unfold DieState.proofDone
  simp only [hproof, hrun, hr]
  exact (if_neg hgo).trans (if_pos (by rw [h]; rfl))

/-- The output of a task that ended well is compared. -/
theorem DieState.proofDone_compared (hst : r.2.1 ≠ Status.refusedInstanceReset.code) (hgate : D.gateClosed 0 = false)
    (h : ((Status.ofCode r.2.1).getD .faultInternal).isOk = true) :
    D.proofDone = match runM (proofCrc c) (D.replyTaken r) with
      | (.error _, D') => (D'.proofFailed [c] true).proofNext (D'.proofAfter c)
      | (.ok v, D') =>
        let F := D'.setReg B_SAF (SAF_PROOF_CRC + 4 * c) v
        let G := if v = field F.block (56 + 4 * c) 4 then
          F.onSaf (fun x => { x with proof := x.proof.map (fun p => { p with matched := orN p.matched (2 ^ c) }) })
          else F.proofFailed [c] true
        G.proofNext (G.proofAfter c) := by
  have hgo : ¬ (r.2.1 = Status.refusedInstanceReset.code ∨ (D.replyTaken r).gateClosed 0 = true) := fun hc =>
    hc.elim hst (fun hc => Bool.false_ne_true (hgate.symm.trans hc))
  unfold DieState.proofDone
  simp only [hproof, hrun, hr]
  exact (if_neg hgo).trans ((if_neg (by rw [h]; exact Bool.false_ne_true)).trans rfl)

end

theorem DieState.proofLate_doubts (hlate : p.late = false) (hdue : p.start + field D.block 44 4 * 1000 ≤ D.now) :
    D.proofLate = ((D.onSaf (fun x => { x with proof := some { p with late := true } })).cause B_SAF 2).doubt 1 c := by
  have hgo : ¬ (p.late || decide (D.now < p.start + field D.block 44 4 * 1000)) = true := by
    simp [hlate, Nat.not_lt.mpr hdue]
  unfold DieState.proofLate
  simp only [hproof, hrun]
  refine (if_neg (by simpa using hgo)).trans ?_
  dsimp only [DieState.onSaf]
  rw [hproof, Option.map_some, hrun]

end

/-! ## Heartbeats and the watchdog (R430, R526, R600) -/

theorem DieState.heartbeat_ready (h : D.cmd.ready = true) :
    let inj (k : Nat) (j : Injection) : Bool := j.kind == 5 && j.param == k
    let held (k : Nat) : Bool := D.log.injections.any (fun e => inj k e.2)
    let h := D.reg B_CMD CMD_HEARTBEAT
    let half (k : Nat) : Nat := if held k = true then bits h (16 * k) 16 else (bits h (16 * k) 16 + 1) % 65536
    let beat (k : Nat) (old : Option Nat) : Option Nat := if held k = true then old else some D.now
    let E := ((D.useInjection (inj 0)).useInjection (inj 1)).setReg B_CMD CMD_HEARTBEAT (half 0 + half 1 * 65536)
    D.heartbeat = { E with cmd := { E.cmd with beat0 := beat 0 D.cmd.beat0, beat1 := beat 1 D.cmd.beat1 } } := by
  intro inj held h half beat E
  unfold DieState.heartbeat
  exact if_neg (by simp [*])

theorem CmdState.stalled_iff (c : CmdState) (now : Nat) :
    c.stalled now = true ↔ c.beat0.getD c.began + 500000 ≤ now ∨ c.beat1.getD c.began + 500000 ≤ now := by
  unfold CmdState.stalled
  rw [Bool.or_eq_true, decide_eq_true_eq, decide_eq_true_eq]

/-- The die with no command or queue waiting. -/
def DieState.waitsDropped (D : DieState) : DieState := { D with cmd := { D.cmd with
  waits := D.cmd.waits.filter (fun w => match w.who with | .cmd _ => false | _ => true), qwaits := [] } }

theorem DieState.watchdog_restarts (hready : D.cmd.ready = true) (hstall : D.cmd.stalled D.now = true) :
    let Y := ((D.cmd.cmds.filter (fun c => !D.keepsSlot c.id)).map (·.id)).foldl (fun D id => D.replyId id .faultInternal)
      D.waitsDropped
    let Z : DieState := { Y with cmd := { Y.cmd with ready := false, restart := some Y.now } }
    D.watchdog = (Z.event { cls := 1, code := 0x06, island := 1 }).doubt 11 := by
  intro Y Z
  unfold DieState.watchdog
  exact (if_neg (by simp [hready, hstall])).trans rfl

theorem DieState.watchdog_rests (h : ¬ D.cmd.stalled D.now = true) : D.watchdog = D := by
  unfold DieState.watchdog
  exact if_pos (by simp [h])

theorem DieState.cpRestarted_ready {t : Nat} (h : D.cmd.restart = some t) : D.cpRestarted = { D with
    cmd := { D.cmd with ready := true, restart := none, began := D.now, beat0 := none, beat1 := none } } := by
  unfold DieState.cpRestarted
  rw [h]

end

/-- Settles O36: the pass by its state and the reply, the watchdog by the age of the heartbeats. -/
theorem proofPassesAndHeartbeatsRun : Obligations.ProofPassesAndHeartbeatsRun := by
  intro s a hup D
  refine ⟨fun c cs hrun hdown hnet hproof hgate hcs hdue => ?_, fun p c id r hproof hrun hr => ?_,
    fun p c id hproof hrun hlate hdue => onDie_eq hup (DieState.proofLate_doubts hproof hrun hlate hdue),
    fun hready => onDie_eq hup (DieState.heartbeat_ready hready), fun hready hstall => ?_, fun hready h0 h1 => ?_,
    fun t0 h => onDie_eq hup (DieState.cpRestarted_ready h)⟩
  · obtain ⟨addr, hnext⟩ := DieState.proofNext_cons
      (D := D.onSaf (fun x => { x with proof := some { frame := D.stp.frame, start := D.now } })) c cs
    refine ⟨_, onDie_eq hup ((DieState.proofStart_starts hrun hdown hnet hproof hgate hcs hdue).trans hnext), ?_⟩
    rw [State.die_put]
    exact ⟨rfl, rfl, D.proofLaunch addr, rfl, rfl, rfl, rfl⟩
  · intro E
    exact ⟨fun h => onDie_eq hup (DieState.proofDone_cancelled hproof hrun hr h), fun hst hgate =>
      ⟨fun h => onDie_eq hup (DieState.proofDone_failed hproof hrun hr hst hgate h),
        fun h => onDie_eq hup (DieState.proofDone_compared hproof hrun hr hst hgate h)⟩⟩
  · exact onDie_eq hup (DieState.watchdog_restarts hready ((CmdState.stalled_iff _ _).mpr hstall))
  · refine onDie_eq hup (DieState.watchdog_rests fun h => ?_)
    exact ((CmdState.stalled_iff _ _).mp h).elim (Nat.not_le.mpr h0) (Nat.not_le.mpr h1)

end Sys2Proof.Machine
end

section
/-! PROOFS. The fall-back occupancy engine (O37). -/

open Sys2Proof

namespace Sys2Proof.Machine

/-! ## A zone's rule (R517) -/

section
variable (z : List Byte) (blind : Bool) (n : Nat) (x : ZoneState)

theorem evalZone_blind (h : blind = true) : (evalZone z blind n x).occupied = true ∧ (evalZone z blind n x).blind = true := by
  unfold evalZone
  simp [h]

theorem evalZone_raw : (evalZone z blind n x).raw = true ↔ blind = true ∨ znMin z ≤ n := by
  unfold evalZone
  simp

/-- An occupied zone that sees is left after more clear evaluations than its hold. -/
theorem evalZone_left (hblind : blind = false) (hocc : x.occupied = true) :
    (evalZone z blind n x).occupied = false ↔ n < znMin z ∧ znHold z < min (x.clear + 1) 255 := by
  unfold evalZone
  by_cases h : znMin z ≤ n
  · simp [hblind, hocc, h, Nat.not_lt.mpr h]
  · simp [hblind, hocc, h, Nat.not_le.mp h]

/-- A free zone that sees becomes occupied after as many raw evaluations in a row as its record asks for. -/
theorem evalZone_entered (hblind : blind = false) (hocc : x.occupied = false) :
    (evalZone z blind n x).occupied = true ↔ znMin z ≤ n ∧ znOn z ≤ min (x.run + 1) 4 := by
  unfold evalZone
  by_cases h : znMin z ≤ n
  · simp [hblind, hocc, h]
  · simp [hblind, hocc, h]

/-- An evaluated zone never has the state of one that has not been evaluated. -/
theorem evalZone_ne_default : evalZone z blind n x ≠ {} := by
  intro h
  have hraw := congrArg ZoneState.raw h
  have hclear := congrArg ZoneState.clear h
  unfold evalZone at hraw hclear
  dsimp only at hraw hclear
  rw [if_neg (by rw [hraw]; exact Bool.false_ne_true)] at hclear
  omega

end

/-! ## Tables whose changes never give the default -/

section
variable {α : Type} [DecidableEq α] (d : α) (k : Nat) (f : α → α) (t : List (Nat × α))

theorem tabGet_tabMod (h : f (tabGet d t k) ≠ d) (j : Nat) :
    tabGet d (tabMod d k f t) j = if j = k then f (tabGet d t k) else tabGet d t j := by
  have hput : tabMod d k f t = tabPut k (f (tabGet d t k)) t := if_neg h
  rw [hput]
  by_cases hj : j = k
  · subst hj
    exact (tabGetF_put_same _ j _ t).trans (if_pos rfl).symm
  · exact (tabGetF_put_other _ k j _ t hj).trans (if_neg hj).symm

end

/-! ## Points (R515) -/

section
variable (D : DieState)

/-- The die whose queue of the engine has been settled. -/
def DieState.foeReady : DieState := D.foeSettle D.foe.queue.length

/-- The cell of a point record, and whether the grid has it. -/
def pointI (b r : List Byte) : Int := shr (ifield r 0 4 - sbX0 b) (sbShift b)
def pointJ (b r : List Byte) : Int := shr (ifield r 4 4 - sbY0 b) (sbShift b)
def pointInGrid (b r : List Byte) : Prop :=
  0 ≤ pointI b r ∧ pointI b r < (sbW b : Int) ∧ 0 ≤ pointJ b r ∧ pointJ b r < (sbH b : Int) ∧
    ifield b 20 4 ≤ ifield r 8 4 ∧ ifield r 8 4 ≤ ifield b 24 4

/-- One point more in a cell of a plane. -/
def cellAdded (k : Nat) (p : Tab Nat) : Tab Nat := tabMod 0 k (fun n => min (n + 1) 15) p

/-- The engine with one point more in a cell of its open plane. -/
def pointAdded (k : Nat) (f : FoeState) : FoeState :=
  if f.plane then { f with plane1 := cellAdded k f.plane1 } else { f with plane0 := cellAdded k f.plane0 }

theorem cellAdded_get (k : Nat) (p : Tab Nat) (j : Nat) :
    tabGet 0 (cellAdded k p) j = if j = k then min (tabGet 0 p j + 1) 15 else tabGet 0 p j := by
  refine (tabGet_tabMod 0 k (fun n => min (n + 1) 15) p (by omega) j).trans ?_
  by_cases h : j = k
  · rw [if_pos h, if_pos h, h]
  · rw [if_neg h, if_neg h]

theorem pointAdded_keeps (k : Nat) (f : FoeState) : (pointAdded k f).queue = f.queue ∧ (pointAdded k f).plane = f.plane := by
  unfold pointAdded
  split
  · exact ⟨rfl, rfl⟩
  · exact ⟨rfl, rfl⟩

theorem pointAdded_open (k : Nat) (f : FoeState) : (pointAdded k f).openPlane = cellAdded k f.openPlane := by
  unfold pointAdded FoeState.openPlane
  by_cases h : f.plane = true
  · simp [h]
  · simp [h]

/-- The die that has taken the record at the head of the queue. -/
def DieState.pointTaken (D : DieState) (rest : List FoeItem) : DieState :=
  ({ D with foe := { D.foe with queue := rest } } : DieState).count B_FOE FOE_POINTS

theorem DieState.pointTaken_foe (rest : List FoeItem) : (D.pointTaken rest).foe = { D.foe with queue := rest } :=
  DieState.count_foe _ _ _ _ _

section
variable {D} {r : List Byte} {rest : List FoeItem} (hq : D.foeReady.foe.queue = .point r :: rest)
include hq

theorem DieState.foePoint_counted (h : pointInGrid D.foeReady.foe.block r) :
    D.foePoint.foe = pointAdded (4096 * (pointJ D.foeReady.foe.block r).toNat + (pointI D.foeReady.foe.block r).toNat)
      { D.foeReady.foe with queue := rest } := by
  unfold DieState.foePoint
  dsimp only
  rw [← DieState.foeReady]
  simp only [hq]
  refine (congrArg DieState.foe (if_pos h)).trans ?_
  exact congrArg (pointAdded _) (D.foeReady.pointTaken_foe rest)

theorem DieState.foePoint_outside (h : ¬ pointInGrid D.foeReady.foe.block r) :
    D.foePoint.foe = { D.foeReady.foe with queue := rest } := by
  unfold DieState.foePoint
  dsimp only
  rw [← DieState.foeReady]
  simp only [hq]
  refine (congrArg DieState.foe (if_neg h)).trans ?_
  rw [DieState.count_foe]
  exact D.foeReady.pointTaken_foe rest

end

/-! ## Slices (R517, R524) -/

/-- The state of a zone after its evaluation on a plane. -/
def DieState.zoneEval (D : DieState) (plane : Tab Nat) (z : Nat × List Byte) (x : ZoneState) : ZoneState :=
  evalZone z.2 ((znRequired z.2).any D.streamAbsent)
    (((zoneCells D.foe.block z.2).map (tabGet 0 plane)).foldl (· + ·) 0) x

/-- The states of the zones after their evaluation. -/
def DieState.evaluated (D : DieState) (l : List (Nat × List Byte)) (st : Tab ZoneState) : Tab ZoneState :=
  l.foldl (fun st z => tabMod {} z.1 (D.zoneEval D.foe.openPlane z) st) st

/-- Each zone of a list without repetition is evaluated once, from the state it had. -/
theorem DieState.evaluated_get (l : List (Nat × List Byte)) (hl : (l.map (fun z => z.1)).Nodup) (st : Tab ZoneState) :
    (∀ z ∈ l, tabGet {} (D.evaluated l st) z.1 = D.zoneEval D.foe.openPlane z (tabGet {} st z.1)) ∧
    (∀ k, k ∉ l.map (fun z => z.1) → tabGet {} (D.evaluated l st) k = tabGet {} st k) := by
  induction l generalizing st with
  | nil => exact ⟨fun z hz => absurd hz List.not_mem_nil, fun _ _ => rfl⟩
  | cons y l ih =>
    rw [List.map_cons, List.nodup_cons] at hl
    obtain ⟨hother, hrest⟩ := ih hl.2 (tabMod {} y.1 (D.zoneEval D.foe.openPlane y) st)
    have hstep := tabGet_tabMod ({} : ZoneState) y.1 (D.zoneEval D.foe.openPlane y) st (evalZone_ne_default _ _ _ _)
    refine ⟨fun z hz => ?_, fun k hk => ?_⟩
    · rcases List.mem_cons.mp hz with rfl | hz
      · exact (hrest z.1 hl.1).trans ((hstep z.1).trans (if_pos rfl))
      · have hne : z.1 ≠ y.1 := fun he => hl.1 (he ▸ List.mem_map_of_mem hz)
        refine (hother z hz).trans (congrArg (D.zoneEval D.foe.openPlane z) ((hstep z.1).trans (if_neg hne)))
    · rw [List.map_cons, List.mem_cons, not_or] at hk
      exact (hrest k hk.2).trans ((hstep k).trans (if_neg hk.1))

section
variable {D}

theorem DieState.foeSlice_closes {e : SliceEnd} {rest : List FoeItem} (hq : D.foeReady.foe.queue = .slice e :: rest)
    (hidle : D.foeReady.foe.evaluating = none) :
    D.foeSlice = { D.foeReady with foe := { D.foeReady.foe with
      queue := rest, plane := !D.foeReady.foe.plane, states := D.foeReady.evaluated D.foeReady.foeZones D.foeReady.foe.states
      evaluating := some (e, D.foeReady.now) } } := by
  unfold DieState.foeSlice
  dsimp only
  rw [← DieState.foeReady]
  simp only [hq, hidle]
  exact rfl

/-- The engine with the evaluation of its slice ended. -/
def evalEnded (f : FoeState) (now : Nat) : FoeState :=
  { (if f.plane then { f with plane0 := [], evaluating := none } else { f with plane1 := [], evaluating := none } : FoeState)
    with clearEnd := now + 32768 }

theorem evalEnded_keeps (f : FoeState) (now : Nat) : (evalEnded f now).evaluating = none ∧
    (evalEnded f now).openPlane = f.openPlane ∧ (evalEnded f now).states = f.states ∧ (evalEnded f now).clearEnd = now + 32768 ∧
    (if f.plane then (evalEnded f now).plane0 else (evalEnded f now).plane1) = [] := by
  unfold evalEnded FoeState.openPlane
  by_cases h : f.plane = true
  · simp [h]
  · simp [h]

theorem DieState.foeDone_ends {e : SliceEnd} {t : Nat} (h : D.foe.evaluating = some (e, t)) :
    D.foeDone.foe = evalEnded D.foe D.now ∧ D.foeDone.saf = { D.saf with due := some e } := by
  unfold DieState.foeDone
  simp only [h]
  have hmax : ∀ (E : DieState) (v : Nat),
      (if E.counts B_FOE then E.setReg B_FOE FOE_EVAL_MAX_NS v else E).foe = E.foe ∧
      (if E.counts B_FOE then E.setReg B_FOE FOE_EVAL_MAX_NS v else E).saf = E.saf := fun E v => by
    split
    · exact ⟨rfl, rfl⟩
    · exact ⟨rfl, rfl⟩
  rw [DieState.count32_foe, DieState.count32_saf]
  exact hmax _ _

end

end

/-- Settles O37: points by the grid, a slice by the zones it evaluates, a zone by its rule. -/
theorem occupancyEngineCountsAndEvaluates : Obligations.OccupancyEngineCountsAndEvaluates := by
  refine ⟨?_, fun z blind n x => ⟨evalZone_blind z blind n x, evalZone_raw z blind n x, rfl, evalZone_left z blind n x,
    evalZone_entered z blind n x⟩⟩
  intro s a hup D b
  refine ⟨fun r rest hq => ?_, fun e rest hq hidle => ?_, ?_⟩
  · intro i j z inGrid
    refine ⟨fun h => ⟨_, onDie_eq hup rfl, ?_⟩, fun h => ⟨_, onDie_eq hup rfl, ?_⟩⟩
    · have hfoe := DieState.foePoint_counted (D := s.dieAt a) hq h
      have hkeep := pointAdded_keeps (4096 * (pointJ D.foe.block r).toNat + (pointI D.foe.block r).toNat)
        { D.foe with queue := rest }
      rw [State.die_put, hfoe]
      refine ⟨rfl, hkeep.1, hkeep.2, fun k => ?_⟩
      rw [pointAdded_open, cellAdded_get]
      exact rfl
    · rw [State.die_put]
      exact DieState.foePoint_outside (D := s.dieAt a) hq h
  · refine ⟨_, onDie_eq hup (DieState.foeSlice_closes (D := s.dieAt a) hq hidle), ?_⟩
    rw [State.die_put]
    exact ⟨rfl, rfl, rfl, fun hnodup z hz => (D.evaluated_get D.foeZones hnodup D.foe.states).1 z hz⟩
  · intro D e t0 h
    obtain ⟨hfoe, hsaf⟩ := DieState.foeDone_ends h
    obtain ⟨heval, hopen, hstates, hclear, hplane⟩ := evalEnded_keeps D.foe D.now
    refine ⟨_, onDie_eq hup rfl, ?_⟩
    rw [State.die_put, hfoe]
    exact ⟨heval, hsaf, hopen, hstates, hclear, hplane⟩

end Sys2Proof.Machine
end

section
/-! PROOFS. Packets, poses and streams (O38). -/

open Sys2Proof

namespace Sys2Proof.Machine

/-! ## Packets (R79, R97, R98) -/

section
variable {D : DieState} {p : IntakePkt}

/-- The parser's packet leaves the intake, is parsed, and the markers behind it leave too. -/
theorem DieState.parseNext_takes {E F : DieState} (hp : D.nextPacket = some p)
    (hE : ({ D with stp := { D.stp with intake := dropPacket p D.stp.intake } } : DieState) = E) (hF : E.parsePacket p = F) :
    D.parseNext = F.emitMarkers F.stp.intake.length := by
  unfold DieState.parseNext
  rw [hp]
  subst hE hF
  exact rfl

theorem DieState.parsePacket_drops (h : payloadBad (D.pktCtx p).layout p.payload.length = true) :
    D.parsePacket p = D.stpDrop p.stream 2 true := if_pos h

theorem DieState.parsePacket_parses (h : payloadBad (D.pktCtx p).layout p.payload.length = false) :
    D.parsePacket p = (List.range (blockCount (D.pktCtx p).layout p.payload.length)).foldl (fun F b =>
        (List.range (field (D.pktCtx p).layout 12 2)).foldl (fun F k => F.parsePoint (D.pktCtx p) b k) F)
      ((if (p.replay && D.stp.replayStart.isNone) = true then
        { D with stp := { D.stp with replayStart := some (D.pktCtx p).time } } else D : DieState).notePacket (D.pktCtx p)) :=
  if_neg (by rw [h]; exact Bool.false_ne_true)

theorem DieState.stpDrop_stp (stream code : Nat) (packet : Bool) (n : Nat) : (D.stpDrop stream code packet n).stp = D.stp := by
  unfold DieState.stpDrop
  cases reasonField code packet <;> cases reasonBit code <;> by_cases h : code = 15 <;> simp [h]

end

/-! ## Streams (R93) -/

/-- A stream found silent. -/
def streamSilent (x : StreamState) : StreamState := { x with present := false, absent := true, thin := false }

section
variable {D : DieState} {i : Nat}

theorem DieState.onStream_silent : (D.onStream i streamSilent).streamOf i = streamSilent (D.streamOf i) := by
  have hne : streamSilent (D.streamOf i) ≠ {} := fun h => Bool.noConfusion (congrArg StreamState.absent h)
  exact (tabGet_tabMod ({} : StreamState) i streamSilent D.stp.streams hne i).trans (if_pos rfl)

/-- A silent stream becomes absent, and a safety stream is a doubt of source 6. -/
theorem DieState.streamTimeout_silent (hen : seEnabled (stpEntry D.stp.active 0 i) = true)
    (ht : seTimeout (stpEntry D.stp.active 0 i) ≠ 0) (habs : (D.streamOf i).absent = false)
    (hlast : (D.streamOf i).lastSeen + seTimeout (stpEntry D.stp.active 0 i) * 1000 ≤ D.now) :
    (D.streamTimeout i).streamOf i = streamSilent (D.streamOf i) ∧ (D.streamTimeout i).doubts =
      if seSafety (stpEntry D.stp.active 0 i) then D.doubts ++ [(6, 0)] else D.doubts := by
  have hg : (seEnabled (stpEntry D.stp.active 0 i) && seTimeout (stpEntry D.stp.active 0 i) != 0 && !(D.streamOf i).absent
      && decide ((D.streamOf i).lastSeen + seTimeout (stpEntry D.stp.active 0 i) * 1000 ≤ D.now)) = true := by
    simp [hen, ht, habs, hlast]
  have hs : ∀ (E : DieState), E.stp = (D.onStream i streamSilent).stp → E.streamOf i = streamSilent (D.streamOf i) := fun E h => by
    refine Eq.trans ?_ DieState.onStream_silent
    unfold DieState.streamOf
    rw [h]
  unfold DieState.streamTimeout
  rw [if_pos hg]
  by_cases hsafe : seSafety (stpEntry D.stp.active 0 i) = true
  · simp only [hsafe, if_true]
    exact ⟨hs _ (by simp; rfl), by simp; rfl⟩
  · simp only [hsafe]
    exact ⟨hs _ (by simp; rfl), by simp; rfl⟩

end

/-! ## Poses (R87) -/

section
variable {D : DieState} {c : Cmd}

theorem DieState.takePose_takes {k x : Nat} {b : List Byte} {rest : List (Nat × List Byte × Nat)}
    (h : D.stp.poses = (k, b, x) :: rest) : D.takePose =
      ({ D with stp := { D.stp with poses := rest
                                    active := memWrite D.stp.active (3 * 2 ^ 20 + field (stpEntry D.stp.active 0 k) 26 1 * 80) b } }
        : DieState).replyId x .ok := by
  unfold DieState.takePose
  rw [h]

theorem streamPose_runs (hz : zeros c.params 2 6 = true) (hk : c.p 0 2 < 256)
    (hen : seEnabled (stpEntry D.stp.active 0 (c.p 0 2)) = true) (hmob : seMobile (stpEntry D.stp.active 0 (c.p 0 2)) = true)
    (hown : (if seComb (stpEntry D.stp.active 0 (c.p 0 2)) = true
      then D.targetOwner (seTarget (stpEntry D.stp.active 0 (c.p 0 2))) == c.inst
      else (match D.queueSession (D.queue c.queue) with | some s => decide (1 ≤ s.role) | none => false)) = true) :
    runM (streamPose c) D = (.ok none, { D.started c.id with
      stp := { D.stp with poses := D.stp.poses ++ [(c.p 0 2, padTo 72 (c.params.drop 8), c.id)] } }) := by
  have hok : (decide (c.p 0 2 < 256) && seEnabled (stpEntry D.stp.active 0 (c.p 0 2))
      && seMobile (stpEntry D.stp.active 0 (c.p 0 2))) = true := by simp [hk, hen, hmob]
  unfold streamPose
  rw [runM_get_bind, runM_okField_bind _ _ _ hz, runM_okField_bind _ _ _ hok]
  refine (runM_guardS_bind .refusedRole 0 _ D ?_).trans (runM_onD_bind _ _ D)
  exact hown

/-! ## Host-fed packets (R99, R100) -/

theorem hostfeed_runs (h1 : 1 ≤ c.p 8 4) (h2 : c.p 8 4 ≤ 65536) (href : bit (c.p 12 4) 24 = false ∨ refOk (c.p 12 4) = true) :
    runM (hostfeed c) D = (.ok none, { D.started c.id with stp := { D.stp with
      feeds := D.stp.feeds ++ [{ cmd := c.id, addr := c.p 0 8, left := c.p 8 4, sealRef := c.p 12 4 }] } }) := by
  have hn : (decide (1 ≤ c.p 8 4) && decide (c.p 8 4 ≤ 65536)) = true := by simp [h1, h2]
  have hr : (!bit (c.p 12 4) 24 || refOk (c.p 12 4)) = true := by rcases href with h | h <;> simp [h]
  unfold hostfeed
  rw [runM_okField_bind _ _ _ hn, runM_okField_bind _ _ _ hr]
  exact runM_onD_bind _ _ D

/-- A feed without its entry in the list of feeds. -/
def DieState.feedOver (D : DieState) (id : Nat) : DieState :=
  { D with stp := { D.stp with feeds := D.stp.feeds.filter (fun g => g.cmd != id) } }

/-- How a feed goes on from the end of its next packet. -/
def DieState.feedEnds (D : DieState) (c : Cmd) (f : HostFeed) : Except Fail (Option (Bool × Nat)) → DieState
  | .error e => (D.feedOver c.id).reply c e.status
  | .ok none => D
  | .ok (some (ok, next)) => D.feedCount c f ok next

theorem DieState.feedNext_eq {id : Nat} {f : HostFeed} (hf : D.stp.feeds.find? (fun f => f.cmd == id) = some f)
    (hc : D.cmdOf id = some c) :
    D.feedNext id = D.withParams c.id c.inst (feedPacket c f) (fun r E => E.feedEnds c f r) := by
  unfold DieState.feedNext
  rw [hf, hc]
  refine congrArg (D.withParams c.id c.inst (feedPacket c f)) (funext fun r => funext fun E => ?_)
  match r with
  | .error _ => rfl
  | .ok none => rfl
  | .ok (some (_, _)) => rfl

/-- The count of a feed after its next packet. -/
def feedMoved (f : HostFeed) (ok : Bool) (next : Nat) : HostFeed :=
  { f with addr := next, left := f.left - 1, accepted := f.accepted + b2n ok, dropped := f.dropped + b2n (!ok) }

theorem DieState.feedCount_more {f : HostFeed} {ok : Bool} {next : Nat} (h : f.left - 1 ≠ 0) :
    D.feedCount c f ok next = { D with stp := { D.stp with
      feeds := D.stp.feeds.map (fun g => if g.cmd = c.id then feedMoved f ok next else g) } } := if_neg h

theorem DieState.feedCount_last {f : HostFeed} {ok : Bool} {next : Nat} (h : f.left - 1 = 0) :
    D.feedCount c f ok next = (if bit f.sealRef 24 = true then (D.feedOver c.id).jobSignal f.sealRef 1 else D.feedOver c.id).reply
      c .ok 0 (toLE 4 (feedMoved f ok next).accepted ++ toLE 4 (feedMoved f ok next).dropped) := if_pos h

end

/-- Settles O38: each row by the equation of its function, a feed by what becomes of its next packet. -/
theorem packetsPosesAndStreamsAreTaken : Obligations.PacketsPosesAndStreamsAreTaken := by
  intro s a id i c hup D
  refine ⟨fun p hp => ?_, ?_, fun hr => ?_, fun k b x rest h => ?_, fun hr h1 h2 href => ?_, fun f hf hc => ?_⟩
  · intro E x
    have hnext := fun F (hF : E.parsePacket p = F) => DieState.parseNext_takes (D := D) hp rfl hF
    refine ⟨fun hbad => onDie_eq hup ((hnext _ (DieState.parsePacket_drops hbad)).trans ?_),
      fun hgood => onDie_eq hup (hnext _ (DieState.parsePacket_parses hgood))⟩
    rw [DieState.stpDrop_stp]
  · intro e hen ht habs hlast
    obtain ⟨hs, hd⟩ := DieState.streamTimeout_silent (D := D) hen ht habs hlast
    refine ⟨_, onDie_eq hup rfl, ?_⟩
    rw [State.die_put, hs]
    exact ⟨rfl, rfl, hd⟩
  · intro k e session hz hk hen hmob hown
    exact onDie_eq hup (DieState.runCmd_replyOpt_none hr (streamPose_runs hz hk hen hmob hown))
  · exact onDie_eq hup (DieState.takePose_takes h)
  · exact onDie_eq hup (DieState.runCmd_replyOpt_none hr (hostfeed_runs h1 h2 href))
  · intro rest
    have heq := DieState.feedNext_eq hf hc
    refine ⟨_, onDie_eq hup rfl, fun ok nx D' hrun => ⟨fun h => ?_, fun h => ?_⟩, fun D' hrun => ?_, fun f' D' hrun hn => ?_,
      fun f' D' g n hrun hn => ?_⟩
    · exact (heq.trans (D.withParams_ok D' _ _ _ _ _ hrun)).trans (DieState.feedCount_more h)
    · exact (heq.trans (D.withParams_ok D' _ _ _ _ _ hrun)).trans (DieState.feedCount_last h)
    · exact heq.trans (D.withParams_ok D' _ _ _ _ _ hrun)
    · exact heq.trans (D.withParams_error D' _ _ _ _ _ hrun hn)
    · exact heq.trans (D.withParams_need D' _ _ _ _ _ _ _ hrun hn)

end Sys2Proof.Machine
end

section
/-! PROOFS. The table window and replay (O39). -/

open Sys2Proof

namespace Sys2Proof.Machine

/-- A choice by a bit, its clear case first. -/
theorem ite_bool_swap {α : Type} (b : Bool) (x y : α) : (if b = true then x else y) = if b = false then y else x := by
  cases b
  · rfl
  · rfl

/-- A write of a register that the firewall admits, where the row's condition on the written value holds. -/
theorem onDie_csrDo {s : State} {a : At} {r : Req} {b off : Nat} {cond : DieState → Prop} [∀ D, Decidable (cond D)]
    {body : DieState → DieState} {E : DieState} (hup : s.up a) (hadm : (s.dieAt a).admits r b off true)
    (hcond : cond (s.dieAt a)) (hbody : body ((s.dieAt a).touchSession r) = E) :
    onDie a s (fun D => if cond D then D.csrDo r b off body else D) = .next (s.put a E) :=
  onDie_eq hup ((if_pos hcond).trans ((DieState.csrDo_admitted _ _ _ _ _ hadm).trans hbody))

/-- Settles O39: the table window and the control register by the equations of their writes. -/
theorem tableWindowAndReplayWrites : Obligations.TableWindowAndReplayWrites := by
  intro s a r v n hup D T sel k put X Y
  refine ⟨fun hadm => ?_, fun hadm => ?_⟩
  · have htbl : T.tblCtrl r v.toNat = Y := by
      unfold DieState.tblCtrl
      simp only [Bool.not_eq_true', ite_bool_swap (bit v.toNat 0), ite_bool_swap (bit v.toNat 1)]
      exact rfl
    exact ⟨fun h => onDie_csrDo (cond := fun _ => bit v.toNat 0 = true) hup hadm h htbl,
      fun h => onDie_csrDo (cond := fun _ => bit v.toNat 1 = true) hup hadm h htbl⟩
  · intro old E F G K
    have hctrl : ∀ n, T.stpCtrl v.toNat n = K n := fun n => by
      unfold DieState.stpCtrl
      simp only [beq_iff_eq, Option.isNone_iff_eq_none, Bool.and_eq_true]
      exact rfl
    refine ⟨fun h => onDie_eq hup ?_, fun h => onDie_csrDo (cond := fun _ => bit v.toNat 2 = true) hup hadm h (hctrl n),
      fun h => onDie_csrDo (cond := fun _ => bit v.toNat 3 = true) hup hadm h (hctrl _)⟩
    rw [if_neg (by rw [beq_iff_eq]; exact h), DieState.csrDo_admitted _ _ _ _ _ hadm]
    exact hctrl n

end Sys2Proof.Machine
end

section
/-! PROOFS. Slices and frames turn (O40). -/

open Sys2Proof

namespace Sys2Proof.Machine

/-! ## Markers (R92) -/

section
variable {D : DieState}

/-- A marker behind a packet waits in the intake. -/
theorem DieState.mark_waits {p : IntakePkt} {q : List IntakeItem} (m : IntakeItem) (h : D.stp.intake = .pkt p :: q) :
    D.mark m = { D with stp := { D.stp with intake := D.stp.intake ++ [m] } } := by
  unfold DieState.mark
  rw [h]
  exact rfl

/-- A slice marker on an empty intake leaves it at once. -/
theorem DieState.mark_passes (e : SliceEnd) (h : D.stp.intake = []) : D.mark (.slice e) = D.emitMarker (.slice e) := by
  have hD : ({ D with stp := { D.stp with intake := [] } } : DieState) = D := by rw [← h]
  unfold DieState.mark
  rw [h]
  exact congrArg (fun E : DieState => E.emitMarker (.slice e)) hD

/-! ## Boundaries (R36, R37) -/

theorem DieState.sliceBoundary_due (hb : D.boot.stage = 7) (hr : D.stp.replay = false)
    (ht : D.stp.sliceAt < D.now / D.sliceNs * D.sliceNs) : D.sliceBoundary =
      let E := D.mark (.slice
        { time := D.now / D.sliceNs * D.sliceNs, frame := D.stp.frame, slice := D.sliceIndex, replay := false })
      { E with stp := { E.stp with sliceAt := D.now / D.sliceNs * D.sliceNs } } := by
  have hdue : D.sliceDue = some (D.now / D.sliceNs * D.sliceNs) := by
    unfold DieState.sliceDue
    simp [hb, hr, ht]
  unfold DieState.sliceBoundary DieState.closeSlice
  rw [hdue, hr]

theorem DieState.frameDue_isNone (hb : D.boot.stage = 7) (hr : D.stp.replay = false)
    (ht : D.stp.frameAt < D.now / D.frameNs * D.frameNs) : D.frameDue.isNone = false := by
  unfold DieState.frameDue
  simp [hb, hr, ht]

theorem DieState.frameDue_none (h : D.stp.replay = true ∨ D.now / D.frameNs * D.frameNs ≤ D.stp.frameAt) :
    D.frameDue.isNone = true := by
  unfold DieState.frameDue
  rcases h with h | h
  · simp [h]
  · simp [Nat.not_lt.mpr h]

/-! ## The judgement of a frame's deadline (R525, R532) -/

/-- No condition exempts the die from the judgement of frame n + 1. -/
theorem DieState.judge_exempt (n : Nat) (hrun : D.saf.running = true) (hdown : D.saf.down = none) (hsv : D.saf.service = none)
    (hnet : D.netOn = true) :
    (!D.saf.running || D.saf.down.isSome || D.saf.service.isSome || !D.netOn || n + 1 == 0) = false := by
  simp [hrun, hdown, hsv, hnet]

theorem DieState.judge_missing (n : Nat) (hrun : D.saf.running = true) (hdown : D.saf.down = none) (hsv : D.saf.service = none)
    (hnet : D.netOn = true) (hacc : D.saf.accepted.contains n = false) (hcheck : D.saf.checkFrom = none) :
    D.judge (n + 1) = D.onSaf (fun x => { x with missing := true, clean := 0 }) := by
  unfold DieState.judge
  rw [if_neg (by rw [DieState.judge_exempt n hrun hdown hsv hnet]; exact Bool.false_ne_true), Nat.add_sub_cancel,
    if_neg (by rw [hacc]; exact Bool.false_ne_true)]
  simp only [DieState.onSaf, hcheck]
  exact if_neg Bool.false_ne_true

/-- The island after a clean frame. -/
def SafState.cleanFrame (x : SafState) : SafState := { x with missing := false, clean := min 2 (x.clean + 1) }

/-- A clean frame is counted; the second of a row gives the network path the authority. -/
theorem DieState.judge_clean (n : Nat) (hrun : D.saf.running = true) (hdown : D.saf.down = none) (hsv : D.saf.service = none)
    (hnet : D.netOn = true) (hacc : D.saf.accepted.contains n = true) (hproof : D.proofMatched (n + 1) = true)
    (hdirty : D.saf.dirty = false) (hact : D.saf.active = 0) (hd : D.doubts = []) :
    (D.judge (n + 1)).saf =
      if D.saf.cleanFrame.clean = 2 ∧ D.saf.cleanFrame.network = false ∧ D.saf.cleanFrame.latched = false then
        { D.saf.cleanFrame with network := true } else D.saf.cleanFrame := by
  have hclean : ((D.onSaf (fun x => { x with missing := false })).proofMatched (n + 1)
      && !(D.onSaf (fun x => { x with missing := false })).saf.dirty
      && (D.onSaf (fun x => { x with missing := false })).saf.active == 0
      && (D.onSaf (fun x => { x with missing := false })).doubts.isEmpty) = true := by
    refine Bool.and_eq_true_iff.mpr ⟨Bool.and_eq_true_iff.mpr ⟨Bool.and_eq_true_iff.mpr ⟨hproof, ?_⟩, ?_⟩, ?_⟩
    · simp [DieState.onSaf, hdirty]
    · simp [DieState.onSaf, hact]
    · simp [DieState.onSaf, hd]
  unfold DieState.judge
  rw [if_neg (by rw [DieState.judge_exempt n hrun hdown hsv hnet]; exact Bool.false_ne_true), Nat.add_sub_cancel, if_pos hacc,
    if_pos hclean, apply_ite DieState.saf]
  refine if_congr Iff.rfl ?_ rfl
  rw [apply_ite DieState.saf, DieState.out_saf, ite_self, DieState.event_saf, DieState.cause_saf]
  exact rfl

end

theorem State.frameBoundary_eq (s : State) (a : At) : s.frameBoundary a =
    if (s.dieAt a).frameDue.isNone = true then s.put a (s.dieAt a)
    else ((((s.put a (s.dieAt a)).onDie a.die (fun D => D.takeDoubts)).activateAll a.time).onDie a.die
      (fun D => D.frameTurn)).settleWorks := by
  unfold State.frameBoundary
  rw [State.atDie_id]
  simp only [State.die_put]

/-- Settles O40: markers by what the intake holds, boundaries by the time base, the authority by the judgement of the deadline. -/
theorem slicesAndFramesTurn : Obligations.SlicesAndFramesTurn := by
  intro s a hup D
  refine ⟨fun hb hr ht => onDie_eq hup (DieState.sliceBoundary_due hb hr ht),
    fun e => ⟨fun p q h => DieState.mark_waits _ h, DieState.mark_passes e⟩, fun hb hr ht => ?_, fun h => ?_,
    fun n hrun hdown hsv hnet hacc hcheck => ?_, fun n hrun hdown hsv hnet hacc hproof hdirty hact hd => ?_⟩
  · refine running_eq hup ((State.frameBoundary_eq s a).trans (if_neg ?_))
    rw [DieState.frameDue_isNone hb hr ht]
    exact Bool.false_ne_true
  · exact running_eq hup ((State.frameBoundary_eq s a).trans (if_pos (DieState.frameDue_none h)))
  · rw [DieState.judge_missing n hrun hdown hsv hnet hacc hcheck]
    exact ⟨rfl, rfl⟩
  · rw [DieState.judge_clean n hrun hdown hsv hnet hacc hproof hdirty hact hd]
    refine ⟨by split <;> rfl, fun h1 hl => ?_, fun h0 => ?_⟩
    · have h2 : D.saf.cleanFrame.clean = 2 := by simp only [SafState.cleanFrame]; omega
      by_cases hn : D.saf.cleanFrame.network = false
      · rw [if_pos ⟨h2, hn, hl⟩]
      · rw [if_neg (fun h => hn h.2.1)]
        exact Bool.not_eq_false _ ▸ hn
    · rw [if_neg (fun h => by have := h.1; simp only [SafState.cleanFrame] at this; omega)]
      exact rfl

end Sys2Proof.Machine
end

section
/-! PROOFS. The comb builder's buffers and frames (R117, R126-R128), used by O41. -/

open Sys2Proof

namespace Sys2Proof.Machine

/-! ## Buffers of a target -/

theorem CombTarget.buf_setBuf (T : CombTarget) (k : Nat) (b : CombBuf) : (T.setBuf k b).buf k = b := by
  unfold CombTarget.setBuf CombTarget.buf
  match k with
  | 0 | 1 | 2 | _ + 3 => rfl

theorem CombTarget.buf_setBuf_other (T : CombTarget) {j k : Nat} (b : CombBuf) (hj : j < 4) (hk : k < 4) (h : k ≠ j) :
    (T.setBuf j b).buf k = T.buf k := by
  unfold CombTarget.setBuf CombTarget.buf
  match j, k with
  | 0, 0 | 1, 1 | 2, 2 | 3, 3 => exact absurd rfl h
  | 0, 1 | 0, 2 | 0, 3 | 1, 0 | 1, 2 | 1, 3 | 2, 0 | 2, 1 | 2, 3 | 3, 0 | 3, 1 | 3, 2 => rfl

/-- A target with a buffer in use is none that the table leaves out. -/
theorem CombTarget.ne_default {T : CombTarget} {k : Nat} (h : (T.buf k).phase ≠ .none) : T ≠ {} := by
  intro hT
  subst hT
  unfold CombTarget.buf at h
  match k with
  | 0 | 1 | 2 | _ + 3 => exact h rfl

section
variable (D : DieState) (t : Nat) (T : CombTarget)

theorem DieState.combTarget_setTarget (h : T ≠ {}) : (D.setTarget t T).combTarget t = T := by
  have hset : (D.setTarget t T).comb.targets = tabPut t T D.comb.targets := if_neg h
  unfold DieState.combTarget
  rw [hset]
  exact tabGetF_put_same _ t T _

theorem DieState.combTarget_setTarget_other {n : Nat} (h : n ≠ t) : (D.setTarget t T).combTarget n = D.combTarget n :=
  tabGet_set_other ({} : CombTarget) t n T D.comb.targets h

end

/-! ## One target changes -/

/-- The builder's state differs at most at one target. -/
def DieState.CombAt (t : Nat) (D E : DieState) : Prop :=
  E.comb = { D.comb with targets := E.comb.targets } ∧ ∀ n, n ≠ t → E.combTarget n = D.combTarget n

section
variable {D E : DieState} {t : Nat}

theorem DieState.combAt_refl (D : DieState) : D.CombAt t D := ⟨rfl, fun _ _ => rfl⟩

theorem DieState.combAt_setTarget (D : DieState) (T : CombTarget) : D.CombAt t (D.setTarget t T) :=
  ⟨rfl, fun _ h => D.combTarget_setTarget_other t T h⟩

theorem DieState.CombAt.trans {F : DieState} (h : D.CombAt t E) (g : E.CombAt t F) : D.CombAt t F :=
  ⟨by rw [g.1, h.1], fun n hn => (g.2 n hn).trans (h.2 n hn)⟩

theorem DieState.combAt_of_comb (h : E.comb = D.comb) : D.CombAt t E :=
  ⟨by rw [h], fun n _ => by unfold DieState.combTarget; rw [h]⟩

/-! ## A comb opens, ends, and its frame closes (R126-R128) -/

theorem DieState.openComb_combAt (D : DieState) (o : FrameOpen) : D.CombAt t (D.openComb t o) := by
  unfold DieState.openComb
  dsimp only
  split
  · exact D.combAt_refl
  · split
    · exact D.combAt_setTarget _
    · exact D.combAt_setTarget _

/-- A comb that is to be sorted stays so when the next one opens: its buffer is not free. -/
theorem DieState.openComb_sorting {k : Nat} (o : FrameOpen) (hk : k < 4) (h : (D.combBuf t k).phase = .sorting) :
    ((D.openComb t o).combBuf t k).phase = .sorting := by
  have hkeep : ∀ T : CombTarget, T.buf k = D.combBuf t k → ((D.setTarget t T).combBuf t k).phase = .sorting := fun T hT => by
    have hne : T ≠ {} := CombTarget.ne_default (k := k) (by rw [hT, h]; exact CombPhase.noConfusion)
    unfold DieState.combBuf
    rw [D.combTarget_setTarget t T hne, hT]
    exact h
  unfold DieState.openComb
  dsimp only
  split
  · exact h
  · split
    · exact hkeep _ rfl
    · next j hj =>
      have hfree := List.find?_some hj
      have hj4 : j < 4 := List.mem_range.mp (List.mem_of_find?_eq_some hj)
      have hkj : k ≠ j := fun hkj => by
        subst hkj
        have : (D.combBuf t k).phase = .free := by simpa [DieState.combBuf] using hfree
        rw [h] at this
        exact CombPhase.noConfusion this
      exact hkeep _ ((CombTarget.buf_setBuf_other _ _ hj4 hk hkj))

/-- The end of target t's comb: its buffer is to be sorted, and its scatter is queued. -/
def DieState.CombEnded (t : Nat) (D E : DieState) : Prop :=
  E.comb = { D.comb with targets := E.comb.targets
                         jobs := D.comb.jobs ++ ((D.combTarget t).building.map (fun k => CombJob.scatter t k)).toList } ∧
  (∀ n, n ≠ t → E.combTarget n = D.combTarget n) ∧
  ∀ k, (D.combTarget t).building = some k → (E.combBuf t k).phase = .sorting

theorem DieState.endComb_ended (D : DieState) (t : Nat) : D.CombEnded t (D.endComb t) := by
  unfold DieState.endComb
  match hb : (D.combTarget t).building with
  | none => exact ⟨by rw [hb]; simp, fun _ _ => rfl, fun k h => by cases hb.symm.trans h⟩
  | some k =>
    have hT : ((D.combTarget t).setBuf k { D.combBuf t k with phase := .sorting }).buf k =
        { D.combBuf t k with phase := .sorting } := CombTarget.buf_setBuf _ k _
    have hget : (D.onBuf t k (fun b => { b with phase := .sorting })).combTarget t =
        (D.combTarget t).setBuf k { D.combBuf t k with phase := .sorting } :=
      D.combTarget_setTarget t _ (CombTarget.ne_default (k := k) (by rw [hT]; exact CombPhase.noConfusion))
    have hat := (D.combAt_setTarget (t := t) ((D.combTarget t).setBuf k { D.combBuf t k with phase := .sorting })).trans
      (DieState.combAt_setTarget (D.onBuf t k (fun b => { b with phase := .sorting }))
        { (D.onBuf t k (fun b => { b with phase := .sorting })).combTarget t with building := none })
    refine ⟨by rw [hb]; exact rfl, hat.2, fun j hj => ?_⟩
    obtain rfl : k = j := Option.some.inj (hb.symm.trans hj)
    have hbuf : ({ (D.onBuf t k (fun b => { b with phase := .sorting })).combTarget t with building := none } : CombTarget).buf k =
        { D.combBuf t k with phase := .sorting } := by
      rw [hget]
      exact hT
    have hset := DieState.combTarget_setTarget (D.onBuf t k (fun b => { b with phase := .sorting })) t
      { (D.onBuf t k (fun b => { b with phase := .sorting })).combTarget t with building := none }
      (CombTarget.ne_default (k := k) (by rw [hbuf]; exact CombPhase.noConfusion))
    exact (congrArg (fun T : CombTarget => (T.buf k).phase) hset).trans (congrArg CombBuf.phase hbuf)

/-- The end of a comb stays one through what changes its target alone and keeps its buffers. -/
theorem DieState.CombEnded.trans {F : DieState} (h : D.CombEnded t E) (g : E.CombAt t F)
    (hs : ∀ k, (D.combTarget t).building = some k → (E.combBuf t k).phase = .sorting → (F.combBuf t k).phase = .sorting) :
    D.CombEnded t F :=
  ⟨by rw [g.1, h.1], fun n hn => (g.2 n hn).trans (h.2.1 n hn), fun k hk => hs k hk (h.2.2 k hk)⟩

theorem DieState.CombEnded.of_comb {F : DieState} (h : D.CombEnded t E) (hc : F.comb = E.comb) : D.CombEnded t F :=
  h.trans (DieState.combAt_of_comb hc) (fun k _ hs => by unfold DieState.combBuf DieState.combTarget; rw [hc]; exact hs)

/-- A target's counts of the frame start anew. -/
theorem DieState.CombEnded.reset (h : D.CombEnded t E) :
    D.CombEnded t (E.setTarget t { E.combTarget t with missedFrame := 0, dead := false, skipped := none }) := by
  refine h.trans (E.combAt_setTarget _) (fun k _ hs => ?_)
  have hset := E.combTarget_setTarget t { E.combTarget t with missedFrame := 0, dead := false, skipped := none }
    (CombTarget.ne_default (k := k) (fun hn => CombPhase.noConfusion (hs.symm.trans hn)))
  exact (congrArg (fun T : CombTarget => (T.buf k).phase) hset).trans hs

theorem DieState.closeFrameAt_ended (D : DieState) (old : Option FrameOpen) (t : Nat) : D.CombEnded t (D.closeFrameAt old t) := by
  have hend := D.endComb_ended t
  unfold DieState.closeFrameAt
  dsimp only
  split
  · exact hend.reset
  · exact (hend.of_comb (DieState.event_comb _ _)).reset

/-- One target's turn at a frame marker. -/
def DieState.frameTarget (old : Option FrameOpen) (o : FrameOpen) (D : DieState) (t : Nat) : DieState :=
  (D.closeFrameAt old t).openComb t o

end

/-- What the frame marker has done once its targets l have had their turn. -/
structure DieState.FrameClosed (l : List Nat) (D E : DieState) : Prop where
  comb : E.comb = { D.comb with
    targets := E.comb.targets
    jobs := D.comb.jobs ++ l.filterMap (fun n => (D.combTarget n).building.map (fun k => CombJob.scatter n k)) }
  others : ∀ n, n ∉ l → E.combTarget n = D.combTarget n
  sorting : ∀ n ∈ l, ∀ k, k < 4 → (D.combTarget n).building = some k → (E.combBuf n k).phase = .sorting

theorem DieState.frameTarget_closed (old : Option FrameOpen) (o : FrameOpen) (D : DieState) (t : Nat) :
    D.FrameClosed [t] (D.frameTarget old o t) := by
  obtain ⟨hcomb, hothers, hsort⟩ := D.closeFrameAt_ended old t
  obtain ⟨hcomb', hothers'⟩ := (D.closeFrameAt old t).openComb_combAt (t := t) o
  refine ⟨?_, fun n hn => ?_, fun n hn k hk hb => ?_⟩
  · have hone : [t].filterMap (fun n => (D.combTarget n).building.map (fun k => CombJob.scatter n k)) =
        ((D.combTarget t).building.map (fun k => CombJob.scatter t k)).toList := by
      cases h : (D.combTarget t).building <;> simp [h]
    unfold DieState.frameTarget
    rw [hone, hcomb', hcomb]
  · have hn' : n ≠ t := by simpa using hn
    exact (hothers' n hn').trans (hothers n hn')
  · obtain rfl : n = t := by simpa using hn
    exact DieState.openComb_sorting o hk (hsort k hb)

theorem DieState.frameTargets_closed (old : Option FrameOpen) (o : FrameOpen) :
    ∀ (l : List Nat), l.Nodup → ∀ D : DieState, D.FrameClosed l (l.foldl (DieState.frameTarget old o) D) := by
  intro l
  induction l with
  | nil => exact fun _ D => ⟨by simp, fun _ _ => rfl, fun _ h => absurd h List.not_mem_nil⟩
  | cons t l ih =>
    intro hnd D
    obtain ⟨ht, hl⟩ := List.nodup_cons.mp hnd
    have h1 := D.frameTarget_closed old o t
    have h2 := ih hl (D.frameTarget old o t)
    have hsame : ∀ n ∈ l, (D.frameTarget old o t).combTarget n = D.combTarget n := fun n hn =>
      h1.others n (fun h => ht (List.mem_singleton.mp h ▸ hn))
    refine ⟨?_, fun n hn => ?_, fun n hn k hk hb => ?_⟩
    · have hjobs : l.filterMap (fun n => ((D.frameTarget old o t).combTarget n).building.map (fun k => CombJob.scatter n k)) =
          l.filterMap (fun n => (D.combTarget n).building.map (fun k => CombJob.scatter n k)) :=
        List.filterMap_congr (fun n hn => by rw [hsame n hn])
      have hcons : (t :: l).filterMap (fun n => (D.combTarget n).building.map (fun k => CombJob.scatter n k)) =
          [t].filterMap (fun n => (D.combTarget n).building.map (fun k => CombJob.scatter n k)) ++
            l.filterMap (fun n => (D.combTarget n).building.map (fun k => CombJob.scatter n k)) :=
        List.filterMap_append (l := [t])
      rw [List.foldl_cons, h2.comb, hjobs, h1.comb, hcons, List.append_assoc]
    · rw [List.mem_cons, not_or] at hn
      exact (h2.others n hn.2).trans (h1.others n (fun h => hn.1 (List.mem_singleton.mp h)))
    · rw [List.foldl_cons]
      rcases List.mem_cons.mp hn with rfl | hn
      · have hkeep := h2.others n ht
        unfold DieState.combBuf
        rw [hkeep]
        exact h1.sorting n (List.mem_singleton.mpr rfl) k hk hb
      · exact h2.sorting n hn k hk (by rw [hsame n hn]; exact hb)

end Sys2Proof.Machine
end

section
/-! PROOFS. The comb builder's commands and jobs (O41). -/

open Sys2Proof

namespace Sys2Proof.Machine

section
variable {D : DieState} {c : Cmd}

/-! ## The target and the buffer of a command (R131, R132) -/

/-- The command names a target that its own INS entry owns. -/
def DieState.OwnsTarget (D : DieState) (c : Cmd) : Prop :=
  c.p 0 1 < 8 ∧ cdOwner (D.combPlate (c.p 0 1)) ≠ 0 ∧ cdOwner (D.combPlate (c.p 0 1)) = c.inst

/-- The command names a buffer of its own, by its generation, in a phase. -/
def DieState.NamesBuf (D : DieState) (c : Cmd) (ph : CombPhase) : Prop :=
  D.OwnsTarget c ∧ c.p 1 1 < 4 ∧ (D.combBuf (c.p 0 1) (c.p 1 1)).phase = ph ∧ (D.combBuf (c.p 0 1) (c.p 1 1)).gen = c.p 2 1

theorem namedTarget_runs (h : D.OwnsTarget c) : runM (namedTarget c) D = (.ok (c.p 0 1), D) := by
  obtain ⟨ht, h0, hi⟩ := h
  have howner : (cdOwner (D.combPlate (c.p 0 1)) != 0 && cdOwner (D.combPlate (c.p 0 1)) == c.inst) = true := by
    rw [Bool.and_eq_true]
    exact ⟨bne_iff_ne.mpr h0, beq_iff_eq.mpr hi⟩
  unfold namedTarget
  rw [runM_get_bind, runM_okField_bind _ _ _ (by simpa using ht)]
  exact runM_guardS_bind .refusedRole 0 _ D howner

theorem namedTarget_inv {t : Nat} {D' : DieState} (h : runM (namedTarget c) D = (.ok t, D')) :
    D' = D ∧ t = c.p 0 1 ∧ D.OwnsTarget c := by
  unfold namedTarget at h
  rw [runM_get_bind] at h
  obtain ⟨ht, h⟩ := okField_bind_inv h
  obtain ⟨hi, h⟩ := guardS_bind_inv h
  cases h
  simp only [decide_eq_true_eq] at ht
  simp only [bne_iff_ne, Bool.and_eq_true, beq_iff_eq] at hi
  exact ⟨rfl, rfl, ht, hi⟩

theorem namedBuf_runs {ph : CombPhase} (h : D.NamesBuf c ph) : runM (namedBuf c ph) D = (.ok (c.p 0 1, c.p 1 1), D) := by
  obtain ⟨hmine, hk, hph, hgen⟩ := h
  have hg : (decide (c.p 1 1 < 4) && (D.combBuf (c.p 0 1) (c.p 1 1)).phase == ph
      && (D.combBuf (c.p 0 1) (c.p 1 1)).gen == c.p 2 1) = true := by simp [hk, hph, hgen]
  unfold namedBuf
  rw [runM_bind_ok _ _ _ _ _ (namedTarget_runs hmine), runM_get_bind]
  exact runM_guardS_bind .faultStaleGeneration 0 _ D hg

/-! ## The commands (R131-R133, R140) -/

/-- What COMB_STATUS answers. -/
def DieState.combReport (D : DieState) (t : Nat) : List Byte :=
  (List.range 4).flatMap (fun k => toLE 1 (D.combBuf t k).phase.code ++ toLE 1 (D.combBuf t k).gen)
    ++ toLE 8 (min (D.combTarget t).missed (2 ^ 64 - 1))

theorem combStatus_runs (h : D.OwnsTarget c) : runM (combStatus c) D = (.ok (D.combReport (c.p 0 1)), D) := by
  unfold combStatus
  rw [runM_bind_ok _ _ _ _ _ (namedTarget_runs h), runM_get_bind]
  exact rfl

section
variable {D1 D2 D3 : DieState} {pairs parts : List (Nat × Nat)} {digits : List Nat} (hn : D.NamesBuf c .closed)
  (h1 : runM (readPairs (D.combBuf (c.p 0 1) (c.p 1 1))) D = (.ok pairs, D1))
  (h2 : runM (readParts (D.combBuf (c.p 0 1) (c.p 1 1))) D1 = (.ok parts, D2))
  (h3 : runM (buildDigits (D.combBuf (c.p 0 1) (c.p 1 1))) D2 = (.ok digits, D3))
include hn h1 h2 h3

/-- A publication whose checks pass queues its job. -/
theorem combPublish_queues (hok : sortOk pairs parts digits = true) :
    let F := (D3.started c.id).onBuf (c.p 0 1) (c.p 1 1) (fun b => { b with phase := .publishing })
    runM (combPublish c) D =
      (.ok none, { F with comb := { F.comb with jobs := F.comb.jobs ++ [.publish (c.p 0 1) (c.p 1 1) c.id] } }) := by
  unfold combPublish
  rw [runM_bind_ok _ _ _ _ _ (namedBuf_runs hn)]
  dsimp only
  rw [runM_get_bind, runM_bind_ok _ _ _ _ _ h1, runM_bind_ok _ _ _ _ _ h2, runM_bind_ok _ _ _ _ _ h3,
    runM_guardS_bind _ _ _ _ hok, runM_onD_bind]
  exact runM_onD_bind _ _ _

theorem combPublish_fails (hok : sortOk pairs parts digits = false) :
    runM (combPublish c) D = (.error { status := .faultMetadata }, D3) := by
  unfold combPublish
  rw [runM_bind_ok _ _ _ _ _ (namedBuf_runs hn)]
  dsimp only
  rw [runM_get_bind, runM_bind_ok _ _ _ _ _ h1, runM_bind_ok _ _ _ _ _ h2, runM_bind_ok _ _ _ _ _ h3]
  rw [hok]
  exact runM_bind_error _ _ _ _ _ (runM_guardS_false .faultMetadata 0 D3)

end

theorem combRelease_runs (hn : D.NamesBuf c .published) :
    let E := (D.started c.id).onBuf (c.p 0 1) (c.p 1 1) (fun b => { b with phase := .clearing })
    runM (combRelease c) D = (.ok none, (E.setTarget (c.p 0 1) { E.combTarget (c.p 0 1) with
      releases := (E.combTarget (c.p 0 1)).releases ++ [(c.p 1 1, c.id)] }).settleReleases) := by
  unfold combRelease
  rw [runM_bind_ok _ _ _ _ _ (namedBuf_runs hn)]
  dsimp only
  rw [runM_onD_bind, runM_onD_bind]
  exact runM_onD_bind _ _ _

/-- A job whose check passes is queued. -/
theorem combJob_queues {sealAt : Nat} {check : CombBuf → M Unit} (hn : D.NamesBuf c .published)
    (href : bit (c.p sealAt 4) 24 = false ∨ refOk (c.p sealAt 4) = true)
    (hcheck : runM (check (D.combBuf (c.p 0 1) (c.p 1 1))) D = (.ok (), D)) :
    runM (combJob sealAt check c) D =
      (.ok none, { D.started c.id with comb := { D.comb with jobs := D.comb.jobs ++ [.build (c.p 0 1) c.id] } }) := by
  have hr : (!bit (c.p sealAt 4) 24 || refOk (c.p sealAt 4)) = true := by rcases href with h | h <;> simp [h]
  unfold combJob
  rw [runM_bind_ok _ _ _ _ _ (namedBuf_runs hn)]
  dsimp only
  rw [runM_get_bind, runM_okField_bind _ _ _ hr, runM_bind_ok _ _ _ _ _ hcheck]
  exact runM_onD_bind _ _ _

theorem downCheck_passes {b : CombBuf} (hz : zeros c.params 3 1 = true) (hv : c.p 4 8 ≠ 0 ∨ cdV b.desc + 1 ≤ 14) :
    runM (downCheck c b) D = (.ok (), D) := by
  have hg : (c.p 4 8 != 0 || decide (cdV b.desc + 1 ≤ 14)) = true := by rcases hv with h | h <;> simp [h]
  unfold downCheck
  rw [runM_okField_bind _ _ _ hz, hg]
  exact runM_guardS_true _ _ _

theorem triCheck_passes {b : CombBuf} (hplane : cdPlane b.desc = true) (hv : cdV b.desc + c.p 3 1 ≤ 14)
    (hn : c.p 4 4 + c.p 8 4 ≤ min b.points (cdPoints b.desc)) : runM (triCheck c b) D = (.ok (), D) := by
  have hg : (cdPlane b.desc && decide (cdV b.desc + c.p 3 1 ≤ 14)) = true := by simp [hplane, hv]
  unfold triCheck
  rw [runM_guardS_bind _ _ _ _ hg, decide_eq_true hn]
  exact runM_guardS_true _ _ _

/-! ## COMB_BUFFERS (R116, R126) -/

/-- Buffer k of a target whose owner sets n buffers. -/
def ownedBuf (T : CombTarget) (o : List Byte) (lay : CombLayout) (k : Nat) : CombBuf :=
  if k < field o 32 1 then { phase := .clearing, base := field o (8 * k) 8, lay := lay, gen := (T.buf k).gen }
  else { gen := (T.buf k).gen }

/-- A target as its owner sets it. -/
def ownedTarget (T : CombTarget) (o : List Byte) (lay : CombLayout) : CombTarget :=
  { T with owned := o, buf0 := ownedBuf T o lay 0, buf1 := ownedBuf T o lay 1, buf2 := ownedBuf T o lay 2
           buf3 := ownedBuf T o lay 3, building := none, renewed := true }

/-- A target with a descriptor in each buffer. -/
def describedTarget (T : CombTarget) (d : List Byte) : CombTarget :=
  { T with buf0 := { T.buf 0 with desc := d }, buf1 := { T.buf 1 with desc := d }, buf2 := { T.buf 2 with desc := d }
           buf3 := { T.buf 3 with desc := d } }

theorem describedTarget_buf (T : CombTarget) (d : List Byte) (k : Nat) :
    (describedTarget T d).buf k = { T.buf k with desc := d } := by
  match k with
  | 0 | 1 | 2 | _ + 3 => rfl

theorem ownedTarget_buf (T : CombTarget) (o : List Byte) (lay : CombLayout) {k : Nat} (hk : k < 4) :
    (ownedTarget T o lay).buf k = ownedBuf T o lay k := by
  match k with
  | 0 | 1 | 2 | 3 => rfl

/-- A renewed target is none that the table leaves out. -/
theorem CombTarget.ne_default_of_renewed {T : CombTarget} (h : T.renewed = true) : T ≠ {} := fun hT => by
  rw [hT] at h
  exact Bool.noConfusion h

/-- A target that is set, and then described. -/
theorem DieState.combTarget_described (D : DieState) (t : Nat) {T : CombTarget} (d : List Byte) (h : T.renewed = true) :
    ((D.setTarget t T).setTarget t (describedTarget ((D.setTarget t T).combTarget t) d)).combTarget t = describedTarget T d := by
  rw [D.combTarget_setTarget t T (CombTarget.ne_default_of_renewed h)]
  exact DieState.combTarget_setTarget _ t _ (CombTarget.ne_default_of_renewed h)

/-- COMB_BUFFERS that passes: its checks, and the target it leaves. -/
theorem combBuffers_inv {rivals : List Nat} {d : List Byte} {D' : DieState} (h : runM (combBuffers rivals c) D = (.ok d, D')) :
    d = [] ∧ D.OwnsTarget c ∧ field (padTo 44 (c.params.drop 4)) 32 1 ≤ 4 ∧
      ∃ T desc lay, D'.combTarget (c.p 0 1) = describedTarget (ownedTarget T (padTo 44 (c.params.drop 4)) lay) desc := by
  unfold combBuffers at h
  obtain ⟨t, D0, hn, h⟩ := runM_bind_inv h
  obtain ⟨rfl, rfl, hmine⟩ := namedTarget_inv hn
  rw [runM_get_bind] at h
  obtain ⟨-, h⟩ := okField_bind_inv h
  obtain ⟨hcount, h⟩ := okField_bind_inv h
  obtain ⟨-, h⟩ := okField_bind_inv h
  obtain ⟨-, h⟩ := okField_bind_inv h
  obtain ⟨-, h⟩ := okField_bind_inv h
  obtain ⟨-, h⟩ := okField_bind_inv h
  obtain ⟨-, h⟩ := guardS_bind_inv h
  obtain ⟨-, h⟩ := guardS_bind_inv h
  obtain ⟨_, D1, -, h⟩ := runM_bind_inv h
  rw [runM_onD_bind, runM_onD_bind, runM_onD_bind] at h
  cases h
  simp only [Bool.and_eq_true, decide_eq_true_eq] at hcount
  refine ⟨rfl, hmine, hcount.2, D0.combTarget (c.p 0 1), ?_⟩
  exact ⟨_, descLayout (D0.combPlate (c.p 0 1)), D1.combTarget_described (c.p 0 1)
    (T := ownedTarget (D0.combTarget (c.p 0 1)) (padTo 44 (c.params.drop 4)) (descLayout (D0.combPlate (c.p 0 1)))) _ rfl⟩

/-! ## Jobs (R126-R133, R140) -/

/-- The job at the head of the builder's list, once its completion may be taken. -/
theorem DieState.takeJob_head {j : CombJob} {rest : List CombJob} {p : CombJob → Bool} (h : D.comb.jobs = j :: rest)
    (hp : p j = true) : D.takeJob p = some (j, { D with comb := { D.comb with jobs := rest } }) := by
  unfold DieState.takeJob
  rw [h]
  exact if_pos hp

/-- A renewed target whose clear is done opens the comb of the open frame. -/
def DieState.reopen (D : DieState) (t : Nat) : DieState :=
  match D.comb.frame, (D.combTarget t).renewed with
  | some o, true => D.openComb t { o with partFrame := o.partFrame || decide (D.stp.frameAt < D.now) }
  | _, _ => D

theorem DieState.clearDone_clears {t k : Nat} {rest : List CombJob} (hj : D.comb.jobs = .clear t k :: rest)
    (hgate : D.gateClosed (cdOwner (D.combPlate t)) = false)
    (hscrub : ∀ x ∈ D.ins.scrubs, x.inst ≠ cdOwner (D.combPlate t)) (hph : (D.combBuf t k).phase = .clearing) :
    let E : DieState := { D with comb := { D.comb with jobs := rest } }
    let F := execM (clearBuffer { E.combBuf t k with desc := E.combDesc t }) E
    D.clearDone = (F.onBuf t k (fun b => { b with phase := .free })).reopen t := by
  have hheld : (!(D.gateClosed (cdOwner (D.combPlate t)) || D.ins.scrubs.any (fun s => s.inst == cdOwner (D.combPlate t)))) = true := by
    simpa [hgate] using hscrub
  unfold DieState.clearDone
  dsimp only
  rw [D.takeJob_head hj hheld]
  exact if_neg (fun h => h hph)

theorem DieState.scatterDone_closes {t k : Nat} {rest : List CombJob} (hj : D.comb.jobs = .scatter t k :: rest)
    (hph : (D.combBuf t k).phase = .sorting) :
    let E : DieState := { D with comb := { D.comb with jobs := rest } }
    let F := (execM (scatterPairs (D.combBuf t k)) E).onBuf t k (fun b => { b with phase := .closed })
    D.scatterDone = F.combSeal (field (F.combBuf t k).desc 100 4) := by
  unfold DieState.scatterDone
  rw [D.takeJob_head hj rfl]
  exact if_neg (fun h => h hph)

/-- How a publication ends. -/
def publishEnds (t k n : Nat) : Except Fail Unit × DieState → DieState
  | (.ok _, D) =>
    ((D.onBuf t k (fun b => { b with phase := .published })).combSeal
      (field ((D.onBuf t k (fun b => { b with phase := .published })).combBuf t k).desc 104 4)).replyId n .ok
  | (.error f, D) => (D.onBuf t k (fun b => { b with phase := .closed })).replyId n f.status

theorem DieState.publishDone_ends {t k n : Nat} {rest : List CombJob} (hj : D.comb.jobs = .publish t k n :: rest)
    (hph : (D.combBuf t k).phase = .publishing) :
    D.publishDone = publishEnds t k n (runM (publishComb (D.combBuf t k)) { D with comb := { D.comb with jobs := rest } }) := by
  unfold DieState.publishDone
  rw [D.takeJob_head hj rfl]
  refine (if_neg (fun h => h hph)).trans ?_
  exact rfl

/-- What a job of a command works on (R133, R140). -/
def jobBody (D : DieState) (t : Nat) (x : Cmd) : M Unit :=
  if x.op = 0x0423 then
    downsample (combCtx x.inst) (cdChannels (D.combBuf t (x.p 1 1)).desc)
      (if x.p 4 8 = 0 then (D.combBuf t (x.p 1 1)).base else x.p 4 8) (x.p 12 8) (x.p 20 8)
  else trilinear x (D.combBuf t (x.p 1 1)) (x.p 3 1) (x.p 4 4) (x.p 8 4)

/-- How a command's job ends. -/
def jobEnds (n : Nat) (x : Cmd) : Except Fail Unit × DieState → DieState
  | (.ok _, D) =>
    if D.acked n = true then (D.combSeal (x.p (if x.op = 0x0423 then 28 else 20) 4)).reply x .ok
    else D.finalReply n .ok [] (x.p (if x.op = 0x0423 then 28 else 20) 4)
  | (.error f, D) => D.reply x f.status

theorem DieState.combJobDone_ends {t n : Nat} {rest : List CombJob} {x : Cmd} (hj : D.comb.jobs = .build t n :: rest)
    (hx : D.cmdOf n = some x) :
    D.combJobDone = jobEnds n x (runM (jobBody D t x) { D with comb := { D.comb with jobs := rest } }) := by
  have hx' : ({ D with comb := { D.comb with jobs := rest } } : DieState).cmdOf n = some x := hx
  unfold DieState.combJobDone
  rw [D.takeJob_head hj rfl]
  simp only [hx', decide_eq_true_eq]
  exact rfl

/-! ## Records and frames (R123, R127, R128) -/

section
variable {Q : DieState} (hQ : D.combSettle D.comb.queue.length = Q)
include hQ

theorem DieState.insertNext_inserts {t : Nat} {r : List Byte} {rest : List CombItem} (hq : Q.comb.queue = .point t r :: rest) :
    D.insertNext = ({ Q with comb := { Q.comb with queue := rest } } : DieState).insertPoint t r := by
  unfold DieState.insertNext
  rw [hQ]
  dsimp only
  rw [hq]

theorem DieState.frameMarker_closes {o : FrameOpen} {rest : List CombItem} (hq : Q.comb.queue = .frame o :: rest) :
    ({ Q with comb := { Q.comb with queue := rest, frame := some o } } : DieState).FrameClosed (List.range 8) D.frameMarker := by
  have heq : D.frameMarker = (List.range 8).foldl (DieState.frameTarget Q.comb.frame o)
      { Q with comb := { Q.comb with queue := rest, frame := some o } } := by
    unfold DieState.frameMarker
    rw [hQ]
    dsimp only
    rw [hq]
    exact rfl
  rw [heq]
  exact DieState.frameTargets_closed _ o _ List.nodup_range _

end

theorem DieState.insertPoint_builds {t k : Nat} (r : List Byte) (h : (D.combTarget t).building = some k) :
    D.insertPoint t r = D.combInsert t k r := by
  unfold DieState.insertPoint
  rw [h]

theorem DieState.insertPoint_misses {t : Nat} (r : List Byte) (h : (D.combTarget t).building = none) :
    D.insertPoint t r = D.setTarget t { D.combTarget t with
      missed := (D.combTarget t).missed + 1, missedFrame := (D.combTarget t).missedFrame + 1 } := by
  unfold DieState.insertPoint
  rw [h]

end

/-- Settles O41: records and markers behind what settles first, jobs by the head of their list, commands by their runs. -/
theorem combsAreBuiltClosedAndPublished : Obligations.CombsAreBuiltClosedAndPublished := by
  intro s a id rivals c hup D Q
  refine ⟨fun t r rest hq => ?_, fun o rest hq => ?_, fun t k rest hj hgate hscrub hph => ?_, fun t k rest hj hph => ?_,
    fun t k n rest hj hph => ?_, ?_, fun t n rest x hj hx => ?_⟩
  · intro E
    have hins := DieState.insertNext_inserts (D := D) rfl hq
    exact ⟨fun k hb => onDie_eq hup (hins.trans (DieState.insertPoint_builds (D := E) r hb)),
      fun hb => onDie_eq hup (hins.trans (DieState.insertPoint_misses (D := E) r hb))⟩
  · obtain ⟨hcomb, -, hsort⟩ := DieState.frameMarker_closes (D := D) rfl hq
    refine ⟨_, onDie_eq hup rfl, ?_⟩
    rw [State.die_put]
    exact ⟨rfl, congrArg CombState.queue hcomb, congrArg CombState.frame hcomb, congrArg CombState.jobs hcomb,
      fun n k hn hk hb => hsort n (List.mem_range.mpr hn) k hk hb⟩
  · intro E F G
    have hdone : D.clearDone = G.reopen t := DieState.clearDone_clears hj hgate hscrub hph
    refine onDie_eq hup (hdone.trans ?_)
    clear_value G
    unfold DieState.reopen
    cases G.comb.frame <;> cases (G.combTarget t).renewed <;> rfl
  · exact onDie_eq hup (DieState.scatterDone_closes hj hph)
  · exact onDie_eq hup (DieState.publishDone_ends hj hph)
  · intro t k mine named
    refine ⟨fun hr hm => ?_, fun hr => ?_, fun hr hn => ?_, fun hr hn href hz hv => ?_, fun hr hn href hplane hv hp => ?_,
      fun hr => ?_⟩
    · exact onDie_eq hup (DieState.runCmd_replyM hr (combStatus_runs hm) hr.acked)
    · refine ⟨_, onDie_eq hup (D.runCmd_ready 0x0421 id c _ hr), D.replyOpt_endsAs c (combPublish c),
        fun pairs parts digits D1 D2 D3 hn h1 h2 h3 => ⟨fun hok => ?_, fun hok => ?_⟩⟩
      · exact D.replyOpt_none _ c _ (combPublish_queues hn h1 h2 h3 hok)
      · have hans := DieState.replyOpt_error (c := c) (combPublish_fails hn h1 h2 h3 hok) rfl
        exact hans
    · exact onDie_eq hup (DieState.runCmd_replyOpt_none hr (combRelease_runs hn))
    · exact onDie_eq hup (DieState.runCmd_replyOpt_none hr (combJob_queues hn href (downCheck_passes hz hv)))
    · exact onDie_eq hup (DieState.runCmd_replyOpt_none hr (combJob_queues hn href (triCheck_passes hplane hv hp)))
    · refine ⟨_, onDie_eq hup (D.runCmd_ready 0x0420 id c _ hr), D.replyM_endsAs c (combBuffers rivals c), fun d D' hrun => ?_⟩
      obtain ⟨hd, hm, hn, T, desc, lay, hT⟩ := combBuffers_inv hrun
      refine ⟨hd, hm, by rw [hT]; exact rfl, by rw [hT]; exact rfl, by rw [hT]; exact rfl, fun j hj => ?_⟩
      unfold DieState.combBuf
      rw [hT, describedTarget_buf, ownedTarget_buf _ _ _ (lt_of_lt_of_le hj hn)]
      unfold ownedBuf
      rw [if_pos hj]
      exact ⟨rfl, rfl⟩
  · exact onDie_eq hup (DieState.combJobDone_ends hj hx)

end Sys2Proof.Machine
end

section
/-! PROOFS. The forager's tables and lookups (O42). -/

open Sys2Proof

namespace Sys2Proof.Machine

section
variable {D : DieState} {c : Cmd}

/-! ## Slots (R360) -/

theorem DieState.slotOf_setSlot {t : Nat} {b : Bool} {x : TabSlot} (D : DieState) (h : x.state ≠ 0) :
    (D.setSlot t b x).slotOf t b = x := by
  have hne : (if b then { D.slots t with b := x } else { D.slots t with a := x } : TabSlots) ≠ {} := fun hT => by
    cases b
    · exact h (congrArg (fun s : TabSlots => s.a.state) hT)
    · exact h (congrArg (fun s : TabSlots => s.b.state) hT)
  have hget := tabGet_tabMod ({} : TabSlots) t (fun (s : TabSlots) => if b then { s with b := x } else { s with a := x })
    D.fgr.tables hne t
  rw [if_pos rfl] at hget
  refine (congrArg (fun s : TabSlots => s.get b) hget).trans ?_
  cases b <;> rfl

/-! ## TABLE_LOAD and its end (R344, R357, R360) -/

/-- TABLE_LOAD that is accepted leaves its slot LOADING. -/
theorem tableLoad_inv {rivals : List Nat} {d : Option (List Byte)} {D' : DieState}
    (h : runM (tableLoad rivals c) D = (.ok d, D')) : ∃ x : TabSlot, D'.slotOf (c.p 0 2) (c.p 2 1 == 1) = x ∧
      x.state = 1 ∧ x.load = some c.id ∧ x.version = c.p 4 4 := by
  unfold tableLoad at h
  rw [runM_get_bind] at h
  obtain ⟨-, h⟩ := okField_bind_inv h
  split at h
  case h_1 => cases h
  case h_2 w hw =>
    obtain ⟨-, h⟩ := okField_bind_inv h
    obtain ⟨-, h⟩ := okField_bind_inv h
    obtain ⟨-, h⟩ := okField_bind_inv h
    obtain ⟨-, h⟩ := okField_bind_inv h
    obtain ⟨-, h⟩ := okField_bind_inv h
    obtain ⟨-, h⟩ := okField_bind_inv h
    obtain ⟨-, h⟩ := okField_bind_inv h
    obtain ⟨-, h⟩ := guardS_bind_inv h
    obtain ⟨-, D1, -, h⟩ := runM_bind_inv h
    obtain ⟨-, h⟩ := guardS_bind_inv h
    rw [runM_ite] at h
    split at h
    case isTrue =>
      cases h
      exact ⟨_, DieState.slotOf_setSlot _ Nat.one_ne_zero, rfl, rfl, rfl⟩
    case isFalse =>
      obtain ⟨list, D2, -, h⟩ := runM_bind_inv h
      cases h
      exact ⟨_, DieState.slotOf_setSlot _ Nat.one_ne_zero, rfl, rfl, rfl⟩

theorem State.loadDone_loading {s : State} {a : At} {k : Nat} {b : Bool} (far : List (List Byte))
    (h : ((s.dieAt a).slotOf k b).state = 1) : s.loadDone a k b far =
      ((s.put a (s.dieAt a)).hotRows a.die k ((s.dieAt a).slotOf k b) far).1.onDie a.die (fun D =>
        D.loadDone k b ((s.put a (s.dieAt a)).hotRows a.die k ((s.dieAt a).slotOf k b) far).2) := by
  unfold State.loadDone
  rw [State.atDie_id]
  simp only [State.die_put, if_pos h]

/-- How a load's work ends. -/
def loadDoneEnds (k : Nat) (b : Bool) (x : TabSlot) (n : Nat) : Except Fail (List Nat) × DieState → DieState
  | (.ok misses, D) => (D.setSlot k b { x with
      state := if (match D.tableOf k with | some w => tbVersion w.1 == x.version | none => false) && (D.activeSlot k).isNone
        then 3 else 2
      load := none
      hotMiss := misses }).replyId n .ok
  | (.error f, D) => ((D.setSlot k b {}).loadFailed (tbOwner x.desc) k f.status).replyId n f.status f.reason

theorem DieState.loadDone_ends {k : Nat} {b : Bool} {far : List (List Byte)} {n : Nat} (hl : (D.slotOf k b).load = some n)
    (hs : (D.slotOf k b).state = 1) : D.loadDone k b far =
      loadDoneEnds k b (D.slotOf k b) n (runM (do loadCheck k b (D.slotOf k b); buildHot k b (D.slotOf k b) far) D) := by
  unfold DieState.loadDone
  simp only [hl]
  exact if_neg (fun h => h hs)

/-! ## TABLE_UNLOAD (R360) -/

/-- The prefetched rows of a slot are dropped. -/
def DieState.dropPrefetched (D : DieState) (t : Nat) (b : Bool) : DieState :=
  D.onFgr (fun f => { f with prefetch := f.prefetch.filter (fun p => !(p.table == t && p.slotB == b)) })

theorem tableUnload_runs (ht : c.p 0 2 < 1024) (hb : c.p 2 1 ≤ 1)
    (howner : tbOwner (D.slotOf (c.p 0 2) (c.p 2 1 == 1)).desc = c.inst)
    (hs : (D.slotOf (c.p 0 2) (c.p 2 1 == 1)).state = 2) : runM (tableUnload c) D =
      (.ok [], (D.dropPrefetched (c.p 0 2) (c.p 2 1 == 1)).setSlot (c.p 0 2) (c.p 2 1 == 1) {}) := by
  have hdesc : (if (D.slotOf (c.p 0 2) (c.p 2 1 == 1)).state = 0 then (D.tableOf (c.p 0 2)).map (·.1)
      else some (D.slotOf (c.p 0 2) (c.p 2 1 == 1)).desc) = some (D.slotOf (c.p 0 2) (c.p 2 1 == 1)).desc :=
    if_neg (by rw [hs]; decide)
  unfold tableUnload
  rw [runM_get_bind, runM_okField_bind _ _ _ (by simpa using ht), runM_okField_bind _ _ _ (by simpa using hb)]
  dsimp only
  rw [hdesc]
  dsimp only
  rw [runM_guardS_bind _ _ _ _ (by simpa using howner), runM_guardS_bind _ _ _ _ (by simpa using hs)]
  exact runM_onD_bind _ _ _

/-! ## TABLE_LOOKUP and its batches (R348-R352) -/

theorem batchOk_inv {u : Unit} {D' : DieState} (h : runM (batchOk c) D = (.ok u, D')) : D' = D := by
  unfold batchOk at h
  obtain ⟨-, h⟩ := okField_bind_inv h
  obtain ⟨-, h⟩ := okField_bind_inv h
  obtain ⟨-, h⟩ := okField_bind_inv h
  obtain ⟨-, h⟩ := okField_bind_inv h
  obtain ⟨-, h⟩ := okField_bind_inv h
  obtain ⟨-, h⟩ := okField_bind_inv h
  obtain ⟨-, h⟩ := okField_bind_inv h
  obtain ⟨-, h⟩ := okField_bind_inv h
  obtain ⟨-, h⟩ := okField_bind_inv h
  obtain ⟨-, h⟩ := okField_bind_inv h
  obtain ⟨-, h⟩ := okField_bind_inv h
  exact (okField_inv h).2

/-- A lookup that is accepted enters one batch of its command. -/
theorem tableLookup_inv {rivals : List Nat} {d : Option (List Byte)} {D' : DieState}
    (h : runM (tableLookup rivals c) D = (.ok d, D')) : d = none ∧
      ∃ B, D'.fgr.batches = D.fgr.batches ++ [B] ∧ B.cmd = c.id ∧ B.inst = c.inst ∧ B.bags = [] := by
  unfold tableLookup at h
  obtain ⟨_, D0, hok, hrest⟩ := runM_bind_inv h
  obtain rfl := batchOk_inv hok
  rw [runM_get_bind] at hrest
  dsimp only at hrest
  rw [runM_ite] at hrest
  split at hrest
  case isTrue =>
    obtain ⟨-, h⟩ := okField_bind_inv hrest
    obtain ⟨-, h⟩ := guardS_bind_inv h
    obtain ⟨-, h⟩ := guardS_bind_inv h
    obtain ⟨_, D2, hclaim, h⟩ := runM_bind_inv h
    obtain ⟨bases, contest, rfl⟩ := claim_only hclaim
    cases h
    exact ⟨rfl, _, rfl, rfl, rfl, rfl⟩
  case isFalse =>
    split at hrest
    case h_1 => cases hrest
    case h_2 w hw =>
      obtain ⟨-, h⟩ := okField_bind_inv hrest
      obtain ⟨-, h⟩ := okField_bind_inv h
      obtain ⟨-, h⟩ := guardS_bind_inv h
      obtain ⟨_, D2, hclaim, h⟩ := runM_bind_inv h
      obtain ⟨bases, contest, rfl⟩ := claim_only hclaim
      split at h
      case h_1 => cases h
      case h_2 b hb =>
        cases h
        exact ⟨rfl, _, rfl, rfl, rfl, rfl⟩

section
variable {n : Nat} {B : Batch} (hB : D.batchOf n = some B)
include hB

theorem DieState.batchComplete_fails {st : Status} (h : B.bad = some st) : D.batchComplete n = D.failBatch n st := by
  unfold DieState.batchComplete
  simp only [hB, h]

theorem DieState.batchComplete_waits (h : B.bad = none) (hw : B.ready.length ≠ bdBags B.desc ∨ B.writes ≠ 0) :
    D.batchComplete n = D := by
  unfold DieState.batchComplete
  simp only [hB, h]
  exact if_pos hw

theorem DieState.batchComplete_answers (h : B.bad = none) (hr : B.ready.length = bdBags B.desc) (hw : B.writes = 0) :
    D.batchComplete n = ((if bit (bdSeal B.desc) 24 = true then D.jobSignal (bdSeal B.desc) 1 else D).removeBatch B).replyId n .ok 0
      (toLE 4 B.ready.length ++ toLE 4 B.defaulted ++ toLE 4 (b2n B.sat) ++ toLE 4 B.version) := by
  unfold DieState.batchComplete
  simp only [hB, h]
  exact if_neg (fun hne => hne.elim (fun h => h hr) (fun h => h hw))

end

/-! ## TABLE_PREFETCH and TABLE_STATUS (R359, R369) -/

theorem tablePrefetch_inv {rivals : List Nat} {d : List Byte} {D' : DieState}
    (h : runM (tablePrefetch rivals c) D = (.ok d, D')) : d = [] := by
  unfold tablePrefetch at h
  rw [runM_get_bind] at h
  obtain ⟨-, h⟩ := okField_bind_inv h
  obtain ⟨-, h⟩ := okField_bind_inv h
  split at h
  case h_1 => cases h
  case h_2 w hw =>
    obtain ⟨-, h⟩ := guardS_bind_inv h
    obtain ⟨_, D1, -, h⟩ := runM_bind_inv h
    split at h
    case h_1 => cases h
    case h_2 b hb =>
      rw [runM_ite] at h
      split at h
      · cases h
        rfl
      · obtain ⟨l, D2, -, h⟩ := runM_bind_inv h
        cases h
        rfl

/-- What TABLE_STATUS answers. -/
def DieState.tableReport (D : DieState) (t : Nat) : List Byte :=
  toLE 1 (D.slotOf t false).state ++ toLE 1 (D.slotOf t true).state ++ toLE 2 0
    ++ toLE 4 (D.slotOf t false).version ++ toLE 4 (D.slotOf t true).version
    ++ toLE 2 (D.inflight t false) ++ toLE 2 (D.inflight t true)

theorem tableStatus_runs (ht : c.p 0 2 < 1024) : runM (tableStatus c) D = (.ok (D.tableReport (c.p 0 2)), D) := by
  unfold tableStatus
  rw [runM_get_bind, runM_okField_bind _ _ _ (by simpa using ht)]
  exact rfl

/-! ## Draining (R362, R363) -/

/-- The dies that have not sent their notice for a slot. -/
def missingServers (x : TabSlot) : List Nat := (tbServers x.desc x.serving).filter (fun n => !x.notices.contains n)

theorem DieState.drainTimeout_frees {k : Nat} {b : Bool} (hb : D.findSlot k (fun x => x.state == 4) = some b)
    (ht : (D.slotOf k b).switched + tbDrainMs (D.slotOf k b).desc * 1000000 ≤ D.now) :
    D.drainTimeout k = ((missingServers (D.slotOf k b)).foldl (fun (D' : DieState) n => D'.event
        { cls := 9, code := 0x01, island := 26, inst := some (tbOwner (D.slotOf k b).desc), loc := k, ident := n
          count := min (missingServers (D.slotOf k b)).length 65535 }) (D.cause B_FGR 1)).freeSlot k b := by
  unfold DieState.drainTimeout
  simp only [hb]
  exact if_neg (Nat.not_lt.mpr ht)

theorem DieState.drainNotice_notes {p : Packet} {E : DieState} {b : Bool} (hp : D.takePkt (· == pkDrain) = some (p, E))
    (hb : E.findSlot (field p.body 0 4) (fun x => x.state != 0 && x.version == field p.body 4 4) = some b) :
    let x := E.slotOf (field p.body 0 4) b
    let n := p.srcNode * 4 + p.srcDie
    D.drainNotice = (E.setSlot (field p.body 0 4) b
      (if x.notices.contains n then x else { x with notices := x.notices ++ [n] })).settleSlot (field p.body 0 4) b := by
  unfold DieState.drainNotice
  rw [hp]
  simp only [hb]

end

/-- Settles O42: loads, lookups and prefetches by their runs, what ends them by the state they find. -/
theorem tablesLoadLookUpAndDrain : Obligations.TablesLoadLookUpAndDrain := by
  refine ⟨?_, fun D k b far n hl hs => DieState.loadDone_ends hl hs⟩
  intro s a id rivals c hup D t
  refine ⟨fun hr => ?_, fun k b far hs => ?_, fun hr ht hb howner hs => ?_, fun hw => ?_, fun hr hw => ?_, fun n B hB => ?_,
    fun hr hl hu => ?_, fun hw => ?_, fun hr ht => ?_, fun k b hb => ?_, fun p E b hp hb => ?_⟩
  · refine ⟨_, onDie_eq hup (D.runCmd_ready 0x0300 id c _ hr), fun d D' hrun => ?_, fun f D' hrun hn => ?_,
      fun f D' g n hrun hn => ?_⟩
    · obtain ⟨x, hx, hstate, hload, hversion⟩ := tableLoad_inv hrun
      rw [hx]
      exact ⟨D.withParams_ok D' _ _ _ _ _ hrun, hstate, hload, hversion⟩
    · exact D.withParams_error D' _ _ _ _ _ hrun hn
    · exact D.withParams_need D' _ _ _ _ _ _ _ hrun hn
  · exact running_eq hup (State.loadDone_loading far hs)
  · exact onDie_eq hup (DieState.runCmd_replyM hr (tableUnload_runs ht hb howner hs) hr.acked)
  · exact onDie_eq hup (if_pos hw)
  · refine ⟨_, onDie_eq hup ((if_neg (by rw [hw]; exact Bool.false_ne_true)).trans (D.runCmd_ready 0x0302 id c _ hr)),
      D.replyOpt_endsAs c (tableLookup rivals c), fun d D' hrun => tableLookup_inv hrun⟩
  · exact ⟨fun st h => onDie_eq hup (DieState.batchComplete_fails hB h),
      fun h hw => onDie_eq hup (DieState.batchComplete_waits hB h hw),
      fun h hl hw => onDie_eq hup (DieState.batchComplete_answers hB h hl hw)⟩
  · have hwait : (D.lookupWaits || D.updateWaits) = false := by rw [hl, hu]; rfl
    refine ⟨_, running_eq hup ?_, D.replyM_endsAs c (tablePrefetch rivals c), fun d D' hrun => tablePrefetch_inv hrun⟩
    refine congrArg (fun x : State => x.passPostings a.die) (next_atDie_eq ?_)
    exact (if_neg (by rw [hwait]; exact Bool.false_ne_true)).trans (D.runCmd_ready 0x0303 id c _ hr)
  · refine running_eq hup (congrArg (fun x : State => x.passPostings a.die) (next_atDie_eq (if_pos ?_)))
    rw [Bool.or_eq_true]
    exact hw
  · exact onDie_eq hup (DieState.runCmd_replyM hr (tableStatus_runs ht) hr.acked)
  · exact fun ht => onDie_eq hup (DieState.drainTimeout_frees hb ht)
  · exact onDie_eq hup (DieState.drainNotice_notes hp hb)

end Sys2Proof.Machine
end

section
/-! PROOFS. Requests, answers and updates between dies (O43). -/

open Sys2Proof

namespace Sys2Proof.Machine

section
variable {D : DieState}

/-! ## Requests served (R444, R494, R495, R499) -/

/-- The die as a request finds it: entries that have aged have left a full record. -/
def DieState.recordAged (D : DieState) : DieState := if D.recordFull = true then D.ageServed else D

section
variable {kind : Nat} {again : Bool} {serve : Packet → DieState → Nat × DieState}

theorem DieState.serveRequest_none (h : D.recordAged.recordFull = true ∨ D.recordAged.takePkt (· == kind) = none) :
    D.serveRequest kind again serve = D.recordAged := by
  unfold DieState.serveRequest
  by_cases hfull : D.recordAged.recordFull = true
  · exact if_pos hfull
  · have hnone := h.resolve_left hfull
    refine (if_neg hfull).trans ?_
    unfold DieState.recordAged at hnone
    rw [hnone]
    exact rfl

section
variable {p : Packet} {E : DieState} (hfull : D.recordAged.recordFull = false)
  (hp : D.recordAged.takePkt (· == kind) = some (p, E))
include hfull hp

theorem DieState.serveRequest_takes : D.serveRequest kind again serve =
    if !E.epochOk p then (E.count B_FAB FAB_QUAR_REFUSED).answerError p Status.refusedPlate.code
    else match E.servedOf p with
      | some e =>
        if again then (serve p (E.count B_FAB FAB_DUP_DROPPED)).2
        else if e.status = 0 then (E.count B_FAB FAB_DUP_DROPPED).answer p pkWriteAck 0 []
        else (E.count B_FAB FAB_DUP_DROPPED).answerError p e.status
      | none => (serve p E).2.noteServed p (serve p E).1 := by
  unfold DieState.serveRequest
  refine (if_neg (by rw [← DieState.recordAged, hfull]; exact Bool.false_ne_true)).trans ?_
  unfold DieState.recordAged at hp
  rw [hp] <;> rfl

theorem DieState.serveRequest_serves (hep : E.epochOk p = true) (hnew : E.servedOf p = none) :
    D.serveRequest kind again serve = (serve p E).2.noteServed p (serve p E).1 := by
  rw [DieState.serveRequest_takes hfull hp, hep, hnew]
  exact rfl

theorem DieState.serveRequest_refuses (hep : E.epochOk p = false) :
    D.serveRequest kind again serve = (E.count B_FAB FAB_QUAR_REFUSED).answerError p Status.refusedPlate.code := by
  rw [DieState.serveRequest_takes hfull hp, hep]
  exact rfl

theorem DieState.serveRequest_again {e : Served} (hep : E.epochOk p = true) (hold : E.servedOf p = some e) :
    D.serveRequest kind again serve =
      if again = true then (serve p (E.count B_FAB FAB_DUP_DROPPED)).2
      else if e.status = 0 then (E.count B_FAB FAB_DUP_DROPPED).answer p pkWriteAck 0 []
      else (E.count B_FAB FAB_DUP_DROPPED).answerError p e.status := by
  rw [DieState.serveRequest_takes hfull hp, hep, hold]
  exact rfl

end

end

/-! ## Answers and their tags (R451, R494) -/

section
variable {p : Packet} {E : DieState} {e : TagEntry}

theorem DieState.takeTag_ends (ht : E.tagOf p = some e) (hg : p.instGen = E.gen p.inst) : E.takeTag p = (some e, E.dropTag e) := by
  unfold DieState.takeTag
  rw [ht]
  exact if_neg (fun h => h hg)

theorem DieState.takeTag_late (ht : E.tagOf p = none) : E.takeTag p = (none, E.count B_FAB FAB_LATE_REPLIES) := by
  unfold DieState.takeTag
  rw [ht]

/-- The status that a response brings. -/
def responseStatus (p : Packet) : Nat :=
  if p.kind = pkError then (if p.status = 0 then Status.faultTimeout.code else p.status) else 0

theorem DieState.takeResponse_ends (hp : D.takePkt (fun k => k == pkWriteAck || k == pkReadData || k == pkError) = some (p, E))
    (ht : E.tagOf p = some e) (hg : p.instGen = E.gen p.inst) :
    D.takeResponse = (E.dropTag e).endUse e (responseStatus p) p.body := by
  unfold DieState.takeResponse
  rw [hp]
  dsimp only
  rw [DieState.takeTag_ends ht hg]
  exact rfl

theorem DieState.takeResponse_late (hp : D.takePkt (fun k => k == pkWriteAck || k == pkReadData || k == pkError) = some (p, E))
    (ht : E.tagOf p = none) : D.takeResponse = E.count B_FAB FAB_LATE_REPLIES := by
  unfold DieState.takeResponse
  rw [hp]
  dsimp only
  rw [DieState.takeTag_late ht]

end

/-! ## Requests that are not answered (R494, R572) -/

section
variable {e : TagEntry} {tag : Nat} {ring : Bool} (he : D.fab.tags.find? (fun x => x.num == tag && x.ring == ring) = some e)
  (hdue : e.sent + (if ring = true then 20000 else 200000) ≤ D.now)
include he hdue

theorem DieState.tagTimeout_drops (hg : e.pkt.instGen ≠ D.gen e.pkt.inst) : D.tagTimeout tag ring = D.bumpTag e := by
  unfold DieState.tagTimeout
  rw [he]
  exact (if_neg (Nat.not_lt.mpr hdue)).trans (if_pos hg)

theorem DieState.tagTimeout_resends (hg : e.pkt.instGen = D.gen e.pkt.inst) (hr : e.resent = false) :
    D.tagTimeout tag ring = (if ring = true then D else D.count B_FAB FAB_TAG_RETRIES).resend e := by
  unfold DieState.tagTimeout
  rw [he]
  refine (if_neg (Nat.not_lt.mpr hdue)).trans ((if_neg (fun h => h hg)).trans (if_pos ?_))
  rw [hr]
  rfl

theorem DieState.tagTimeout_ends (hg : e.pkt.instGen = D.gen e.pkt.inst) (hr : e.resent = true) :
    D.tagTimeout tag ring = (if ring = true then (D.bumpTag e).count B_D2D D2D_TIMEOUTS 1 e.via
      else ((D.bumpTag e).count B_FAB FAB_TAG_TIMEOUTS).cause B_FAB 6).endUse e Status.faultTimeout.code [] := by
  unfold DieState.tagTimeout
  rw [he]
  refine (if_neg (Nat.not_lt.mpr hdue)).trans ((if_neg (fun h => h hg)).trans (if_neg ?_))
  rw [hr]
  exact Bool.false_ne_true

end

/-! ## Updates (R365-R367) -/

/-- What a run of accesses leaves is what its accesses change. -/
theorem Accesses.of_run {α : Type} {m : M α} {r : Except Fail α} {D' : DieState} (hm : Accesses m) (h : runM m D = (r, D')) :
    D.AccessOf D' := by
  have hacc := hm D
  rwa [h] at hacc

theorem DieState.countDefaults_fgr (n : Nat) : (D.countDefaults n).fgr = D.fgr := by
  unfold DieState.countDefaults
  split
  · rfl
  · exact DieState.count_fgr _ _ _ _ _

/-- An update that is accepted is entered last. -/
theorem tableUpdate_inv {c : Cmd} {rivals : List Nat} {d : Option (List Byte)} {D' : DieState}
    (h : runM (tableUpdate rivals c) D = (.ok d, D')) : d = none ∧
      ∃ u, D'.fgr.updates = D.fgr.updates ++ [u] ∧ u.cmd = c.id ∧ u.table = c.p 0 2 ∧ u.sealRef = c.p 12 4 := by
  unfold tableUpdate at h
  rw [runM_get_bind] at h
  obtain ⟨-, h⟩ := okField_bind_inv h
  split at h
  case h_1 => cases h
  case h_2 w hw =>
    obtain ⟨-, h⟩ := okField_bind_inv h
    obtain ⟨-, h⟩ := okField_bind_inv h
    obtain ⟨-, h⟩ := okField_bind_inv h
    obtain ⟨-, h⟩ := okField_bind_inv h
    obtain ⟨-, h⟩ := guardS_bind_inv h
    obtain ⟨_, D1, hclaim, h⟩ := runM_bind_inv h
    obtain ⟨bases, contest, rfl⟩ := claim_only hclaim
    split at h
    case h_1 => cases h
    case h_2 b hb =>
      obtain ⟨bs, D2, hread, h⟩ := runM_bind_inv h
      cases h
      have hacc := Accesses.of_run (paramRead_accesses c.ctx _ _ _ _) hread
      refine ⟨rfl, _, congrArg (fun f : FgrState => f.updates ++ _) ?_, rfl, rfl, rfl⟩
      exact (DieState.countDefaults_fgr _).trans hacc.fgr_eq

/-- A work whose records have been applied. -/
def DieState.workDone (w : UpdWork) (rows skipped : Nat) (bad : Option Status) (D : DieState) : DieState :=
  D.onFgr (fun f => { f with works := f.works.map (fun y => if y = w then
    { y with applied := true, rows := rows, skipped := skipped, bad := bad } else y) })

/-- How the records of a work end. -/
def State.workEnds (s : State) (w : UpdWork) (x : TabSlot) : Except Fail (List Copy × Nat × Nat) × DieState → DieState
  | (.ok (cs, rows, k), D) =>
    cs.foldl (fun D c => s.pushCopy D w x.version c) ((D.workDone w rows k none).countDefaults k)
  | (.error f, D) => D.workDone w 0 0 (some f.status)

section
variable {s : State} {a : At}

theorem State.applyWork_waits (h : (s.dieAt a).lookupWaits = true) : s.applyWork a = s.put a (s.dieAt a) := if_pos h

theorem State.applyWork_idle (h : (s.dieAt a).lookupWaits = false)
    (hnone : (s.dieAt a).fgr.works.find? (fun w => !w.applied) = none) : s.applyWork a = s.put a (s.dieAt a) := by
  unfold State.applyWork
  refine (if_neg (by rw [← State.dieAt, h]; exact Bool.false_ne_true)).trans ?_
  rw [← State.dieAt, hnone]
  exact rfl

theorem State.applyWork_applies {w : UpdWork} (h : (s.dieAt a).lookupWaits = false)
    (hw : (s.dieAt a).fgr.works.find? (fun w => !w.applied) = some w) :
    s.applyWork a = s.put a (s.workEnds w ((s.dieAt a).slotOf w.table w.slotB)
      (runM (applyRecords w.table w.slotB ((s.dieAt a).slotOf w.table w.slotB) w w.records (seedLanes w.seed 512)) (s.dieAt a))) := by
  unfold State.applyWork
  refine (if_neg (by rw [← State.dieAt, h]; exact Bool.false_ne_true)).trans ?_
  rw [← State.dieAt, hw]
  exact rfl

end

end

/-- Settles O43: requests by the record and the epoch, answers by their tags, updates by the work that is next. -/
theorem requestsAreServedAndTagged : Obligations.RequestsAreServedAndTagged := by
  intro s a id rivals c hup D A takes serves
  have hserves : ∀ (row : Instr) (k : Nat) (again : Bool) (serve : Packet → DieState → Nat × DieState),
      exec row s = onDie a s (fun D => D.serveRequest k again serve) → serves row k again serve := by
    intro row k again serve hrow
    refine ⟨fun p E hp => ?_, fun h => hrow.trans (onDie_eq hup (DieState.serveRequest_none h))⟩
    obtain ⟨hfull, hp⟩ := hp
    exact ⟨fun hep hnew => hrow.trans (onDie_eq hup (DieState.serveRequest_serves hfull hp hep hnew)),
      fun hep => hrow.trans (onDie_eq hup (DieState.serveRequest_refuses hfull hp hep)),
      fun e hep hold => hrow.trans (onDie_eq hup (DieState.serveRequest_again hfull hp hep hold))⟩
  refine ⟨hserves _ _ _ _ rfl, hserves _ _ _ _ rfl, hserves _ _ _ _ rfl, hserves _ _ _ _ rfl, fun p E e b g k hp ht hg hu => ?_,
    fun p E e hp ht hg => onWorks_eq hup (DieState.takeResponse_ends hp ht hg),
    fun p E hp ht => onWorks_eq hup (DieState.takeResponse_late hp ht), fun e tag he hdue => ?_, fun e tag he hdue hg => ?_,
    onDie_eq hup rfl, fun hr => ?_, fun hw => ?_, fun w hl hw => ?_, fun hl hnone => ?_, fun cmd die rows skipped st => ?_,
    fun die cmd inst t version shift sto seed recs => ?_⟩
  · refine onDie_eq hup ?_
    rw [hp]
    dsimp only
    rw [DieState.takeTag_ends ht hg]
    dsimp only
    rw [hu]
  · exact ⟨fun hg => onWorks_eq hup (DieState.tagTimeout_drops he hdue hg),
      fun hg hr => onWorks_eq hup (DieState.tagTimeout_resends he hdue hg hr),
      fun hg hr => onWorks_eq hup (DieState.tagTimeout_ends he hdue hg hr)⟩
  · exact ⟨fun hr => onWorks_eq hup (DieState.tagTimeout_resends he hdue hg hr),
      fun hr => onWorks_eq hup (DieState.tagTimeout_ends he hdue hg hr)⟩
  · refine ⟨_, running_eq hup (congrArg (fun x : State => x.shareWorks.settleWorks)
      (next_atDie_eq (D.runCmd_ready 0x0304 id c _ hr))), D.replyOpt_endsAs c (tableUpdate rivals c),
      fun d D' hrun => tableUpdate_inv hrun⟩
  · exact running_eq hup (congrArg State.settleWorks (State.applyWork_waits hw))
  · exact running_eq hup (congrArg State.settleWorks (State.applyWork_applies hl hw))
  · exact running_eq hup (congrArg State.settleWorks (State.applyWork_idle hl hnone))
  · exact running_eq hup (congrArg State.settleWorks (next_atDie_eq rfl))
  · exact running_eq hup (next_atDie_eq rfl)

end Sys2Proof.Machine
end

section
/-! PROOFS. The ports of the fabric (O44). -/

open Sys2Proof

namespace Sys2Proof.Machine

section
variable {D : DieState} {p : Nat}

/-! ## The state of a port -/

theorem DieState.port_onPort (D : DieState) (p : Nat) (f : FPort → FPort) : (D.onPort p f).port p = f (D.port p) := by
  unfold DieState.onPort DieState.port
  by_cases h : p = 0 <;> simp [h]

/-- A rerouted packet changes what is in transit, and no port. -/
theorem DieState.reroute_port (o : OutPkt) (again : Bool) (k : Nat) : (D.reroute o again).port k = D.port k := by
  unfold DieState.reroute
  split
  · rfl
  · rfl

theorem DieState.reroutes_port (again : Bool) (l : List OutPkt) (k : Nat) :
    (l.foldl (fun (D : DieState) o => D.reroute o again) D).port k = D.port k :=
  foldl_keeps (fun E : DieState => E.port k) (fun (D : DieState) o => D.reroute o again)
    (fun _ o => DieState.reroute_port o again k) l D

/-- A link that is gone leaves its port in the state named, with nothing unacknowledged and nothing waiting. -/
theorem DieState.linkGone_port (state : Nat) : ((D.linkGone p state).port p).state = state ∧
    ((D.linkGone p state).port p).replay = [] ∧ ((D.linkGone p state).port p).waiting = [] := by
  unfold DieState.linkGone DieState.unqueue
  dsimp only
  rw [DieState.reroutes_port, DieState.port_onPort, DieState.reroutes_port, DieState.port_onPort]
  exact ⟨rfl, rfl, by simp⟩

/-! ## Training, failure and hold (R472, R473, R492) -/

theorem DieState.lightDetect_trains {rx tx : Int} (hs : (D.port p).state = 1 ∨ (D.port p).state = 5)
    (hen : D.portEnabled p = true) (hhot : (D.port p).hot = false) : D.lightDetect p rx tx = D.onPort p (fun x => { x with
      state := 2, trainSince := D.now, rxPower := wrapN 16 rx, txPower := wrapN 16 tx, powerOk := decide (-800 ≤ rx) }) :=
  if_pos ⟨hs, hen, by rw [hhot]; rfl⟩

/-- No condition of R492 keeps the port from failing with the cause. -/
theorem DieState.portFail_fails {cause : Nat} (hs : (D.port p).state = 3 ∨ (D.port p).state = 4) (h1 : 1 ≤ cause) (h5 : cause ≤ 5)
    (hbad : cause = 3 → 8 ≤ (D.port p).badFrames) (hre : cause = 5 → ∃ e ∈ (D.port p).replay, 4 ≤ e.resends) :
    D.portFail p cause =
      (((((D.linkGone p 5).onPort p (fun x => { x with cause := cause, hold := true })).count32 B_FAB FAB_PORT_FAILS 1 p).cause
        B_FAB 0).event { cls := 10, code := 0x01, island := 36 + p, ident := 2 * D.num + p, cause := cause }) := by
  have hnum : ∀ state, (D.linkGone p state).num = D.num := fun state => by
    have hfold : ∀ (again : Bool) (l : List OutPkt) (E : DieState),
        (l.foldl (fun (D : DieState) o => D.reroute o again) E).num = E.num := fun again l E =>
      foldl_keeps (fun E : DieState => E.num) (fun (D : DieState) o => D.reroute o again)
        (fun _ o => by unfold DieState.reroute; split <;> rfl) l E
    unfold DieState.linkGone DieState.unqueue
    dsimp only
    rw [hfold]
    exact hfold _ _ _
  have hgo : ¬ ((D.port p).state < 3 ∨ 4 < (D.port p).state ∨ cause = 0 ∨ 5 < cause ∨ (cause = 3 ∧ (D.port p).badFrames < 8)
      ∨ (cause = 5 ∧ (D.port p).replay.all (fun e => decide (e.resends < 4)) = true)) := by
    rintro (h | h | h | h | ⟨h3, hb⟩ | ⟨h5, hall⟩)
    · omega
    · omega
    · omega
    · omega
    · exact absurd (hbad h3) (Nat.not_le.mpr hb)
    · obtain ⟨e, he, h4⟩ := hre h5
      exact absurd (of_decide_eq_true (List.all_eq_true.mp hall e he)) (Nat.not_lt.mpr h4)
  refine (if_neg hgo).trans ?_
  have hnum' : (((((D.linkGone p 5).onPort p (fun x => { x with cause := cause, hold := true })).count32 B_FAB FAB_PORT_FAILS 1
      p).cause B_FAB 0)).num = D.num := by
    rw [DieState.cause_num, DieState.count32_num]
    exact hnum 5
  rw [← hnum']

theorem DieState.holdExpire_ends (hs : (D.port p).state = 3) (hh : (D.port p).hold = true)
    (ht : (D.port p).upSince + 100000000 ≤ D.now) :
    D.holdExpire p = (D.onPort p (fun x => { x with hold := false })).tryActive p := if_pos ⟨hs, hh, ht⟩

/-! ## Frames (R471) -/

section
variable {corr bad word : Nat} {flits : List (List Byte)} (hs : (D.port p).state = 3 ∨ (D.port p).state = 4)
include hs

theorem DieState.frameRx_runs : ¬ ((D.port p).state < 3 ∨ 4 < (D.port p).state) := by omega

theorem DieState.frameRx_good : D.frameRx p corr 0 word flits =
    (flits.take 5).foldl (fun (D : DieState) f => D.takeFlit p (padTo 256 f))
      (((D.count B_FAB FAB_PORT_FEC_CORR corr p).onPort p (fun x => { x with badFrames := 0 })).takeWord p word) :=
  (if_neg (DieState.frameRx_runs hs)).trans (if_neg (fun h => h rfl))

theorem DieState.frameRx_bad (h : bad ≠ 0) : D.frameRx p corr bad word flits =
    ((D.count B_FAB FAB_PORT_FEC_CORR corr p).count B_FAB FAB_PORT_FEC_UNCORR bad p).onPort p (fun x =>
      { x with badFrames := x.badFrames + 1, nak := true }) :=
  (if_neg (DieState.frameRx_runs hs)).trans (if_pos h)

end

end

/-! ## Packets to route (R484-R486) -/

section
variable {s : State} {a : At}

theorem State.forward_idle (h : (s.dieAt a).fab.transit = []) : s.forward a = s.put a (s.dieAt a) := by
  unfold State.forward
  rw [← State.dieAt]
  dsimp only
  rw [h]
  exact rfl

/-- The package after the oldest packet to route at a die, from the die E without it. -/
def State.forwardOf (s : State) (a : At) (E : DieState) (i : Nat) (q : Packet) : State :=
  if E.fab.assigned && q.dstNode == E.fab.node then s.put a (E.deliverNode q)
  else match E.fab.plate with
    | none => s.put a (E.count B_FAB FAB_NOROUTE_DROPS)
    | some P =>
      if P.hopLimit ≤ q.hops then s.put a (E.count B_FAB FAB_HOP_DROPS)
      else match s.routeOf P E i q with
        | none => s.put a (E.count B_FAB FAB_NOROUTE_DROPS)
        | some (out, floor, again) =>
          let F := if again then E.cause B_FAB 2 else E
          let y := { q with lane := max q.lane floor, hops := q.hops + 1, rerouted := q.rerouted || again }
          if out / 2 = F.num then s.put a (F.portPut (out % 2) i y)
          else s.put a ((F.ringSend (out / 2) { cls := 5, pkt := y, egress := some out }).getD (F.count B_FAB FAB_NOROUTE_DROPS))

theorem State.forward_takes {i : Nat} {q : Packet} {rest : List (Nat × Packet)} (ht : (s.dieAt a).fab.transit = (i, q) :: rest) :
    s.forward a = s.forwardOf a { s.dieAt a with fab := { (s.dieAt a).fab with transit := rest } } i q := by
  unfold State.forward
  rw [← State.dieAt]
  dsimp only
  rw [ht]
  exact rfl

section
variable {i : Nat} {q : Packet} {E : DieState}

theorem State.forwardOf_here (has : E.fab.assigned = true) (hn : q.dstNode = E.fab.node) :
    s.forwardOf a E i q = s.put a (E.deliverNode q) := if_pos (by rw [has, hn]; simp)

section
variable (haway : E.fab.assigned = false ∨ q.dstNode ≠ E.fab.node)
include haway

theorem State.not_forwardOf_here : ¬ (E.fab.assigned && q.dstNode == E.fab.node) = true := by
  rcases haway with h | h
  · simp [h]
  · simp [h]

theorem State.forwardOf_unplated (hp : E.fab.plate = none) :
    s.forwardOf a E i q = s.put a (E.count B_FAB FAB_NOROUTE_DROPS) := by
  unfold State.forwardOf
  rw [if_neg (State.not_forwardOf_here haway), hp]

section
variable {P : Plate} (hp : E.fab.plate = some P)
include hp

theorem State.forwardOf_hops (h : P.hopLimit ≤ q.hops) : s.forwardOf a E i q = s.put a (E.count B_FAB FAB_HOP_DROPS) := by
  unfold State.forwardOf
  rw [if_neg (State.not_forwardOf_here haway), hp]
  exact if_pos h

theorem State.forwardOf_unrouted (h : q.hops < P.hopLimit) (hr : s.routeOf P E i q = none) :
    s.forwardOf a E i q = s.put a (E.count B_FAB FAB_NOROUTE_DROPS) := by
  unfold State.forwardOf
  rw [if_neg (State.not_forwardOf_here haway), hp]
  refine (if_neg (Nat.not_le.mpr h)).trans ?_
  rw [hr]

theorem State.forwardOf_routed {out floor : Nat} {again : Bool} (h : q.hops < P.hopLimit)
    (hr : s.routeOf P E i q = some (out, floor, again)) :
    let F := if again = true then E.cause B_FAB 2 else E
    let y := { q with lane := max q.lane floor, hops := q.hops + 1, rerouted := q.rerouted || again }
    s.forwardOf a E i q = s.put a (if out / 2 = E.num then F.portPut (out % 2) i y
      else (F.ringSend (out / 2) { cls := 5, pkt := y, egress := some out }).getD (F.count B_FAB FAB_NOROUTE_DROPS)) := by
  have hnum : (if again = true then E.cause B_FAB 2 else E : DieState).num = E.num := by
    split
    · exact DieState.cause_num _ _ _
    · rfl
  unfold State.forwardOf
  rw [if_neg (State.not_forwardOf_here haway), hp]
  refine (if_neg (Nat.not_le.mpr h)).trans ?_
  rw [hr]
  dsimp only
  rw [hnum, apply_ite (s.put a)]

end

end

end

end

/-- Settles O44: a port by its state, a frame by what it brings, a packet to route by its destination and the plate. -/
theorem fabricPortsTrainFailAndForward : Obligations.FabricPortsTrainFailAndForward := by
  intro s a n r v hup D p x
  refine ⟨fun rx tx hs hen hhot => onDie_eq hup (DieState.lightDetect_trains hs hen hhot), fun hs => onDie_eq hup (if_pos hs),
    fun hs ht => onDie_eq hup (if_pos ⟨hs, ht⟩), fun cause hs h1 h5 hbad hre => ?_,
    fun hs hh ht => onDie_eq hup (DieState.holdExpire_ends hs hh ht),
    fun corr word flits hs => onDie_eq hup (DieState.frameRx_good hs),
    fun corr bad word flits hs hbad => onDie_eq hup (DieState.frameRx_bad hs hbad),
    fun h => running_eq hup (State.forward_idle h), fun i q rest ht => ?_, fun hadm hbit => ?_⟩
  · intro E
    obtain ⟨hstate, hreplay, hwaiting⟩ := D.linkGone_port (p := p) 5
    have hport : E.port p = { (D.linkGone p 5).port p with cause := cause, hold := true } := DieState.port_onPort _ _ _
    rw [hport]
    exact ⟨hstate, hreplay, hwaiting, onDie_eq hup (DieState.portFail_fails hs h1 h5 hbad hre)⟩
  · intro E
    have htake : ∀ F, s.forwardOf a E i q = s.put a F → exec (.fabPacketForward a) s = .next (s.put a F) := fun F hF =>
      running_eq hup ((State.forward_takes ht).trans hF)
    refine ⟨fun has hn => htake _ (State.forwardOf_here (E := E) has hn), fun haway =>
      ⟨fun hp => htake _ (State.forwardOf_unplated (E := E) haway hp), fun P hp => ?_⟩⟩
    exact ⟨fun h => htake _ (State.forwardOf_hops (E := E) haway hp h),
      fun h hr => htake _ (State.forwardOf_unrouted (E := E) haway hp h hr),
      fun out floor again h hr => htake _ (State.forwardOf_routed (E := E) haway hp h hr)⟩
  · exact onDie_csrDo (cond := fun _ => bit v.toNat 1 = true) hup hadm hbit rfl

end Sys2Proof.Machine
end

section
/-! PROOFS. The first waggle of a port (O45). -/

open Sys2Proof

namespace Sys2Proof.Machine

/-! ## What a port that sends keeps -/

section
variable (D : DieState) (p : Nat)

/-- The time of the last waggle of port p. -/
def DieState.lastWaggle (D : DieState) (p : Nat) : Nat := (D.port p).lastWaggle

theorem DieState.onPort_lastWaggle (q : Nat) {f : FPort → FPort} (hf : ∀ x, (f x).lastWaggle = x.lastWaggle) :
    (D.onPort q f).lastWaggle p = D.lastWaggle p := by
  unfold DieState.onPort DieState.lastWaggle DieState.port
  by_cases hq : q = 0 <;> by_cases hp : p = 0 <;> simp [hq, hp, hf]

theorem DieState.lastWaggle_of_fab {D E : DieState} (h : E.fab = D.fab) : E.lastWaggle p = D.lastWaggle p := by
  unfold DieState.lastWaggle DieState.port
  rw [h]

theorem DieState.work_fab (b : Nat) : (D.work b).fab = D.fab := by
  unfold DieState.work
  split <;> rfl

theorem DieState.out_lastWaggle (o : Output) : (D.out o).lastWaggle p = D.lastWaggle p := rfl

theorem DieState.sendFlits_lastWaggle (q : Nat) (o : OutPkt) : (D.sendFlits q o).lastWaggle p = D.lastWaggle p := by
  unfold DieState.sendFlits
  refine (DieState.onPort_lastWaggle _ p q ?_).trans ((DieState.lastWaggle_of_fab p (DieState.count_fab _ _ _ _ _)).trans ?_)
  · exact fun _ => rfl
  · refine foldl_keeps (fun E : DieState => E.lastWaggle p) _ (fun E i => ?_) _ D
    refine (DieState.out_lastWaggle _ p _).trans ?_
    exact DieState.onPort_lastWaggle E p q (fun _ => rfl)

theorem DieState.drainPort_lastWaggle (q fuel : Nat) : ∀ D : DieState, (D.drainPort q fuel).lastWaggle p = D.lastWaggle p := by
  induction fuel with
  | zero => exact fun _ => rfl
  | succ fuel ih =>
    intro D
    unfold DieState.drainPort
    dsimp only
    split
    · rfl
    · split
      · rfl
      · rw [ih, DieState.sendFlits_lastWaggle]
        exact DieState.onPort_lastWaggle _ p q (fun _ => rfl)

theorem DieState.portPut_lastWaggle (q ingress : Nat) (x : Packet) : (D.portPut q ingress x).lastWaggle p = D.lastWaggle p := by
  unfold DieState.portPut
  refine (DieState.lastWaggle_of_fab p (DieState.work_fab _ _)).trans ((DieState.drainPort_lastWaggle p q _ _).trans ?_)
  exact DieState.onPort_lastWaggle (D.linkPass 0 (2 * D.num + q) true x).2 p q (fun _ => rfl)

/-- A port in UP that has sent no waggle sends its first one, whatever the time. -/
theorem DieState.waggleSend_first (hs : (D.port p).state = 3) (hw : (D.port p).lastWaggle = 0) :
    (D.waggleSend p).lastWaggle p = D.now := by
  unfold DieState.waggleSend
  dsimp only
  rw [if_pos ⟨Or.inl hs, Or.inl hw⟩, DieState.portPut_lastWaggle]
  exact congrArg FPort.lastWaggle (D.port_onPort p _)

end

/-- A running die 0 whose port 0 is UP and has sent no waggle. -/
def firstWaggleState : State :=
  { State.reset with dies := { State.reset.dies with q0 := { boot := { held := false }, fab := { p0 := { state := 3 } } } } }

/-- Its command comes at 5 ns. -/
def firstWaggleAt : At := { die := 0, time := 5 }

/-- Refutes O45: a port in UP that has sent no waggle sends its first one at once, within the first 990 µs of the time base, where
the statement leaves the die as it is. -/
theorem not_platesStageSwitchAndPull : ¬ Obligations.PlatesStageSwitchAndPull := by
  intro h
  obtain ⟨hrows, -⟩ := h
  obtain ⟨-, -, -, -, -, -, -, -, ⟨-, hearly⟩, -⟩ := hrows firstWaggleState firstWaggleAt 0 0 { id := 0, queue := 0, op := 0 } rfl
  have hup : firstWaggleState.up firstWaggleAt := rfl
  have hstill : exec (.waggleSend firstWaggleAt 0) firstWaggleState =
    .next (firstWaggleState.put firstWaggleAt (firstWaggleState.dieAt firstWaggleAt)) := hearly (by decide)
  have hsends : exec (.waggleSend firstWaggleAt 0) firstWaggleState =
      .next (firstWaggleState.put firstWaggleAt ((firstWaggleState.dieAt firstWaggleAt).waggleSend 0)) := onDie_eq hup rfl
  have hsame := Host.Outcome.next.inj (hsends.symm.trans hstill)
  have hlast := congrArg (fun t : State => (t.die firstWaggleAt.die).lastWaggle 0) hsame
  simp only [State.die_put] at hlast
  rw [DieState.waggleSend_first _ 0 rfl rfl] at hlast
  exact absurd hlast (by decide)

end Sys2Proof.Machine
end

section
/-! PROOFS. The ring modules and injections on links (O46). -/

open Sys2Proof

namespace Sys2Proof.Machine

section
variable {D : DieState} {m : Nat}

/-! ## Modules (R570-R572) -/

theorem DieState.moduleTrained_holds {tx rx : Nat} (hs : (D.d2d.mod m).state = 1 ∨ (D.d2d.mod m).state = 4) (ht : tx ≤ 4)
    (hr : rx ≤ 4) :
    let E := D.onMod m (fun x => { x with state := 3, since := D.now, txRepaired := tx, rxRepaired := rx })
    D.moduleTrained m tx rx = if 0 < tx + rx then E.cause B_D2D 2 else E :=
  if_neg (by rintro (⟨h1, h4⟩ | h | h) <;> omega)

theorem DieState.ringBeat_beats (hs : (D.d2d.mod m).state = 2 ∨ (D.d2d.mod m).state = 3)
    (ht : (D.d2d.mod m).beat + 10000 ≤ D.now) :
    D.ringBeat m = (D.onMod m (fun x => { x with beat := D.now })).out (.heartbeat m) := if_pos ⟨hs, ht⟩

end

section
variable {s : State} {a : At} {m : Nat}

theorem State.moduleHold_ends (hs : ((s.dieAt a).d2d.mod m).state = 3)
    (ht : ((s.dieAt a).d2d.mod m).since + 100000000 ≤ (s.dieAt a).now) : s.moduleHold a m =
      (s.put a (((s.dieAt a).onMod m (fun x => { x with state := 2 })).cause B_D2D 1)).linkOn a.die.val m := by
  unfold State.moduleHold
  rw [State.atDie_id]
  simp only [State.die_put]
  rw [if_pos ⟨hs, ht⟩, State.put_onDie]

theorem State.moduleFail_fails {cause : Nat} (hs : ((s.dieAt a).d2d.mod m).state = 2 ∨ ((s.dieAt a).d2d.mod m).state = 3)
    (h1 : 1 ≤ cause) (h4 : cause ≤ 4) : s.moduleFail a m cause =
      (((s.put a (s.dieAt a)).moduleDown a.die.val m 4 cause).onDie a.die (fun D =>
        ((D.count32 B_D2D D2D_FAILS 1 m).cause B_D2D 0).event
          { cls := 11, code := 0x02, island := 34 + m, ident := m, cause := cause })).settleWorks := by
  unfold State.moduleFail
  rw [State.atDie_id]
  simp only [State.die_put]
  exact if_neg (by rintro (h | h | h | h) <;> omega)

theorem State.d2dRetrain_retrains {r : Req} {v : Nat} (hadm : (s.dieAt a).admits r B_D2D D2D_CTRL true) (hv : bit v 2 = true)
    (hrole : 1 ≤ (s.dieAt a).roleOf r) :
    let k := (s.dieAt a).sel r.id B_D2D D2D_MOD_SEL % 2
    let T := s.put a (((s.dieAt a).touchSession r).ctrlWrite r B_D2D v)
    s.d2dRetrain a r v = if ((s.dieAt a).d2d.mod k).state = 0 then T else (T.moduleDown a.die.val k 1 0).settleWorks := by
  obtain ⟨-, -, hopen, hfire⟩ := hadm
  unfold State.d2dRetrain
  rw [State.atDie_id]
  simp only [State.die_put, hv, hopen, hfire, hrole, State.put_onDie, decide_true, Bool.and_true, Bool.not_true]
  exact rfl

/-! ## Messages (R504, R571) -/

theorem State.ringReceive_none (h : ((quadGet (s.put a (s.dieAt a)).dies (ringPeer a.die.val m)).d2d.mod (1 - m)).front = none) :
    s.ringReceive a m = s.put a (s.dieAt a) := by
  unfold State.ringReceive
  rw [State.atDie_id]
  dsimp only
  rw [h]

theorem State.ringReceive_crosses {g : RingMsg}
    (h : ((quadGet (s.put a (s.dieAt a)).dies (ringPeer a.die.val m)).d2d.mod (1 - m)).front = some g) :
    let S := s.put a (s.dieAt a)
    let e := ringPeer a.die.val m
    let sent := ((quadGet S.dies e).onMod (1 - m) (fun x => { x with out := x.out.erase g })).linkPass 1 (modLink a.die.val m) true g.pkt
    s.ringReceive a m = ({ S with dies := quadSet S.dies e sent.2 } : State).onDie a.die (fun D =>
      sent.1.foldl (fun (D : DieState) q =>
        let got := D.linkPass 1 (modLink a.die.val m) false q.1
        got.1.foldl (fun (D : DieState) z =>
          let D := if q.2.isSome || z.2.isSome then D.count B_D2D D2D_RETRIES 1 m else D
          (D.count B_D2D D2D_FLITS_RX (ceilDiv (16 + z.1.body.length) 236) m).ringPacket m (some g) z.1) got.2) D) := by
  unfold State.ringReceive
  rw [State.atDie_id]
  dsimp only
  rw [h]

/-! ## Injections on links (R504-R506) -/

variable {c : Cmd}

/-- Where the fields, the role and the services admit an injection, a free slot decides. -/
theorem State.linkInject_admitted {rivals : List Nat} (hok : linkDescOk (padTo 32 c.params) = true)
    (hown : (injectDies (padTo 32 c.params)).contains a.die.val = true)
    (hrole : c.role = 2 ∨ (c.role = 1 ∧ bit (field (padTo 32 c.params) 5 1) 0 = false))
    (hsv : ∀ e ∈ injectDies (padTo 32 c.params), (quadGet s.dies e).saf.service.isSome = true) :
    s.linkInject a.die c rivals =
      match runM (claim 13 209 ((List.range 4).filter (fun k => (tabFind (s.die a.die).fab.injections k).isNone)).length c.queue
          rivals) (s.die a.die), ((List.range 4).filter (fun k => (tabFind (s.die a.die).fab.injections k).isNone)).head? with
      | (.error f, _), _ => s.replyAt a.die c f.status f.reason
      | (.ok _, _), none => s.replyAt a.die c .refusedFull 13
      | (.ok _, E), some k =>
        let j : LinkInj := { id := (s.die a.die).log.nextInj, desc := padTo 32 c.params, start := (s.die a.die).now }
        (s.onDie a.die (fun _ => ({ E with
          log := { E.log with nextInj := (s.die a.die).log.nextInj + 1 }
          fab := { E.fab with injections := tabPut k j E.fab.injections, injStarted := E.fab.injStarted + 1 } } : DieState).event
            { cls := 13, code := 0x01, island := 39, ident := (s.die a.die).log.nextInj })).replyAt a.die c .ok 0
          (toLE 4 (s.die a.die).log.nextInj) := by
  have hr : (c.role == 2 || (c.role == 1 && !bit (field (padTo 32 c.params) 5 1) 0)) = true := by
    rcases hrole with h | ⟨h, hb⟩
    · simp [h]
    · simp [h, hb]
  have hs : (injectDies (padTo 32 c.params)).all (fun e => (quadGet s.dies e).saf.service.isSome) = true :=
    List.all_eq_true.mpr hsv
  unfold State.linkInject
  simp only [hok, hown, hr, hs] <;> rfl

end

/-- Settles O46: a module by its state, a message by what the neighbour's front is, an injection by its slot. -/
theorem ringModulesTrainFailAndCarry : Obligations.RingModulesTrainFailAndCarry := by
  intro s a n id rivals r v c hup D S m x
  have hdie : S.die a.die = D := State.die_put s a D
  refine ⟨fun tx rx hs ht hr => onDie_eq hup (DieState.moduleTrained_holds hs ht hr),
    fun hs ht => running_eq hup (State.moduleHold_ends hs ht), fun hs ht => onDie_eq hup (DieState.ringBeat_beats hs ht),
    fun cause hs h1 h4 => running_eq hup (State.moduleFail_fails hs h1 h4), ?_,
    fun hadm hv hrole => running_eq hup (State.d2dRetrain_retrains hadm hv hrole), fun hr => ?_, fun hr => ?_, ?_⟩
  · exact ⟨fun h => running_eq hup (State.ringReceive_none h), fun g hg => running_eq hup (State.ringReceive_crosses hg)⟩
  · intro d hok hown hrole hsv free
    refine onCmd_eq hup hr ((State.linkInject_admitted (s := S) (rivals := rivals) hok hown hrole hsv).trans ?_)
    rw [hdie]
    simp only [S, State.put_onDie] <;> rfl
  · refine onCmd_eq hup hr ?_
    show S.linkStop a.die c = _
    unfold State.linkStop
    rw [hdie]
  · exact running_eq hup rfl

end Sys2Proof.Machine
end

section
/-! PROOFS. Ethernet frames, links and time (O47). -/

open Sys2Proof

namespace Sys2Proof.Machine

/-- What a row does whose die's time the others take. -/
theorem onPtp_eq {s : State} {a : At} {f : DieState → DieState} {E : DieState} (hup : s.up a) (h : f (s.dieAt a) = E) :
    onPtp a s f = .next (s.put a E).settlePtp :=
  running_eq hup (congrArg State.settlePtp (next_atDie_eq h))

section
variable {D : DieState} {p : Nat}

/-! ## Frames (R563, R564) -/

theorem DieState.ethReceive_down {corr bad : Nat} {f : List Byte} {first : Nat} {ptp : Option PtpIn}
    (h : (D.ethPort p).link = false) : D.ethReceive p corr bad f first ptp = D := if_pos (by rw [h]; rfl)

section
variable {corr bad : Nat} {f : List Byte} {first : Nat} {ptp : Option PtpIn} (hl : (D.ethPort p).link = true)
include hl

/-- The die once the codewords of a frame are counted. -/
def DieState.fecCounted (D : DieState) (p corr bad : Nat) : DieState :=
  if (D.ethPort p).fec = true then (D.count B_ETH ETH_FEC_CORR corr p).count B_ETH ETH_FEC_UNCORR bad p else D

theorem DieState.ethReceive_safety (hp : p = 4) : D.ethReceive p corr bad f first ptp =
    (D.fecCounted p corr bad).checkFrame p f ((D.ethPort p).fec && bad != 0) first ptp :=
  (if_neg (by rw [hl]; exact Bool.false_ne_true)).trans (if_pos hp)

/-- A frame's bytes behind the injections of its port: with its own FCS, or a new one where an injection changed it. -/
def frameBytes (f : List Byte) (q : Packet × Option Nat) : List Byte :=
  let whole := q.1.body ++ (if q.1.body = f.take (f.length - 4) then f.drop (f.length - 4) else toLE 4 (fcs q.1.body))
  match q.2 with | some k => flipBit whole k | none => whole

theorem DieState.ethReceive_ingest (hp : p < 4) :
    let r := (D.fecCounted p corr bad).linkPass 2 (4 * D.num + p) false { kind := 0, body := f.take (f.length - 4) }
    D.ethReceive p corr bad f first ptp = r.1.foldl (fun F q =>
      F.checkFrame p (frameBytes f q) ((D.ethPort p).fec && bad != 0) first ptp) r.2 := by
  have hnum : (D.fecCounted p corr bad).num = D.num := by
    unfold DieState.fecCounted
    split
    · rw [DieState.count_num, DieState.count_num]
    · rfl
  rw [← hnum]
  exact (if_neg (by rw [hl]; exact Bool.false_ne_true)).trans (if_neg (Nat.ne_of_lt hp))

end

/-- The checks of R563 on a frame, in their order. -/
theorem DieState.checkFrame_checks (f : List Byte) (bad : Bool) (first : Nat) (ptp : Option PtpIn) :
    let E := D.count B_ETH ETH_RX_FRAMES 1 p
    let body := f.take (f.length - 4)
    let y := ethFrame body
    let whole := bad = false ∧ field f (f.length - 4) 4 = fcs body
    let fits := 64 ≤ f.length ∧ f.length ≤ 9216
    let mine := E.dstOk p y = true ∧ (∀ t, y.tag = some t → E.vidOk p (t % 4096) = true) ∧
      [0x0800, 0x86DD, 0x0806, 0x88F7, 0x88CC].contains y.kind = true
    (¬ whole → D.checkFrame p f bad first ptp = E.count B_ETH ETH_RX_FCS_ERR 1 p) ∧
    (whole → ¬ fits → D.checkFrame p f bad first ptp = E.count B_ETH ETH_RX_LEN_ERR 1 p) ∧
    (whole → fits → ¬ mine → D.checkFrame p f bad first ptp = E.count B_ETH ETH_RX_FILTERED 1 p) ∧
    (whole → fits → mine → D.checkFrame p f bad first ptp = E.routeFrame p y first ptp) := by
  intro E body y whole fits mine
  have hfcs : (bad || field f (f.length - 4) 4 != fcs body) = true ↔ ¬ whole := by
    cases bad <;> simp [whole]
  have hlen : (f.length < 64 ∨ 9216 < f.length) ↔ ¬ fits := by
    simp only [fits, not_and_or, Nat.not_le]
  have htag : (match y.tag with | some t => E.vidOk p (t % 4096) | none => true) = true ↔
      ∀ t, y.tag = some t → E.vidOk p (t % 4096) = true := by
    cases y.tag <;> simp
  have hmine : (!E.dstOk p y || !(match y.tag with | some t => E.vidOk p (t % 4096) | none => true)
      || !([0x0800, 0x86DD, 0x0806, 0x88F7, 0x88CC].contains y.kind)) = true ↔ ¬ mine := by
    rw [Bool.or_eq_true, Bool.or_eq_true, Bool.not_eq_true', Bool.not_eq_true', Bool.not_eq_true', ← Bool.not_eq_true,
      ← Bool.not_eq_true, ← Bool.not_eq_true, htag]
    simp only [mine, not_and_or, or_assoc]
  unfold DieState.checkFrame
  refine ⟨fun h => if_pos (hfcs.mpr h), fun h hf => ?_, fun h hf hm => ?_, fun h hf hm => ?_⟩
  · exact (if_neg (fun hb => hfcs.mp hb h)).trans (if_pos (hlen.mpr hf))
  · exact (if_neg (fun hb => hfcs.mp hb h)).trans ((if_neg (fun hb => hlen.mp hb hf)).trans (if_pos (hmine.mpr hm)))
  · exact (if_neg (fun hb => hfcs.mp hb h)).trans ((if_neg (fun hb => hlen.mp hb hf)).trans (if_neg (fun hb => hmine.mp hb hm)))

/-! ## Links and the reference (R598) -/

/-- A port as a link change leaves it. -/
def EthPort.linked (up fec fault : Bool) (e : EthPort) : EthPort := { e with link := up, fec := fec, remoteFault := fault }

/-- A change of a link that the port and the reference allow. -/
theorem DieState.ethLink_changes {up fec fault : Bool}
    (h : (up && !(bit (D.reg B_ETH ETH_PORT_CTRL p) 0 && D.clk.refEth)) = false) :
    let E := D.onEth p (EthPort.linked up (up && fec && p != 4) fault)
    D.ethLink p up fec fault = if (D.ethPort p).link == up then E else
      (E.cause B_ETH 0).event { cls := 11, code := 0x03, island := if p = 4 then 33 else 32, ident := p, cause := b2n up } :=
  if_neg (by rw [h]; exact Bool.false_ne_true)

theorem DieState.ethLink_up {fec fault : Bool} (hen : bit (D.reg B_ETH ETH_PORT_CTRL p) 0 = true) (href : D.clk.refEth = true) :
    let E := D.onEth p (EthPort.linked true (fec && p != 4) fault)
    D.ethLink p true fec fault = if (D.ethPort p).link = true then E else
      (E.cause B_ETH 0).event { cls := 11, code := 0x03, island := if p = 4 then 33 else 32, ident := p, cause := 1 } := by
  refine (DieState.ethLink_changes (by rw [hen, href]; rfl)).trans ?_
  cases (D.ethPort p).link <;> rfl

theorem DieState.ethLink_down {fec fault : Bool} :
    let E := D.onEth p (EthPort.linked false false fault)
    D.ethLink p false fec fault = if (D.ethPort p).link = false then E else
      (E.cause B_ETH 0).event { cls := 11, code := 0x03, island := if p = 4 then 33 else 32, ident := p } := by
  refine (DieState.ethLink_changes rfl).trans ?_
  cases (D.ethPort p).link <;> rfl

/-- The table of the ports once port p is down. -/
theorem DieState.ethLink_eth (p : Nat) : (D.ethLink p false false false).eth = (D.onEth p (EthPort.linked false false false)).eth := by
  rw [DieState.ethLink_down]
  split
  · rfl
  · rw [DieState.event_eth, DieState.cause_eth]

/-- Taking ports down in turn keeps the table's canonical form, and every port among them ends down. -/
theorem DieState.ethLinks_down (l : List Nat) : ∀ D : DieState, tabWf (fun _ => ({} : EthPort)) D.eth = true →
    (∀ k, (k ∈ l ∨ (D.ethPort k).link = false) → ((l.foldl (fun D p => D.ethLink p false false false) D).ethPort k).link = false) := by
  induction l with
  | nil => exact fun D _ k hk => hk.resolve_left List.not_mem_nil
  | cons p l ih =>
    intro D hwf k hk
    have hwf' : tabWf (fun _ => ({} : EthPort)) (D.ethLink p false false false).eth = true := by
      rw [DieState.ethLink_eth]
      exact tabSet_wf _ _ _ _ hwf
    have hget : ∀ j, (D.ethLink p false false false).ethPort j = (D.onEth p (EthPort.linked false false false)).ethPort j :=
      fun j => congrArg (fun t => tabGet ({} : EthPort) t j) (DieState.ethLink_eth p)
    refine ih _ hwf' k ?_
    by_cases hp : k = p
    · subst hp
      refine Or.inr ?_
      rw [hget]
      exact congrArg EthPort.link (tabGet_set_same ({} : EthPort) k _ D.eth hwf)
    · have hkeep : (D.ethLink p false false false).ethPort k = D.ethPort k :=
        (hget k).trans (tabGet_set_other ({} : EthPort) p k _ D.eth hp)
      rw [hkeep]
      exact hk.imp_left (fun h => (List.mem_cons.mp h).resolve_left hp)

/-- Without the reference every link is down. -/
theorem DieState.ethRefLoss_downs (href : D.clk.refEth = true) :
    let E : DieState := { D with clk := { D.clk with refEth := false } }
    let G := (List.range 5).foldl (fun D p => D.ethLink p false false false)
      ((E.cause B_CLK 0).event { cls := 2, code := 0x01, ident := 2 })
    D.ethRefLoss = G ∧ (p < 5 → tabWf (fun _ => ({} : EthPort)) D.eth = true → (G.ethPort p).link = false) := by
  intro E G
  refine ⟨if_neg (by rw [href]; exact Bool.false_ne_true), fun hp hwf => ?_⟩
  refine DieState.ethLinks_down _ _ ?_ p (Or.inl (List.mem_range.mpr hp))
  rw [DieState.event_eth, DieState.cause_eth]
  exact hwf

/-! ## PTP (R566, R599) -/

theorem DieState.syncTimeout_ends {g : Nat} (hg : D.ptp.gm = some g) (hv : D.ptp.viaUcie = false)
    (ht : D.ptp.lastSync + 3000000000 ≤ D.now) :
    D.syncTimeout = ({ D with ptp := { D.ptp with syncs := 0 } } : DieState).setLock false :=
  if_pos (by rw [hg, hv, decide_eq_true ht]; rfl)

theorem DieState.syncTimeout_waits (ht : D.now < D.ptp.lastSync + 3000000000) : D.syncTimeout = D :=
  if_neg (by rw [decide_eq_false (Nat.not_le.mpr ht), Bool.and_false]; exact Bool.false_ne_true)

end

/-- Settles O47: a frame by the port and the checks, a link by its change, time by the last Sync and the 1PPS. -/
theorem ethernetFramesLinksAndTime : Obligations.EthernetFramesLinksAndTime := by
  refine ⟨?_, fun D p f bad first ptp => DieState.checkFrame_checks f bad first ptp⟩
  intro s a port hup hport D x
  refine ⟨fun corr bad f first ptp hl => onPtp_eq hup ((if_pos hport).trans (DieState.ethReceive_down hl)),
    fun corr bad f first ptp hl => ?_, fun fec fault hen href => onDie_eq hup ((if_pos hport).trans (DieState.ethLink_up hen href)),
    fun fec fault => onDie_eq hup ((if_pos hport).trans DieState.ethLink_down),
    fun g hg hv ht => onPtp_eq hup (DieState.syncTimeout_ends hg hv ht),
    fun ht => onPtp_eq hup (DieState.syncTimeout_waits ht), fun o => onDie_eq hup rfl, fun href => ?_⟩
  · intro E lost
    exact ⟨fun h4 => onPtp_eq hup ((if_pos hport).trans (DieState.ethReceive_safety hl h4)),
      fun h4 => onPtp_eq hup ((if_pos hport).trans (DieState.ethReceive_ingest hl h4))⟩
  · intro E F G
    obtain ⟨hloss, hdown⟩ := DieState.ethRefLoss_downs (p := port) href
    refine ⟨congrArg Host.Outcome.next (next_atDie_eq ?_), hdown hport⟩
    have hheld : (s.dieAt a).boot.held = false := hup
    exact (if_neg (by rw [hheld]; exact Bool.false_ne_true)).trans hloss

end Sys2Proof.Machine
end

section
/-! PROOFS. Resets (R600, R602, R603, R605, R640-R643): what a reset leaves of a die, and how a die comes out of it. -/

open Sys2Proof

namespace Sys2Proof.Machine

section
variable {s : State} {a : At} {d : Die} {D : DieState}

/-! ## The dies of the package -/

/-- THERMTRIP# is an output: nothing else of a die moves with it. -/
theorem State.thermtrip_die (old t : State) (d e : Die) :
    ∃ o, (State.thermtrip old d t).die e = { t.die e with outs := o } := by
  unfold State.thermtrip
  dsimp only
  split
  · exact ⟨_, rfl⟩
  · by_cases he : e = d
    · subst he
      exact ⟨_, State.die_onDie_same _ _ _⟩
    · exact ⟨_, State.die_onDie_other _ _ _ _ he⟩

theorem State.thermtrip_die_other {e : Die} (old t : State) (h : e ≠ d) : (State.thermtrip old d t).die e = t.die e := by
  unfold State.thermtrip
  dsimp only
  split
  · rfl
  · exact State.die_onDie_other _ _ _ _ h

theorem State.allReset_die (k : ResetKind) (causes : Nat) : (s.allReset k causes).die d = (s.die d).inReset k causes :=
  State.die_quadMap s (fun D => D.inReset k causes) d

/-- A command that only advances the time base of its die. -/
theorem State.die_atDie_id : (s.atDie a (fun D => D)).die d = if d = a.die then s.dieAt a else s.die d := by
  split
  · next h => subst h; exact State.die_atDie_same s a _
  · next h => exact State.die_onDie_other _ _ _ _ h

theorem State.die_atDie_id_boot : ((s.atDie a (fun D => D)).die d).boot = (s.die d).boot := by
  rw [State.die_atDie_id]
  split
  · next h => subst h; rfl
  · rfl

/-! ## Into a reset -/

theorem DieState.inReset_powerOn : ∃ o, D.inReset .powerOn 0 =
    { num := D.num, now := 0, fresh := D.fresh, outs := o, log := {}, mem := { host := D.mem.host }
      clk := { refA := D.clk.refA, refB := D.clk.refB, refEth := D.clk.refEth }, pcie := { perst := D.pcie.perst }
      boot := { held := true } } := ⟨_, rfl⟩

/-- A package reset keeps the time base and the log's ring, and adds its cause. -/
theorem DieState.inReset_package (causes : Nat) (h : ¬ (D.boot.held = true ∧ D.boot.dieReset = true)) :
    ∃ o, D.inReset .package causes =
      (({ num := D.num, now := D.now, fresh := D.fresh, outs := o, log := D.log.kept .package D.now, mem := { host := D.mem.host }
          clk := { refA := D.clk.refA, refB := D.clk.refB, refEth := D.clk.refEth }, pcie := { perst := D.pcie.perst }
          boot := { held := true } } : DieState).setReg B_GLB GLB_RESET_CAUSE (orN (D.reg B_GLB GLB_RESET_CAUSE) causes)) := by
  have hboot : (if ResetKind.package = .package ∧ D.boot.held = true ∧ D.boot.dieReset = true
      then ({ D.boot with slot := 0, orphan := false } : BootState) else { held := true }) = { held := true } :=
    if_neg (fun hk => h hk.2)
  exact ⟨_, congrArg (fun b => ({ D.inReset .package causes with boot := b } : DieState)) hboot⟩

/-! ## Out of a reset -/

/-- What becomes of a die when the package leaves a reset. -/
def DieState.released (D : DieState) (bad : Bool) : DieState :=
  if !D.boot.held || D.boot.dieReset then D
  else if bad then { D with boot := { D.boot with dieReset := true, trip := false, error := 10, causeGone := none } }
  else D.startBoot false

theorem State.leaveReset_die (bad : Nat) (hgood : s.pkg.pwrGood = true) (hhigh : s.pkg.resetLow = false) :
    (s.leaveReset bad).die d = (s.die d).released (bit bad d.val) := by
  unfold State.leaveReset
  rw [if_neg (by rw [hgood, hhigh]; exact Bool.false_ne_true)]
  fin_cases d <;> rfl

theorem DieState.released_starts (hheld : D.boot.held = true) (hreset : D.boot.dieReset = false) :
    D.released false = D.startBoot false := by
  unfold DieState.released
  rw [hheld, hreset]
  rfl

theorem DieState.released_waits (hheld : D.boot.held = true) (hreset : D.boot.dieReset = false) :
    D.released true = { D with boot := { D.boot with dieReset := true, trip := false, error := 10, causeGone := none } } := by
  unfold DieState.released
  rw [hheld, hreset]
  rfl

/-- A die out of the reset of the package begins its boot, or waits for its rails. -/
theorem DieState.released_boot {E : DieState} {bad : Bool} (hheld : E.boot.held = true) (hreset : E.boot.dieReset = false)
    (hboot : D.boot = (E.released bad).boot) (hnow : D.now = (E.released bad).now) :
    (bad = false → D.boot = { held := false, alone := false, released := D.now, slot := E.boot.slot, orphan := E.boot.orphan } ∧
      D.now = E.now) ∧
    (bad = true → D.boot = { E.boot with dieReset := true, trip := false, error := 10, causeGone := none }) := by
  refine ⟨fun hb => ?_, fun hb => ?_⟩
  · rw [hb, DieState.released_starts hheld hreset] at hboot hnow
    rw [hboot, hnow]
    exact ⟨rfl, rfl⟩
  · rw [hboot, hb, DieState.released_waits hheld hreset]

/-! ## The rows of the pins -/

theorem State.powerFall_resets (hgood : s.pkg.pwrGood = true) :
    (s.powerFall a).pkg = { s.pkg with pwrGood := false, pull := none } ∧
    ∃ o, (s.powerFall a).die d = { (s.die d).inReset .powerOn 0 with outs := o } := by
  have h : s.powerFall a = State.thermtrip s a.die (({ s with pkg := { s.pkg with pwrGood := false } } : State).allReset .powerOn 0) :=
    if_neg (by rw [hgood]; exact Bool.false_ne_true)
  rw [h, State.thermtrip_pkg]
  refine ⟨rfl, ?_⟩
  obtain ⟨o, ho⟩ := State.thermtrip_die s (({ s with pkg := { s.pkg with pwrGood := false } } : State).allReset .powerOn 0) a.die d
  exact ⟨o, by rw [ho, State.allReset_die]; rfl⟩

theorem State.resetPin_resets (hgood : s.pkg.pwrGood = true) (hhigh : s.pkg.resetLow = false) :
    (s.resetPin a).pkg = { s.pkg with resetLow := true, pull := none } ∧
    ∃ o, (s.resetPin a).die d =
      { (if d = a.die then s.dieAt a else s.die d).inReset .package 2 with outs := o } := by
  let r : State := { s with pkg := { s.pkg with resetLow := true } }
  have h : s.resetPin a = State.thermtrip s a.die ((r.atDie a (fun D => D)).allReset .package 2) :=
    (if_neg (by rw [hhigh]; exact Bool.false_ne_true)).trans (if_pos hgood)
  rw [h, State.thermtrip_pkg]
  refine ⟨rfl, ?_⟩
  obtain ⟨o, ho⟩ := State.thermtrip_die s ((r.atDie a (fun D => D)).allReset .package 2) a.die d
  exact ⟨o, by rw [ho, State.allReset_die, State.die_atDie_id]; rfl⟩

theorem State.powerOn_releases (bad : Nat) (test : Bool) (hoff : s.pkg.pwrGood = false) (hhigh : s.pkg.resetLow = false) :
    (s.powerOn a bad test).pkg = { s.pkg with pwrGood := true, test := test } ∧
    ∃ o, (s.powerOn a bad test).die d = { (s.die d).released (bit bad d.val) with outs := o } := by
  let r : State := { s with pkg := { s.pkg with pwrGood := true, test := test } }
  have h : s.powerOn a bad test = State.thermtrip s a.die (r.leaveReset bad) :=
    if_neg (by rw [hoff]; exact Bool.false_ne_true)
  rw [h, State.thermtrip_pkg, State.leaveReset_pkg]
  refine ⟨rfl, ?_⟩
  obtain ⟨o, ho⟩ := State.thermtrip_die s (r.leaveReset bad) a.die d
  exact ⟨o, by rw [ho, State.leaveReset_die (s := r) bad rfl hhigh]; rfl⟩

theorem State.resetRise_releases (bad : Nat) (hgood : s.pkg.pwrGood = true) (hlow : s.pkg.resetLow = true) :
    (s.resetRise a bad).pkg = { s.pkg with resetLow := false } ∧
    (s.resetRise a bad).die d = (if d = a.die then s.dieAt a else s.die d).released (bit bad d.val) := by
  let r : State := { s with pkg := { s.pkg with resetLow := false } }
  have h : s.resetRise a bad = (r.atDie a (fun D => D)).leaveReset bad :=
    if_neg (by rw [hlow]; exact Bool.false_ne_true)
  rw [h, State.leaveReset_pkg]
  exact ⟨rfl, by rw [State.leaveReset_die (s := r.atDie a (fun D => D)) bad hgood rfl, State.die_atDie_id]; rfl⟩

/-- The maker's package_reset. -/
theorem State.packageReset_resets {r : Req} {v : Nat} (bad : Nat) (hgood : s.pkg.pwrGood = true)
    (hhigh : s.pkg.resetLow = false) (hadm : (s.dieAt a).admits r B_GLB GLB_CTRL true) (hrole : (s.dieAt a).roleOf r = 2)
    (hv : bit v 2 = true) :
    (s.packageReset a r v bad).pkg = { s.pkg with pull := none } ∧
    ∃ o, (s.packageReset a r v bad).die d =
      { ((if d = a.die then s.dieAt a else s.die d).inReset .package 4).released (bit bad d.val) with outs := o } := by
  let u : State := (s.atDie a (fun D => D)).allReset .package 4
  have hdie : (s.atDie a (fun D => D)).die a.die = s.dieAt a := State.die_atDie_same s a _
  obtain ⟨_, _, hbar, hcsr⟩ := hadm
  have h : s.packageReset a r v bad = State.thermtrip s a.die (u.leaveReset bad) := by
    unfold State.packageReset
    dsimp only
    rw [hdie, hv, hbar, hcsr, hrole]
    rfl
  rw [h, State.thermtrip_pkg, State.leaveReset_pkg]
  refine ⟨rfl, ?_⟩
  obtain ⟨o, ho⟩ := State.thermtrip_die s (u.leaveReset bad) a.die d
  exact ⟨o, by rw [ho, State.leaveReset_die (s := u) bad hgood hhigh, State.allReset_die, State.die_atDie_id]⟩

/-! ## A die's own reset -/

theorem State.dieRelease_boots {t0 : Nat} (hgone : (s.die a.die).boot.causeGone = some t0)
    (hheld : (s.die a.die).boot.held = true) (hreset : (s.die a.die).boot.dieReset = true) (hgood : s.pkg.pwrGood = true)
    (hhigh : s.pkg.resetLow = false) (ht : t0 + 10000000 ≤ (s.dieAt a).now) :
    s.dieRelease a = State.thermtrip s a.die (s.put a (({ s.dieAt a with now := 0 } : DieState).startBoot true)) := by
  have hdie : (s.atDie a (fun D => D)).die a.die = s.dieAt a := State.die_atDie_same s a _
  have hgone' : (s.dieAt a).boot.causeGone = some t0 := hgone
  have hheld' : (s.dieAt a).boot.held = true := hheld
  have hreset' : (s.dieAt a).boot.dieReset = true := hreset
  unfold State.dieRelease
  dsimp only
  rw [hdie, hgone']
  dsimp only
  rw [hheld', hreset', hgood, hhigh, decide_eq_true ht, State.atDie_id, State.put_onDie]
  rfl

/-! ## The cause that a die reset latches -/

/-- What the event log writes of its own registers leaves the latched causes of the resets alone. -/
theorem DieState.resetCause_setReg (D : DieState) (off v i : Nat) (hoff : off < 65536) :
    (D.setReg B_EVL off v i).reg B_GLB GLB_RESET_CAUSE = D.reg B_GLB GLB_RESET_CAUSE :=
  D.reg_setReg_other _ _ _ _ _ _ _ (regKey_ne_of_ne B_EVL off i B_GLB GLB_RESET_CAUSE 0 (by decide) hoff (by decide)
    (by decide) (fun h => absurd h.1 (by decide)))

theorem DieState.resetCause_setReg64 (D : DieState) (off v i : Nat) (hoff : off + 4 < 65536) :
    (D.setReg64 B_EVL off v i).reg B_GLB GLB_RESET_CAUSE = D.reg B_GLB GLB_RESET_CAUSE :=
  D.reg_setReg64_elsewhere _ _ _ _ _ _ _ (by decide) hoff (by decide) (by decide) (fun h => absurd h.1 (by decide))

theorem DieState.resetCause_count (D : DieState) (off n i : Nat) (hoff : off + 4 < 65536) :
    (D.count B_EVL off n i).reg B_GLB GLB_RESET_CAUSE = D.reg B_GLB GLB_RESET_CAUSE := by
  unfold DieState.count
  split
  · exact D.resetCause_setReg64 off _ i hoff
  · rfl

theorem DieState.resetCause_msix (D : DieState) (fn vec : Nat) :
    (D.msix fn vec).reg B_GLB GLB_RESET_CAUSE = D.reg B_GLB GLB_RESET_CAUSE := by
  unfold DieState.msix
  split
  · split <;> rfl
  · rfl

theorem DieState.resetCause_cause (D : DieState) (n : Nat) :
    (D.cause B_EVL n).reg B_GLB GLB_RESET_CAUSE = D.reg B_GLB GLB_RESET_CAUSE := by
  have hset := D.resetCause_setReg 0x000C (orN (D.reg B_EVL 0x000C) (2 ^ n)) 0 (by decide)
  unfold DieState.cause
  dsimp only
  split
  · rfl
  · split
    · exact (DieState.resetCause_msix _ _ _).trans hset
    · exact hset

theorem DieState.resetCause_coalesce (D : DieState) (e : Event) :
    (D.coalesce e).reg B_GLB GLB_RESET_CAUSE = D.reg B_GLB GLB_RESET_CAUSE := by
  unfold DieState.coalesce
  dsimp only
  refine (DieState.resetCause_cause _ 1).trans ?_
  exact (DieState.resetCause_count _ EVL_COALESCED_TOTAL 1 0 (by decide)).trans
    (DieState.resetCause_count _ EVL_CLASS_COALESCED 1 e.cls (by decide))

theorem DieState.resetCause_event (D : DieState) (e : Event) :
    (D.event e).reg B_GLB GLB_RESET_CAUSE = D.reg B_GLB GLB_RESET_CAUSE := by
  have hnoted : (D.noted e.cls).reg B_GLB GLB_RESET_CAUSE = D.reg B_GLB GLB_RESET_CAUSE :=
    (DieState.resetCause_setReg64 _ EVL_CLASS_LAST_TIME _ e.cls (by decide)).trans
      (D.resetCause_count EVL_CLASS_COUNT 1 e.cls (by decide))
  unfold DieState.event
  dsimp only
  split
  · exact (DieState.resetCause_coalesce _ _).trans hnoted
  · split
    · exact hnoted
    · exact (DieState.resetCause_coalesce _ _).trans hnoted

theorem DieState.resetCause_inReset (k : ResetKind) (causes : Nat) (hk : k ≠ .powerOn) :
    (D.inReset k causes).reg B_GLB GLB_RESET_CAUSE = orN (D.reg B_GLB GLB_RESET_CAUSE) causes % 2 ^ 32 := by
  unfold DieState.inReset
  dsimp only
  rw [if_neg hk]
  exact DieState.reg_setReg_same _ B_GLB GLB_RESET_CAUSE _ 0 rfl

/-- A die reset for a thermal trip: the die is held, its error and its latched cause say why. -/
theorem DieState.dieReset_trip :
    (D.dieReset true).boot.held = true ∧ (D.dieReset true).boot.dieReset = true ∧ (D.dieReset true).boot.trip = true ∧
    (D.dieReset true).boot.error = 9 ∧ bit ((D.dieReset true).reg B_GLB GLB_RESET_CAUSE) 4 = true := by
  let R := D.inReset .die 16
  let E : DieState := { R with boot := { R.boot with trip := true, error := 9 } }
  have hcases : D.dieReset true = E.event { cls := 1, code := 0x02, island := 2, cause := 9 } ∨ D.dieReset true = E := by
    by_cases hb : D.boot.stage < 7
    · exact .inl (if_pos hb)
    · exact .inr (if_neg hb)
  have hreg : bit (E.reg B_GLB GLB_RESET_CAUSE) 4 = true := by
    have h : E.reg B_GLB GLB_RESET_CAUSE = orN (D.reg B_GLB GLB_RESET_CAUSE) 16 % 2 ^ 32 :=
      DieState.resetCause_inReset .die 16 (by decide)
    have hbit : bit (orN (D.reg B_GLB GLB_RESET_CAUSE) 16) 4 = true := by
      rw [bit_orN]
      exact Bool.or_true _
    rw [h, bit_eq_testBit, Nat.testBit_mod_two_pow, ← bit_eq_testBit, hbit]
    rfl
  rcases hcases with h | h
  · rw [h, DieState.event_boot, DieState.resetCause_event]
    exact ⟨rfl, rfl, rfl, rfl, hreg⟩
  · rw [h]
    exact ⟨rfl, rfl, rfl, rfl, hreg⟩

end

/-- Settles O48: each row of a pin is the reset or the release of every die, followed by the level of THERMTRIP#. -/
theorem resetsHoldAndReleaseTheDies : Obligations.ResetsHoldAndReleaseTheDies := by
  intro s a bad test r v hold ring starts timed
  have htimed (d : Die) : (timed d).boot = (s.die d).boot := by
    show (if d = a.die then s.dieAt a else s.die d).boot = _
    rw [← State.die_atDie_id, State.die_atDie_id_boot]
  refine ⟨fun hgood => ?_, fun hgood hhigh => ?_, fun hoff hhigh => ?_, fun hgood hlow => ?_, fun hup hgood hhigh hadm hrole hv => ?_,
    fun t0 hgone hheld hreset hgood hhigh ht => ?_, fun die opt0 opt1 hup hinj htrip => ?_⟩
  · refine ⟨s.powerFall a, rfl, (State.powerFall_resets (d := 0) hgood).1, fun d => ?_⟩
    obtain ⟨_, o, ho⟩ := State.powerFall_resets (a := a) (d := d) hgood
    exact ⟨o, ho.trans rfl⟩
  · refine ⟨s.resetPin a, rfl, (State.resetPin_resets (d := 0) hgood hhigh).1, fun d hreset => ?_⟩
    intro D
    obtain ⟨_, o, ho⟩ := State.resetPin_resets (a := a) (d := d) hgood hhigh
    have hclear : ¬ (D.boot.held = true ∧ D.boot.dieReset = true) := by
      rw [show D.boot = (s.die d).boot from htimed d, hreset]
      exact fun h => Bool.false_ne_true h.2
    obtain ⟨o', ho'⟩ := DieState.inReset_package 2 hclear
    refine ⟨o, ho.trans ?_⟩
    rw [show (if d = a.die then s.dieAt a else s.die d).inReset .package 2 = _ from ho']
    rfl
  · refine ⟨s.powerOn a bad test, rfl, (State.powerOn_releases (d := 0) bad test hoff hhigh).1, fun d hheld hreset => ?_⟩
    obtain ⟨_, o, ho⟩ := State.powerOn_releases (a := a) (d := d) bad test hoff hhigh
    have hboot : ((s.powerOn a bad test).die d).boot = ((s.die d).released (bit bad d.val)).boot := by rw [ho]
    have hnow : ((s.powerOn a bad test).die d).now = ((s.die d).released (bit bad d.val)).now := by rw [ho]
    exact DieState.released_boot hheld hreset hboot hnow
  · refine ⟨s.resetRise a bad, rfl, (State.resetRise_releases (d := 0) bad hgood hlow).1, fun d hheld hreset => ?_⟩
    obtain ⟨_, ho⟩ := State.resetRise_releases (a := a) (d := d) bad hgood hlow
    rw [← htimed d] at hheld hreset ⊢
    exact DieState.released_boot hheld hreset (congrArg DieState.boot ho) (congrArg DieState.now ho)
  · refine ⟨s.packageReset a r v.toNat bad, running_eq hup rfl,
      (State.packageReset_resets (d := 0) bad hgood hhigh hadm hrole hv).1, fun d hheld hb => ?_⟩
    obtain ⟨_, o, ho⟩ := State.packageReset_resets (d := d) bad hgood hhigh hadm hrole hv
    have hclear : ¬ ((timed d).boot.held = true ∧ (timed d).boot.dieReset = true) := by
      rw [htimed d, hheld]
      exact fun h => Bool.false_ne_true h.1
    have hreg := DieState.resetCause_inReset (D := timed d) .package 4 (by decide)
    obtain ⟨o', ho'⟩ := DieState.inReset_package 4 hclear
    rw [hb, show (if d = a.die then s.dieAt a else s.die d).inReset .package 4 = _ from ho',
      DieState.released_starts rfl rfl] at ho
    rw [ho'] at hreg
    obtain ⟨hboot, hnow⟩ := And.intro (congrArg DieState.boot ho) (congrArg DieState.now ho)
    refine ⟨hboot.trans ?_, congrArg DieState.cmd ho, (congrArg (fun E : DieState => E.reg B_GLB GLB_RESET_CAUSE) ho).trans hreg⟩
    rw [hnow]
    rfl
  · obtain ⟨o, ho⟩ := State.thermtrip_die s (s.put a (({ s.dieAt a with now := 0 } : DieState).startBoot true)) a.die a.die
    rw [State.die_put] at ho
    refine ⟨_, congrArg Host.Outcome.next (State.dieRelease_boots hgone hheld hreset hgood hhigh ht), ?_, ?_, ?_, fun d hd => ?_⟩
    · show DieState.boot _ = _
      rw [ho]
      rfl
    · rw [ho]
      rfl
    · exact State.thermtrip_pkg _ _ _
    · exact (State.thermtrip_die_other s _ hd).trans (State.die_put_other s a _ d hd)
  · have hrun : exec (.dieTempSample a die opt0 opt1) s = .next (State.thermtrip s a.die (s.put a ((s.dieAt a).dieReset true))) := by
      refine congrArg (fun t => Host.Outcome.next (State.thermtrip s a.die t)) (next_atDie_eq ?_)
      have hheld : (s.dieAt a).boot.held = false := hup
      refine (if_neg (by rw [hheld]; exact Bool.false_ne_true)).trans
        (DieState.tempSample_trips _ die opt0 opt1 ?_ htrip)
      rw [hinj]
      exact fun _ h => absurd h List.not_mem_nil
    obtain ⟨o, ho⟩ := State.thermtrip_die s (s.put a ((s.dieAt a).dieReset true)) a.die a.die
    rw [State.die_put] at ho
    refine ⟨_, hrun, congrArg (·.flash) (State.thermtrip_pkg _ _ _), ?_⟩
    rw [ho]
    exact DieState.dieReset_trip

end Sys2Proof.Machine
end

section
/-! PROOFS. The boot (R27, R28, R601-R603): the strap exchange, the stages in their order, and what ends a boot. -/

open Sys2Proof

namespace Sys2Proof.Machine

section
variable {s : State} {a : At} {D : DieState} {digestBad anchorsBad : Bool}

theorem DieState.bootFail_boot (code : Nat) : (D.bootFail code).boot = { D.boot with error := code } :=
  DieState.event_boot _ _

/-! ## The strap exchange (R27) -/

/-- The value of a die that runs its exchange is kept. -/
theorem State.strapReceive_keeps {p : Die} (hp : p ≠ a.die) (hheld : (s.die p).boot.held = false)
    (hstage : 2 ≤ (s.die p).boot.stage) (hopen : (s.dieAt a).boot.closed = false) :
    s.strapReceive a p.val = s.put a { s.dieAt a with boot := { (s.dieAt a).boot with
      straps := tabPut p.val (strapAt p.val) (s.dieAt a).boot.straps } } := by
  have hat : quadGet (s.put a (s.dieAt a)).dies p.val = s.die p := State.die_onDie_other _ _ _ _ hp
  have hme : (s.put a (s.dieAt a)).die a.die = s.dieAt a := State.die_put _ _ _
  have htakes : ¬ ((decide (p.val = a.die.val) || (quadGet (s.put a (s.dieAt a)).dies p.val).boot.held
      || decide ((quadGet (s.put a (s.dieAt a)).dies p.val).boot.stage < 2)
      || ((s.put a (s.dieAt a)).die a.die).boot.closed) = true) := by
    rw [hat, hme, hheld, hopen, decide_eq_false (fun h => hp (Fin.ext h)), decide_eq_false (Nat.not_lt.mpr hstage)]
    exact Bool.false_ne_true
  exact (if_neg htakes).trans (State.put_onDie _ _ _ _)

section
variable (hopen : D.boot.closed = false) (halone : D.boot.alone = false) (hdue : D.boot.released + 10000000 ≤ D.now)
  (herror : D.boot.error = 0)
include hopen halone hdue herror

theorem DieState.strapClose_due : ¬ ((D.boot.closed || D.boot.alone || decide (D.now < D.boot.released + 10000000)
    || D.boot.error != 0) = true) := by
  rw [hopen, halone, herror, decide_eq_false (Nat.not_lt.mpr hdue)]
  exact Bool.false_ne_true

theorem DieState.strapClose_conflict (h : ∃ e ∈ (D.num, strapAt D.num) :: D.boot.straps, e.1 ≠ e.2) :
    D.strapClose.boot = { D.boot with closed := true, conflict := true, error := 1 } := by
  have hany : ((D.num, strapAt D.num) :: D.boot.straps).any (fun e => e.1 != e.2) = true := by
    rw [List.any_eq_true]
    obtain ⟨e, he, hne⟩ := h
    exact ⟨e, he, bne_iff_ne.mpr hne⟩
  unfold DieState.strapClose
  rw [if_neg (DieState.strapClose_due hopen halone hdue herror)]
  dsimp only
  rw [if_pos hany, DieState.bootFail_boot, DieState.event_boot]

theorem DieState.strapClose_fits (h : ∀ e ∈ (D.num, strapAt D.num) :: D.boot.straps, e.1 = e.2) :
    D.strapClose = ([0, 1, 2, 3].filter (fun d => d != D.num && (tabFind D.boot.straps d).isNone)).foldl
      (fun E d => E.markLost d) { D with boot := { D.boot with closed := true } } := by
  have hnone : ¬ (((D.num, strapAt D.num) :: D.boot.straps).any (fun e => e.1 != e.2) = true) := by
    rw [List.any_eq_true]
    exact fun ⟨e, he, hne⟩ => bne_iff_ne.mp hne (h e he)
  exact (if_neg (DieState.strapClose_due hopen halone hdue herror)).trans (if_neg hnone)

end

/-! ## A late die (R27, R603) -/

section
variable (hstage : (s.dieAt a).boot.stage = 2) (herror : (s.dieAt a).boot.error = 0) (halone : (s.dieAt a).boot.alone = true)
include hstage herror halone

theorem State.strapLate_admitted (hfits : strapAt a.die.val = a.die.val)
    (hothers : ∀ e : Die, e ≠ a.die → strapAt e.val = e.val) :
    s.strapLate a = ((s.put a (s.dieAt a)).onRunning (fun E => if E.num = a.die.val then E
      else { E with boot := { E.boot with lost := andNot E.boot.lost (2 ^ a.die.val) } })).onDie a.die
        (fun E => { E with boot := { E.boot with closed := true } }) := by
  have hme : (s.atDie a (fun D => D)).die a.die = s.dieAt a := State.die_atDie_same s a _
  have hother : [0, 1, 2, 3].any (fun e => e != a.die.val && !(quadGet (s.atDie a (fun D => D)).dies e).boot.held
      && strapAt e == strapAt a.die.val) = false := by
    rw [List.any_eq_false]
    intro e he hmatch
    simp only [Bool.and_eq_true, bne_iff_ne, beq_iff_eq] at hmatch
    obtain ⟨⟨hne, _⟩, heq⟩ := hmatch
    have hlt : e < 4 := by
      simp only [List.mem_cons, List.not_mem_nil, or_false] at he
      omega
    have hself : strapAt e = e := hothers ⟨e, hlt⟩ (fun h => hne (congrArg Fin.val h))
    exact hne (by rw [← hself, heq, hfits])
  unfold State.strapLate
  dsimp only
  rw [hme, hother, if_neg (by rw [hstage, herror, halone]; simp), if_pos ⟨hfits, rfl⟩]
  rfl

theorem State.strapLate_refused (hfits : strapAt a.die.val ≠ a.die.val) :
    s.strapLate a = s.put a ((s.dieAt a).bootFail 1) := by
  have hme : (s.atDie a (fun D => D)).die a.die = s.dieAt a := State.die_atDie_same s a _
  unfold State.strapLate
  dsimp only
  rw [hme, if_neg (by rw [hstage, herror, halone]; simp), if_neg (fun h => hfits h.1), State.atDie_id, State.put_onDie]

end

/-! ## The stages (R602, R603) -/

/-- What a boot does at its present stage. -/
def State.atStage (s : State) (a : At) (D : DieState) (digestBad anchorsBad : Bool) : State :=
  let S := s.put a D
  match D.boot.stage with
  | 0 => if s.pkg.test then S else s.put a { D with boot := { D.boot with stage := 1 } }
  | 1 =>
    if Config.fuseMapValid a.die then s.put a { D with boot := { D.boot with stage := 2 } }
    else s.put a ((D.event { cls := 1, code := 0x04, island := 2 }).bootFail 2)
  | 2 =>
    if !D.clk.refA && !D.clk.refB then s.put a (D.bootFail 7)
    else if !D.boot.closed || S.unwanted a.die.val then S
    else s.put a { D with boot := { D.boot with stage := 3 }, clk := { D.clk with selB := !D.clk.refA } }
  | 3 =>
    if D.mem.s0.failed || D.mem.s1.failed then s.put a (D.bootFail 3)
    else if D.mem.s0.ready && D.mem.s1.ready then
      s.put a { D with boot := { D.boot with stage := 4 }, mem := { D.mem with spared := sparedRows s.pkg.flash D.num } }
    else S
  | 4 => S.bootImage a.die digestBad
  | 5 => S.bootFirmware a.die anchorsBad
  | 6 => S.bootConfig a.die
  | _ => S

theorem State.bootAdvance_atStage (herror : (s.dieAt a).boot.error = 0) :
    s.bootAdvance a digestBad anchorsBad = s.atStage a (s.dieAt a) digestBad anchorsBad := by
  have hme : (s.put a (s.dieAt a)).die a.die = s.dieAt a := State.die_put _ _ _
  unfold State.bootAdvance
  dsimp only
  rw [State.atDie_id]
  rw [hme, if_neg (not_not_intro herror)]
  simp only [State.put_onDie]
  rfl

/-! Stage 4: the image. -/

/-- The training of the mainband changes modules and links alone. -/
theorem State.linkOn_boot (t : State) (d m : Nat) (e : Die) : ((t.linkOn d m).die e).boot = (t.die e).boot := by
  unfold State.linkOn
  dsimp only
  split
  · rw [State.onRunning, State.die_quadMap]
    split <;> rfl
  · rfl

theorem State.mainband_boot (t : State) (d e : Die) : ((t.mainband d.val).die e).boot = (t.die e).boot := by
  refine (State.linkOn_boot _ _ 1 e).trans ((State.linkOn_boot _ _ 0 e).trans ?_)
  by_cases he : e = d
  · subst he
    exact (congrArg DieState.boot (State.die_onDie_same t e _)).trans rfl
  · exact congrArg DieState.boot (State.die_onDie_other t d e _ he)

/-- A die whose image is good goes to stage 5 with it. -/
theorem State.imaged_boot (t : State) (d : Die) (slot : Nat) (image : List Byte) (orphan : Bool) :
    let E := ((t.onDie d (fun D => { D with boot := { D.boot with
      stage := 5, slot := slot, image := image, orphan := D.boot.orphan || orphan } })).mainband d.val).die d
    E.boot.stage = 5 ∧ E.boot.slot = slot ∧ E.boot.image = image := by
  intro E
  have hE : E.boot = _ := (State.mainband_boot _ d d).trans (congrArg DieState.boot (State.die_onDie_same t d _))
  rw [hE]
  exact ⟨rfl, rfl, rfl⟩

/-- Die 0 takes the image of its slot from the flash, or fails with code 4. -/
theorem State.bootImage_flash {t : State} {d : Die} (hd : d = 0) (bad : Bool) (halone : (t.die d).boot.alone = false) :
    let E := (t.bootImage d bad).die d
    (bootSlot t.pkg.flash t.pkg.flash.slot = none → E.boot = { (t.die d).boot with error := 4 }) ∧
    ∀ n, bootSlot t.pkg.flash t.pkg.flash.slot = some n → E.boot.stage = 5 ∧ E.boot.slot = n ∧
      E.boot.image = if n = 0 then t.pkg.flash.image0 else t.pkg.flash.image1 := by
  subst hd
  intro E
  refine ⟨fun hslot => ?_, fun n hslot => ?_⟩
  · have hrun : t.bootImage 0 bad = t.onDie 0 (fun D => D.bootFail 4) := by
      unfold State.bootImage
      dsimp only
      rw [if_pos rfl, halone, if_neg Bool.false_ne_true, hslot]
    show ((t.bootImage 0 bad).die 0).boot = _
    rw [hrun, State.die_onDie_same, DieState.bootFail_boot]
  · have hrun : t.bootImage 0 bad = (t.onDie 0 (fun D => { D with boot := { D.boot with
        stage := 5, slot := n, image := if n = 0 then t.pkg.flash.image0 else t.pkg.flash.image1
        orphan := D.boot.orphan || t.dies.q0.boot.orphan } })).mainband (0 : Die).val := by
      unfold State.bootImage
      dsimp only
      rw [if_pos rfl, halone, if_neg Bool.false_ne_true, hslot]
    show ((t.bootImage 0 bad).die 0).boot.stage = 5 ∧ ((t.bootImage 0 bad).die 0).boot.slot = n ∧
      ((t.bootImage 0 bad).die 0).boot.image = _
    rw [hrun]
    exact State.imaged_boot t 0 _ _ _

section
variable {t : State} {d : Die} (hd : d ≠ 0)
include hd

/-- A die that die 0 never sends the image fails with code 6. -/
theorem State.bootImage_orphaned (bad : Bool) (hheld : t.dies.q0.boot.held = true) (halone : (t.die d).boot.alone = false) :
    t.bootImage d bad = t.onDie d (fun D => D.bootFail 6) := by
  unfold State.bootImage
  dsimp only
  rw [if_neg hd, hheld, Bool.true_or, Bool.true_or, if_pos rfl, halone]
  exact if_neg Bool.false_ne_true

section
variable (hheld : t.dies.q0.boot.held = false) (herror : t.dies.q0.boot.error = 0) (hstage : 5 ≤ t.dies.q0.boot.stage)
  (hlost : bit (t.die d).boot.lost 0 = false)
include hheld herror hstage hlost

/-- Die 0 has the image: a die takes it, once its digest is right. -/
theorem State.bootImage_received (bad : Bool) : t.bootImage d bad =
    if bad then
      if (t.die d).boot.badImage then t.onDie d (fun D => D.bootFail 5)
      else t.onDie d (fun D => { D with boot := { D.boot with badImage := true } })
    else (t.onDie d (fun D => { D with boot := { D.boot with
      stage := 5, slot := t.dies.q0.boot.slot, image := t.dies.q0.boot.image
      orphan := D.boot.orphan || t.dies.q0.boot.orphan } })).mainband d.val := by
  unfold State.bootImage
  dsimp only
  rw [if_neg hd, hheld, hlost, herror]
  exact (if_neg (by decide)).trans (if_neg (by omega))

theorem State.bootImage_taken :
    ((t.bootImage d false).die d).boot.stage = 5 ∧ ((t.bootImage d false).die d).boot.slot = t.dies.q0.boot.slot ∧
      ((t.bootImage d false).die d).boot.image = t.dies.q0.boot.image := by
  rw [State.bootImage_received hd hheld herror hstage hlost]
  exact State.imaged_boot t d _ _ _

theorem State.bootImage_again (hfirst : (t.die d).boot.badImage = false) :
    (t.bootImage d true).die d = { t.die d with boot := { (t.die d).boot with badImage := true } } := by
  rw [State.bootImage_received hd hheld herror hstage hlost, if_pos rfl, hfirst, if_neg Bool.false_ne_true,
    State.die_onDie_same]

theorem State.bootImage_badTwice (hsecond : (t.die d).boot.badImage = true) :
    ((t.bootImage d true).die d).boot = { (t.die d).boot with error := 5 } := by
  rw [State.bootImage_received hd hheld herror hstage hlost, if_pos rfl, hsecond, if_pos rfl, State.die_onDie_same,
    DieState.bootFail_boot]

end

end

/-! ## A boot that is late, and a die that is lost -/

theorem State.bootTimeout_late (hstage : (s.dieAt a).boot.stage < 7) (herror : (s.dieAt a).boot.error = 0)
    (halone : (s.dieAt a).boot.alone = false) (hlate : (s.dieAt a).boot.released + 1500000000 ≤ (s.dieAt a).now) :
    s.bootTimeout a = ((s.put a ((s.dieAt a).bootFail 8)).onRunning
      (fun E => if E.num = a.die.val then E else E.markLost a.die.val)).settleWorks := by
  have hme : (s.put a (s.dieAt a)).die a.die = s.dieAt a := State.die_put _ _ _
  unfold State.bootTimeout
  dsimp only
  rw [State.atDie_id, hme, halone, State.put_onDie]
  refine if_neg ?_
  rintro (h | h | h | h)
  · omega
  · exact h herror
  · exact Bool.false_ne_true h
  · omega

theorem State.dieLost_marks {p : Die} (hp : p ≠ a.die) (hgone : (s.put a (s.dieAt a)).gone a.die.val p.val = true) :
    let marked := s.put a ((s.dieAt a).markLost p.val)
    let side (m : Nat) (t : State) : State := if ringPeer a.die.val m = p.val then t.dropModule a.die.val m else t
    s.dieLost a p.val = (side 1 (side 0 marked)).settleWorks := by
  intro marked side
  unfold State.dieLost
  dsimp only
  rw [State.atDie_id, State.put_onDie]
  exact if_neg (by rw [hgone, decide_eq_false (fun h => hp (Fin.ext h.symm))]; exact Bool.false_ne_true)

/-! What each of the stages makes of the die. -/
theorem State.atStage_zero (hstage : D.boot.stage = 0) (htest : s.pkg.test = false) :
    s.atStage a D digestBad anchorsBad = s.put a { D with boot := { D.boot with stage := 1 } } := by
  unfold State.atStage
  rw [hstage]
  exact if_neg (by rw [htest]; exact Bool.false_ne_true)

theorem State.atStage_one (hstage : D.boot.stage = 1) : s.atStage a D digestBad anchorsBad =
    if Config.fuseMapValid a.die then s.put a { D with boot := { D.boot with stage := 2 } }
    else s.put a ((D.event { cls := 1, code := 0x04, island := 2 }).bootFail 2) := by
  unfold State.atStage
  rw [hstage] <;> rfl

theorem State.atStage_noReference (hstage : D.boot.stage = 2) (hA : D.clk.refA = false) (hB : D.clk.refB = false) :
    s.atStage a D digestBad anchorsBad = s.put a (D.bootFail 7) := by
  unfold State.atStage
  rw [hstage]
  exact if_pos (by rw [hA, hB]; rfl)

theorem State.atStage_reference (hstage : D.boot.stage = 2) (hA : D.clk.refA = true) (hclosed : D.boot.closed = true)
    (hwanted : (s.put a D).unwanted a.die.val = false) : s.atStage a D digestBad anchorsBad =
      s.put a { D with boot := { D.boot with stage := 3 }, clk := { D.clk with selB := !D.clk.refA } } := by
  unfold State.atStage
  rw [hstage]
  exact (if_neg (by rw [hA]; exact Bool.false_ne_true)).trans (if_neg (by rw [hclosed, hwanted]; exact Bool.false_ne_true))

theorem State.atStage_stackFailed (hstage : D.boot.stage = 3) (hfail : D.mem.s0.failed = true ∨ D.mem.s1.failed = true) :
    s.atStage a D digestBad anchorsBad = s.put a (D.bootFail 3) := by
  unfold State.atStage
  rw [hstage]
  exact if_pos (Bool.or_eq_true_iff.mpr hfail)

theorem State.atStage_stacksReady (hstage : D.boot.stage = 3) (hf0 : D.mem.s0.failed = false) (hf1 : D.mem.s1.failed = false)
    (hr0 : D.mem.s0.ready = true) (hr1 : D.mem.s1.ready = true) : s.atStage a D digestBad anchorsBad =
      s.put a { D with
        boot := { D.boot with stage := 4 }, mem := { D.mem with spared := sparedRows s.pkg.flash D.num } } := by
  unfold State.atStage
  rw [hstage]
  exact (if_neg (by rw [hf0, hf1]; exact Bool.false_ne_true)).trans (if_pos (by rw [hr0, hr1]; rfl))

theorem State.atStage_image (hstage : D.boot.stage = 4) :
    s.atStage a D digestBad anchorsBad = (s.put a D).bootImage a.die digestBad := by
  unfold State.atStage
  rw [hstage] <;> rfl

theorem State.atStage_firmware (hstage : D.boot.stage = 5) :
    s.atStage a D digestBad anchorsBad = (s.put a D).bootFirmware a.die anchorsBad := by
  unfold State.atStage
  rw [hstage] <;> rfl

theorem State.atStage_config (hstage : D.boot.stage = 6) :
    s.atStage a D digestBad anchorsBad = (s.put a D).bootConfig a.die := by
  unfold State.atStage
  rw [hstage] <;> rfl

/-- Die 0 as another die's row finds it. -/
theorem State.q0_put (hd : a.die ≠ 0) : (s.put a D).dies.q0 = s.dies.q0 :=
  State.die_onDie_other s a.die 0 _ (Ne.symm hd)

end

/-- Settles O49: the exchange by the values, each stage by its branch, the image by what die 0 has. -/
theorem bootsAdvanceStageByStage : Obligations.BootsAdvanceStageByStage := by
  intro s a p digestBad anchorsBad hup D S
  have hme : S.die a.die = D := State.die_put _ _ _
  refine ⟨fun hp hheld hstage hopen => running_eq hup (State.strapReceive_keeps hp hheld hstage hopen),
    fun hopen halone hdue herror => ?_, fun hstage herror halone _ => ⟨fun hfits hothers => ?_, fun hfits => ?_⟩,
    fun herror => ?_, fun hp hgone => running_eq hup (State.dieLost_marks hp hgone)⟩
  · intro all silent
    exact ⟨fun h => ⟨_, onDie_eq hup rfl, DieState.strapClose_conflict hopen halone hdue herror h⟩,
      fun h => onDie_eq hup (DieState.strapClose_fits hopen halone hdue herror h)⟩
  · exact running_eq hup (State.strapLate_admitted hstage herror halone hfits hothers)
  · exact running_eq hup (State.strapLate_refused hstage herror halone hfits)
  · intro goes at_ fails
    have hrun : exec (.bootStageAdvance a digestBad anchorsBad) s = .next (s.atStage a D digestBad anchorsBad) :=
      running_eq hup (State.bootAdvance_atStage herror)
    have failed (code : Nat) (h : s.atStage a D digestBad anchorsBad = s.put a (D.bootFail code)) : goes (fails code) := by
      refine ⟨_, hrun, ?_⟩
      rw [h, State.die_put]
      exact DieState.bootFail_boot code
    refine ⟨fun hstage htest => ?_, fun hstage => ?_, fun hstage hA hB => failed 7 (State.atStage_noReference hstage hA hB),
      fun hstage hA hclosed hwanted => ?_, fun hstage hfail => failed 3 (State.atStage_stackFailed hstage hfail),
      fun hstage hf0 hf1 hr0 hr1 => ?_, fun hstage hd halone => ?_, fun hstage hd hheld hZ h5 hlost => ?_,
      fun hstage hd hheld halone => ?_, fun hstage => hrun.trans (congrArg Host.Outcome.next (State.atStage_firmware hstage)),
      fun hstage => hrun.trans (congrArg Host.Outcome.next (State.atStage_config hstage)),
      fun hstage halone hlate => running_eq hup (State.bootTimeout_late hstage herror halone hlate)⟩
    · refine ⟨_, hrun, ?_⟩
      rw [State.atStage_zero hstage htest, State.die_put]
    · refine ⟨_, hrun, ?_⟩
      rw [State.atStage_one hstage]
      refine ⟨fun hvalid => ?_, fun hvalid => ?_⟩
      · rw [if_pos hvalid, State.die_put]
      · rw [if_neg (by rw [hvalid]; exact Bool.false_ne_true), State.die_put]
        exact (DieState.bootFail_boot 2).trans (by rw [DieState.event_boot])
    · refine ⟨_, hrun, ?_⟩
      rw [State.atStage_reference hstage hA hclosed hwanted, State.die_put]
    · refine ⟨_, hrun, ?_⟩
      rw [State.atStage_stacksReady hstage hf0 hf1 hr0 hr1, State.die_put]
      exact ⟨rfl, rfl⟩
    · refine ⟨_, hrun, ?_⟩
      have himage := State.bootImage_flash (t := S) hd digestBad ((congrArg (·.boot.alone) hme).trans halone)
      rw [hme] at himage
      rw [State.atStage_image hstage]
      exact himage
    · have hq0 : S.dies.q0 = s.dies.q0 := State.q0_put hd
      rw [← hq0] at hheld hZ h5
      have hlost' : bit (S.die a.die).boot.lost 0 = false := (congrArg (fun E : DieState => bit E.boot.lost 0) hme).trans hlost
      refine ⟨_, hrun, ?_⟩
      rw [State.atStage_image hstage, ← hq0]
      refine ⟨fun hgood => ?_, fun hbad hfirst => ?_, fun hbad hsecond => ?_⟩
      · rw [hgood]
        exact State.bootImage_taken hd hheld hZ h5 hlost'
      · rw [hbad]
        refine (State.bootImage_again hd hheld hZ h5 hlost' ((congrArg (·.boot.badImage) hme).trans hfirst)).trans ?_
        rw [hme]
      · rw [hbad]
        refine (State.bootImage_badTwice hd hheld hZ h5 hlost' ((congrArg (·.boot.badImage) hme).trans hsecond)).trans ?_
        rw [hme]
    · refine failed 6 ((State.atStage_image hstage).trans ?_)
      have hq0 : S.dies.q0 = s.dies.q0 := State.q0_put hd
      exact (State.bootImage_orphaned (t := S) hd digestBad ((congrArg (·.boot.held) hq0).trans hheld)
        ((congrArg (·.boot.alone) hme).trans halone)).trans (State.put_onDie _ _ _ _)

end Sys2Proof.Machine
end
